-- ==== Sys2Proof/Word.lean ====
section
/-! DEFINITION. The word types of the module: bytes, register words, device time and vintage time
(00_scope.md R5 and Table 00.4), and the signed comparison of times that every window uses. -/

namespace Sys2Proof

/-- One byte. -/
abbrev Byte := BitVec 8

/-- One BAR0 register word, 32 bits (R5). -/
abbrev Word := BitVec 32

/-- Device time: 64 bits of nanoseconds (Table 00.4). -/
abbrev DT := BitVec 64

/-- Vintage time: bits [41:10] of a DT (Table 00.4). -/
abbrev VT := BitVec 32

end Sys2Proof
end

