-- ==== Sys2Proof/Machine/Table.lean ====
section
/-! DEFINITION. Sparse tables: the one shape in which the state holds memories, register files and every set of
numbered items. A table is a list of (key, value) pairs, keys strictly rising, no pair equal to what an unlisted key
reads as. -/

namespace Sys2Proof.Machine

/-- A sparse table from numbers to `α`. -/
abbrev Table (α : Type) := List (Nat × α)

/-- What key `k` holds, `d` where it is not listed. -/
def tget {α : Type} (d : α) : Table α → Nat → α
  | [], _ => d
  | (k', v) :: t, k => if k' = k then v else tget d t k

/-- Removes a key. -/
def tdel {α : Type} (t : Table α) (k : Nat) : Table α := t.filter (fun p => p.1 != k)

/-- Lists a new key at its place. -/
def tins {α : Type} : Table α → Nat → α → Table α
  | [], k, v => [(k, v)]
  | (k', v') :: t, k, v => if k < k' then (k, v) :: (k', v') :: t else (k', v') :: tins t k v

/-- Lists `k` with `v`, or removes it when `v` is what an unlisted key reads as. -/
def tput {α : Type} [DecidableEq α] (d : α) (t : Table α) (k : Nat) (v : α) : Table α :=
  if v = d then tdel t k else tins (tdel t k) k v

/-- Every listed key is above `k`, or there is no lower bound. -/
def tabove {α : Type} (k : Option Nat) : Table α → Bool
  | [] => true
  | (k', _) :: _ => match k with
    | none => true
    | some b => decide (b < k')

/-- The canonical form: keys strictly rising and no value equal to the default. -/
def twf {α : Type} [DecidableEq α] (d : α) : Table α → Bool
  | [] => true
  | (k, v) :: t => decide (v ≠ d) && tabove (some k) t && twf d t

/-- The value at a key of a table of options. -/
def tfind {α : Type} (t : Table α) (k : Nat) : Option α :=
  (t.find? (fun p => p.1 == k)).map (·.2)

/-- Sets a key whatever its value: a table with no default. -/
def tset {α : Type} : Table α → Nat → α → Table α
  | [], k, v => [(k, v)]
  | (k', v') :: t, k, v =>
    if k < k' then (k, v) :: (k', v') :: t
    else if k = k' then (k, v) :: t
    else (k', v') :: tset t k v

end Sys2Proof.Machine
end

