-- ==== Sys2Proof/Machine/State/Base.lean ====
section
/-! DEFINITION. Shared operand and state types: the two sides, who sends a register request, the answer to a read,
the time base (12_time.md R272 to R286) and the physical module (18_module_electrical.md). -/

namespace Sys2Proof.Machine

/-- The two isolated sides (01_architecture.md Table 01.1). -/
inductive Side where
  | host | field
  deriving DecidableEq, Repr

/-- The sources of a BAR0 access: the PCIe endpoint, which is user and non-secure (19_register_map.md R429), or a
context of a host control-core cluster. -/
inductive Source where
  | pcie
  | hcc (cluster : Fin 2)
  deriving DecidableEq, Repr

/-- Who makes a register access: its source and, for a control core, the context's privilege and security. -/
structure Requester where
  src    : Source
  priv   : Bool
  secure : Bool
  deriving DecidableEq, Repr

/-- The answer to the last access of the host side: data, or the completion status that the rules name. -/
inductive Resp where
  | none
  | data (v : Nat)
  | bytes (bs : List Byte)
  | unsupportedRequest
  | completerAbort
  | discarded
  | busError
  | errorResponse
  deriving DecidableEq, Repr

/-- What a gPTP port sends (12_time.md R280). -/
inductive GptpSend where
  | sync | announce | pdelayReq
  deriving DecidableEq, Repr

/-- A gPTP message as it leaves a port (R280): Sync in two steps, and answers to peer-delay requests in two steps.
Log entry 252 (PRESUMED). -/
inductive GptpOut where
  | sync
  | followUp (origin : DT)
  | announce (priority1 gm : Nat)
  | pdelayReq
  | pdelayResp (received : DT)
  | pdelayRespFollowUp (sent : DT)
  deriving DecidableEq, Repr

/-- What the gPTP protocol engine of a side keeps (R280): the Sync whose Follow_Up is awaited, by port the DT at which the
peer-delay request outstanding left, the mean link delay in ns, and by port and kind the DT of the last message of an
interval. -/
structure Gptp where
  syncAt : Option (Nat × DT)
  reqAt  : Table (Option DT)
  delay  : Table Int
  sentAt : Table (Option DT)
  deriving DecidableEq, Repr

def Gptp.reset : Gptp := ⟨none, [], [], []⟩

/-- One time base (R272, R273), its synchronised state (R285) and the state of its servo (R280, R281).
`acc` is A in units of 2^-28 ns. -/
structure TimeBase where
  raw       : BitVec 64
  incr      : BitVec 32
  ra        : BitVec 64
  acc       : Nat
  offset    : BitVec 64
  /-- An OFFSET written in this tick: it holds from the next one (R275). -/
  next      : Option (BitVec 64)
  /-- End of the CONFIRM window while SYNC_OK is 1. -/
  syncUntil : Option DT
  /-- The slave port, where the side has one. -/
  slave     : Option Nat
  /-- Absolute offsets of the last Sync messages, newest first, at most 8. -/
  offsets   : List Nat
  /-- First lock after reset has happened. -/
  locked    : Bool
  /-- Values of INCR that changes replaced, with the raw counts of these changes, newest first (R281). -/
  rates     : List (Nat × BitVec 64)
  gptp      : Gptp
  /-- Identity of the grandmaster last announced, 0 for none. -/
  gm        : Nat
  /-- gPTP frames discarded, by port (R280). -/
  discards  : Table Nat
  deriving DecidableEq, Repr

/-- A time base at the release of its side's reset (R272, R273). -/
def TimeBase.reset : TimeBase :=
  ⟨0, 0x28000000, 0, 0, 0, none, none, none, [], false, [], .reset, 0, []⟩

/-- A running tuple (03_structure_image.md R77). -/
structure Tuple where
  stepping   : Nat
  schema     : Nat
  bootRom    : Nat
  hostBuild  : Nat
  fieldBuild : Nat
  deriving DecidableEq, Repr

/-- One flash bank (R420): its boot record, the firmware image written to it, none where it is erased or was never written by
the module, whether that firmware verifies, the build it holds and, in a host bank, the tested-set list of that release and
whether the list verifies (R77). -/
structure FlashBank where
  image       : Option (List Byte)
  recordValid : Bool
  generation  : Nat
  verifies    : Bool
  build       : Nat
  tested      : List Tuple
  testedValid : Bool
  deriving DecidableEq, Repr

/-- The supply of a side at its pins (R412, R413). -/
inductive Supply where
  | inRange | outOfRange
  deriving DecidableEq, Repr

/-- What holds for one side as a physical part, across its resets (R412 to R421). -/
structure SidePhys where
  supply     : Supply
  /-- The reset pin is asserted. -/
  rstPin     : Bool
  /-- The side is held in reset by a thermal trip (R419). -/
  tripHeld   : Bool
  /-- A thermal trip has held the side since its last start. -/
  tripped    : Bool
  /-- No reset since the supply was applied. -/
  firstReset : Bool
  /-- Junction temperature, °C. -/
  temp       : Int
  bankA      : FlashBank
  bankB      : FlashBank
  deriving DecidableEq, Repr

end Sys2Proof.Machine
end

