-- ==== Sys2Proof/Machine/State/Store.lean ====
section
/-! DEFINITION. State of the central store (13_central_store.md): DRAM contents, poisoned blocks, held requests,
activation tables, the uncorrectable-error log, page ownership and the coding window. Channel roles, slots, rates
and counters are the CST registers themselves. -/

namespace Sys2Proof.Machine

/-- A request that a channel controller serves (R293): the Tartan master port it came from, its CA, and the bytes of
a write or the length of a read. -/
inductive DramOp where
  | read  (len : Nat)
  | write (data : List Byte)
  deriving DecidableEq, Repr

/-- A request at a channel controller. -/
structure DramReq where
  port   : Nat
  ca     : Nat
  op     : DramOp
  /-- The Tartan request that it serves, 0 for none. -/
  serial : Nat
  deriving DecidableEq, Repr

/-- What the stored bytes of the block show when read: nothing wrong, an error confined to one byte, or more. -/
inductive EccFact where
  | clean
  | correctable
  /-- In block `blk` of the access. -/
  | uncorrectable (blk : Nat) (syndrome : BitVec 16)
  deriving DecidableEq, Repr

/-- One entry of the uncorrectable-error log (R295). -/
structure UeEntry where
  ca       : Nat
  ch       : Nat
  kind     : Nat
  port     : Nat
  syndrome : Nat
  dt       : DT
  deriving DecidableEq, Repr

/-- What a run of central-store pages is reserved for (R140, R17). -/
inductive PageOwner where
  | surface (sh : Nat)
  /-- The slice ring of a head, by the width of its slices (06_composition.md R164). -/
  | ring (head width : Nat)
  | mimicSurface (m : Nat)
  | cellMap (m : Nat)
  | freshRing
  | moduleRing
  | replica
  | stitch (r : Nat)
  | stagedCopy
  | retained (imageId : Nat)
  deriving DecidableEq, Repr

/-- A run of allocator pages and its owner. -/
structure PageRun where
  first : Nat
  count : Nat
  owner : PageOwner
  /-- Reserved for the staged image, not yet active. -/
  staged : Bool
  deriving DecidableEq, Repr

/-- An open tile of the coding window (R310): the tile and the plain-view bytes written since it was opened, by
index within the tile. -/
structure OpenTile where
  tx      : Nat
  ty      : Nat
  written : Table (Option Byte)
  deriving DecidableEq, Repr

/-- The central store beside its registers. -/
structure Store where
  /-- DRAM contents by CA. An unlisted CA reads 0 (log entry 3). -/
  mem       : Table Byte
  /-- Poisoned 64-byte blocks, by CA ÷ 64 (R294). -/
  poison    : Table Bool
  /-- Decoded plain bytes of each tile coded through the window, by tile slot CA (R307). -/
  decoded   : Table (List Nat)
  /-- Requests held while a channel cannot serve, by channel, oldest first (R300, R302). -/
  heldReqs  : Table (List DramReq)
  /-- Activation counters by channel × 256 + bank: (row, count) in entry order, at most 32 (R297). -/
  actTables : Table (List (Nat × Nat))
  ueLog     : Table (Option UeEntry)
  ueCount   : Nat
  /-- Raw count of the last request of each channel, for its idle timer (R299). -/
  lastReq   : Table Nat
  /-- Self-refresh of each channel: 1 entering or asleep, 2 leaving it (R300). -/
  srPhase   : Table Nat
  /-- Raw count of the last retraining pause of each channel (R301). -/
  lastPause : Table Nat
  /-- Raw count at which the training burst of each channel ends (R301, R302). -/
  burstEnd  : Table Nat
  /-- Raw count of the last refresh of each bank, by channel × 256 + bank (R297). -/
  refreshed : Table Nat
  pages     : List PageRun
  /-- The channel being retired, and the bytes copied so far (R303). -/
  retiring  : Option Nat
  copied    : Nat
  openTiles : List OpenTile
  /-- DTs of the corrected errors of each channel within the last hour, newest first (R390). -/
  ceTimes   : Table (List DT)
  /-- Blocks in which patrol found an uncorrectable error, with its DT, by channel (R390). -/
  patrolUes : Table (List (Nat × DT))
  /-- RH_THRESHOLD in force (R298), 0 before an image. -/
  rhThreshold : Nat
  deriving DecidableEq, Repr

/-- The central store with nothing listed. -/
def Store.start : Store where
  mem := []
  poison := []
  decoded := []
  heldReqs := []
  actTables := []
  ueLog := []
  ueCount := 0
  lastReq := []
  srPhase := []
  lastPause := []
  burstEnd := []
  refreshed := []
  pages := []
  retiring := none
  copied := 0
  openTiles := []
  ceTimes := []
  patrolUes := []
  rhThreshold := 0

end Sys2Proof.Machine
end

