-- ==== Sys2Proof/Machine/State/Tartan.lean ====
section
/-! DEFINITION. State of the Tartan matrix and the MPU beside their registers (14_tartan_protection.md): requests
waiting at arbitration points, credits in flight, parked masters, urgent rounds, link buffers, region words held. -/

namespace Sys2Proof.Machine

/-- One hop of a request's route (R315, R323): the link, and whether the request continues along the ring in the
direction in which it already travels. -/
structure Hop where
  link     : Nat
  straight : Bool
  deriving DecidableEq, Repr

/-- A request at the matrix (R317). `route` is the part's fixed route for this port and target, at most three hops,
which the specification does not give. -/
structure TReq where
  port   : Fin 47
  core   : Fin 8
  id     : BitVec 8
  ta     : BitVec 38
  op     : DramOp
  priv   : Bool
  secure : Bool
  route  : List Hop
  deriving DecidableEq, Repr

/-- An arbitration point (R319): a hop link or a target port. -/
inductive ArbPoint where
  | link (n : Nat)
  | target (t : Fin 17)
  deriving DecidableEq, Repr

/-- A request waiting at a point: its serial number of arrival, the request and what is left of its route. -/
structure Waiting where
  serial : Nat
  req    : TReq
  left   : List Hop
  target : Nat
  qos    : Nat
  /-- Raw count of its arrival at the point. -/
  since  : BitVec 64
  deriving DecidableEq, Repr

/-- An arbitration point's own state (R319, R320, R323). -/
structure PointState where
  queue    : List Waiting
  rrPtr    : Nat
  parked   : Nat
  /-- (m, k): the request of serial k waits on port m in the urgent round. -/
  waitingOn : List (Nat × Nat)
  /-- Burst places taken in a link's input buffer, 0 to 4. -/
  buffer   : Nat
  /-- The cycle of 0.625 ns, counted from reset, in which the point arbitrates next: idle from then on (R320). -/
  nextArb  : Nat
  deriving DecidableEq, Repr

def PointState.idle : PointState := ⟨[], 0, 0, [], 0, 0⟩

/-- A request granted at its target port and not yet answered: it holds one credit (R318). -/
structure InFlight where
  serial : Nat
  req    : TReq
  target : Nat
  deriving DecidableEq, Repr

structure Tartan where
  points   : List (ArbPoint × PointState)
  inFlight : List InFlight
  serial   : Nat
  /-- Held words 0 and 1 of region entries, by entry × 2 + word: value + 1 (R331). -/
  heldWords : Table Nat
  /-- Serials of accesses checked before the last SYNC write that have not retired (R332). -/
  syncWait : List Nat
  /-- A read of MPU.SYNC waits (R332). -/
  syncRead : Bool
  /-- Control-core SRAM by address (Table 14.2). An unlisted byte reads 0 (log entry 3). -/
  sram     : Table Byte
  deriving DecidableEq, Repr

def Tartan.start : Tartan := ⟨[], [], 0, [], [], false, []⟩

end Sys2Proof.Machine
end

