-- ==== Sys2Proof/Machine/State/Cmd.lean ====
section
/-! DEFINITION. Operand types of the commands: what a command carries beside indexes and register words. What only
the part's inside or its surroundings can know (a measurement, a verification of firmware, the content of a standard
protocol's message) is part of the command. -/

namespace Sys2Proof.Machine

/-- A read of BAR0 (R5): the core of a cluster that reads, how many bytes, and their offset. -/
structure RegRead where
  core : Fin 8
  size : Nat
  off  : Nat
  deriving DecidableEq, Repr

/-- A port that speaks gPTP (12_time.md R280): of the host side, a head lane or a host network port, or a field port. -/
inductive GptpPort where
  | host (port : Fin 52)
  | field (port : Fin 8)
  deriving DecidableEq, Repr

/-- The calibration found for one lane (15_lanes.md R342). -/
structure LaneCal where
  lane   : Nat
  term   : Nat
  offset : Nat
  deriving DecidableEq, Repr

/-- A fault that self-test finds (18_module_electrical.md R423). -/
inductive UnitFault where
  | engine (e : Fin 9)
  | decoder (c : Fin 9)
  | sramRow (array row : Nat)
  | other
  deriving DecidableEq, Repr

/-- What the work of a start-up step finds (R422, R423, R426). -/
structure StepWork where
  ok          : Bool
  zref        : BitVec 8
  cal         : List LaneCal
  faults      : List UnitFault
  failedChannels : List (Fin 12)
  deriving DecidableEq, Repr

/-- What a firmware operation finds at its end (R421): the flash accepted the data, the image verifies, its build. -/
structure FwFindings where
  flashOk  : Bool
  verifies : Bool
  build    : BitVec 32
  tested   : List Tuple
  testedValid : Bool
  deriving DecidableEq, Repr

/-- A gPTP message that arrives (12_time.md R280), as the side's protocol engine understands it. Log entries 14 (DESIGN
CHOICE), 252 (PRESUMED). -/
inductive GptpMsg where
  /-- A Sync: in one step with the domain time at which it left the peer, correction included; in two steps without. -/
  | sync (domain : BitVec 8) (logInterval : Int) (origin : Option DT)
  /-- The Follow_Up of a two-step Sync, with that time. -/
  | followUp (domain : BitVec 8) (origin : DT)
  /-- An Announce: the grandmaster's identity, and whether the best master clock algorithm now makes the port
  slave. -/
  | announce (domain : BitVec 8) (gm : BitVec 64) (slave : Bool)
  /-- A Pdelay_Req of the instance-specific mechanism. -/
  | pdelayReq (domain : BitVec 8)
  /-- A Pdelay_Resp with its follow-up: the ns between the peer's receipt of the request and its response. -/
  | pdelayResp (domain : BitVec 8) (turnaround : Nat)
  /-- Anything outside the subset of R280. -/
  | other
  deriving DecidableEq, Repr

/-! ## Links (15_lanes.md) -/

/-- A request for one step of a transmitter's tap. -/
inductive TapStep where
  | inc | dec | hold
  deriving DecidableEq, Repr

/-- A TRAIN block (R345): one request per tap, or a preset; the peer's receiver is READY; and whether this module's own
receiver has met its eye target on the lane. -/
structure TrainBlock where
  pre    : TapStep
  post   : TapStep
  preset : Option (Fin 4)
  ready  : Bool
  eyeMet : Bool
  deriving DecidableEq, Repr

/-- A link cell's header and payload, padding left out (R352). -/
structure LinkCell where
  bytes : List Byte
  deriving DecidableEq, Repr

/-- A CREDIT block's count (R353). -/
structure CreditBlock where
  count : BitVec 16
  deriving DecidableEq, Repr

/-- A RECOVER or WIDTH_ACK block (R355). -/
structure RecoverBlock where
  mask     : BitVec 4
  lastGood : BitVec 32
  free     : Fin 257
  deriving DecidableEq, Repr

/-! ## Composition and heads (06_composition.md R163, 08_heads.md R200) -/

/-- Error responses to an engine's fetches for a layer in a slice: how many, and the rectangle of head pixels from
column `x0` and line `y0` to before `x1` and `y1` that they concern. -/
structure FetchError where
  layer : Nat
  count : Nat
  x0 : Nat
  y0 : Nat
  x1 : Nat
  y1 : Nat
  deriving DecidableEq, Repr

/-- What the memory answers to the fetches of a slice beyond what its poisoned blocks say: error responses, and failed
reads of cell map entries by layer and cell (07_mimic.md R181). -/
structure ComposeFacts where
  errors    : List FetchError
  mapErrors : List (Nat × Nat)
  deriving DecidableEq, Repr

/-- A frame of EtherType 0x88B6 on a head lane: its destination and its payload (Table 08.5). -/
structure TeReport where
  dest    : BitVec 48
  payload : List Byte
  deriving DecidableEq, Repr

/-! ## Video (05_ingest_decode.md) -/

/-- A frame on a host network port: its destination MAC address, its R-TAG, its IP version and fragmentation, its
destination address (IPv4 in the low 32 bits), its UDP destination port, none for other traffic, and the UDP payload. -/
structure NetFrame where
  mac        : BitVec 48
  rtag       : Option (BitVec 16)
  v6         : Bool
  fragmented : Bool
  addr       : BitVec 128
  udpPort    : Option (BitVec 16)
  payload    : List Byte
  deriving DecidableEq, Repr

/-- What the active parameter sets of a picture say (R121, R122, R131). Log entry 14 (DESIGN CHOICE). -/
structure ParamFacts where
  /-- The profile as CODEC numbers it; 0 for any other profile and for the refused extensions. -/
  profile : Nat
  highTier : Bool
  level   : Nat
  /-- chroma_format_idc. -/
  chroma  : Nat
  frameMbsOnly : Bool
  /-- AVC flexible macroblock order or arbitrary slice order. -/
  fmoAso  : Bool
  fieldSeq : Bool
  /-- Coded size in luma samples, the cropping from its left, top, right and bottom, and the side of a coding tree unit or
  macroblock. -/
  codedW  : Nat
  codedH  : Nat
  cropL   : Nat
  cropT   : Nat
  cropR   : Nat
  cropB   : Nat
  block   : Nat
  /-- sps_max_dec_pic_buffering_minus1 of the highest temporal layer, or max_dec_frame_buffering where the VUI has it. -/
  maxDec  : Option Nat
  deriving DecidableEq, Repr

/-- What the headers of a picture say when it starts: its kind, its parameter sets, none where one was never received or
failed its parsing, its picture order count, the reference pictures that it names by picture order count, the others that
stay in the DPB, and whether it is kept as a reference. Log entry 14 (DESIGN CHOICE). -/
structure PictureFacts where
  irap  : Bool
  cra   : Bool
  rasl  : Bool
  params : Option ParamFacts
  poc   : Int
  refs  : List Int
  keep  : List Int
  reference : Bool
  deriving DecidableEq, Repr

/-- One slice segment or slice of a picture as its data say: the coding tree units or macroblocks that it codes, by raster
address in coding order; the picture order count of entry 0 of its reference list 0 where its header was parsed; and, where
its data hold a syntax error of R126, how many of them decode before it. Log entry 14 (DESIGN CHOICE). -/
structure SliceFacts where
  dependent : Bool
  blocks    : List Nat
  ref0      : Option Int
  error     : Option Nat
  deriving DecidableEq, Repr

/-- What decoding a picture found: the content number of its samples as coded, its slices in order, the NAL units with a
forbidden_zero_bit of 1 or a type that the profile does not allow, and whether a reference read or a write was answered
with an error (R126, R133). Log entry 14 (DESIGN CHOICE). -/
structure DecodedFacts where
  content  : Nat
  slices   : List SliceFacts
  badNals  : Nat
  memError : Bool
  deriving DecidableEq, Repr

/-! ## Encoding (09_encode.md R213 to R218) -/

/-- One CTU row of a frame: the bits of its slice header, alignment and end of slice, and for each CTU the bits of its
tentative coding and of its minimum coding. -/
structure EncRow where
  overhead : Nat
  ctus     : List (Nat × Nat)
  deriving DecidableEq, Repr

/-- What coding a frame gives: its rows, and its NAL units. Log entry 14 (DESIGN CHOICE). -/
structure EncodeFacts where
  rows   : List EncRow
  nals   : List (List Byte)
  deriving DecidableEq, Repr

/-! ## Symbol engine (07_mimic.md R181) -/

/-- Error responses to the engine's accesses for a widget, beyond what poisoned blocks say: atlas reads, surface writes and
writes of its cells. -/
structure DrawFacts where
  atlas   : Nat
  surface : Nat
  map     : Nat
  deriving DecidableEq, Repr

/-- The initial drawing of a surface, with its error responses: to the writes of its background, by widget number, and to the
writes of its map. -/
structure FreshFacts where
  surface : Fin 64
  fill    : Nat
  widgets : List (Nat × DrawFacts)
  map     : Nat
  deriving DecidableEq, Repr

/-! ## Calico engines (17_data_engines.md R397 to R402) -/

/-- What a Calico job did: a memory error ended it; the bytes that it consumed, where the stop leaves them open; in
compression the bytes that it wrote; in decompression how many it wrote before a memory error. -/
structure JobFacts where
  memError : Bool
  taken    : Nat
  coded    : List Byte
  wrote    : Nat
  deriving DecidableEq, Repr

/-! ## Field protocols (10_field_points_commands.md) -/

/-- A Variant's content (Table 10.4): Boolean, an integer type, Float or Double by their bits, or anything else. -/
inductive UaValue where
  | bool (b : Bool)
  | int (v : Int)
  | float (bits : BitVec 32)
  | double (bits : BitVec 64)
  | other
  deriving DecidableEq, Repr

/-- One field of a DataSetMessage: its index, its value, its StatusCode and its SourceTimestamp in ticks of 100 ns. -/
structure UaField where
  item   : Nat
  value  : UaValue
  status : Option (BitVec 32)
  source : Option Int
  deriving DecidableEq, Repr

/-- The kinds of DataSetMessage. -/
inductive UaKind where
  | keyFrame | deltaFrame | keepAlive | event
  deriving DecidableEq, Repr

/-- One DataSetMessage. -/
structure UaDataSet where
  writer : Nat
  valid  : Bool
  kind   : UaKind
  seq    : Option (BitVec 16)
  raw    : Bool
  stamp  : Option Int
  fields : List UaField
  deriving DecidableEq, Repr

/-- A UADP NetworkMessage as received (R225, Table 10.4): its destination, its R-TAG, its version, its PublisherId
where it is one of the accepted types, whether a PayloadHeader stands in it and whether it uses any other refused
option. Log entry 14 (DESIGN CHOICE). -/
structure UadpMessage where
  destIp    : BitVec 32
  destPort  : BitVec 16
  rtag      : Option (BitVec 16)
  version   : Nat
  publisher : Option (BitVec 64)
  payloadHeader : Bool
  refused   : Bool
  msgs      : List UaDataSet
  deriving DecidableEq, Repr

/-- What a Modbus response says (R227): malformed, an exception, or the bits or registers that it carries.
Log entry 14 (DESIGN CHOICE). -/
inductive ModbusBody where
  | malformed
  | exception_
  | data (values : List Nat)
  deriving DecidableEq, Repr

/-- A Modbus response and the number of the request that it answers (R227). -/
structure ModbusResponse where
  request : Nat
  body    : ModbusBody
  deriving DecidableEq, Repr

/-- What leaves a port for a command (R244, R245): the oldest one queued, or, with `again`, the segment of a Modbus command
that TCP sends another time. -/
structure LaunchAt where
  port  : Fin 8
  again : Option (BitVec 32)
  deriving DecidableEq, Repr

/-! ## Twill pairs (16_twin_repair.md) -/

/-- A HEALTH message of the partner with its verdicts (Table 16.3): layer, tile and vintage. -/
structure TwinHealth where
  flags    : BitVec 8
  hostBuild : BitVec 32
  fieldBuild : BitVec 32
  invar    : BitVec 32
  activeId : BitVec 64
  faulted  : BitVec 32
  selftest : BitVec 32
  seq      : BitVec 32
  verdicts : List (Nat × Nat × VT)
  deriving DecidableEq, Repr

/-- RESYNC_INFO: the number of images, and by head the effective epoch, 0 where it is not enabled, and φ. -/
structure ResyncInfo where
  images : Nat
  heads  : List (DT × Int)
  deriving DecidableEq, Repr

/-- An IMAGE_DATA cell. -/
structure ImageData where
  index  : Nat
  offset : Nat
  total  : Nat
  data   : List Byte
  deriving DecidableEq, Repr

/-- What a comparison of a spare unit finds: the hashes are equal; on a mismatch, the two hashes of the spare unit agree. -/
structure CompareFacts where
  same   : Bool
  stable : Bool
  deriving DecidableEq, Repr

end Sys2Proof.Machine
end

