-- ==== Sys2Proof/Syntax.lean ====
section
/-! DEFINITION. The commands of the block: one constructor per row of the opcode table, with the row's operands. -/

namespace Sys2Proof

open Sys2Proof.Machine

/-- A command of the block. -/
inductive Instr where
  /-- HOST_POWER_ON: The host supply rises into its range (R412). -/
  | hostPowerOn
  /-- HOST_POWER_OFF: The host supply leaves its range (R413). -/
  | hostPowerOff
  /-- FIELD_POWER_ON: The field supply rises into its range (R412). -/
  | fieldPowerOn
  /-- FIELD_POWER_OFF: The field supply leaves its range (R413). -/
  | fieldPowerOff
  /-- HOST_RST_ASSERT: HOST_RST_N is asserted and held for `holdUs` µs so far (R417, R419). -/
  | hostRstAssert (holdUs : Nat)
  /-- HOST_RST_RELEASE: HOST_RST_N is released with these levels at the SLOT_ID and TWIN_ROLE_HOST pins (R415, R422). -/
  | hostRstRelease (slot : Fin 4) (role : Bool)
  /-- FIELD_RST_ASSERT: FIELD_RST_N is asserted and held for `holdUs` µs so far (R417). -/
  | fieldRstAssert (holdUs : Nat)
  /-- FIELD_RST_RELEASE: FIELD_RST_N is released with this level at TWIN_ROLE (R415, R426). -/
  | fieldRstRelease (role : Bool)
  /-- PCIE_PERST: PCIE_PERST_N is asserted or deasserted (R417, R424). -/
  | pciePerst (asserted : Bool)
  /-- STARTUP_STEP_DONE: The current host start-up step ends with these findings (R422, R423). -/
  | startupStepDone (work : StepWork)
  /-- STARTUP_STEP_TIMEOUT: The current host start-up step exceeds its bound (R422). -/
  | startupStepTimeout
  /-- FIELD_STARTUP_STEP_DONE: The current field start-up step ends with these findings (R426). -/
  | fieldStartupStepDone (work : StepWork)
  /-- THERMAL_TRIP: The die of a side reaches 125 °C (R419). -/
  | thermalTrip (side : Side)
  /-- TEMP_MEASURE: The die of a side measures its junction temperature, signed °C (R419). -/
  | tempMeasure (side : Side) (temp : BitVec 8)
  /-- SOFT_RESET_HOST: SYS.RESET with the key and SCOPE host (R418). -/
  | softResetHost (who : Requester)
  /-- SOFT_RESET_FIELD: SYS.RESET with the key and SCOPE field (R418). -/
  | softResetField (who : Requester)
  /-- SOFT_RESET_BOTH: SYS.RESET with the key and SCOPE both (R418). -/
  | softResetBoth (who : Requester)
  /-- FW_WRITE_HOST: SYS.FW_CTRL with OP WRITE_HOST and GO (R421). -/
  | fwWriteHost (who : Requester)
  /-- FW_WRITE_FIELD: SYS.FW_CTRL with OP WRITE_FIELD and GO (R421). -/
  | fwWriteField (who : Requester)
  /-- FW_SELECT_HOST: SYS.FW_CTRL with OP SELECT_HOST and GO (R421). -/
  | fwSelectHost (who : Requester)
  /-- FW_OP_COMPLETE: The firmware operation in progress ends (R421). -/
  | fwOpComplete (found : FwFindings)
  /-- REGISTER_WRITE: A write of `size` bytes at offset `off` of BAR0, or of BAR4, by a requester; `core` is the core of a cluster (R5, R7 to R10, R430, R433 to R435). -/
  | registerWrite (who : Requester) (core : Fin 8) (bar4 : Bool) (size : Nat) (off : Nat) (v : BitVec 64)
  /-- PAIR_LOW_READ: A read of BAR0, of the lower word of a pair or any other (R5, R6). -/
  | pairLowRead (who : Requester) (r : RegRead)
  /-- INVARIANT_TIMER: The 20 ms check of the conserved quantities with no head enabled (R24). -/
  | invariantTimer
  /-- INVAR_STATUS_WRITE: A write of SYS.INVAR_STATUS (R25). -/
  | invarStatusWrite (who : Requester) (v : Word)
  /-- ISOLATION_LOCK_LOST: An isolation channel loses lock (R14, R262). -/
  | isolationLockLost (ch : Fin 2)
  /-- ISOLATION_LOCK_GAINED: An isolation channel locks (R260). -/
  | isolationLockGained (ch : Fin 2)
  /-- VINTAGE_SWEEP: The periodic sweep of every stored tag (R30). -/
  | vintageSweep
  /-- SLICE_COMPOSE_START: Composition of a slice begins (R157). -/
  | sliceComposeStart (head : Fin 48) (slice : Fin 128) (facts : ComposeFacts)
  /-- SLICE_HANDOVER: The slice being composed for the head is written to its ring and handed over (R198). -/
  | sliceHandover (head : Fin 48)
  /-- SLICE_DEADLINE_MISS: A slice is not handed over in time (R199). -/
  | sliceDeadlineMiss (head : Fin 48) (frame : Nat) (slice : Fin 128)
  /-- PACKET_EMIT: The head's next packet begins to leave (R196). -/
  | packetEmit (head : Fin 48)
  /-- SLICE_EMIT_COMPLETE: The last packet of a slice leaves (R150). -/
  | sliceEmitComplete (head : Fin 48)
  /-- LAYER_BUDGET_WRITE: A write of FRS.LAYER_BUDGET (R53). -/
  | layerBudgetWrite (who : Requester) (layer : Fin 1024) (v : Word)
  /-- EVT_RD_WRITE: A write of FRS.EVT_RD (R54). -/
  | evtRdWrite (who : Requester) (v : Word)
  /-- LOG_RD_WRITE: A write of SYS.LOG_RD (R82). -/
  | logRdWrite (who : Requester) (v : Word)
  /-- IMAGE_VERIFY: SIM.CTRL with VERIFY (R70). -/
  | imageVerify (who : Requester)
  /-- FIELD_CONFIG_TIMEOUT: No acknowledge of the field content within 100 ms (R71 step 8). -/
  | fieldConfigTimeout
  /-- ADMISSION_COMPLETE: The Buckram run ends after `runMs` units of its run time (R102). -/
  | admissionComplete (runMs : Nat)
  /-- IMAGE_ARM: SIM.CTRL with ARM (R73). -/
  | imageArm (who : Requester)
  /-- IMAGE_CANCEL: SIM.CTRL with CANCEL (R73). -/
  | imageCancel (who : Requester)
  /-- OVERRIDE_ARM: A write of SIM.FORCE (R78). -/
  | overrideArm (who : Requester) (v : Word)
  /-- COMMIT_POINT: The commit point, E minus 20 ms (R73). -/
  | commitPoint
  /-- IMAGE_ACTIVATE: E: every non-head part takes effect (R73). -/
  | imageActivate
  /-- HEAD_SWITCH: A head's switch instant (R73). -/
  | headSwitch (head : Fin 48)
  /-- MIMIC_DRAW_COMPLETE: The initial drawing of a mimic surface completes with these errors (R182). -/
  | mimicDrawComplete (facts : FreshFacts)
  /-- PEER_IMAGE_MSG: An IMAGE_MSG of a member arrives (R363). -/
  | peerImageMsg (imageId : BitVec 64) (epoch : DT) (admits : Bool) (target : Fin 8)
  /-- BCK_QUERY: A write of BCK.QUERY (R106). -/
  | bckQuery (who : Requester) (v : Word)
  /-- INGEST_FRAME: A frame arrives on a host network port (R107). -/
  | ingestFrame (port : Fin 4) (frame : NetFrame)
  /-- MEMBERSHIP_QUERY: An IGMP or MLD query arrives on a port (R107, R222). -/
  | membershipQuery (side : Side) (port : Fin 8) (v6 : Bool)
  /-- JB_HOLD_EXPIRY: The JB_HOLD window of the stream's incomplete picture ends (R118). -/
  | jbHoldExpiry (stream : Fin 128)
  /-- FRER_RESET_TIMEOUT: The reset timeout of a sequence recovery: a stream's on the host side, a source's on the field side (R116). -/
  | frerResetTimeout (side : Side) (item : Fin 256)
  /-- SYNC_ATTEST: ING.SYNC_ATTEST with ATTEST (R113). -/
  | syncAttest (who : Requester) (stream : Fin 128)
  /-- SYNC_REVOKE: ING.SYNC_ATTEST with REVOKE (R113). -/
  | syncRevoke (who : Requester) (stream : Fin 128)
  /-- SYNC_HOLD_EXPIRY: A sync evidence window of the stream ends (R113). -/
  | syncHoldExpiry (stream : Fin 128)
  /-- TS_OFFSET_WRITE: A write of ING.TS_OFFSET_HI (R134). -/
  | tsOffsetWrite (who : Requester) (v : Word)
  /-- DECODE_START: At a picture boundary a core starts its oldest queued picture (R124). -/
  | decodeStart (core : Fin 9) (facts : PictureFacts)
  /-- PICTURE_COMPLETE: The picture of a core completes (R125). -/
  | pictureComplete (core : Fin 9) (facts : DecodedFacts)
  /-- DECODE_TIMEOUT: A core does not complete a picture within 100 ms (R133). -/
  | decodeTimeout (core : Fin 9)
  /-- CORE_SELFTEST_FAULT: The self-check of a decoder or encoder core reports a fault (R133, R220). -/
  | coreSelftestFault (encoder : Bool) (core : Fin 9)
  /-- WT_PROBE: A write of DEC.WT_PROBE (R134). -/
  | wtProbe (who : Requester) (v : Word)
  /-- COMMIT: HDS.COMMIT with GO (R190). -/
  | commit (who : Requester) (head : Fin 48)
  /-- COMMIT_TARGETED: HDS.COMMIT with GO and TARGETED (R190). -/
  | commitTargeted (who : Requester) (head : Fin 48) (target : BitVec 8)
  /-- LATCH: The next commit latch of a head (R190). -/
  | latch (head : Fin 48)
  /-- FRAME_START: The next frame of a head starts (R186). -/
  | frameStart (head : Fin 48)
  /-- TE_REPORT: A tearing-effect report arrives (R200). -/
  | teReport (head : Fin 48) (report : TeReport)
  /-- SURFACE_RELEASE: CMP.SURF_CMD with RELEASE (R152). -/
  | surfaceRelease (who : Requester) (sh : Fin 4096) (doorbell : Fin 64)
  /-- SURFACE_RELEASE_RETAIN: CMP.SURF_CMD with RELEASE_RETAIN (R152). -/
  | surfaceReleaseRetain (who : Requester) (sh : Fin 4096) (doorbell : Fin 64)
  /-- SURF_TAG_WRITE: A write of CMP.SURF_TAG (R141). -/
  | surfTagWrite (who : Requester) (v : Word)
  /-- SURF_PROBE: A write of CMP.SURF_PROBE (R167). -/
  | surfProbe (who : Requester) (v : Word)
  /-- REL_DONE_READ: A read of CMP.REL_DONE (R153). -/
  | relDoneRead (who : Requester)
  /-- BAR2_REQUEST: A PCIe BAR2 request (R429). -/
  | bar2Request (off : BitVec 32) (op : DramOp)
  /-- MIMIC_BATCH: The symbol engine takes the next queued replica update (R177). -/
  | mimicBatch
  /-- WIDGET_DRAWN: The writes of the widget in process are acknowledged (R177). -/
  | widgetDrawn (facts : DrawFacts)
  /-- WIDGET_PROBE: A write of MIM.WIDGET_PROBE (R184). -/
  | widgetProbe (who : Requester) (v : Word)
  /-- CELL_PROBE: A write of MIM.CELL_PROBE (R184). -/
  | cellProbe (who : Requester) (v : Word)
  /-- ENC_SLICE_READ: An encode context reads a slice of its head's ring (R210). -/
  | encSliceRead (ctx : Fin 16) (slice : Fin 128)
  /-- ENCODE_FRAME_START: An encoder core starts the oldest input-complete frame (R211). -/
  | encodeFrameStart (core : Fin 2)
  /-- ENCODE_FRAME_DONE: A frame is coded within its ceiling and sent or written (R214). -/
  | encodeFrameDone (core : Fin 2) (facts : EncodeFacts)
  /-- RC_SUBMIT: ENC.RC_CTRL with GO (R216). -/
  | rcSubmit (who : Requester) (ctx : Fin 16)
  /-- RC_SUBMIT_IDR: ENC.RC_CTRL with GO and FORCE_IDR (R216). -/
  | rcSubmitIdr (who : Requester) (ctx : Fin 16)
  /-- UADP_MESSAGE: A UADP NetworkMessage arrives on a field port (R225). -/
  | uadpMessage (port : Fin 8) (msg : UadpMessage)
  /-- ARP_REQUEST: An ARP request arrives on a field port (R222). -/
  | arpRequest (port : Fin 8) (target : BitVec 32) (sender : BitVec 32) (senderMac : BitVec 48)
  /-- MODBUS_POLL_DUE: A Modbus poll entry falls due (R227). -/
  | modbusPollDue (poll : Fin 1024)
  /-- MODBUS_RESPONSE: A response to a Modbus request arrives (R227). -/
  | modbusResponse (source : Fin 256) (resp : ModbusResponse)
  /-- MODBUS_TIMEOUT: A Modbus transaction reaches TIMEOUT_MS (R227). -/
  | modbusTimeout (poll : Fin 1024)
  /-- MODBUS_RECONNECT: The retry of a TCP connection, and whether it succeeds (R227). -/
  | modbusReconnect (source : Fin 256) (connected : Bool)
  /-- SOURCE_SILENCE: A source is silent for SILENCE_MS (R229). -/
  | sourceSilence (source : Fin 256)
  /-- POINT_SWEEP: The point image sweep (R234). -/
  | pointSweep
  /-- BATCH_CLOSE: A POINT_BATCH closes at a whole millisecond (R235). -/
  | batchClose
  /-- POINT_BATCH_RX: The oldest POINT_BATCH received is written to the replica (R236). -/
  | pointBatchRx
  /-- CMD_REQUEST: The oldest command request on HM0 is taken by host Uliska (R238). -/
  | cmdRequest
  /-- CMD_NO_ACK: No CMD_ACK for a request by its limit (R238). -/
  | cmdNoAck (req : BitVec 32)
  /-- CMD_ACK_RX: The oldest CMD_ACK received is taken by host Uliska (R246). -/
  | cmdAckRx
  /-- CMD_REQ_RX: The oldest CMD_REQ received is validated by field Uliska (R241). -/
  | cmdReqRx
  /-- GUARD_RUN_EXPIRY: The point of a term reaches MA (R242). -/
  | guardRunExpiry (target : Fin 16384) (term : Fin 8)
  /-- COMMAND_LAUNCH: The oldest command queued on a port begins to leave, or TCP sends a segment again (R244, R245). -/
  | commandLaunch (at_ : LaunchAt)
  /-- COMMAND_DEADLINE: A queued command reaches D (R244). -/
  | commandDeadline (port : Fin 8) (req : BitVec 32)
  /-- MBX_PUSH: MBX.PUSH of a channel or mailbox (R252). -/
  | mbxPush (who : Requester) (ch : Fin 80)
  /-- MBX_POP: MBX.POP of a channel or mailbox (R253). -/
  | mbxPop (who : Requester) (ch : Fin 80)
  /-- MBX_ACK: A write of MBX.ACK (R256). -/
  | mbxAck (who : Requester) (ch : Fin 80) (v : Word)
  /-- ACKQ_READ: A read of MBX.ACKQ (R256). -/
  | ackqRead (who : Requester) (ch : Fin 80)
  /-- CELL_ARRIVAL: The oldest cell in flight on a channel arrives (R253, R255). -/
  | cellArrival (ch : Fin 80) (damaged : Bool)
  /-- LINK_CELL_SEND: A side sends a link cell (R253). -/
  | linkCellSend (side : Side)
  /-- LINK_CELL_ARRIVAL: The oldest link cell arrives at a side (R253). -/
  | linkCellArrival (side : Side)
  /-- DOORBELL_RING: A write of MBX.DB_RING_LO or _HI, or a ring by field Uliska (R258). -/
  | doorbellRing (side : Side) (who : Requester) (hi : Bool) (v : Word)
  /-- INTERFACE_HELLO_RX: Host Uliska receives the field INTERFACE_HELLO and replies (R260). -/
  | interfaceHelloRx
  /-- HELLO_REPLY_RX: The field side receives the reply (R260). -/
  | helloReplyRx
  /-- HEALTH_TIMEOUT: A side receives no HEALTH for 50 ms (R262). -/
  | healthTimeout (side : Side)
  /-- HEALTH_SEND: A side sends a HEALTH message (R266). -/
  | healthSend (side : Side)
  /-- HEALTH_RX: A crossing HEALTH message arrives at a side (R266). -/
  | healthRx (side : Side)
  /-- TIME_XFER_SEND: Host Uliska sends a TIME_XFER request (R263). -/
  | timeXferSend
  /-- TIME_XFER_REQUEST_RX: Field Uliska receives a TIME_XFER request and replies (R263). -/
  | timeXferRequestRx
  /-- TIME_XFER_REPLY_RX: The host receives a TIME_XFER reply (R264). -/
  | timeXferReplyRx
  /-- MAP_EXPIRY: The newest exchange becomes older than 10 ms (R264). -/
  | mapExpiry
  /-- FIELD_CONFIG_BEGIN: Field Uliska takes a FIELD_CONFIG BEGIN (R267). -/
  | fieldConfigBegin
  /-- FIELD_CONFIG_DATA: Field Uliska takes a FIELD_CONFIG DATA cell (R267). -/
  | fieldConfigData
  /-- FIELD_CONFIG_END: Field Uliska takes a FIELD_CONFIG END (R267). -/
  | fieldConfigEnd
  /-- FIELD_CONFIG_ARM: Field Uliska takes a FIELD_CONFIG ARM (R267). -/
  | fieldConfigArm
  /-- FIELD_CONFIG_CANCEL: Field Uliska takes a FIELD_CONFIG CANCEL (R267). -/
  | fieldConfigCancel
  /-- FIELD_CONFIG_ACK: Host Uliska takes field Uliska's acknowledge (R267). -/
  | fieldConfigAck
  /-- FIELD_ACTIVATE: E on the field time base (R267). -/
  | fieldActivate
  /-- FW_STAGE_BEGIN: Field Uliska takes a FW_STAGE BEGIN (R268). -/
  | fwStageBegin
  /-- FW_STAGE_DATA: Field Uliska takes a FW_STAGE DATA cell (R268). -/
  | fwStageData
  /-- FW_STAGE_END: Field Uliska takes a FW_STAGE END and verifies the bank (R268). -/
  | fwStageEnd (verifies : Bool) (build : BitVec 32)
  /-- FIELD_PEEK: Field Uliska answers a FIELD_PEEK request (R269). -/
  | fieldPeek
  /-- LOG_EXPORT: Field Uliska answers a LOG_EXPORT request (R269). -/
  | logExport
  /-- INCR_WRITE: A write of TIM.INCR, or of the field time base's increment by field Uliska (R274). -/
  | incrWrite (side : Side) (who : Requester) (v : Word)
  /-- OFFSET_STEP: A write `v` of TIM.OFFSET_HI, or of the field time base's offset, whose low word field Uliska writes as `lo` (R275). -/
  | offsetStep (side : Side) (who : Requester) (v : Word) (lo : Word)
  /-- GPTP_MESSAGE: A gPTP message arrives on a port (R280). -/
  | gptpMessage (side : Side) (port : Fin 52) (msg : GptpMsg)
  /-- GPTP_SYNC_SEND: A port sends the gPTP message that its interval brings (R280). -/
  | gptpSyncSend (port : GptpPort) (kind : GptpSend)
  /-- SYNC_CONFIRM: TIM.SYNC with CONFIRM, and with LOSE or not (R285). -/
  | syncConfirm (side : Side) (who : Requester) (lose : Bool)
  /-- SYNC_LOSE: TIM.SYNC with LOSE (R285). -/
  | syncLose (side : Side) (who : Requester)
  /-- SYNC_WINDOW_EXPIRY: The confirm window ends (R285). -/
  | syncWindowExpiry (side : Side)
  /-- DRAM_ACCESS: A channel controller serves its oldest request; `row` is the row that it activates (R293, R297). -/
  | dramAccess (ch : Fin 12) (ecc : EccFact) (bank : Fin 256) (row : Option Nat)
  /-- PATROL_READ: The controller patrols a block of an idle channel (R296). -/
  | patrolRead (ch : Fin 12) (block : Nat) (ecc : EccFact)
  /-- REFRESH: A channel refreshes a bank (R297). -/
  | refresh (ch : Fin 12) (bank : Fin 256)
  /-- REFRESH_WINDOW: A 32 ms refresh window begins (R297). -/
  | refreshWindow
  /-- SELF_REFRESH_ENTRY: The idle timer of a spare channel reaches SR_IDLE_US (R299). -/
  | selfRefreshEntry (ch : Fin 12)
  /-- SELF_REFRESH_EXIT: Self-refresh exit completes (R300). -/
  | selfRefreshExit (ch : Fin 12)
  /-- RETRAIN_PAUSE: An awake channel pauses to gather a training burst of `ns` ns (R301). -/
  | retrainPause (ch : Fin 12) (ns : Fin 401)
  /-- CHANNEL_RATE_WRITE: A write of CST.CH_CTRL (R302). -/
  | channelRateWrite (who : Requester) (ch : Fin 12) (v : Word)
  /-- CHANNEL_TRAINED: A channel completes training at its new rate (R302). -/
  | channelTrained (ch : Fin 12)
  /-- CHANNEL_RETIRE: CST.RETIRE with GO (R303). -/
  | channelRetire (who : Requester) (ch : Fin 16)
  /-- RETIRE_WAKE_DONE: The spare is ready at full rate (R303). -/
  | retireWakeDone
  /-- RETIRE_COPY_BLOCK: The copy engine copies the next block (R304). -/
  | retireCopyBlock (ecc : EccFact)
  /-- RETIRE_COPY_DONE: The last block is copied (R303). -/
  | retireCopyDone
  /-- RETIRE_DRAIN_DONE: The retiring channel's queue drains (R303). -/
  | retireDrainDone
  /-- UE_SELECT: A write of CST.UE_SEL (R295). -/
  | ueSelect (who : Requester) (v : Word)
  /-- CWIN_SELECT: A write of CST.CWIN_CTRL without FLUSH (R310). -/
  | cwinSelect (who : Requester) (v : Word)
  /-- CWIN_FLUSH: A write of CST.CWIN_CTRL with FLUSH (R310). -/
  | cwinFlush (who : Requester) (v : Word)
  /-- CWIN_READ: A read through the coding window (R310). -/
  | cwinRead (hcc : Bool) (off : BitVec 29) (len : Nat)
  /-- CWIN_WRITE: A write through the coding window (R310). -/
  | cwinWrite (hcc : Bool) (off : BitVec 29) (data : List Byte)
  /-- TARTAN_REQUEST: A master presents a request (R317). -/
  | tartanRequest (req : TReq)
  /-- TARTAN_GRANT: An arbitration point arbitrates (R319). -/
  | tartanGrant (point : ArbPoint)
  /-- TARTAN_RESPONSE: A master accepts the last response beat of a request (R318). -/
  | tartanResponse (port : Fin 47) (serial : Nat)
  /-- REMAP: A write of TRT.CTRL.REMAP (R324). -/
  | remap (who : Requester)
  /-- LOCK_READ: A read of TRT.LK (R325). -/
  | lockRead (who : Requester) (core : Fin 8) (n : Fin 256)
  /-- LOCK_RELEASE: A write of TRT.LK (R326). -/
  | lockRelease (who : Requester) (core : Fin 8) (n : Fin 256) (v : Word)
  /-- LOCK_FORCE: TRT.LOCK_FORCE with GO (R326). -/
  | lockForce (who : Requester) (n : Fin 256)
  /-- MPU_REGION_WRITE: A write of a word of a region entry (R331). -/
  | mpuRegionWrite (who : Requester) (port : Fin 47) (region : Fin 32) (word : Fin 4) (v : Word)
  /-- MPU_SYNC_WRITE: A write of MPU.SYNC (R332). -/
  | mpuSyncWrite (who : Requester) (v : Word)
  /-- MPU_SYNC_READ: A read of MPU.SYNC (R332). -/
  | mpuSyncRead (who : Requester)
  /-- LANE_LOS: A lane's received amplitude falls below threshold; lanes 96 to 105 are FL0 to FL9 (R341). -/
  | laneLos (lane : Fin 106)
  /-- LANE_SIGNAL_RETURN: A lane's amplitude returns (R341). -/
  | laneSignalReturn (lane : Fin 106)
  /-- LANE_LOL: A lane loses lock (R341). -/
  | laneLol (lane : Fin 106)
  /-- LANE_TX_FAULT: A transmitter's driver current stays outside its window (R341). -/
  | laneTxFault (lane : Fin 106)
  /-- EYE_MEASURE: The eye of an UP lane is measured (R343). -/
  | eyeMeasure (lane : Fin 106) (w : BitVec 12) (h : BitVec 12)
  /-- TRAIN_BLOCK_RX: A TRAIN block arrives (R345). -/
  | trainBlockRx (lane : Fin 96) (blk : TrainBlock)
  /-- TRAIN_TIMEOUT: A lane is not READY within 5 ms (R345). -/
  | trainTimeout (lane : Fin 96)
  /-- SPARE_SWAP: LNE.SPARE_CTRL with SWAP (R347). -/
  | spareSwap (who : Requester) (spare : Fin 16)
  /-- SPARE_AUTO_TRIGGER: A fault of its lane triggers an AUTO spare (R347). -/
  | spareAutoTrigger (spare : Fin 16)
  /-- FIELD_LANE_SWAP: Field Uliska swaps FL8 or FL9 for a port (R350). -/
  | fieldLaneSwap (spare : Fin 2) (port : Fin 8)
  /-- MARKER_RX: A MARKER block falls due on a link lane, and is right or is missing or wrong (R351). -/
  | markerRx (lane : Fin 96) (number : Option (Fin 4))
  /-- LINK_CELL_RX: A stitch or twin link cell arrives whole (R352). -/
  | linkCellRx (link : Fin 6) (cell : LinkCell)
  /-- CREDIT_BLOCK_RX: A CREDIT block arrives (R353). -/
  | creditBlockRx (link : Fin 6) (blk : CreditBlock)
  /-- RECOVER_RX: A RECOVER block arrives (R355). -/
  | recoverRx (link : Fin 6) (blk : RecoverBlock)
  /-- WIDTH_ACK_RX: A WIDTH_ACK arrives (R355). -/
  | widthAckRx (link : Fin 6) (blk : RecoverBlock)
  /-- STITCH_SEND: A send entry reads its next slice and sends its tiles (R359). -/
  | stitchSend (entry : Fin 64)
  /-- LINK_RETRAIN: STC.CTRL with RETRAIN (R354). -/
  | linkRetrain (who : Requester) (link : Fin 6)
  /-- LINK_UP: A link finishes its bring-up (R354). -/
  | linkUp (link : Fin 6)
  /-- PEER_HEALTH_SEND: A PEER_HEALTH cell is sent on each UP stitch link (R363). -/
  | peerHealthSend
  /-- INTLK_IN_RISE: INTLK_IN asserts (R369). -/
  | intlkInRise
  /-- INTLK_IN_FALL: INTLK_IN deasserts (R372). -/
  | intlkInFall
  /-- CONTENTION_END: The contention window ends (R369). -/
  | contentionEnd
  /-- TAKEOVER_ASSERT: A standby asserts INTLK_OUT when its condition is met (R372). -/
  | takeoverAssert
  /-- HEARTBEAT_TIMEOUT: Doorbell 2 is not rung for 250 µs (R372). -/
  | heartbeatTimeout
  /-- ELIGIBILITY_LOSS: A doorbell or watchdog window lapses (R371). -/
  | eligibilityLoss
  /-- INTLK_WATCHDOG_WRITE: Field Uliska writes the interlock watchdog (R371). -/
  | intlkWatchdogWrite
  /-- ELIGIBLE_RING: The hardware rings doorbell 4 (R370). -/
  | eligibleRing
  /-- TWIN_KICK: TWN.KICK with GO (R376). -/
  | twinKick (who : Requester)
  /-- TWIN_RELEASE: TWN.CTRL with RELEASE (R391). -/
  | twinRelease (who : Requester)
  /-- RELEASE_DEASSERT: The releasing module deasserts INTLK_OUT (R374). -/
  | releaseDeassert
  /-- TWIN_HEALTH_SEND: Host Uliska sends a twin HEALTH and its VERDICTS (R376). -/
  | twinHealthSend
  /-- HEARTBEAT_RX: A partner HEARTBEAT arrives (R376). -/
  | heartbeatRx (link : Fin 2) (flags : BitVec 8)
  /-- TWIN_HEALTH_RX: A partner HEALTH with its verdicts arrives (R50, R376). -/
  | twinHealthRx (msg : TwinHealth)
  /-- RESYNC_START: A module with no active image sends RESYNC_REQ (R381). -/
  | resyncStart
  /-- RESYNC_REQ_RX: A RESYNC_REQ arrives (R381). -/
  | resyncReqRx
  /-- RESYNC_INFO_RX: A RESYNC_INFO arrives (R383). -/
  | resyncInfoRx (info : ResyncInfo)
  /-- IMAGE_DATA_RX: An IMAGE_DATA cell arrives (R382). -/
  | imageDataRx (cell : ImageData)
  /-- DRY_LAUNCH: A module with a closed gate builds and checks a command frame (R379). -/
  | dryLaunch (ok : Bool)
  /-- CE_SAMPLE: CE8 composes a sampled slice (R384). -/
  | ceSample
  /-- CE_COMPARE: CE8's hash is compared (R385). -/
  | ceCompare (facts : CompareFacts)
  /-- DC_SAMPLE: DC8 decodes a sampled picture (R387). -/
  | dcSample
  /-- DC_COMPARE: DC8's hash is compared (R387). -/
  | dcCompare (facts : CompareFacts)
  /-- SRAM_ROW_REPAIR: An SRAM row is copied into a spare row (R389). -/
  | sramRowRepair (side : Side) (array : Nat) (row : Nat)
  /-- DFL_START: DFL.CMD with START and END `fin` (R397). -/
  | dflStart (who : Requester) (engine : Fin 2) (fin : Fin 4)
  /-- DFL_CONTINUE: DFL.CMD with CONTINUE and END `fin` (R402). -/
  | dflContinue (who : Requester) (engine : Fin 2) (fin : Fin 4)
  /-- DFL_ABORT: DFL.CMD with ABORT (R403). -/
  | dflAbort (who : Requester) (engine : Fin 2)
  /-- DFL_JOB_STOP: A Calico job stops (R402). -/
  | dflJobStop (engine : Fin 2) (facts : JobFacts)
  /-- PACE_WRITE: A write of DFL.PACE[0], DFL.PACE[1] or CRC.PACE (R396). -/
  | paceWrite (who : Requester) (unit : Fin 3) (v : Word)
  /-- CRC_START: CRC.CTRL with START (R404). -/
  | crcStart (who : Requester) (unit : Fin 8) (v : Word)
  /-- CRC_ABORT: CRC.CTRL with ABORT (R405). -/
  | crcAbort (who : Requester) (unit : Fin 8)
  /-- CRC_JOB_DONE: A CRC job completes (R405). -/
  | crcJobDone (unit : Fin 8) (memError : Bool)
  /-- RC_COUNTER_READ: A read of a register holding an RC field; `events` names, by their lowest bits, the counters that a hardware event of the same cycle increments, once for each event (R10, R11). -/
  | rcCounterRead (who : Requester) (r : RegRead) (events : List Nat)
  /-- ENGINE_SELF_CHECK_FAULT: The self-check of a composition engine reports a fault (R385). -/
  | engineSelfCheckFault (engine : Fin 9)
  /-- MODBUS_CONNECTION_FAILURE: The TCP connection to a Modbus source fails (R227). -/
  | modbusConnectionFailure (source : Fin 256)
  /-- GPTP_RECEIPT_TIMEOUT: A slave port's receipt timeout expires (R280). -/
  | gptpReceiptTimeout (side : Side)
  /-- LANE_DORMANT_EXIT: A lane completes its exit from DORMANT (R340). -/
  | laneDormantExit (lane : Fin 96)
  deriving DecidableEq, Repr

end Sys2Proof
end

