-- ==== Sys2Proof/Decode.lean ====
section
/-! DEFINITION. Commands spelled by bits. The opcode table gives no row any bits: the commands are events at the module's
pins, links, registers and engines, so no word spells one (log entry 51). -/

namespace Sys2Proof

/-- The command that an instruction word of the table spells: none, since no row of the table has bits.
Log entry 51 (DEDUCED). -/
def decodeTableWord (_nbits _w : Nat) : Option Instr := none

end Sys2Proof
end

