-- ==== Sys2Proof/Machine/Bits.lean ====
section
/-! DEFINITION. Bit fields, byte strings and time differences: the small helpers that the rest of the machine uses.
Image fields are little-endian and network fields big-endian (03_structure_image.md, Container). -/

namespace Sys2Proof.Machine

/-- The `w` bits of `v` that start at bit `lo`. -/
def bits (v lo w : Nat) : Nat := v / 2 ^ lo % 2 ^ w

/-- Bit `i` of `v`. -/
def bit (v i : Nat) : Bool := v / 2 ^ i % 2 == 1

/-- A Boolean as a bit. -/
def b2n (b : Bool) : Nat := if b then 1 else 0

/-- Sets bit `i` of `v`. -/
def setBit (v i : Nat) : Nat := if bit v i then v else v + 2 ^ i

/-- Clears bit `i` of `v`. -/
def clrBit (v i : Nat) : Nat := if bit v i then v - 2 ^ i else v

/-- The bits of `v` that are 0 in `m`. -/
def clrMask (v m : Nat) : Nat := v - (v &&& m)

/-- Number of ones among the low `n` bits. -/
def popcount (v : Nat) : Nat → Nat
  | 0 => 0
  | n + 1 => popcount v n + b2n (bit v n)

/-- A little-endian number of a byte string. -/
def leNat : List Byte → Nat
  | [] => 0
  | b :: t => b.toNat + 256 * leNat t

/-- A big-endian number of a byte string. -/
def beNat (bs : List Byte) : Nat := bs.foldl (fun a b => a * 256 + b.toNat) 0

/-- The `n` low bytes of `v`, least significant first. -/
def leBytes (v : Nat) : Nat → List Byte
  | 0 => []
  | n + 1 => BitVec.ofNat 8 v :: leBytes (v / 256) n

/-- The `n` low bytes of `v`, most significant first. -/
def beBytes (v n : Nat) : List Byte := (leBytes v n).reverse

/-- `n` bytes of `bs` from offset `o`. -/
def slice (bs : List Byte) (o n : Nat) : List Byte := (bs.drop o).take n

/-- A little-endian field of a byte string. -/
def fieldAt (bs : List Byte) (o n : Nat) : Nat := leNat (slice bs o n)

/-- A big-endian field of a byte string. -/
def fieldBE (bs : List Byte) (o n : Nat) : Nat := beNat (slice bs o n)

/-- Every byte is 0. -/
def allZero (bs : List Byte) : Bool := bs.all (· == 0)

/-- The low `w` bits of `v` read as a two's complement number. -/
def signed (v w : Nat) : Int :=
  if v % 2 ^ w < 2 ^ (w - 1) then Int.ofNat (v % 2 ^ w) else Int.ofNat (v % 2 ^ w) - Int.ofNat (2 ^ w)

/-- A two's complement code of `w` bits. -/
def unsigned (v : Int) (w : Nat) : Nat := (v % (2 ^ w : Nat)).toNat

/-- The signed difference `a − b` of two DTs (12_time.md R284). -/
def dtDiff (a b : DT) : Int := (a - b).toInt

/-- `a` is at or after `b`, by the signed difference. -/
def dtReached (a b : DT) : Bool := decide (0 ≤ dtDiff a b)

/-- The VT of a DT: bits [41:10] (Table 00.4). -/
def vtOf (t : DT) : VT := BitVec.ofNat 32 (t.toNat / 1024)

/-- The signed difference `a − b` of two VTs. -/
def vtDiff (a b : VT) : Int := (a - b).toInt

/-- Adds, stopping at the largest value of `w` bits. -/
def satAdd (v n w : Nat) : Nat := min (v + n) (2 ^ w - 1)

/-- Ceiling division. -/
def cdiv (a b : Nat) : Nat := (a + b - 1) / b

/-- `f` applied `n` times. -/
def iter {α : Type} (f : α → α) : Nat → α → α
  | 0, a => a
  | n + 1, a => iter f n (f a)

end Sys2Proof.Machine
end

