-- ==== Sys2Proof/Config.lean ====
section
/-! DEFINITION. What the implementation fixes and what the specification leaves open. Every constant here has no
body: no proof can see its value, and what is proved holds for all of them. -/

namespace Sys2Proof.Config

/-- A free value (log entry 1): the `n`-th value that the specification leaves open in a run.
Log entry 1 (DESIGN CHOICE). -/
opaque freeNat : Nat → Nat

/-- What a counter of maximum `m` holds after a count beyond its maximum, where the specification does not say that
it saturates (log entry 2): a function of the counter's key and its old value. Log entry 2 (DESIGN CHOICE). -/
opaque counterOver : Nat → Nat → Nat

/-- The values of the registers whose Reset column says Fixed (19_register_map.md R432), by field key.
Log entry 9 (DEDUCED). -/
opaque fixedReg : Nat → Nat

/-- CODE, UNIT and DETAIL of LOG_EXPORT by kind of field event: the field log's own numbers, which the specification
does not give. Log entry 18 (DESIGN CHOICE). -/
opaque fieldEvent : Nat → Nat

/-- A lane's calibrated path latency in ns, ingress or egress (15_lanes.md R348). Log entry 17 (DESIGN CHOICE). -/
opaque pathLatency (egress : Bool) : Nat → Nat

/-- The bytes of the host boot ROM (14_tartan_protection.md Table 14.2). Log entry 19 (DESIGN CHOICE). -/
opaque bootRom : Nat → Nat

/-- The MAC address of a host network port, which the specification does not place in a register (05_ingest_decode.md
R107). Log entry 19 (DESIGN CHOICE). -/
opaque hostMac : Nat → Nat

/-- The field die's fixed values: 0 its boot ROM version, 1 its stepping. Log entry 9 (DEDUCED). -/
opaque fieldDie : Nat → Nat

/-- Whether a word address of the field side's registers and SRAM is marked readable by its release: 0 for no; key storage never
is (11_crossing.md R269). Log entry 64 (DESIGN CHOICE). -/
opaque fieldReadable : Nat → Nat

/-- Byte `i` of the coded form of a tile's components under a Muslin format and ratio, numbered `4 · class + ratio`
(13_central_store.md R308). Log entry 15 (DESIGN CHOICE). -/
opaque muslinByte : Nat → List Nat → Nat → Nat

/-- The choice that fixes component `i` of a tile after a coding pass, within the bound of Table 13.2.
Log entry 15 (DESIGN CHOICE). -/
opaque muslinError : Nat → List Nat → Nat → Nat

/-- Component `i` that a tile slot decodes to when no coder of the module has written it.
Log entry 15 (DESIGN CHOICE). -/
opaque muslinSample : Nat → List Nat → Nat → Nat

/-- Sample (x, y) of plane 0 to 2 of a decoded picture, by its content number: what the bitstream says.
Log entry 40 (DESIGN CHOICE). -/
opaque pictureSample : Nat → Nat → Nat → Nat → Nat

/-- The choice that fixes a blended component within 1 LSB of its exact value, a quotient (06_composition.md R161).
Log entry 200 (DESIGN CHOICE). -/
opaque blendRound : Int → Nat → Nat

/-- The plausibility margin of a PROVEN stitch region, by region: its source's sync bound, which no message carries.
Log entry 79 (DESIGN CHOICE). -/
opaque stitchBound : Nat → Nat

/-- The digest enrolled in an image key slot, one-time-programmable on the host die (03_structure_image.md R60).
Log entries 19 (DESIGN CHOICE), 151 (PRESUMED). -/
opaque keyDigest : Nat → Nat

/-- What a byte reads as that the copy of a staged image cannot read: beyond the data of the central store, or in a
poisoned block (03_structure_image.md R70 states no result). Log entry 124 (DESIGN CHOICE). -/
opaque copyByte : Nat → Nat

/-- The line rate in kbit/s by which a host network port that is off is charged (04_admission.md R96).
Log entry 148 (DESIGN CHOICE). -/
opaque portRate : Nat → Nat

/-- BCK.ELEMENT of a claim that a partial image makes Buckram prove and does not carry: image and DETAIL
(04_admission.md R102 to R104 give it no ordinal). Log entry 150 (DESIGN CHOICE). -/
opaque claimElement : Nat → Nat → Nat

/-- The frame period of the sending head of a stitch claim, by CLAIM_ID, where no section of an image tells it
(04_admission.md Table 04.4). Log entry 145 (DESIGN CHOICE). -/
opaque senderPeriod : Nat → Nat

/-- What a 32-bit field shows of an admission quantity that does not fit it (04_admission.md R105 states no result).
Log entry 150 (DESIGN CHOICE). -/
opaque wideValue : Nat → Nat

/-- A component of FILL_COLOUR converted to a surface format other than ARGB 2:10:10:10: format, component, colour
(06_composition.md R140 gives no conversion). Log entry 164 (DESIGN CHOICE). -/
opaque fillComponent : Nat → Nat → Nat → Nat

/-- The transaction identifier of a Modbus request, by source and request (10_field_points_commands.md R227, R245 state
none). Log entry 248 (DESIGN CHOICE). -/
opaque modbusTxn : Nat → Nat → Nat

/-- Byte `i` of a slice ring's trailer that holds these fields, or none of them while it is invalid
(06_composition.md R164 gives no layout). Log entry 241 (DESIGN CHOICE). -/
opaque trailerByte : List Nat → Nat → Nat

end Sys2Proof.Config
end

