-- ==== Sys2Proof/Machine/State/Reg.lean ====
section
/-! DEFINITION. The shape of a BAR0 register field: its place, its width, its reset value and its access code
(00_scope.md R5 to R10, Table 00.2). -/

namespace Sys2Proof.Machine

/-- The access codes of Table 00.2 (00_scope.md R10). -/
inductive Acc where
  | rw | ro | wo | w1c | w1s | rc | rwi
  deriving DecidableEq, Repr

/-- A field of one BAR0 register: the register's BAR0 offset, the field's lowest bit, its width, its value after a
host reset and its access code. -/
structure Fld where
  off : Nat
  lo  : Nat
  w   : Nat
  rst : Nat
  acc : Acc
  deriving DecidableEq, Repr

/-- A field of a group of registers: its name's place, width, reset value, access code, and the values that its
encoding table lists (empty: every value of the width), for R9. -/
structure FieldDesc where
  lo    : Nat
  w     : Nat
  rst   : Nat
  acc   : Acc
  legal : List Nat
  deriving DecidableEq, Repr

/-- A register group of Table 19.5: instance `(i, j)` lies at `off + i * s + j * s2` (19_register_map.md R436). -/
structure RegDesc where
  off : Nat
  n   : Nat
  s   : Nat
  n2  : Nat
  s2  : Nat
  fields : List FieldDesc
  deriving DecidableEq, Repr

end Sys2Proof.Machine
end

