-- ==== Sys2Proof/Machine/RegMap.lean ====
section
/-! DEFINITION. The register map of BAR0: one definition per field, from the field tables of the chapters (their
bits, access codes and reset values) and from the offsets of Table 19.5 (19_register_map.md R436). A reset value of
Image is 0 before an image is active, a Strap or Cause value is sampled at reset, a Fixed value is the
implementation's. A group's number of registers bounds the number of one: it is taken modulo it. -/

namespace Sys2Proof.Machine.Reg

/-- SYS.ID.STEPPING, bits [7:0], RO, reset Fixed (18_module_electrical). -/
def SYS_ID_STEPPING : Fld := ⟨0x0, 0, 8, (Config.fixedReg ((0x0) * 32 + 0) % 2 ^ 8), .ro⟩

/-- SYS.ID.PART, bits [23:8], RO, reset 0x4816 (18_module_electrical). -/
def SYS_ID_PART : Fld := ⟨0x0, 8, 16, 0x4816, .ro⟩

/-- SYS.BOOT_STATUS.STEP, bits [3:0], RO, reset 0x1 (18_module_electrical). -/
def SYS_BOOT_STATUS_STEP : Fld := ⟨0x4, 0, 4, 0x1, .ro⟩

/-- SYS.BOOT_STATUS.FAILED, bits [4:4], RO, reset 0 (18_module_electrical). -/
def SYS_BOOT_STATUS_FAILED : Fld := ⟨0x4, 4, 1, 0, .ro⟩

/-- SYS.BOOT_STATUS.REASON, bits [15:8], RO, reset 0x00 (18_module_electrical). -/
def SYS_BOOT_STATUS_REASON : Fld := ⟨0x4, 8, 8, 0x0, .ro⟩

/-- SYS.BOOT_STATUS.HOST_BANK, bits [16:16], RO, reset 0 (18_module_electrical). -/
def SYS_BOOT_STATUS_HOST_BANK : Fld := ⟨0x4, 16, 1, 0, .ro⟩

/-- SYS.BOOT_STATUS.FALLBACK, bits [17:17], RO, reset 0 (18_module_electrical). -/
def SYS_BOOT_STATUS_FALLBACK : Fld := ⟨0x4, 17, 1, 0, .ro⟩

/-- SYS.BOOT_STATUS.NO_SYNC, bits [18:18], RO, reset 0 (18_module_electrical). -/
def SYS_BOOT_STATUS_NO_SYNC : Fld := ⟨0x4, 18, 1, 0, .ro⟩

/-- SYS.BOOT_STATUS.ELAPSED, bits [31:20], RO, reset 0 (18_module_electrical). -/
def SYS_BOOT_STATUS_ELAPSED : Fld := ⟨0x4, 20, 12, 0, .ro⟩

/-- SYS.RESET_CAUSE.POWER, bits [0:0], W1C, reset Cause (18_module_electrical). -/
def SYS_RESET_CAUSE_POWER : Fld := ⟨0x8, 0, 1, 0, .w1c⟩

/-- SYS.RESET_CAUSE.PIN, bits [1:1], W1C, reset Cause (18_module_electrical). -/
def SYS_RESET_CAUSE_PIN : Fld := ⟨0x8, 1, 1, 0, .w1c⟩

/-- SYS.RESET_CAUSE.SOFT, bits [2:2], W1C, reset Cause (18_module_electrical). -/
def SYS_RESET_CAUSE_SOFT : Fld := ⟨0x8, 2, 1, 0, .w1c⟩

/-- SYS.RESET_CAUSE.THERMAL, bits [3:3], W1C, reset Cause (18_module_electrical). -/
def SYS_RESET_CAUSE_THERMAL : Fld := ⟨0x8, 3, 1, 0, .w1c⟩

/-- SYS.STRAPS.SLOT, bits [1:0], RO, reset Strap (18_module_electrical). -/
def SYS_STRAPS_SLOT : Fld := ⟨0xc, 0, 2, 0, .ro⟩

/-- SYS.STRAPS.ROLE, bits [2:2], RO, reset Strap (18_module_electrical). -/
def SYS_STRAPS_ROLE : Fld := ⟨0xc, 2, 1, 0, .ro⟩

/-- SYS.STRAPS.ROLE_MISMATCH, bits [3:3], RO, reset 0 (18_module_electrical). -/
def SYS_STRAPS_ROLE_MISMATCH : Fld := ⟨0xc, 3, 1, 0, .ro⟩

/-- SYS.STRAPS.TARGET, bits [6:4], RO, reset Strap (18_module_electrical). -/
def SYS_STRAPS_TARGET : Fld := ⟨0xc, 4, 3, 0, .ro⟩

/-- SYS.RESET.GO, bits [0:0], W1S, reset 0 (18_module_electrical). -/
def SYS_RESET_GO : Fld := ⟨0x10, 0, 1, 0, .w1s⟩

/-- SYS.RESET.SCOPE, bits [2:1], WO, reset 0b00 (18_module_electrical). -/
def SYS_RESET_SCOPE : Fld := ⟨0x10, 1, 2, 0, .wo⟩

/-- SYS.RESET.KEY, bits [31:16], WO, reset 0 (18_module_electrical). -/
def SYS_RESET_KEY : Fld := ⟨0x10, 16, 16, 0, .wo⟩

/-- SYS.TEMP.HOST, bits [7:0], RO, reset 0 (18_module_electrical). -/
def SYS_TEMP_HOST : Fld := ⟨0x14, 0, 8, 0, .ro⟩

/-- SYS.TEMP.HOST_MAX, bits [15:8], RC, reset 0 (18_module_electrical). -/
def SYS_TEMP_HOST_MAX : Fld := ⟨0x14, 8, 8, 0, .rc⟩

/-- SYS.TEMP.FIELD, bits [23:16], RO, reset 0 (18_module_electrical). -/
def SYS_TEMP_FIELD : Fld := ⟨0x14, 16, 8, 0, .ro⟩

/-- SYS.INVAR_STATUS.TRT_CREDIT, bits [0:0], W1C, reset 0 (01_architecture). -/
def SYS_INVAR_STATUS_TRT_CREDIT : Fld := ⟨0x20, 0, 1, 0, .w1c⟩

/-- SYS.INVAR_STATUS.SLOT, bits [1:1], W1C, reset 0 (01_architecture). -/
def SYS_INVAR_STATUS_SLOT : Fld := ⟨0x20, 1, 1, 0, .w1c⟩

/-- SYS.INVAR_STATUS.LEASE, bits [2:2], W1C, reset 0 (01_architecture). -/
def SYS_INVAR_STATUS_LEASE : Fld := ⟨0x20, 2, 1, 0, .w1c⟩

/-- SYS.INVAR_STATUS.REF_TOKEN, bits [3:3], W1C, reset 0 (01_architecture). -/
def SYS_INVAR_STATUS_REF_TOKEN : Fld := ⟨0x20, 3, 1, 0, .w1c⟩

/-- SYS.INVAR_STATUS.LINK_CREDIT, bits [4:4], W1C, reset 0 (01_architecture). -/
def SYS_INVAR_STATUS_LINK_CREDIT : Fld := ⟨0x20, 4, 1, 0, .w1c⟩

/-- SYS.INVAR_STATUS.HEAD_SLOT, bits [5:5], W1C, reset 0 (01_architecture). -/
def SYS_INVAR_STATUS_HEAD_SLOT : Fld := ⟨0x20, 5, 1, 0, .w1c⟩

/-- SYS.INVAR_STATUS.PAGE, bits [6:6], W1C, reset 0 (01_architecture). -/
def SYS_INVAR_STATUS_PAGE : Fld := ⟨0x20, 6, 1, 0, .w1c⟩

/-- SYS.INVAR_STATUS.DRAM_TXN, bits [7:7], W1C, reset 0 (01_architecture). -/
def SYS_INVAR_STATUS_DRAM_TXN : Fld := ⟨0x20, 7, 1, 0, .w1c⟩

/-- SYS.INVAR_STATUS.FIRST_INST, bits [27:16], RO, reset 0 (01_architecture). -/
def SYS_INVAR_STATUS_FIRST_INST : Fld := ⟨0x20, 16, 12, 0, .ro⟩

/-- SYS.INVAR_STATUS.FIRST_QTY, bits [30:28], RO, reset 0 (01_architecture). -/
def SYS_INVAR_STATUS_FIRST_QTY : Fld := ⟨0x20, 28, 3, 0, .ro⟩

/-- SYS.INVAR_STATUS.VALID, bits [31:31], RO, reset 0 (01_architecture). -/
def SYS_INVAR_STATUS_VALID : Fld := ⟨0x20, 31, 1, 0, .ro⟩

/-- SYS.FW_ADDR_LO.CA, bits [31:0], RW, reset 0 (18_module_electrical). -/
def SYS_FW_ADDR_LO_CA : Fld := ⟨0x30, 0, 32, 0, .rw⟩

/-- SYS.FW_ADDR_HI.CA, bits [31:0], RW, reset 0 (18_module_electrical). -/
def SYS_FW_ADDR_HI_CA : Fld := ⟨0x34, 0, 32, 0, .rw⟩

/-- SYS.FW_LEN.BYTES, bits [31:0], RW, reset 0 (18_module_electrical). -/
def SYS_FW_LEN_BYTES : Fld := ⟨0x38, 0, 32, 0, .rw⟩

/-- SYS.FW_CTRL.OP, bits [1:0], WO, reset 0b00 (18_module_electrical). -/
def SYS_FW_CTRL_OP : Fld := ⟨0x3c, 0, 2, 0, .wo⟩

/-- SYS.FW_CTRL.GO, bits [31:31], W1S, reset 0 (18_module_electrical). -/
def SYS_FW_CTRL_GO : Fld := ⟨0x3c, 31, 1, 0, .w1s⟩

/-- SYS.FW_STATUS.STATE, bits [1:0], RO, reset 0b00 (18_module_electrical). -/
def SYS_FW_STATUS_STATE : Fld := ⟨0x40, 0, 2, 0, .ro⟩

/-- SYS.FW_STATUS.IGNORED, bits [2:2], W1C, reset 0 (18_module_electrical). -/
def SYS_FW_STATUS_IGNORED : Fld := ⟨0x40, 2, 1, 0, .w1c⟩

/-- SYS.FW_STATUS.CODE, bits [7:4], RO, reset 0x0 (18_module_electrical). -/
def SYS_FW_STATUS_CODE : Fld := ⟨0x40, 4, 4, 0x0, .ro⟩

/-- SYS.FW_STATUS.PROGRESS, bits [31:16], RO, reset 0 (18_module_electrical). -/
def SYS_FW_STATUS_PROGRESS : Fld := ⟨0x40, 16, 16, 0, .ro⟩

/-- SYS.LOG_BASE_LO.ADDR, bits [31:0], RO, reset Image (18_module_electrical). -/
def SYS_LOG_BASE_LO_ADDR : Fld := ⟨0x50, 0, 32, 0, .ro⟩

/-- SYS.LOG_BASE_HI.ADDR, bits [31:0], RO, reset Image (18_module_electrical). -/
def SYS_LOG_BASE_HI_ADDR : Fld := ⟨0x54, 0, 32, 0, .ro⟩

/-- SYS.LOG_WR.INDEX, bits [15:0], RO, reset 0 (18_module_electrical). -/
def SYS_LOG_WR_INDEX : Fld := ⟨0x58, 0, 16, 0, .ro⟩

/-- SYS.LOG_RD.INDEX, bits [15:0], RW, reset 0 (18_module_electrical). -/
def SYS_LOG_RD_INDEX : Fld := ⟨0x5c, 0, 16, 0, .rw⟩

/-- SYS.LOG_LOST.COUNT, bits [15:0], RC, reset 0 (18_module_electrical). -/
def SYS_LOG_LOST_COUNT : Fld := ⟨0x60, 0, 16, 0, .rc⟩

/-- TRT.CTRL.REMAP, bits [0:0], W1S, reset 0 (14_tartan_protection). -/
def TRT_CTRL_REMAP : Fld := ⟨0x10000, 0, 1, 0, .w1s⟩

/-- TRT.DECODE_ERR.COUNT, bits [15:0], RC, reset 0 (14_tartan_protection). -/
def TRT_DECODE_ERR_COUNT : Fld := ⟨0x10004, 0, 16, 0, .rc⟩

/-- TRT.DECODE_ERR.PORT, bits [21:16], RO, reset 0 (14_tartan_protection). -/
def TRT_DECODE_ERR_PORT : Fld := ⟨0x10004, 16, 6, 0, .ro⟩

/-- TRT.HOLDBACK.COUNT, bits [31:0], RC, reset 0 (14_tartan_protection). -/
def TRT_HOLDBACK_COUNT : Fld := ⟨0x10008, 0, 32, 0, .rc⟩

/-- TRT.LOCK_FORCE.INDEX, bits [7:0], WO, reset 0 (14_tartan_protection). -/
def TRT_LOCK_FORCE_INDEX : Fld := ⟨0x1000c, 0, 8, 0, .wo⟩

/-- TRT.LOCK_FORCE.GO, bits [31:31], W1S, reset 0 (14_tartan_protection). -/
def TRT_LOCK_FORCE_GO : Fld := ⟨0x1000c, 31, 1, 0, .w1s⟩

/-- TRT.LOCK_VIOL.COUNT, bits [15:0], RC, reset 0 (14_tartan_protection). -/
def TRT_LOCK_VIOL_COUNT : Fld := ⟨0x10010, 0, 16, 0, .rc⟩

/-- TRT.MASTER.FREE, bits [7:0], RO, reset 128 (14_tartan_protection). -/
def TRT_MASTER_FREE (i : Nat) : Fld := ⟨0x10100 + i % 47 * 0x4, 0, 8, 128, .ro⟩

/-- TRT.MASTER.IN_FLIGHT, bits [15:8], RO, reset 0 (14_tartan_protection). -/
def TRT_MASTER_IN_FLIGHT (i : Nat) : Fld := ⟨0x10100 + i % 47 * 0x4, 8, 8, 0, .ro⟩

/-- TRT.MASTER.QOS, bits [19:16], RO, reset Image (14_tartan_protection). -/
def TRT_MASTER_QOS (i : Nat) : Fld := ⟨0x10100 + i % 47 * 0x4, 16, 4, 0, .ro⟩

/-- TRT.URGENT.THRESHOLD, bits [4:0], RO, reset Image (14_tartan_protection). -/
def TRT_URGENT_THRESHOLD (i : Nat) : Fld := ⟨0x10300 + i % 17 * 0x4, 0, 5, 0, .ro⟩

/-- TRT.URGENT.RR_PTR, bits [13:8], RO, reset 0 (14_tartan_protection). -/
def TRT_URGENT_RR_PTR (i : Nat) : Fld := ⟨0x10300 + i % 17 * 0x4, 8, 6, 0, .ro⟩

/-- TRT.URGENT.PARKED, bits [21:16], RO, reset 0 (14_tartan_protection). -/
def TRT_URGENT_PARKED (i : Nat) : Fld := ⟨0x10300 + i % 17 * 0x4, 16, 6, 0, .ro⟩

/-- TRT.LK.OWNER, bits [11:0], RW, reset 0 (14_tartan_protection). -/
def TRT_LK_OWNER (i : Nat) : Fld := ⟨0x11000 + i % 256 * 0x4, 0, 12, 0, .rw⟩

/-- TRT.LK.BUSY, bits [31:31], RO, reset 0 (14_tartan_protection). -/
def TRT_LK_BUSY (i : Nat) : Fld := ⟨0x11000 + i % 256 * 0x4, 31, 1, 0, .ro⟩

/-- TRT.PRIO.PRIO_0, bits [2:0], RO, reset Image (14_tartan_protection). -/
def TRT_PRIO_PRIO_0 (i : Nat) (j : Nat) : Fld := ⟨0x10400 + i % 17 * 0x20 + j % 6 * 0x4, 0, 3, 0, .ro⟩

/-- TRT.PRIO.PRIO_1, bits [5:3], RO, reset Image (14_tartan_protection). -/
def TRT_PRIO_PRIO_1 (i : Nat) (j : Nat) : Fld := ⟨0x10400 + i % 17 * 0x20 + j % 6 * 0x4, 3, 3, 0, .ro⟩

/-- TRT.PRIO.PRIO_2, bits [8:6], RO, reset Image (14_tartan_protection). -/
def TRT_PRIO_PRIO_2 (i : Nat) (j : Nat) : Fld := ⟨0x10400 + i % 17 * 0x20 + j % 6 * 0x4, 6, 3, 0, .ro⟩

/-- TRT.PRIO.PRIO_3, bits [11:9], RO, reset Image (14_tartan_protection). -/
def TRT_PRIO_PRIO_3 (i : Nat) (j : Nat) : Fld := ⟨0x10400 + i % 17 * 0x20 + j % 6 * 0x4, 9, 3, 0, .ro⟩

/-- TRT.PRIO.PRIO_4, bits [14:12], RO, reset Image (14_tartan_protection). -/
def TRT_PRIO_PRIO_4 (i : Nat) (j : Nat) : Fld := ⟨0x10400 + i % 17 * 0x20 + j % 6 * 0x4, 12, 3, 0, .ro⟩

/-- TRT.PRIO.PRIO_5, bits [17:15], RO, reset Image (14_tartan_protection). -/
def TRT_PRIO_PRIO_5 (i : Nat) (j : Nat) : Fld := ⟨0x10400 + i % 17 * 0x20 + j % 6 * 0x4, 15, 3, 0, .ro⟩

/-- TRT.PRIO.PRIO_6, bits [20:18], RO, reset Image (14_tartan_protection). -/
def TRT_PRIO_PRIO_6 (i : Nat) (j : Nat) : Fld := ⟨0x10400 + i % 17 * 0x20 + j % 6 * 0x4, 18, 3, 0, .ro⟩

/-- TRT.PRIO.PRIO_7, bits [23:21], RO, reset Image (14_tartan_protection). -/
def TRT_PRIO_PRIO_7 (i : Nat) (j : Nat) : Fld := ⟨0x10400 + i % 17 * 0x20 + j % 6 * 0x4, 21, 3, 0, .ro⟩

/-- MPU.SYNC.TOKEN, bits [15:0], RW, reset 0 (14_tartan_protection). -/
def MPU_SYNC_TOKEN : Fld := ⟨0x20000, 0, 16, 0, .rw⟩

/-- MPU.FAULT.PORT, bits [5:0], RO, reset 0 (14_tartan_protection). -/
def MPU_FAULT_PORT : Fld := ⟨0x20004, 0, 6, 0, .ro⟩

/-- MPU.FAULT.WRITE, bits [6:6], RO, reset 0 (14_tartan_protection). -/
def MPU_FAULT_WRITE : Fld := ⟨0x20004, 6, 1, 0, .ro⟩

/-- MPU.FAULT.PRIV, bits [7:7], RO, reset 0 (14_tartan_protection). -/
def MPU_FAULT_PRIV : Fld := ⟨0x20004, 7, 1, 0, .ro⟩

/-- MPU.FAULT.SECURE, bits [8:8], RO, reset 0 (14_tartan_protection). -/
def MPU_FAULT_SECURE : Fld := ⟨0x20004, 8, 1, 0, .ro⟩

/-- MPU.FAULT.STRADDLE, bits [9:9], RO, reset 0 (14_tartan_protection). -/
def MPU_FAULT_STRADDLE : Fld := ⟨0x20004, 9, 1, 0, .ro⟩

/-- MPU.FAULT.REGION, bits [14:10], RO, reset 0 (14_tartan_protection). -/
def MPU_FAULT_REGION : Fld := ⟨0x20004, 10, 5, 0, .ro⟩

/-- MPU.FAULT.NO_MATCH, bits [15:15], RO, reset 0 (14_tartan_protection). -/
def MPU_FAULT_NO_MATCH : Fld := ⟨0x20004, 15, 1, 0, .ro⟩

/-- MPU.FAULT.VALID, bits [31:31], W1C, reset 0 (14_tartan_protection). -/
def MPU_FAULT_VALID : Fld := ⟨0x20004, 31, 1, 0, .w1c⟩

/-- MPU.FAULT_ADDR_LO.TA, bits [31:0], RO, reset 0 (14_tartan_protection). -/
def MPU_FAULT_ADDR_LO_TA : Fld := ⟨0x20008, 0, 32, 0, .ro⟩

/-- MPU.FAULT_ADDR_HI.TA, bits [5:0], RO, reset 0 (14_tartan_protection). -/
def MPU_FAULT_ADDR_HI_TA : Fld := ⟨0x2000c, 0, 6, 0, .ro⟩

/-- MPU.FAULT_COUNT.COUNT, bits [31:0], RC, reset 0 (14_tartan_protection). -/
def MPU_FAULT_COUNT_COUNT : Fld := ⟨0x20010, 0, 32, 0, .rc⟩

/-- MPU.SEC_VIOL.COUNT, bits [15:0], RC, reset 0 (14_tartan_protection). -/
def MPU_SEC_VIOL_COUNT : Fld := ⟨0x20014, 0, 16, 0, .rc⟩

/-- MPU.IRQ_CTRL.FAULT_IRQ_EN, bits [0:0], RW, reset 0 (14_tartan_protection). -/
def MPU_IRQ_CTRL_FAULT_IRQ_EN : Fld := ⟨0x20018, 0, 1, 0, .rw⟩

/-- MPU.IRQ_CTRL.VECTOR, bits [26:16], RW, reset 0 (14_tartan_protection). -/
def MPU_IRQ_CTRL_VECTOR : Fld := ⟨0x20018, 16, 11, 0, .rw⟩

/-- CST.STATUS.TRAINED, bits [0:0], RO, reset 0 (13_central_store). -/
def CST_STATUS_TRAINED : Fld := ⟨0x40000, 0, 1, 0, .ro⟩

/-- CST.STATUS.SPARE_VALID, bits [1:1], RO, reset 1 (13_central_store). -/
def CST_STATUS_SPARE_VALID : Fld := ⟨0x40000, 1, 1, 1, .ro⟩

/-- CST.STATUS.SPARE_CH, bits [5:2], RO, reset 0xB (13_central_store). -/
def CST_STATUS_SPARE_CH : Fld := ⟨0x40000, 2, 4, 0xb, .ro⟩

/-- CST.STATUS.RETIRED_VALID, bits [6:6], RO, reset 0 (13_central_store). -/
def CST_STATUS_RETIRED_VALID : Fld := ⟨0x40000, 6, 1, 0, .ro⟩

/-- CST.STATUS.RETIRED_CH, bits [10:7], RO, reset 0 (13_central_store). -/
def CST_STATUS_RETIRED_CH : Fld := ⟨0x40000, 7, 4, 0, .ro⟩

/-- CST.STATUS.RETIRE_STATE, bits [13:11], RO, reset 0b000 (13_central_store). -/
def CST_STATUS_RETIRE_STATE : Fld := ⟨0x40000, 11, 3, 0, .ro⟩

/-- CST.STATUS.RETIRE_RESULT, bits [15:14], RO, reset 0b00 (13_central_store). -/
def CST_STATUS_RETIRE_RESULT : Fld := ⟨0x40000, 14, 2, 0, .ro⟩

/-- CST.STATUS.GRAIN_LOG2, bits [19:16], RO, reset 0 (13_central_store). -/
def CST_STATUS_GRAIN_LOG2 : Fld := ⟨0x40000, 16, 4, 0, .ro⟩

/-- CST.STATUS.HASH_EN, bits [20:20], RO, reset 0 (13_central_store). -/
def CST_STATUS_HASH_EN : Fld := ⟨0x40000, 20, 1, 0, .ro⟩

/-- CST.RETIRE.CH, bits [3:0], WO, reset 0 (13_central_store). -/
def CST_RETIRE_CH : Fld := ⟨0x40004, 0, 4, 0, .wo⟩

/-- CST.RETIRE.GO, bits [31:31], W1S, reset 0 (13_central_store). -/
def CST_RETIRE_GO : Fld := ⟨0x40004, 31, 1, 0, .w1s⟩

/-- CST.RETIRE_PROGRESS.MIB, bits [11:0], RO, reset 0 (13_central_store). -/
def CST_RETIRE_PROGRESS_MIB : Fld := ⟨0x40008, 0, 12, 0, .ro⟩

/-- CST.DECODE_ERR.COUNT, bits [15:0], RC, reset 0 (13_central_store). -/
def CST_DECODE_ERR_COUNT : Fld := ⟨0x4000c, 0, 16, 0, .rc⟩

/-- CST.PAGES_LO.FREE, bits [19:0], RO, reset 630,784 (13_central_store). -/
def CST_PAGES_LO_FREE : Fld := ⟨0x40010, 0, 20, 630784, .ro⟩

/-- CST.PAGES_HI.USED, bits [19:0], RO, reset 0 (13_central_store). -/
def CST_PAGES_HI_USED : Fld := ⟨0x40014, 0, 20, 0, .ro⟩

/-- CST.SEC_VIOL.COUNT, bits [15:0], RC, reset 0 (13_central_store). -/
def CST_SEC_VIOL_COUNT : Fld := ⟨0x40018, 0, 16, 0, .rc⟩

/-- CST.UE_WR.INDEX, bits [9:0], RO, reset 0 (13_central_store). -/
def CST_UE_WR_INDEX : Fld := ⟨0x40020, 0, 10, 0, .ro⟩

/-- CST.UE_WR.WRAPPED, bits [31:31], RO, reset 0 (13_central_store). -/
def CST_UE_WR_WRAPPED : Fld := ⟨0x40020, 31, 1, 0, .ro⟩

/-- CST.UE_SEL.INDEX, bits [9:0], RW, reset 0 (13_central_store). -/
def CST_UE_SEL_INDEX : Fld := ⟨0x40024, 0, 10, 0, .rw⟩

/-- CST.UE_ADDR_LO.CA, bits [31:0], RO, reset 0 (13_central_store). -/
def CST_UE_ADDR_LO_CA : Fld := ⟨0x40028, 0, 32, 0, .ro⟩

/-- CST.UE_ADDR_HI.CA, bits [31:0], RO, reset 0 (13_central_store). -/
def CST_UE_ADDR_HI_CA : Fld := ⟨0x4002c, 0, 32, 0, .ro⟩

/-- CST.UE_INFO.CH, bits [3:0], RO, reset 0 (13_central_store). -/
def CST_UE_INFO_CH : Fld := ⟨0x40030, 0, 4, 0, .ro⟩

/-- CST.UE_INFO.KIND, bits [5:4], RO, reset 0b00 (13_central_store). -/
def CST_UE_INFO_KIND : Fld := ⟨0x40030, 4, 2, 0, .ro⟩

/-- CST.UE_INFO.PORT, bits [15:8], RO, reset 0 (13_central_store). -/
def CST_UE_INFO_PORT : Fld := ⟨0x40030, 8, 8, 0, .ro⟩

/-- CST.UE_INFO.SYNDROME, bits [31:16], RO, reset 0 (13_central_store). -/
def CST_UE_INFO_SYNDROME : Fld := ⟨0x40030, 16, 16, 0, .ro⟩

/-- CST.UE_DT_LO.DT, bits [31:0], RO, reset 0 (13_central_store). -/
def CST_UE_DT_LO_DT : Fld := ⟨0x40034, 0, 32, 0, .ro⟩

/-- CST.UE_DT_HI.DT, bits [31:0], RO, reset 0 (13_central_store). -/
def CST_UE_DT_HI_DT : Fld := ⟨0x40038, 0, 32, 0, .ro⟩

/-- CST.UE_LOST.COUNT, bits [15:0], RC, reset 0 (13_central_store). -/
def CST_UE_LOST_COUNT : Fld := ⟨0x4003c, 0, 16, 0, .rc⟩

/-- CST.CWIN_CTRL.HANDLE, bits [11:0], RW, reset 0 (13_central_store). -/
def CST_CWIN_CTRL_HANDLE : Fld := ⟨0x40040, 0, 12, 0, .rw⟩

/-- CST.CWIN_CTRL.FLUSH, bits [16:16], W1S, reset 0 (13_central_store). -/
def CST_CWIN_CTRL_FLUSH : Fld := ⟨0x40040, 16, 1, 0, .w1s⟩

/-- CST.CWIN_STATUS.OPEN, bits [6:0], RO, reset 0 (13_central_store). -/
def CST_CWIN_STATUS_OPEN : Fld := ⟨0x40044, 0, 7, 0, .ro⟩

/-- CST.CWIN_STATUS.BAD_HANDLE, bits [7:7], RO, reset 1 (13_central_store). -/
def CST_CWIN_STATUS_BAD_HANDLE : Fld := ⟨0x40044, 7, 1, 1, .ro⟩

/-- CST.CH_CTRL.RATE, bits [1:0], RWI, reset 0b00 (13_central_store). -/
def CST_CH_CTRL_RATE (i : Nat) : Fld := ⟨0x40100 + i % 12 * 0x20, 0, 2, 0, .rwi⟩

/-- CST.CH_STATUS.ROLE, bits [1:0], RO, reset 0b00 (13_central_store). -/
def CST_CH_STATUS_ROLE (i : Nat) : Fld := ⟨0x40104 + i % 12 * 0x20, 0, 2, (if i = 11 then 1 else 0), .ro⟩

/-- CST.CH_STATUS.SLOT, bits [5:2], RO, reset c (13_central_store). -/
def CST_CH_STATUS_SLOT (i : Nat) : Fld := ⟨0x40104 + i % 12 * 0x20, 2, 4, i, .ro⟩

/-- CST.CH_STATUS.STATE, bits [8:6], RO, reset 0b001 (13_central_store). -/
def CST_CH_STATUS_STATE (i : Nat) : Fld := ⟨0x40104 + i % 12 * 0x20, 6, 3, 1, .ro⟩

/-- CST.CH_STATUS.RATE_NOW, bits [10:9], RO, reset 0b00 (13_central_store). -/
def CST_CH_STATUS_RATE_NOW (i : Nat) : Fld := ⟨0x40104 + i % 12 * 0x20, 9, 2, 0, .ro⟩

/-- CST.CH_STATUS.SR_EN, bits [11:11], RO, reset 0 (13_central_store). -/
def CST_CH_STATUS_SR_EN (i : Nat) : Fld := ⟨0x40104 + i % 12 * 0x20, 11, 1, 0, .ro⟩

/-- CST.CH_SLOTS.FREE, bits [8:0], RO, reset 256 (13_central_store). -/
def CST_CH_SLOTS_FREE (i : Nat) : Fld := ⟨0x40108 + i % 12 * 0x20, 0, 9, 256, .ro⟩

/-- CST.CH_SLOTS.QUEUED, bits [17:9], RO, reset 0 (13_central_store). -/
def CST_CH_SLOTS_QUEUED (i : Nat) : Fld := ⟨0x40108 + i % 12 * 0x20, 9, 9, 0, .ro⟩

/-- CST.CH_SLOTS.IN_SERVICE, bits [26:18], RO, reset 0 (13_central_store). -/
def CST_CH_SLOTS_IN_SERVICE (i : Nat) : Fld := ⟨0x40108 + i % 12 * 0x20, 18, 9, 0, .ro⟩

/-- CST.CH_ERR.CE, bits [15:0], RC, reset 0 (13_central_store). -/
def CST_CH_ERR_CE (i : Nat) : Fld := ⟨0x4010c + i % 12 * 0x20, 0, 16, 0, .rc⟩

/-- CST.CH_ERR.UE, bits [31:16], RC, reset 0 (13_central_store). -/
def CST_CH_ERR_UE (i : Nat) : Fld := ⟨0x4010c + i % 12 * 0x20, 16, 16, 0, .rc⟩

/-- CST.CH_RH.NREF, bits [15:0], RC, reset 0 (13_central_store). -/
def CST_CH_RH_NREF (i : Nat) : Fld := ⟨0x40110 + i % 12 * 0x20, 0, 16, 0, .rc⟩

/-- CST.CH_RH.TRAIN_ABORT, bits [23:16], RC, reset 0 (13_central_store). -/
def CST_CH_RH_TRAIN_ABORT (i : Nat) : Fld := ⟨0x40110 + i % 12 * 0x20, 16, 8, 0, .rc⟩

/-- CST.CH_RH.SR_ENTRIES, bits [31:24], RC, reset 0 (13_central_store). -/
def CST_CH_RH_SR_ENTRIES (i : Nat) : Fld := ⟨0x40110 + i % 12 * 0x20, 24, 8, 0, .rc⟩

/-- LNE.ZREF.CODE, bits [7:0], RO, reset 0 (15_lanes). -/
def LNE_ZREF_CODE : Fld := ⟨0x80000, 0, 8, 0, .ro⟩

/-- LNE.ZREF.DONE, bits [8:8], RO, reset 0 (15_lanes). -/
def LNE_ZREF_DONE : Fld := ⟨0x80000, 8, 1, 0, .ro⟩

/-- LNE.HN_MODE.MODE_0, bits [1:0], RWI, reset 0b00 (15_lanes). -/
def LNE_HN_MODE_MODE_0 : Fld := ⟨0x80004, 0, 2, 0, .rwi⟩

/-- LNE.HN_MODE.MODE_1, bits [3:2], RWI, reset 0b00 (15_lanes). -/
def LNE_HN_MODE_MODE_1 : Fld := ⟨0x80004, 2, 2, 0, .rwi⟩

/-- LNE.HN_MODE.MODE_2, bits [5:4], RWI, reset 0b00 (15_lanes). -/
def LNE_HN_MODE_MODE_2 : Fld := ⟨0x80004, 4, 2, 0, .rwi⟩

/-- LNE.HN_MODE.MODE_3, bits [7:6], RWI, reset 0b00 (15_lanes). -/
def LNE_HN_MODE_MODE_3 : Fld := ⟨0x80004, 6, 2, 0, .rwi⟩

/-- LNE.SPARE_CTRL.LANE, bits [6:0], RW, reset 0 (15_lanes). -/
def LNE_SPARE_CTRL_LANE (i : Nat) : Fld := ⟨0x80100 + i % 16 * 0x8, 0, 7, 0, .rw⟩

/-- LNE.SPARE_CTRL.MODE, bits [9:8], RW, reset 0b00 (15_lanes). -/
def LNE_SPARE_CTRL_MODE (i : Nat) : Fld := ⟨0x80100 + i % 16 * 0x8, 8, 2, 0, .rw⟩

/-- LNE.SPARE_CTRL.AUTO, bits [10:10], RW, reset 0 (15_lanes). -/
def LNE_SPARE_CTRL_AUTO (i : Nat) : Fld := ⟨0x80100 + i % 16 * 0x8, 10, 1, 0, .rw⟩

/-- LNE.SPARE_CTRL.SWAP, bits [31:31], W1S, reset 0 (15_lanes). -/
def LNE_SPARE_CTRL_SWAP (i : Nat) : Fld := ⟨0x80100 + i % 16 * 0x8, 31, 1, 0, .w1s⟩

/-- LNE.SPARE_STATUS.ARMED, bits [0:0], RO, reset 0 (15_lanes). -/
def LNE_SPARE_STATUS_ARMED (i : Nat) : Fld := ⟨0x80104 + i % 16 * 0x8, 0, 1, 0, .ro⟩

/-- LNE.SPARE_STATUS.ACTIVE, bits [1:1], RO, reset 0 (15_lanes). -/
def LNE_SPARE_STATUS_ACTIVE (i : Nat) : Fld := ⟨0x80104 + i % 16 * 0x8, 1, 1, 0, .ro⟩

/-- LNE.SPARE_STATUS.AUTO_FIRED, bits [2:2], W1C, reset 0 (15_lanes). -/
def LNE_SPARE_STATUS_AUTO_FIRED (i : Nat) : Fld := ⟨0x80104 + i % 16 * 0x8, 2, 1, 0, .w1c⟩

/-- LNE.SPARE_STATUS.LANE, bits [14:8], RO, reset 0 (15_lanes). -/
def LNE_SPARE_STATUS_LANE (i : Nat) : Fld := ⟨0x80104 + i % 16 * 0x8, 8, 7, 0, .ro⟩

/-- LNE.STATUS.ROLE, bits [3:0], RO, reset Fixed (15_lanes). -/
def LNE_STATUS_ROLE (i : Nat) : Fld := ⟨0x81000 + i % 96 * 0x20, 0, 4, (if i < 48 then 0 else if i < 52 then 1 else if i < 56 then 2 else if i < 72 then 3 else if i < 80 then 4 else 5), .ro⟩

/-- LNE.STATUS.STATE, bits [6:4], RO, reset 0b000 (15_lanes). -/
def LNE_STATUS_STATE (i : Nat) : Fld := ⟨0x81000 + i % 96 * 0x20, 4, 3, 0, .ro⟩

/-- LNE.STATUS.LOS, bits [7:7], RO, reset 0 (15_lanes). -/
def LNE_STATUS_LOS (i : Nat) : Fld := ⟨0x81000 + i % 96 * 0x20, 7, 1, 0, .ro⟩

/-- LNE.STATUS.LOL, bits [8:8], RO, reset 0 (15_lanes). -/
def LNE_STATUS_LOL (i : Nat) : Fld := ⟨0x81000 + i % 96 * 0x20, 8, 1, 0, .ro⟩

/-- LNE.STATUS.TX_FAULT, bits [9:9], RO, reset 0 (15_lanes). -/
def LNE_STATUS_TX_FAULT (i : Nat) : Fld := ⟨0x81000 + i % 96 * 0x20, 9, 1, 0, .ro⟩

/-- LNE.STATUS.REPLACED, bits [10:10], RO, reset 0 (15_lanes). -/
def LNE_STATUS_REPLACED (i : Nat) : Fld := ⟨0x81000 + i % 96 * 0x20, 10, 1, 0, .ro⟩

/-- LNE.QUALITY.EYE_W, bits [11:0], RO, reset 0 (15_lanes). -/
def LNE_QUALITY_EYE_W (i : Nat) : Fld := ⟨0x81004 + i % 96 * 0x20, 0, 12, 0, .ro⟩

/-- LNE.QUALITY.EYE_H, bits [23:12], RO, reset 0 (15_lanes). -/
def LNE_QUALITY_EYE_H (i : Nat) : Fld := ⟨0x81004 + i % 96 * 0x20, 12, 12, 0, .ro⟩

/-- LNE.QUALITY.VALID, bits [31:31], RO, reset 0 (15_lanes). -/
def LNE_QUALITY_VALID (i : Nat) : Fld := ⟨0x81004 + i % 96 * 0x20, 31, 1, 0, .ro⟩

/-- LNE.CAL.TERM, bits [5:0], RO, reset 0 (15_lanes). -/
def LNE_CAL_TERM (i : Nat) : Fld := ⟨0x81008 + i % 96 * 0x20, 0, 6, 0, .ro⟩

/-- LNE.CAL.OFFSET, bits [13:8], RO, reset 0 (15_lanes). -/
def LNE_CAL_OFFSET (i : Nat) : Fld := ⟨0x81008 + i % 96 * 0x20, 8, 6, 0, .ro⟩

/-- LNE.CAL.DONE, bits [31:31], RO, reset 0 (15_lanes). -/
def LNE_CAL_DONE (i : Nat) : Fld := ⟨0x81008 + i % 96 * 0x20, 31, 1, 0, .ro⟩

/-- LNE.TXEQ.PRE, bits [3:0], RW, reset Fixed (15_lanes). -/
def LNE_TXEQ_PRE (i : Nat) : Fld := ⟨0x8100c + i % 96 * 0x20, 0, 4, (Config.fixedReg ((0x8100c + i % 96 * 0x20) * 32 + 0) % 2 ^ 4), .rw⟩

/-- LNE.TXEQ.POST, bits [12:8], RW, reset Fixed (15_lanes). -/
def LNE_TXEQ_POST (i : Nat) : Fld := ⟨0x8100c + i % 96 * 0x20, 8, 5, (Config.fixedReg ((0x8100c + i % 96 * 0x20) * 32 + 8) % 2 ^ 5), .rw⟩

/-- LNE.COUNTS.LOS_EVENTS, bits [15:0], RC, reset 0 (15_lanes). -/
def LNE_COUNTS_LOS_EVENTS (i : Nat) : Fld := ⟨0x81010 + i % 96 * 0x20, 0, 16, 0, .rc⟩

/-- LNE.COUNTS.LOL_EVENTS, bits [31:16], RC, reset 0 (15_lanes). -/
def LNE_COUNTS_LOL_EVENTS (i : Nat) : Fld := ⟨0x81010 + i % 96 * 0x20, 16, 16, 0, .rc⟩

/-- ING.TS_OFFSET_LO.OFFSET, bits [31:0], RW, reset 0 (05_ingest_decode). -/
def ING_TS_OFFSET_LO_OFFSET : Fld := ⟨0x100000, 0, 32, 0, .rw⟩

/-- ING.TS_OFFSET_HI.OFFSET, bits [31:0], RW, reset 0 (05_ingest_decode). -/
def ING_TS_OFFSET_HI_OFFSET : Fld := ⟨0x100004, 0, 32, 0, .rw⟩

/-- ING.UNMATCHED.COUNT, bits [31:0], RC, reset 0 (05_ingest_decode). -/
def ING_UNMATCHED_COUNT (i : Nat) : Fld := ⟨0x100010 + i % 4 * 0x4, 0, 32, 0, .rc⟩

/-- ING.STATUS.ENABLED, bits [0:0], RO, reset Image (05_ingest_decode). -/
def ING_STATUS_ENABLED (i : Nat) : Fld := ⟨0x101000 + i % 128 * 0x20, 0, 1, 0, .ro⟩

/-- ING.STATUS.SSRC_LOCKED, bits [1:1], RO, reset 0 (05_ingest_decode). -/
def ING_STATUS_SSRC_LOCKED (i : Nat) : Fld := ⟨0x101000 + i % 128 * 0x20, 1, 1, 0, .ro⟩

/-- ING.STATUS.EFF_CLASS, bits [3:2], RO, reset 0b10 (05_ingest_decode). -/
def ING_STATUS_EFF_CLASS (i : Nat) : Fld := ⟨0x101000 + i % 128 * 0x20, 2, 2, 2, .ro⟩

/-- ING.STATUS.SR_VALID, bits [4:4], RO, reset 0 (05_ingest_decode). -/
def ING_STATUS_SR_VALID (i : Nat) : Fld := ⟨0x101000 + i % 128 * 0x20, 4, 1, 0, .ro⟩

/-- ING.STATUS.SYNC_VALID, bits [5:5], RO, reset 0 (05_ingest_decode). -/
def ING_STATUS_SYNC_VALID (i : Nat) : Fld := ⟨0x101000 + i % 128 * 0x20, 5, 1, 0, .ro⟩

/-- ING.STATUS.NTP_EXT, bits [6:6], RO, reset 0 (05_ingest_decode). -/
def ING_STATUS_NTP_EXT (i : Nat) : Fld := ⟨0x101000 + i % 128 * 0x20, 6, 1, 0, .ro⟩

/-- ING.STATUS.FRER_ACTIVE, bits [7:7], RO, reset 0 (05_ingest_decode). -/
def ING_STATUS_FRER_ACTIVE (i : Nat) : Fld := ⟨0x101000 + i % 128 * 0x20, 7, 1, 0, .ro⟩

/-- ING.STATUS.SEQ, bits [31:16], RO, reset 0 (05_ingest_decode). -/
def ING_STATUS_SEQ (i : Nat) : Fld := ⟨0x101000 + i % 128 * 0x20, 16, 16, 0, .ro⟩

/-- ING.RX_PKTS.COUNT, bits [31:0], RO, reset 0 (05_ingest_decode). -/
def ING_RX_PKTS_COUNT (i : Nat) : Fld := ⟨0x101004 + i % 128 * 0x20, 0, 32, 0, .ro⟩

/-- ING.LOSS.LOST, bits [15:0], RC, reset 0 (05_ingest_decode). -/
def ING_LOSS_LOST (i : Nat) : Fld := ⟨0x101008 + i % 128 * 0x20, 0, 16, 0, .rc⟩

/-- ING.LOSS.DUP_ELIM, bits [31:16], RC, reset 0 (05_ingest_decode). -/
def ING_LOSS_DUP_ELIM (i : Nat) : Fld := ⟨0x101008 + i % 128 * 0x20, 16, 16, 0, .rc⟩

/-- ING.DROPS.LATE, bits [15:0], RC, reset 0 (05_ingest_decode). -/
def ING_DROPS_LATE (i : Nat) : Fld := ⟨0x10100c + i % 128 * 0x20, 0, 16, 0, .rc⟩

/-- ING.DROPS.OVERFLOW, bits [31:16], RC, reset 0 (05_ingest_decode). -/
def ING_DROPS_OVERFLOW (i : Nat) : Fld := ⟨0x10100c + i % 128 * 0x20, 16, 16, 0, .rc⟩

/-- ING.REJECT.COUNT, bits [15:0], RC, reset 0 (05_ingest_decode). -/
def ING_REJECT_COUNT (i : Nat) : Fld := ⟨0x101010 + i % 128 * 0x20, 0, 16, 0, .rc⟩

/-- ING.SYNC_ATTEST.ATTEST, bits [0:0], W1S, reset 0 (05_ingest_decode). -/
def ING_SYNC_ATTEST_ATTEST (i : Nat) : Fld := ⟨0x101014 + i % 128 * 0x20, 0, 1, 0, .w1s⟩

/-- ING.SYNC_ATTEST.REVOKE, bits [1:1], W1S, reset 0 (05_ingest_decode). -/
def ING_SYNC_ATTEST_REVOKE (i : Nat) : Fld := ⟨0x101014 + i % 128 * 0x20, 1, 1, 0, .w1s⟩

/-- ING.SYNC_ATTEST.VALID, bits [2:2], RO, reset 0 (05_ingest_decode). -/
def ING_SYNC_ATTEST_VALID (i : Nat) : Fld := ⟨0x101014 + i % 128 * 0x20, 2, 1, 0, .ro⟩

/-- ING.LAST_ARRIVAL.VT, bits [31:0], RO, reset 0 (05_ingest_decode). -/
def ING_LAST_ARRIVAL_VT (i : Nat) : Fld := ⟨0x101018 + i % 128 * 0x20, 0, 32, 0, .ro⟩

/-- ING.SSRC.SSRC, bits [31:0], RO, reset 0 (05_ingest_decode). -/
def ING_SSRC_SSRC (i : Nat) : Fld := ⟨0x10101c + i % 128 * 0x20, 0, 32, 0, .ro⟩

/-- DEC.CORE_STATUS.ACTIVE, bits [0:0], RO, reset 0 (05_ingest_decode). -/
def DEC_CORE_STATUS_ACTIVE (i : Nat) : Fld := ⟨0x140000 + i % 9 * 0x4, 0, 1, 0, .ro⟩

/-- DEC.CORE_STATUS.FAULTED, bits [1:1], RO, reset 0 (05_ingest_decode). -/
def DEC_CORE_STATUS_FAULTED (i : Nat) : Fld := ⟨0x140000 + i % 9 * 0x4, 1, 1, 0, .ro⟩

/-- DEC.CORE_STATUS.BUSY, bits [2:2], RO, reset 0 (05_ingest_decode). -/
def DEC_CORE_STATUS_BUSY (i : Nat) : Fld := ⟨0x140000 + i % 9 * 0x4, 2, 1, 0, .ro⟩

/-- DEC.CORE_STATUS.STREAM, bits [10:4], RO, reset 0 (05_ingest_decode). -/
def DEC_CORE_STATUS_STREAM (i : Nat) : Fld := ⟨0x140000 + i % 9 * 0x4, 4, 7, 0, .ro⟩

/-- DEC.CORE_STATUS.QUEUED, bits [15:11], RO, reset 0 (05_ingest_decode). -/
def DEC_CORE_STATUS_QUEUED (i : Nat) : Fld := ⟨0x140000 + i % 9 * 0x4, 11, 5, 0, .ro⟩

/-- DEC.WT_PROBE.LAYER, bits [9:0], RW, reset 0 (05_ingest_decode). -/
def DEC_WT_PROBE_LAYER : Fld := ⟨0x140040, 0, 10, 0, .rw⟩

/-- DEC.WT_PROBE.TILE, bits [11:10], RW, reset 0 (05_ingest_decode). -/
def DEC_WT_PROBE_TILE : Fld := ⟨0x140040, 10, 2, 0, .rw⟩

/-- DEC.WT_PROBE.VALID, bits [31:31], RO, reset 0 (05_ingest_decode). -/
def DEC_WT_PROBE_VALID : Fld := ⟨0x140040, 31, 1, 0, .ro⟩

/-- DEC.WT_HASH.HASH, bits [31:0], RO, reset 0 (05_ingest_decode). -/
def DEC_WT_HASH_HASH : Fld := ⟨0x140044, 0, 32, 0, .ro⟩

/-- DEC.CTX_STATUS.STATE, bits [2:0], RO, reset 0b000 (05_ingest_decode). -/
def DEC_CTX_STATUS_STATE (i : Nat) : Fld := ⟨0x141000 + i % 128 * 0x10, 0, 3, 0, .ro⟩

/-- DEC.CTX_STATUS.CUR_ANCIENT, bits [3:3], RO, reset 1 (05_ingest_decode). -/
def DEC_CTX_STATUS_CUR_ANCIENT (i : Nat) : Fld := ⟨0x141000 + i % 128 * 0x10, 3, 1, 1, .ro⟩

/-- DEC.CTX_STATUS.CUR_CONCEALED, bits [4:4], RO, reset 0 (05_ingest_decode). -/
def DEC_CTX_STATUS_CUR_CONCEALED (i : Nat) : Fld := ⟨0x141000 + i % 128 * 0x10, 4, 1, 0, .ro⟩

/-- DEC.CTX_STATUS.CUR_FAULT, bits [5:5], RO, reset 0 (05_ingest_decode). -/
def DEC_CTX_STATUS_CUR_FAULT (i : Nat) : Fld := ⟨0x141000 + i % 128 * 0x10, 5, 1, 0, .ro⟩

/-- DEC.CTX_STATUS.CUR_CLASS, bits [7:6], RO, reset 0b10 (05_ingest_decode). -/
def DEC_CTX_STATUS_CUR_CLASS (i : Nat) : Fld := ⟨0x141000 + i % 128 * 0x10, 6, 2, 2, .ro⟩

/-- DEC.CTX_STATUS.CORE, bits [11:8], RO, reset Image (05_ingest_decode). -/
def DEC_CTX_STATUS_CORE (i : Nat) : Fld := ⟨0x141000 + i % 128 * 0x10, 8, 4, 0, .ro⟩

/-- DEC.CTX_STATUS.TAINT_RUN, bits [19:12], RO, reset 0 (05_ingest_decode). -/
def DEC_CTX_STATUS_TAINT_RUN (i : Nat) : Fld := ⟨0x141000 + i % 128 * 0x10, 12, 8, 0, .ro⟩

/-- DEC.CTX_STATUS.LAST_EVENT, bits [23:20], RO, reset 0x0 (05_ingest_decode). -/
def DEC_CTX_STATUS_LAST_EVENT (i : Nat) : Fld := ⟨0x141000 + i % 128 * 0x10, 20, 4, 0x0, .ro⟩

/-- DEC.CTX_ERR.SYNTAX, bits [7:0], RC, reset 0 (05_ingest_decode). -/
def DEC_CTX_ERR_SYNTAX (i : Nat) : Fld := ⟨0x141004 + i % 128 * 0x10, 0, 8, 0, .rc⟩

/-- DEC.CTX_ERR.PARAM, bits [15:8], RC, reset 0 (05_ingest_decode). -/
def DEC_CTX_ERR_PARAM (i : Nat) : Fld := ⟨0x141004 + i % 128 * 0x10, 8, 8, 0, .rc⟩

/-- DEC.CTX_ERR.ABSENT, bits [23:16], RC, reset 0 (05_ingest_decode). -/
def DEC_CTX_ERR_ABSENT (i : Nat) : Fld := ⟨0x141004 + i % 128 * 0x10, 16, 8, 0, .rc⟩

/-- DEC.CTX_ERR.ENVELOPE, bits [31:24], RC, reset 0 (05_ingest_decode). -/
def DEC_CTX_ERR_ENVELOPE (i : Nat) : Fld := ⟨0x141004 + i % 128 * 0x10, 24, 8, 0, .rc⟩

/-- DEC.CTX_PICS.COUNT, bits [31:0], RO, reset 0 (05_ingest_decode). -/
def DEC_CTX_PICS_COUNT (i : Nat) : Fld := ⟨0x141008 + i % 128 * 0x10, 0, 32, 0, .ro⟩

/-- DEC.CTX_TOKENS.FREE, bits [4:0], RO, reset Image (05_ingest_decode). -/
def DEC_CTX_TOKENS_FREE (i : Nat) : Fld := ⟨0x14100c + i % 128 * 0x10, 0, 5, 0, .ro⟩

/-- DEC.CTX_TOKENS.HELD, bits [12:8], RO, reset 0 (05_ingest_decode). -/
def DEC_CTX_TOKENS_HELD (i : Nat) : Fld := ⟨0x14100c + i % 128 * 0x10, 8, 5, 0, .ro⟩

/-- DEC.CTX_TOKENS.POOL, bits [20:16], RO, reset Image (05_ingest_decode). -/
def DEC_CTX_TOKENS_POOL (i : Nat) : Fld := ⟨0x14100c + i % 128 * 0x10, 16, 5, 0, .ro⟩

/-- ENC.IRQ_CTRL.DONE_IRQ_EN, bits [0:0], RW, reset 0 (09_encode). -/
def ENC_IRQ_CTRL_DONE_IRQ_EN : Fld := ⟨0x180000, 0, 1, 0, .rw⟩

/-- ENC.IRQ_CTRL.VECTOR, bits [26:16], RW, reset 0 (09_encode). -/
def ENC_IRQ_CTRL_VECTOR : Fld := ⟨0x180000, 16, 11, 0, .rw⟩

/-- ENC.DONE.CTX, bits [15:0], W1C, reset 0 (09_encode). -/
def ENC_DONE_CTX : Fld := ⟨0x180004, 0, 16, 0, .w1c⟩

/-- ENC.CORE_STATUS.ACTIVE, bits [0:0], RO, reset Image (09_encode). -/
def ENC_CORE_STATUS_ACTIVE (i : Nat) : Fld := ⟨0x180010 + i % 2 * 0x4, 0, 1, 0, .ro⟩

/-- ENC.CORE_STATUS.FAULTED, bits [1:1], RO, reset 0 (09_encode). -/
def ENC_CORE_STATUS_FAULTED (i : Nat) : Fld := ⟨0x180010 + i % 2 * 0x4, 1, 1, 0, .ro⟩

/-- ENC.CORE_STATUS.BUSY, bits [2:2], RO, reset 0 (09_encode). -/
def ENC_CORE_STATUS_BUSY (i : Nat) : Fld := ⟨0x180010 + i % 2 * 0x4, 2, 1, 0, .ro⟩

/-- ENC.CORE_STATUS.CTX, bits [7:4], RO, reset 0 (09_encode). -/
def ENC_CORE_STATUS_CTX (i : Nat) : Fld := ⟨0x180010 + i % 2 * 0x4, 4, 4, 0, .ro⟩

/-- ENC.CORE_STATUS.QUEUED, bits [12:8], RO, reset 0 (09_encode). -/
def ENC_CORE_STATUS_QUEUED (i : Nat) : Fld := ⟨0x180010 + i % 2 * 0x4, 8, 5, 0, .ro⟩

/-- ENC.CTX_STATUS.ENABLED, bits [0:0], RO, reset Image (09_encode). -/
def ENC_CTX_STATUS_ENABLED (i : Nat) : Fld := ⟨0x180400 + i % 16 * 0x40, 0, 1, 0, .ro⟩

/-- ENC.CTX_STATUS.RC_REFUSED, bits [1:1], W1C, reset 0 (09_encode). -/
def ENC_CTX_STATUS_RC_REFUSED (i : Nat) : Fld := ⟨0x180400 + i % 16 * 0x40, 1, 1, 0, .w1c⟩

/-- ENC.CTX_STATUS.GO_PENDING, bits [2:2], RO, reset 0 (09_encode). -/
def ENC_CTX_STATUS_GO_PENDING (i : Nat) : Fld := ⟨0x180400 + i % 16 * 0x40, 2, 1, 0, .ro⟩

/-- ENC.CTX_STATUS.QP, bits [13:8], RO, reset 0 (09_encode). -/
def ENC_CTX_STATUS_QP (i : Nat) : Fld := ⟨0x180400 + i % 16 * 0x40, 8, 6, 0, .ro⟩

/-- ENC.RC_TARGET.BITS, bits [31:0], RW, reset 0 (09_encode). -/
def ENC_RC_TARGET_BITS (i : Nat) : Fld := ⟨0x180404 + i % 16 * 0x40, 0, 32, 0, .rw⟩

/-- ENC.RC_CEIL.BITS, bits [31:0], RW, reset 0 (09_encode). -/
def ENC_RC_CEIL_BITS (i : Nat) : Fld := ⟨0x180408 + i % 16 * 0x40, 0, 32, 0, .rw⟩

/-- ENC.RC_CTRL.QP, bits [5:0], RW, reset 0 (09_encode). -/
def ENC_RC_CTRL_QP (i : Nat) : Fld := ⟨0x18040c + i % 16 * 0x40, 0, 6, 0, .rw⟩

/-- ENC.RC_CTRL.FORCE_IDR, bits [8:8], W1S, reset 0 (09_encode). -/
def ENC_RC_CTRL_FORCE_IDR (i : Nat) : Fld := ⟨0x18040c + i % 16 * 0x40, 8, 1, 0, .w1s⟩

/-- ENC.RC_CTRL.GO, bits [31:31], W1S, reset 0 (09_encode). -/
def ENC_RC_CTRL_GO (i : Nat) : Fld := ⟨0x18040c + i % 16 * 0x40, 31, 1, 0, .w1s⟩

/-- ENC.LAST_BITS.BITS, bits [23:0], RO, reset 0 (09_encode). -/
def ENC_LAST_BITS_BITS (i : Nat) : Fld := ⟨0x180410 + i % 16 * 0x40, 0, 24, 0, .ro⟩

/-- ENC.LAST_BITS.SEQ, bits [31:24], RO, reset 0 (09_encode). -/
def ENC_LAST_BITS_SEQ (i : Nat) : Fld := ⟨0x180410 + i % 16 * 0x40, 24, 8, 0, .ro⟩

/-- ENC.LAST_INFO.IDR, bits [0:0], RO, reset 0 (09_encode). -/
def ENC_LAST_INFO_IDR (i : Nat) : Fld := ⟨0x180414 + i % 16 * 0x40, 0, 1, 0, .ro⟩

/-- ENC.LAST_INFO.BUDGET_TAIL, bits [1:1], RO, reset 0 (09_encode). -/
def ENC_LAST_INFO_BUDGET_TAIL (i : Nat) : Fld := ⟨0x180414 + i % 16 * 0x40, 1, 1, 0, .ro⟩

/-- ENC.LAST_INFO.TAIL_ROW, bits [7:2], RO, reset 0 (09_encode). -/
def ENC_LAST_INFO_TAIL_ROW (i : Nat) : Fld := ⟨0x180414 + i % 16 * 0x40, 2, 6, 0, .ro⟩

/-- ENC.LAST_INFO.MEAN_QP, bits [13:8], RO, reset 0 (09_encode). -/
def ENC_LAST_INFO_MEAN_QP (i : Nat) : Fld := ⟨0x180414 + i % 16 * 0x40, 8, 6, 0, .ro⟩

/-- ENC.LAST_INFO.FRAME_LSB, bits [23:16], RO, reset 0 (09_encode). -/
def ENC_LAST_INFO_FRAME_LSB (i : Nat) : Fld := ⟨0x180414 + i % 16 * 0x40, 16, 8, 0, .ro⟩

/-- ENC.LAST_INFO.SEQ, bits [31:24], RO, reset 0 (09_encode). -/
def ENC_LAST_INFO_SEQ (i : Nat) : Fld := ⟨0x180414 + i % 16 * 0x40, 24, 8, 0, .ro⟩

/-- ENC.COUNTS.INPUT_LOST, bits [7:0], RC, reset 0 (09_encode). -/
def ENC_COUNTS_INPUT_LOST (i : Nat) : Fld := ⟨0x180418 + i % 16 * 0x40, 0, 8, 0, .rc⟩

/-- ENC.COUNTS.INPUT_SKIP, bits [15:8], RC, reset 0 (09_encode). -/
def ENC_COUNTS_INPUT_SKIP (i : Nat) : Fld := ⟨0x180418 + i % 16 * 0x40, 8, 8, 0, .rc⟩

/-- ENC.COUNTS.TAILS, bits [23:16], RC, reset 0 (09_encode). -/
def ENC_COUNTS_TAILS (i : Nat) : Fld := ⟨0x180418 + i % 16 * 0x40, 16, 8, 0, .rc⟩

/-- ENC.COUNTS.OUT_DROP, bits [31:24], RC, reset 0 (09_encode). -/
def ENC_COUNTS_OUT_DROP (i : Nat) : Fld := ⟨0x180418 + i % 16 * 0x40, 24, 8, 0, .rc⟩

/-- ENC.OUT_WR.OFFSET, bits [31:0], RO, reset 0 (09_encode). -/
def ENC_OUT_WR_OFFSET (i : Nat) : Fld := ⟨0x18041c + i % 16 * 0x40, 0, 32, 0, .ro⟩

/-- ENC.OUT_RD.OFFSET, bits [31:0], RW, reset 0 (09_encode). -/
def ENC_OUT_RD_OFFSET (i : Nat) : Fld := ⟨0x180420 + i % 16 * 0x40, 0, 32, 0, .rw⟩

/-- CMP.IRQ_CTRL.REL_IRQ_EN, bits [0:0], RW, reset 0 (06_composition). -/
def CMP_IRQ_CTRL_REL_IRQ_EN : Fld := ⟨0x200000, 0, 1, 0, .rw⟩

/-- CMP.IRQ_CTRL.WP_IRQ_EN, bits [1:1], RW, reset 0 (06_composition). -/
def CMP_IRQ_CTRL_WP_IRQ_EN : Fld := ⟨0x200000, 1, 1, 0, .rw⟩

/-- CMP.IRQ_CTRL.VECTOR, bits [26:16], RW, reset 0 (06_composition). -/
def CMP_IRQ_CTRL_VECTOR : Fld := ⟨0x200000, 16, 11, 0, .rw⟩

/-- CMP.REL_DOORBELL_LO.BITS, bits [31:0], W1C, reset 0 (06_composition). -/
def CMP_REL_DOORBELL_LO_BITS : Fld := ⟨0x200010, 0, 32, 0, .w1c⟩

/-- CMP.REL_DOORBELL_HI.BITS, bits [31:0], W1C, reset 0 (06_composition). -/
def CMP_REL_DOORBELL_HI_BITS : Fld := ⟨0x200014, 0, 32, 0, .w1c⟩

/-- CMP.REL_DONE.HANDLE, bits [11:0], RC, reset 0 (06_composition). -/
def CMP_REL_DONE_HANDLE : Fld := ⟨0x200018, 0, 12, 0, .rc⟩

/-- CMP.REL_DONE.LOST, bits [30:30], RC, reset 0 (06_composition). -/
def CMP_REL_DONE_LOST : Fld := ⟨0x200018, 30, 1, 0, .rc⟩

/-- CMP.REL_DONE.VALID, bits [31:31], RC, reset 0 (06_composition). -/
def CMP_REL_DONE_VALID : Fld := ⟨0x200018, 31, 1, 0, .rc⟩

/-- CMP.SURF_CMD.HANDLE, bits [11:0], WO, reset 0 (06_composition). -/
def CMP_SURF_CMD_HANDLE : Fld := ⟨0x200020, 0, 12, 0, .wo⟩

/-- CMP.SURF_CMD.OP, bits [13:12], WO, reset 0b00 (06_composition). -/
def CMP_SURF_CMD_OP : Fld := ⟨0x200020, 12, 2, 0, .wo⟩

/-- CMP.SURF_CMD.DOORBELL, bits [21:16], WO, reset 0 (06_composition). -/
def CMP_SURF_CMD_DOORBELL : Fld := ⟨0x200020, 16, 6, 0, .wo⟩

/-- CMP.SURF_CMD_RESULT.RESULT, bits [1:0], RO, reset 0b00 (06_composition). -/
def CMP_SURF_CMD_RESULT_RESULT : Fld := ⟨0x200024, 0, 2, 0, .ro⟩

/-- CMP.SURF_CMD_RESULT.HANDLE, bits [27:16], RO, reset 0 (06_composition). -/
def CMP_SURF_CMD_RESULT_HANDLE : Fld := ⟨0x200024, 16, 12, 0, .ro⟩

/-- CMP.WP_FAULT.HANDLE, bits [11:0], RO, reset 0 (06_composition). -/
def CMP_WP_FAULT_HANDLE : Fld := ⟨0x200030, 0, 12, 0, .ro⟩

/-- CMP.WP_FAULT.SOURCE, bits [12:12], RO, reset 0 (06_composition). -/
def CMP_WP_FAULT_SOURCE : Fld := ⟨0x200030, 12, 1, 0, .ro⟩

/-- CMP.WP_FAULT.VALID, bits [31:31], W1C, reset 0 (06_composition). -/
def CMP_WP_FAULT_VALID : Fld := ⟨0x200030, 31, 1, 0, .w1c⟩

/-- CMP.WP_ADDR_LO.ADDR, bits [31:0], RO, reset 0 (06_composition). -/
def CMP_WP_ADDR_LO_ADDR : Fld := ⟨0x200034, 0, 32, 0, .ro⟩

/-- CMP.WP_ADDR_HI.ADDR, bits [31:0], RO, reset 0 (06_composition). -/
def CMP_WP_ADDR_HI_ADDR : Fld := ⟨0x200038, 0, 32, 0, .ro⟩

/-- CMP.WP_COUNT.COUNT, bits [31:0], RC, reset 0 (06_composition). -/
def CMP_WP_COUNT_COUNT : Fld := ⟨0x20003c, 0, 32, 0, .rc⟩

/-- CMP.SURF_PROBE.HANDLE, bits [11:0], RW, reset 0 (06_composition). -/
def CMP_SURF_PROBE_HANDLE : Fld := ⟨0x200040, 0, 12, 0, .rw⟩

/-- CMP.SURF_STATUS.STATE, bits [1:0], RO, reset 0b00 (06_composition). -/
def CMP_SURF_STATUS_STATE : Fld := ⟨0x200044, 0, 2, 0, .ro⟩

/-- CMP.SURF_STATUS.RETAIN, bits [2:2], RO, reset 0 (06_composition). -/
def CMP_SURF_STATUS_RETAIN : Fld := ⟨0x200044, 2, 1, 0, .ro⟩

/-- CMP.SURF_STATUS.ANCIENT, bits [3:3], RO, reset 0 (06_composition). -/
def CMP_SURF_STATUS_ANCIENT : Fld := ⟨0x200044, 3, 1, 0, .ro⟩

/-- CMP.SURF_STATUS.FORMAT, bits [7:4], RO, reset 0 (06_composition). -/
def CMP_SURF_STATUS_FORMAT : Fld := ⟨0x200044, 4, 4, 0, .ro⟩

/-- CMP.SURF_STATUS.CODING, bits [9:8], RO, reset 0 (06_composition). -/
def CMP_SURF_STATUS_CODING : Fld := ⟨0x200044, 8, 2, 0, .ro⟩

/-- CMP.SURF_STATUS.CLASS, bits [11:10], RO, reset 0 (06_composition). -/
def CMP_SURF_STATUS_CLASS : Fld := ⟨0x200044, 10, 2, 0, .ro⟩

/-- CMP.SURF_STATUS.FAULT, bits [12:12], RO, reset 0 (06_composition). -/
def CMP_SURF_STATUS_FAULT : Fld := ⟨0x200044, 12, 1, 0, .ro⟩

/-- CMP.SURF_STATUS.TAG_REFUSED, bits [13:13], W1C, reset 0 (06_composition). -/
def CMP_SURF_STATUS_TAG_REFUSED : Fld := ⟨0x200044, 13, 1, 0, .w1c⟩

/-- CMP.SURF_STATUS.LEASES, bits [31:16], RO, reset 0 (06_composition). -/
def CMP_SURF_STATUS_LEASES : Fld := ⟨0x200044, 16, 16, 0, .ro⟩

/-- CMP.SURF_GEOM.WIDTH, bits [15:0], RO, reset 0 (06_composition). -/
def CMP_SURF_GEOM_WIDTH : Fld := ⟨0x200048, 0, 16, 0, .ro⟩

/-- CMP.SURF_GEOM.HEIGHT, bits [31:16], RO, reset 0 (06_composition). -/
def CMP_SURF_GEOM_HEIGHT : Fld := ⟨0x200048, 16, 16, 0, .ro⟩

/-- CMP.SURF_ADDR.OFFSET, bits [31:0], RO, reset 0 (06_composition). -/
def CMP_SURF_ADDR_OFFSET : Fld := ⟨0x20004c, 0, 32, 0, .ro⟩

/-- CMP.SURF_TAG.VT, bits [31:0], RW, reset 0 (06_composition). -/
def CMP_SURF_TAG_VT : Fld := ⟨0x200050, 0, 32, 0, .rw⟩

/-- CMP.ENGINE_STATUS.ACTIVE, bits [0:0], RO, reset Image (06_composition). -/
def CMP_ENGINE_STATUS_ACTIVE (i : Nat) : Fld := ⟨0x200100 + i % 9 * 0x4, 0, 1, 0, .ro⟩

/-- CMP.ENGINE_STATUS.FAULTED, bits [1:1], RO, reset 0 (06_composition). -/
def CMP_ENGINE_STATUS_FAULTED (i : Nat) : Fld := ⟨0x200100 + i % 9 * 0x4, 1, 1, 0, .ro⟩

/-- CMP.ENGINE_STATUS.SPARE, bits [2:2], RO, reset 0 (06_composition). -/
def CMP_ENGINE_STATUS_SPARE (i : Nat) : Fld := ⟨0x200100 + i % 9 * 0x4, 2, 1, 0, .ro⟩

/-- CMP.ENGINE_STATUS.HEADS, bits [9:4], RO, reset Image (06_composition). -/
def CMP_ENGINE_STATUS_HEADS (i : Nat) : Fld := ⟨0x200100 + i % 9 * 0x4, 4, 6, 0, .ro⟩

/-- CMP.ENGINE_STATUS.ERR_RESP, bits [31:16], RC, reset 0 (06_composition). -/
def CMP_ENGINE_STATUS_ERR_RESP (i : Nat) : Fld := ⟨0x200100 + i % 9 * 0x4, 16, 16, 0, .rc⟩

/-- CMP.HEAD_BG.COLOUR, bits [29:0], RW, reset 0 (06_composition). -/
def CMP_HEAD_BG_COLOUR (i : Nat) : Fld := ⟨0x200200 + i % 48 * 0x4, 0, 30, 0, .rw⟩

/-- CMP.FANOUT.READERS, bits [7:0], RO, reset Image (06_composition). -/
def CMP_FANOUT_READERS (i : Nat) : Fld := ⟨0x200300 + i % 48 * 0x4, 0, 8, 0, .ro⟩

/-- CMP.FANOUT.OVERRUN, bits [31:16], RC, reset 0 (06_composition). -/
def CMP_FANOUT_OVERRUN (i : Nat) : Fld := ⟨0x200300 + i % 48 * 0x4, 16, 16, 0, .rc⟩

/-- CMP.LAYER_STATUS.ENABLED, bits [0:0], RO, reset Image (06_composition). -/
def CMP_LAYER_STATUS_ENABLED (i : Nat) : Fld := ⟨0x201000 + i % 1024 * 0x4, 0, 1, 0, .ro⟩

/-- CMP.LAYER_STATUS.ARMED, bits [1:1], RO, reset 0 (06_composition). -/
def CMP_LAYER_STATUS_ARMED (i : Nat) : Fld := ⟨0x201000 + i % 1024 * 0x4, 1, 1, 0, .ro⟩

/-- CMP.LAYER_STATUS.CREDIT, bits [2:2], RO, reset Image (06_composition). -/
def CMP_LAYER_STATUS_CREDIT (i : Nat) : Fld := ⟨0x201000 + i % 1024 * 0x4, 2, 1, 0, .ro⟩

/-- CMP.LAYER_STATUS.REFUSE, bits [7:4], RO, reset 0x0 (06_composition). -/
def CMP_LAYER_STATUS_REFUSE (i : Nat) : Fld := ⟨0x201000 + i % 1024 * 0x4, 4, 4, 0x0, .ro⟩

/-- CMP.LAYER_STATUS.REFUSED, bits [8:8], W1C, reset 0 (06_composition). -/
def CMP_LAYER_STATUS_REFUSED (i : Nat) : Fld := ⟨0x201000 + i % 1024 * 0x4, 8, 1, 0, .w1c⟩

/-- CMP.LAYER_STATUS.HEAD, bits [21:16], RO, reset Image (06_composition). -/
def CMP_LAYER_STATUS_HEAD (i : Nat) : Fld := ⟨0x201000 + i % 1024 * 0x4, 16, 6, 0, .ro⟩

/-- HDS.SRC_MAC_LO.ADDR, bits [31:0], RO, reset Fixed (08_heads). -/
def HDS_SRC_MAC_LO_ADDR : Fld := ⟨0x300000, 0, 32, (Config.fixedReg ((0x300000) * 32 + 0) % 2 ^ 32), .ro⟩

/-- HDS.SRC_MAC_HI.ADDR, bits [15:0], RO, reset Fixed (08_heads). -/
def HDS_SRC_MAC_HI_ADDR : Fld := ⟨0x300004, 0, 16, (Config.fixedReg ((0x300004) * 32 + 0) % 2 ^ 16), .ro⟩

/-- HDS.TE_DA_LO.ADDR, bits [31:0], RW, reset 0 (08_heads). -/
def HDS_TE_DA_LO_ADDR : Fld := ⟨0x300008, 0, 32, 0, .rw⟩

/-- HDS.TE_DA_HI.ADDR, bits [15:0], RW, reset 0 (08_heads). -/
def HDS_TE_DA_HI_ADDR : Fld := ⟨0x30000c, 0, 16, 0, .rw⟩

/-- HDS.COMMIT.TARGET, bits [7:0], WO, reset 0 (08_heads). -/
def HDS_COMMIT_TARGET (i : Nat) : Fld := ⟨0x301000 + i % 48 * 0x40, 0, 8, 0, .wo⟩

/-- HDS.COMMIT.TARGETED, bits [8:8], WO, reset 0 (08_heads). -/
def HDS_COMMIT_TARGETED (i : Nat) : Fld := ⟨0x301000 + i % 48 * 0x40, 8, 1, 0, .wo⟩

/-- HDS.COMMIT.GO, bits [31:31], W1S, reset 0 (08_heads). -/
def HDS_COMMIT_GO (i : Nat) : Fld := ⟨0x301000 + i % 48 * 0x40, 31, 1, 0, .w1s⟩

/-- HDS.STATUS.ENABLED, bits [0:0], RO, reset Image (08_heads). -/
def HDS_STATUS_ENABLED (i : Nat) : Fld := ⟨0x301004 + i % 48 * 0x40, 0, 1, 0, .ro⟩

/-- HDS.STATUS.COMMIT_PENDING, bits [1:1], RO, reset 0 (08_heads). -/
def HDS_STATUS_COMMIT_PENDING (i : Nat) : Fld := ⟨0x301004 + i % 48 * 0x40, 1, 1, 0, .ro⟩

/-- HDS.STATUS.COMMIT_LATE, bits [2:2], W1C, reset 0 (08_heads). -/
def HDS_STATUS_COMMIT_LATE (i : Nat) : Fld := ⟨0x301004 + i % 48 * 0x40, 2, 1, 0, .w1c⟩

/-- HDS.STATUS.COMMIT_MERGED, bits [3:3], W1C, reset 0 (08_heads). -/
def HDS_STATUS_COMMIT_MERGED (i : Nat) : Fld := ⟨0x301004 + i % 48 * 0x40, 3, 1, 0, .w1c⟩

/-- HDS.STATUS.FAULT_SEEN, bits [4:4], W1C, reset 0 (08_heads). -/
def HDS_STATUS_FAULT_SEEN (i : Nat) : Fld := ⟨0x301004 + i % 48 * 0x40, 4, 1, 0, .w1c⟩

/-- HDS.STATUS.MARKER, bits [5:5], RO, reset 0 (08_heads). -/
def HDS_STATUS_MARKER (i : Nat) : Fld := ⟨0x301004 + i % 48 * 0x40, 5, 1, 0, .ro⟩

/-- HDS.STATUS.SHORT_MARKER, bits [6:6], W1C, reset 0 (08_heads). -/
def HDS_STATUS_SHORT_MARKER (i : Nat) : Fld := ⟨0x301004 + i % 48 * 0x40, 6, 1, 0, .w1c⟩

/-- HDS.STATUS.TE_LOCKED, bits [7:7], RO, reset 0 (08_heads). -/
def HDS_STATUS_TE_LOCKED (i : Nat) : Fld := ⟨0x301004 + i % 48 * 0x40, 7, 1, 0, .ro⟩

/-- HDS.STATUS.TE_SLEWING, bits [8:8], RO, reset 0 (08_heads). -/
def HDS_STATUS_TE_SLEWING (i : Nat) : Fld := ⟨0x301004 + i % 48 * 0x40, 8, 1, 0, .ro⟩

/-- HDS.FRAME.FRAME, bits [31:0], RO, reset 0 (08_heads). -/
def HDS_FRAME_FRAME (i : Nat) : Fld := ⟨0x301008 + i % 48 * 0x40, 0, 32, 0, .ro⟩

/-- HDS.COMMIT_FRAME.FRAME, bits [31:0], RO, reset 0 (08_heads). -/
def HDS_COMMIT_FRAME_FRAME (i : Nat) : Fld := ⟨0x30100c + i % 48 * 0x40, 0, 32, 0, .ro⟩

/-- HDS.PHASE_LO.PHI, bits [31:0], RO, reset 0 (08_heads). -/
def HDS_PHASE_LO_PHI (i : Nat) : Fld := ⟨0x301010 + i % 48 * 0x40, 0, 32, 0, .ro⟩

/-- HDS.PHASE_HI.PHI, bits [31:0], RO, reset 0 (08_heads). -/
def HDS_PHASE_HI_PHI (i : Nat) : Fld := ⟨0x301014 + i % 48 * 0x40, 0, 32, 0, .ro⟩

/-- HDS.EPOCH_LO.DT, bits [31:0], RO, reset Image (08_heads). -/
def HDS_EPOCH_LO_DT (i : Nat) : Fld := ⟨0x301018 + i % 48 * 0x40, 0, 32, 0, .ro⟩

/-- HDS.EPOCH_HI.DT, bits [31:0], RO, reset Image (08_heads). -/
def HDS_EPOCH_HI_DT (i : Nat) : Fld := ⟨0x30101c + i % 48 * 0x40, 0, 32, 0, .ro⟩

/-- HDS.TE_CTRL.TE_EN, bits [0:0], RW, reset 0 (08_heads). -/
def HDS_TE_CTRL_TE_EN (i : Nat) : Fld := ⟨0x301020 + i % 48 * 0x40, 0, 1, 0, .rw⟩

/-- HDS.TE_CTRL.DEADBAND, bits [15:8], RW, reset 0x02 (08_heads). -/
def HDS_TE_CTRL_DEADBAND (i : Nat) : Fld := ⟨0x301020 + i % 48 * 0x40, 8, 8, 0x2, .rw⟩

/-- HDS.TE_CTRL.TARGET, bits [31:16], RW, reset 0 (08_heads). -/
def HDS_TE_CTRL_TARGET (i : Nat) : Fld := ⟨0x301020 + i % 48 * 0x40, 16, 16, 0, .rw⟩

/-- HDS.TE_STATUS.LAST_FRAME, bits [7:0], RO, reset 0 (08_heads). -/
def HDS_TE_STATUS_LAST_FRAME (i : Nat) : Fld := ⟨0x301024 + i % 48 * 0x40, 0, 8, 0, .ro⟩

/-- HDS.TE_STATUS.VALID, bits [8:8], RO, reset 0 (08_heads). -/
def HDS_TE_STATUS_VALID (i : Nat) : Fld := ⟨0x301024 + i % 48 * 0x40, 8, 1, 0, .ro⟩

/-- HDS.TE_STATUS.ERROR, bits [31:16], RO, reset 0 (08_heads). -/
def HDS_TE_STATUS_ERROR (i : Nat) : Fld := ⟨0x301024 + i % 48 * 0x40, 16, 16, 0, .ro⟩

/-- HDS.COUNTS.FAULT_SLICES, bits [15:0], RC, reset 0 (08_heads). -/
def HDS_COUNTS_FAULT_SLICES (i : Nat) : Fld := ⟨0x301028 + i % 48 * 0x40, 0, 16, 0, .rc⟩

/-- HDS.COUNTS.LATE_COMMITS, bits [23:16], RC, reset 0 (08_heads). -/
def HDS_COUNTS_LATE_COMMITS (i : Nat) : Fld := ⟨0x301028 + i % 48 * 0x40, 16, 8, 0, .rc⟩

/-- HDS.COUNTS.TE_DROPS, bits [31:24], RC, reset 0 (08_heads). -/
def HDS_COUNTS_TE_DROPS (i : Nat) : Fld := ⟨0x301028 + i % 48 * 0x40, 24, 8, 0, .rc⟩

/-- HDS.PKTS.COUNT, bits [31:0], RO, reset 0 (08_heads). -/
def HDS_PKTS_COUNT (i : Nat) : Fld := ⟨0x30102c + i % 48 * 0x40, 0, 32, 0, .ro⟩

/-- MIM.STATUS.ACTIVE, bits [0:0], RO, reset Image (07_mimic). -/
def MIM_STATUS_ACTIVE : Fld := ⟨0x380000, 0, 1, 0, .ro⟩

/-- MIM.STATUS.BUSY, bits [1:1], RO, reset 0 (07_mimic). -/
def MIM_STATUS_BUSY : Fld := ⟨0x380000, 1, 1, 0, .ro⟩

/-- MIM.STATUS.QUEUED, bits [15:8], RO, reset 0 (07_mimic). -/
def MIM_STATUS_QUEUED : Fld := ⟨0x380000, 8, 8, 0, .ro⟩

/-- MIM.BATCHES.COUNT, bits [31:0], RO, reset 0 (07_mimic). -/
def MIM_BATCHES_COUNT : Fld := ⟨0x380004, 0, 32, 0, .ro⟩

/-- MIM.LAT_LAST.NS, bits [31:0], RO, reset 0 (07_mimic). -/
def MIM_LAT_LAST_NS : Fld := ⟨0x380008, 0, 32, 0, .ro⟩

/-- MIM.LAT_MAX.NS, bits [31:0], RC, reset 0 (07_mimic). -/
def MIM_LAT_MAX_NS : Fld := ⟨0x38000c, 0, 32, 0, .rc⟩

/-- MIM.ERRORS.ATLAS, bits [15:0], RC, reset 0 (07_mimic). -/
def MIM_ERRORS_ATLAS : Fld := ⟨0x380010, 0, 16, 0, .rc⟩

/-- MIM.ERRORS.WRITE, bits [31:16], RC, reset 0 (07_mimic). -/
def MIM_ERRORS_WRITE : Fld := ⟨0x380010, 16, 16, 0, .rc⟩

/-- MIM.WP_COUNT.COUNT, bits [15:0], RC, reset 0 (07_mimic). -/
def MIM_WP_COUNT_COUNT : Fld := ⟨0x380014, 0, 16, 0, .rc⟩

/-- MIM.OVERRUN.COUNT, bits [15:0], RC, reset 0 (07_mimic). -/
def MIM_OVERRUN_COUNT : Fld := ⟨0x380018, 0, 16, 0, .rc⟩

/-- MIM.WIDGET_PROBE.WIDGET, bits [15:0], RW, reset 0 (07_mimic). -/
def MIM_WIDGET_PROBE_WIDGET : Fld := ⟨0x380020, 0, 16, 0, .rw⟩

/-- MIM.WIDGET_STATE.ENTRY, bits [3:0], RO, reset 0 (07_mimic). -/
def MIM_WIDGET_STATE_ENTRY : Fld := ⟨0x380024, 0, 4, 0, .ro⟩

/-- MIM.WIDGET_STATE.ANCIENT, bits [4:4], RO, reset 0 (07_mimic). -/
def MIM_WIDGET_STATE_ANCIENT : Fld := ⟨0x380024, 4, 1, 0, .ro⟩

/-- MIM.WIDGET_STATE.FAULT, bits [5:5], RO, reset 0 (07_mimic). -/
def MIM_WIDGET_STATE_FAULT : Fld := ⟨0x380024, 5, 1, 0, .ro⟩

/-- MIM.WIDGET_STATE.CLASS, bits [7:6], RO, reset 0 (07_mimic). -/
def MIM_WIDGET_STATE_CLASS : Fld := ⟨0x380024, 6, 2, 0, .ro⟩

/-- MIM.WIDGET_STATE.ENABLED, bits [8:8], RO, reset 0 (07_mimic). -/
def MIM_WIDGET_STATE_ENABLED : Fld := ⟨0x380024, 8, 1, 0, .ro⟩

/-- MIM.WIDGET_STATE.BOUND, bits [9:9], RO, reset 0 (07_mimic). -/
def MIM_WIDGET_STATE_BOUND : Fld := ⟨0x380024, 9, 1, 0, .ro⟩

/-- MIM.WIDGET_STATE.SURFACE, bits [21:16], RO, reset 0 (07_mimic). -/
def MIM_WIDGET_STATE_SURFACE : Fld := ⟨0x380024, 16, 6, 0, .ro⟩

/-- MIM.WIDGET_VT.VT, bits [31:0], RO, reset 0 (07_mimic). -/
def MIM_WIDGET_VT_VT : Fld := ⟨0x380028, 0, 32, 0, .ro⟩

/-- MIM.CELL_PROBE.SURFACE, bits [5:0], RW, reset 0 (07_mimic). -/
def MIM_CELL_PROBE_SURFACE : Fld := ⟨0x380030, 0, 6, 0, .rw⟩

/-- MIM.CELL_PROBE.CELL, bits [29:16], RW, reset 0 (07_mimic). -/
def MIM_CELL_PROBE_CELL : Fld := ⟨0x380030, 16, 14, 0, .rw⟩

/-- MIM.CELL_STATE.FLAGS, bits [5:0], RO, reset 0 (07_mimic). -/
def MIM_CELL_STATE_FLAGS : Fld := ⟨0x380034, 0, 6, 0, .ro⟩

/-- MIM.CELL_STATE.WIDGETS, bits [13:8], RO, reset 0 (07_mimic). -/
def MIM_CELL_STATE_WIDGETS : Fld := ⟨0x380034, 8, 6, 0, .ro⟩

/-- MIM.CELL_VT.VT, bits [31:0], RO, reset 0 (07_mimic). -/
def MIM_CELL_VT_VT : Fld := ⟨0x380038, 0, 32, 0, .ro⟩

/-- MIM.SURF_STATUS.ENABLED, bits [0:0], RO, reset Image (07_mimic). -/
def MIM_SURF_STATUS_ENABLED (i : Nat) : Fld := ⟨0x380100 + i % 64 * 0x4, 0, 1, 0, .ro⟩

/-- MIM.SURF_STATUS.DRAWN, bits [1:1], RO, reset 0 (07_mimic). -/
def MIM_SURF_STATUS_DRAWN (i : Nat) : Fld := ⟨0x380100 + i % 64 * 0x4, 1, 1, 0, .ro⟩

/-- MIM.SURF_STATUS.LEASES, bits [31:16], RO, reset 0 (07_mimic). -/
def MIM_SURF_STATUS_LEASES (i : Nat) : Fld := ⟨0x380100 + i % 64 * 0x4, 16, 16, 0, .ro⟩

/-- FRS.SYNC_BOUND.BOUND, bits [25:0], RO, reset Image (02_freshness). -/
def FRS_SYNC_BOUND_BOUND : Fld := ⟨0x3c0000, 0, 26, 0, .ro⟩

/-- FRS.SYNC_BOUND.SYNC_OK, bits [31:31], RO, reset 0 (02_freshness). -/
def FRS_SYNC_BOUND_SYNC_OK : Fld := ⟨0x3c0000, 31, 1, 0, .ro⟩

/-- FRS.EVT_BASE_LO.ADDR, bits [31:0], RO, reset Image (02_freshness). -/
def FRS_EVT_BASE_LO_ADDR : Fld := ⟨0x3c0010, 0, 32, 0, .ro⟩

/-- FRS.EVT_BASE_HI.ADDR, bits [31:0], RO, reset Image (02_freshness). -/
def FRS_EVT_BASE_HI_ADDR : Fld := ⟨0x3c0014, 0, 32, 0, .ro⟩

/-- FRS.EVT_WR.INDEX, bits [11:0], RO, reset 0 (02_freshness). -/
def FRS_EVT_WR_INDEX : Fld := ⟨0x3c0018, 0, 12, 0, .ro⟩

/-- FRS.EVT_RD.INDEX, bits [11:0], RW, reset 0 (02_freshness). -/
def FRS_EVT_RD_INDEX : Fld := ⟨0x3c001c, 0, 12, 0, .rw⟩

/-- FRS.EVT_LOST.COUNT, bits [15:0], RC, reset 0 (02_freshness). -/
def FRS_EVT_LOST_COUNT : Fld := ⟨0x3c0020, 0, 16, 0, .rc⟩

/-- FRS.HEAD_SUMMARY.WORST, bits [2:0], RO, reset 0 (02_freshness). -/
def FRS_HEAD_SUMMARY_WORST (i : Nat) : Fld := ⟨0x3c0100 + i % 48 * 0x8, 0, 3, 0, .ro⟩

/-- FRS.HEAD_SUMMARY.PRESENT, bits [9:4], RO, reset 0 (02_freshness). -/
def FRS_HEAD_SUMMARY_PRESENT (i : Nat) : Fld := ⟨0x3c0100 + i % 48 * 0x8, 4, 6, 0, .ro⟩

/-- FRS.HEAD_SUMMARY.NONLIVE_SLICES, bits [22:16], RO, reset 0 (02_freshness). -/
def FRS_HEAD_SUMMARY_NONLIVE_SLICES (i : Nat) : Fld := ⟨0x3c0100 + i % 48 * 0x8, 16, 7, 0, .ro⟩

/-- FRS.HEAD_SUMMARY.FRAME_LSB, bits [31:24], RO, reset 0 (02_freshness). -/
def FRS_HEAD_SUMMARY_FRAME_LSB (i : Nat) : Fld := ⟨0x3c0100 + i % 48 * 0x8, 24, 8, 0, .ro⟩

/-- FRS.HEAD_STICKY.SEEN_STALE, bits [1:1], W1C, reset 0 (02_freshness). -/
def FRS_HEAD_STICKY_SEEN_STALE (i : Nat) : Fld := ⟨0x3c0104 + i % 48 * 0x8, 1, 1, 0, .w1c⟩

/-- FRS.HEAD_STICKY.SEEN_FROZEN, bits [2:2], W1C, reset 0 (02_freshness). -/
def FRS_HEAD_STICKY_SEEN_FROZEN (i : Nat) : Fld := ⟨0x3c0104 + i % 48 * 0x8, 2, 1, 0, .w1c⟩

/-- FRS.HEAD_STICKY.SEEN_CONCEALED, bits [3:3], W1C, reset 0 (02_freshness). -/
def FRS_HEAD_STICKY_SEEN_CONCEALED (i : Nat) : Fld := ⟨0x3c0104 + i % 48 * 0x8, 3, 1, 0, .w1c⟩

/-- FRS.HEAD_STICKY.SEEN_UNPROVEN, bits [4:4], W1C, reset 0 (02_freshness). -/
def FRS_HEAD_STICKY_SEEN_UNPROVEN (i : Nat) : Fld := ⟨0x3c0104 + i % 48 * 0x8, 4, 1, 0, .w1c⟩

/-- FRS.HEAD_STICKY.SEEN_FAULT, bits [5:5], W1C, reset 0 (02_freshness). -/
def FRS_HEAD_STICKY_SEEN_FAULT (i : Nat) : Fld := ⟨0x3c0104 + i % 48 * 0x8, 5, 1, 0, .w1c⟩

/-- FRS.LAYER_STATE.WORST, bits [2:0], RO, reset 0 (02_freshness). -/
def FRS_LAYER_STATE_WORST (i : Nat) : Fld := ⟨0x3c1000 + i % 1024 * 0x8, 0, 3, 0, .ro⟩

/-- FRS.LAYER_STATE.VISIBLE, bits [3:3], RO, reset 0 (02_freshness). -/
def FRS_LAYER_STATE_VISIBLE (i : Nat) : Fld := ⟨0x3c1000 + i % 1024 * 0x8, 3, 1, 0, .ro⟩

/-- FRS.LAYER_STATE.CLASS, bits [5:4], RO, reset 0 (02_freshness). -/
def FRS_LAYER_STATE_CLASS (i : Nat) : Fld := ⟨0x3c1000 + i % 1024 * 0x8, 4, 2, 0, .ro⟩

/-- FRS.LAYER_STATE.LIVE_BEARING, bits [6:6], RO, reset Image (02_freshness). -/
def FRS_LAYER_STATE_LIVE_BEARING (i : Nat) : Fld := ⟨0x3c1000 + i % 1024 * 0x8, 6, 1, 0, .ro⟩

/-- FRS.LAYER_STATE.GINGHAM_EN, bits [7:7], RW, reset Image (02_freshness). -/
def FRS_LAYER_STATE_GINGHAM_EN (i : Nat) : Fld := ⟨0x3c1000 + i % 1024 * 0x8, 7, 1, 0, .rw⟩

/-- FRS.LAYER_STATE.WT_VERDICT, bits [11:8], RO, reset 0 (02_freshness). -/
def FRS_LAYER_STATE_WT_VERDICT (i : Nat) : Fld := ⟨0x3c1000 + i % 1024 * 0x8, 8, 4, 0, .ro⟩

/-- FRS.LAYER_STATE.WT_NO_VERDICT, bits [15:12], RO, reset 0 (02_freshness). -/
def FRS_LAYER_STATE_WT_NO_VERDICT (i : Nat) : Fld := ⟨0x3c1000 + i % 1024 * 0x8, 12, 4, 0, .ro⟩

/-- FRS.LAYER_STATE.WT_BOUND, bits [19:16], RO, reset Image (02_freshness). -/
def FRS_LAYER_STATE_WT_BOUND (i : Nat) : Fld := ⟨0x3c1000 + i % 1024 * 0x8, 16, 4, 0, .ro⟩

/-- FRS.LAYER_STATE.BUDGET_REFUSED, bits [20:20], W1C, reset 0 (02_freshness). -/
def FRS_LAYER_STATE_BUDGET_REFUSED (i : Nat) : Fld := ⟨0x3c1000 + i % 1024 * 0x8, 20, 1, 0, .w1c⟩

/-- FRS.LAYER_BUDGET.BUDGET, bits [25:0], RW, reset Image (02_freshness). -/
def FRS_LAYER_BUDGET_BUDGET (i : Nat) : Fld := ⟨0x3c1004 + i % 1024 * 0x8, 0, 26, 0, .rw⟩

/-- TIM.RAW_LO.COUNT, bits [31:0], RO, reset 0 (12_time). -/
def TIM_RAW_LO_COUNT : Fld := ⟨0x400000, 0, 32, 0, .ro⟩

/-- TIM.RAW_HI.COUNT, bits [31:0], RO, reset 0 (12_time). -/
def TIM_RAW_HI_COUNT : Fld := ⟨0x400004, 0, 32, 0, .ro⟩

/-- TIM.DT_LO.DT, bits [31:0], RO, reset 0 (12_time). -/
def TIM_DT_LO_DT : Fld := ⟨0x400008, 0, 32, 0, .ro⟩

/-- TIM.DT_HI.DT, bits [31:0], RO, reset 0 (12_time). -/
def TIM_DT_HI_DT : Fld := ⟨0x40000c, 0, 32, 0, .ro⟩

/-- TIM.INCR.INCR, bits [31:0], RW, reset 0x2800_0000 (12_time). -/
def TIM_INCR_INCR : Fld := ⟨0x400010, 0, 32, 0x28000000, .rw⟩

/-- TIM.OFFSET_LO.OFFSET, bits [31:0], RW, reset 0 (12_time). -/
def TIM_OFFSET_LO_OFFSET : Fld := ⟨0x400018, 0, 32, 0, .rw⟩

/-- TIM.OFFSET_HI.OFFSET, bits [31:0], RW, reset 0 (12_time). -/
def TIM_OFFSET_HI_OFFSET : Fld := ⟨0x40001c, 0, 32, 0, .rw⟩

/-- TIM.EPOCH_SHIFT_LO.SHIFT, bits [31:0], RWI, reset 0 (12_time). -/
def TIM_EPOCH_SHIFT_LO_SHIFT : Fld := ⟨0x400020, 0, 32, 0, .rwi⟩

/-- TIM.EPOCH_SHIFT_HI.SHIFT, bits [31:0], RWI, reset 0 (12_time). -/
def TIM_EPOCH_SHIFT_HI_SHIFT : Fld := ⟨0x400024, 0, 32, 0, .rwi⟩

/-- TIM.SYNC.CONFIRM, bits [0:0], W1S, reset 0 (12_time). -/
def TIM_SYNC_CONFIRM : Fld := ⟨0x400030, 0, 1, 0, .w1s⟩

/-- TIM.SYNC.LOSE, bits [1:1], W1S, reset 0 (12_time). -/
def TIM_SYNC_LOSE : Fld := ⟨0x400030, 1, 1, 0, .w1s⟩

/-- TIM.SYNC_STATUS.SYNC_OK, bits [0:0], RO, reset 0 (12_time). -/
def TIM_SYNC_STATUS_SYNC_OK : Fld := ⟨0x400034, 0, 1, 0, .ro⟩

/-- TIM.SYNC_STATUS.SLAVE_PORT, bits [3:1], RO, reset 0b000 (12_time). -/
def TIM_SYNC_STATUS_SLAVE_PORT : Fld := ⟨0x400034, 1, 3, 0, .ro⟩

/-- TIM.SYNC_STATUS.ERROR, bits [31:16], RO, reset 0 (12_time). -/
def TIM_SYNC_STATUS_ERROR : Fld := ⟨0x400034, 16, 16, 0, .ro⟩

/-- TIM.SYNC_LIMIT.LIMIT, bits [19:0], RW, reset 1,000 (12_time). -/
def TIM_SYNC_LIMIT_LIMIT : Fld := ⟨0x400038, 0, 20, 1000, .rw⟩

/-- TIM.GPTP_CTRL.DOMAIN, bits [7:0], RW, reset 0 (12_time). -/
def TIM_GPTP_CTRL_DOMAIN : Fld := ⟨0x400040, 0, 8, 0, .rw⟩

/-- TIM.GPTP_CTRL.HN_EN, bits [11:8], RW, reset 0 (12_time). -/
def TIM_GPTP_CTRL_HN_EN : Fld := ⟨0x400040, 8, 4, 0, .rw⟩

/-- TIM.GPTP_CTRL.HEAD_MASTER, bits [12:12], RW, reset 0 (12_time). -/
def TIM_GPTP_CTRL_HEAD_MASTER : Fld := ⟨0x400040, 12, 1, 0, .rw⟩

/-- TIM.GPTP_CTRL.LOG_SYNC, bits [19:16], RW, reset 0xD (12_time). -/
def TIM_GPTP_CTRL_LOG_SYNC : Fld := ⟨0x400040, 16, 4, 0xd, .rw⟩

/-- TIM.COUNTS.STEPS, bits [15:0], RC, reset 0 (12_time). -/
def TIM_COUNTS_STEPS : Fld := ⟨0x400044, 0, 16, 0, .rc⟩

/-- TIM.COUNTS.SEC_VIOL, bits [31:16], RC, reset 0 (12_time). -/
def TIM_COUNTS_SEC_VIOL : Fld := ⟨0x400044, 16, 16, 0, .rc⟩

/-- TIM.PORT_INGRESS.NS, bits [31:0], RW, reset Fixed (12_time). -/
def TIM_PORT_INGRESS_NS (i : Nat) : Fld := ⟨0x400100 + i % 52 * 0x10, 0, 32, (Config.fixedReg ((0x400100 + i % 52 * 0x10) * 32 + 0) % 2 ^ 32), .rw⟩

/-- TIM.PORT_EGRESS.NS, bits [31:0], RW, reset Fixed (12_time). -/
def TIM_PORT_EGRESS_NS (i : Nat) : Fld := ⟨0x400104 + i % 52 * 0x10, 0, 32, (Config.fixedReg ((0x400104 + i % 52 * 0x10) * 32 + 0) % 2 ^ 32), .rw⟩

/-- TIM.PORT_ASYM.NS, bits [31:0], RW, reset 0 (12_time). -/
def TIM_PORT_ASYM_NS (i : Nat) : Fld := ⟨0x400108 + i % 52 * 0x10, 0, 32, 0, .rw⟩

/-- MBX.XING_STATUS.STATE, bits [1:0], RO, reset 0b00 (11_crossing). -/
def MBX_XING_STATUS_STATE : Fld := ⟨0x418000, 0, 2, 0, .ro⟩

/-- MBX.XING_STATUS.LOCK0, bits [2:2], RO, reset 0 (11_crossing). -/
def MBX_XING_STATUS_LOCK0 : Fld := ⟨0x418000, 2, 1, 0, .ro⟩

/-- MBX.XING_STATUS.LOCK1, bits [3:3], RO, reset 0 (11_crossing). -/
def MBX_XING_STATUS_LOCK1 : Fld := ⟨0x418000, 3, 1, 0, .ro⟩

/-- MBX.XING_STATUS.MAP_VALID, bits [4:4], RO, reset 0 (11_crossing). -/
def MBX_XING_STATUS_MAP_VALID : Fld := ⟨0x418000, 4, 1, 0, .ro⟩

/-- MBX.XING_COUNTS.CELL_ERR, bits [15:0], RC, reset 0 (11_crossing). -/
def MBX_XING_COUNTS_CELL_ERR : Fld := ⟨0x418004, 0, 16, 0, .rc⟩

/-- MBX.XING_COUNTS.DOWNS, bits [31:16], RC, reset 0 (11_crossing). -/
def MBX_XING_COUNTS_DOWNS : Fld := ⟨0x418004, 16, 16, 0, .rc⟩

/-- MBX.SEC_VIOL.COUNT, bits [15:0], RC, reset 0 (11_crossing). -/
def MBX_SEC_VIOL_COUNT : Fld := ⟨0x418008, 0, 16, 0, .rc⟩

/-- MBX.IRQ_CTRL.DB_IRQ_EN, bits [0:0], RW, reset 0 (11_crossing). -/
def MBX_IRQ_CTRL_DB_IRQ_EN : Fld := ⟨0x41800c, 0, 1, 0, .rw⟩

/-- MBX.IRQ_CTRL.RX_IRQ_EN, bits [1:1], RW, reset 0 (11_crossing). -/
def MBX_IRQ_CTRL_RX_IRQ_EN : Fld := ⟨0x41800c, 1, 1, 0, .rw⟩

/-- MBX.IRQ_CTRL.VECTOR, bits [26:16], RW, reset 0 (11_crossing). -/
def MBX_IRQ_CTRL_VECTOR : Fld := ⟨0x41800c, 16, 11, 0, .rw⟩

/-- MBX.DB_RING_LO.BITS, bits [31:0], W1S, reset 0 (11_crossing). -/
def MBX_DB_RING_LO_BITS : Fld := ⟨0x418010, 0, 32, 0, .w1s⟩

/-- MBX.DB_RING_HI.BITS, bits [31:0], W1S, reset 0 (11_crossing). -/
def MBX_DB_RING_HI_BITS : Fld := ⟨0x418014, 0, 32, 0, .w1s⟩

/-- MBX.DB_PEND_LO.BITS, bits [31:0], W1C, reset 0 (11_crossing). -/
def MBX_DB_PEND_LO_BITS : Fld := ⟨0x418018, 0, 32, 0, .w1c⟩

/-- MBX.DB_PEND_HI.BITS, bits [31:0], W1C, reset 0 (11_crossing). -/
def MBX_DB_PEND_HI_BITS : Fld := ⟨0x41801c, 0, 32, 0, .w1c⟩

/-- MBX.TXCELL.DATA, bits [31:0], RW, reset 0 (11_crossing). -/
def MBX_TXCELL_DATA (i : Nat) (j : Nat) : Fld := ⟨0x410000 + i % 80 * 0x100 + j % 16 * 0x4, 0, 32, 0, .rw⟩

/-- MBX.PUSH.GO, bits [0:0], W1S, reset 0 (11_crossing). -/
def MBX_PUSH_GO (i : Nat) : Fld := ⟨0x410040 + i % 80 * 0x100, 0, 1, 0, .w1s⟩

/-- MBX.TXSTAT.FREE, bits [4:0], RO, reset 16 (11_crossing). -/
def MBX_TXSTAT_FREE (i : Nat) : Fld := ⟨0x410044 + i % 80 * 0x100, 0, 5, 16, .ro⟩

/-- MBX.TXSTAT.FULL, bits [9:5], RO, reset 0 (11_crossing). -/
def MBX_TXSTAT_FULL (i : Nat) : Fld := ⟨0x410044 + i % 80 * 0x100, 5, 5, 0, .ro⟩

/-- MBX.TXSTAT.REJECTED, bits [10:10], W1C, reset 0 (11_crossing). -/
def MBX_TXSTAT_REJECTED (i : Nat) : Fld := ⟨0x410044 + i % 80 * 0x100, 10, 1, 0, .w1c⟩

/-- MBX.TXSTAT.ACK_LOST, bits [11:11], W1C, reset 0 (11_crossing). -/
def MBX_TXSTAT_ACK_LOST (i : Nat) : Fld := ⟨0x410044 + i % 80 * 0x100, 11, 1, 0, .w1c⟩

/-- MBX.TXSTAT.ACKS, bits [16:12], RO, reset 0 (11_crossing). -/
def MBX_TXSTAT_ACKS (i : Nat) : Fld := ⟨0x410044 + i % 80 * 0x100, 12, 5, 0, .ro⟩

/-- MBX.ACKQ.MSG, bits [7:0], RC, reset 0 (11_crossing). -/
def MBX_ACKQ_MSG (i : Nat) : Fld := ⟨0x410048 + i % 80 * 0x100, 0, 8, 0, .rc⟩

/-- MBX.ACKQ.CODE, bits [23:8], RC, reset 0 (11_crossing). -/
def MBX_ACKQ_CODE (i : Nat) : Fld := ⟨0x410048 + i % 80 * 0x100, 8, 16, 0, .rc⟩

/-- MBX.ACKQ.VALID, bits [31:31], RC, reset 0 (11_crossing). -/
def MBX_ACKQ_VALID (i : Nat) : Fld := ⟨0x410048 + i % 80 * 0x100, 31, 1, 0, .rc⟩

/-- MBX.RXCELL.DATA, bits [31:0], RO, reset 0 (11_crossing). -/
def MBX_RXCELL_DATA (i : Nat) (j : Nat) : Fld := ⟨0x410080 + i % 80 * 0x100 + j % 16 * 0x4, 0, 32, 0, .ro⟩

/-- MBX.POP.GO, bits [0:0], W1S, reset 0 (11_crossing). -/
def MBX_POP_GO (i : Nat) : Fld := ⟨0x4100c0 + i % 80 * 0x100, 0, 1, 0, .w1s⟩

/-- MBX.RXSTAT.COUNT, bits [4:0], RO, reset 0 (11_crossing). -/
def MBX_RXSTAT_COUNT (i : Nat) : Fld := ⟨0x4100c4 + i % 80 * 0x100, 0, 5, 0, .ro⟩

/-- MBX.RXSTAT.GAP, bits [5:5], W1C, reset 0 (11_crossing). -/
def MBX_RXSTAT_GAP (i : Nat) : Fld := ⟨0x4100c4 + i % 80 * 0x100, 5, 1, 0, .w1c⟩

/-- MBX.ACK.MSG, bits [7:0], WO, reset 0 (11_crossing). -/
def MBX_ACK_MSG (i : Nat) : Fld := ⟨0x4100c8 + i % 80 * 0x100, 0, 8, 0, .wo⟩

/-- MBX.ACK.CODE, bits [23:8], WO, reset 0 (11_crossing). -/
def MBX_ACK_CODE (i : Nat) : Fld := ⟨0x4100c8 + i % 80 * 0x100, 8, 16, 0, .wo⟩

/-- MBX.ACK.GO, bits [31:31], W1S, reset 0 (11_crossing). -/
def MBX_ACK_GO (i : Nat) : Fld := ⟨0x4100c8 + i % 80 * 0x100, 31, 1, 0, .w1s⟩

/-- CRC.IRQ_CTRL.DONE_IRQ_EN, bits [0:0], RW, reset 0 (17_data_engines). -/
def CRC_IRQ_CTRL_DONE_IRQ_EN : Fld := ⟨0x420000, 0, 1, 0, .rw⟩

/-- CRC.IRQ_CTRL.VECTOR, bits [26:16], RW, reset 0 (17_data_engines). -/
def CRC_IRQ_CTRL_VECTOR : Fld := ⟨0x420000, 16, 11, 0, .rw⟩

/-- CRC.DONE.UNIT, bits [7:0], W1C, reset 0 (17_data_engines). -/
def CRC_DONE_UNIT : Fld := ⟨0x420004, 0, 8, 0, .w1c⟩

/-- CRC.PACE.MBPS, bits [13:0], RW, reset 0 (17_data_engines). -/
def CRC_PACE_MBPS : Fld := ⟨0x420008, 0, 14, 0, .rw⟩

/-- CRC.PACE.PACE_REFUSED, bits [14:14], W1C, reset 0 (17_data_engines). -/
def CRC_PACE_PACE_REFUSED : Fld := ⟨0x420008, 14, 1, 0, .w1c⟩

/-- CRC.CTRL.WIDTH, bits [6:0], RWI, reset 32 (17_data_engines). -/
def CRC_CTRL_WIDTH (i : Nat) : Fld := ⟨0x420100 + i % 8 * 0x40, 0, 7, 32, .rwi⟩

/-- CRC.CTRL.REFIN, bits [7:7], RWI, reset 0 (17_data_engines). -/
def CRC_CTRL_REFIN (i : Nat) : Fld := ⟨0x420100 + i % 8 * 0x40, 7, 1, 0, .rwi⟩

/-- CRC.CTRL.REFOUT, bits [8:8], RWI, reset 0 (17_data_engines). -/
def CRC_CTRL_REFOUT (i : Nat) : Fld := ⟨0x420100 + i % 8 * 0x40, 8, 1, 0, .rwi⟩

/-- CRC.CTRL.ABORT, bits [30:30], W1S, reset 0 (17_data_engines). -/
def CRC_CTRL_ABORT (i : Nat) : Fld := ⟨0x420100 + i % 8 * 0x40, 30, 1, 0, .w1s⟩

/-- CRC.CTRL.START, bits [31:31], W1S, reset 0 (17_data_engines). -/
def CRC_CTRL_START (i : Nat) : Fld := ⟨0x420100 + i % 8 * 0x40, 31, 1, 0, .w1s⟩

/-- CRC.STATUS.BUSY, bits [0:0], RO, reset 0 (17_data_engines). -/
def CRC_STATUS_BUSY (i : Nat) : Fld := ⟨0x420104 + i % 8 * 0x40, 0, 1, 0, .ro⟩

/-- CRC.STATUS.RESULT, bits [3:1], RO, reset 0b000 (17_data_engines). -/
def CRC_STATUS_RESULT (i : Nat) : Fld := ⟨0x420104 + i % 8 * 0x40, 1, 3, 0, .ro⟩

/-- CRC.STATUS.IGNORED, bits [4:4], W1C, reset 0 (17_data_engines). -/
def CRC_STATUS_IGNORED (i : Nat) : Fld := ⟨0x420104 + i % 8 * 0x40, 4, 1, 0, .w1c⟩

/-- CRC.POLY_LO.VALUE, bits [31:0], RWI, reset 0 (17_data_engines). -/
def CRC_POLY_LO_VALUE (i : Nat) : Fld := ⟨0x420108 + i % 8 * 0x40, 0, 32, 0, .rwi⟩

/-- CRC.POLY_HI.VALUE, bits [31:0], RWI, reset 0 (17_data_engines). -/
def CRC_POLY_HI_VALUE (i : Nat) : Fld := ⟨0x42010c + i % 8 * 0x40, 0, 32, 0, .rwi⟩

/-- CRC.INIT_LO.VALUE, bits [31:0], RWI, reset 0 (17_data_engines). -/
def CRC_INIT_LO_VALUE (i : Nat) : Fld := ⟨0x420110 + i % 8 * 0x40, 0, 32, 0, .rwi⟩

/-- CRC.INIT_HI.VALUE, bits [31:0], RWI, reset 0 (17_data_engines). -/
def CRC_INIT_HI_VALUE (i : Nat) : Fld := ⟨0x420114 + i % 8 * 0x40, 0, 32, 0, .rwi⟩

/-- CRC.XOROUT_LO.VALUE, bits [31:0], RWI, reset 0 (17_data_engines). -/
def CRC_XOROUT_LO_VALUE (i : Nat) : Fld := ⟨0x420118 + i % 8 * 0x40, 0, 32, 0, .rwi⟩

/-- CRC.XOROUT_HI.VALUE, bits [31:0], RWI, reset 0 (17_data_engines). -/
def CRC_XOROUT_HI_VALUE (i : Nat) : Fld := ⟨0x42011c + i % 8 * 0x40, 0, 32, 0, .rwi⟩

/-- CRC.ADDR_LO.VALUE, bits [31:0], RWI, reset 0 (17_data_engines). -/
def CRC_ADDR_LO_VALUE (i : Nat) : Fld := ⟨0x420120 + i % 8 * 0x40, 0, 32, 0, .rwi⟩

/-- CRC.ADDR_HI.VALUE, bits [31:0], RWI, reset 0 (17_data_engines). -/
def CRC_ADDR_HI_VALUE (i : Nat) : Fld := ⟨0x420124 + i % 8 * 0x40, 0, 32, 0, .rwi⟩

/-- CRC.LEN.BYTES, bits [31:0], RWI, reset 0 (17_data_engines). -/
def CRC_LEN_BYTES (i : Nat) : Fld := ⟨0x420128 + i % 8 * 0x40, 0, 32, 0, .rwi⟩

/-- CRC.RESULT_LO.VALUE, bits [31:0], RO, reset 0 (17_data_engines). -/
def CRC_RESULT_LO_VALUE (i : Nat) : Fld := ⟨0x420130 + i % 8 * 0x40, 0, 32, 0, .ro⟩

/-- CRC.RESULT_HI.VALUE, bits [31:0], RO, reset 0 (17_data_engines). -/
def CRC_RESULT_HI_VALUE (i : Nat) : Fld := ⟨0x420134 + i % 8 * 0x40, 0, 32, 0, .ro⟩

/-- DFL.IRQ_CTRL.DONE_IRQ_EN, bits [0:0], RW, reset 0 (17_data_engines). -/
def DFL_IRQ_CTRL_DONE_IRQ_EN : Fld := ⟨0x430000, 0, 1, 0, .rw⟩

/-- DFL.IRQ_CTRL.VECTOR, bits [26:16], RW, reset 0 (17_data_engines). -/
def DFL_IRQ_CTRL_VECTOR : Fld := ⟨0x430000, 16, 11, 0, .rw⟩

/-- DFL.DONE.ENGINE, bits [1:0], W1C, reset 0 (17_data_engines). -/
def DFL_DONE_ENGINE : Fld := ⟨0x430004, 0, 2, 0, .w1c⟩

/-- DFL.SEC_VIOL.COUNT, bits [15:0], RC, reset 0 (17_data_engines). -/
def DFL_SEC_VIOL_COUNT : Fld := ⟨0x430008, 0, 16, 0, .rc⟩

/-- DFL.MODE.OP, bits [0:0], RWI, reset 0 (17_data_engines). -/
def DFL_MODE_OP (i : Nat) : Fld := ⟨0x430100 + i % 2 * 0x100, 0, 1, 0, .rwi⟩

/-- DFL.MODE.FRAMING, bits [2:1], RWI, reset 0b00 (17_data_engines). -/
def DFL_MODE_FRAMING (i : Nat) : Fld := ⟨0x430100 + i % 2 * 0x100, 1, 2, 0, .rwi⟩

/-- DFL.MODE.DYNAMIC, bits [3:3], RWI, reset 0 (17_data_engines). -/
def DFL_MODE_DYNAMIC (i : Nat) : Fld := ⟨0x430100 + i % 2 * 0x100, 3, 1, 0, .rwi⟩

/-- DFL.MODE.LEVEL, bits [6:4], RWI, reset 0b000 (17_data_engines). -/
def DFL_MODE_LEVEL (i : Nat) : Fld := ⟨0x430100 + i % 2 * 0x100, 4, 3, 0, .rwi⟩

/-- DFL.CMD.START, bits [0:0], W1S, reset 0 (17_data_engines). -/
def DFL_CMD_START (i : Nat) : Fld := ⟨0x430104 + i % 2 * 0x100, 0, 1, 0, .w1s⟩

/-- DFL.CMD.CONTINUE, bits [1:1], W1S, reset 0 (17_data_engines). -/
def DFL_CMD_CONTINUE (i : Nat) : Fld := ⟨0x430104 + i % 2 * 0x100, 1, 1, 0, .w1s⟩

/-- DFL.CMD.ABORT, bits [2:2], W1S, reset 0 (17_data_engines). -/
def DFL_CMD_ABORT (i : Nat) : Fld := ⟨0x430104 + i % 2 * 0x100, 2, 1, 0, .w1s⟩

/-- DFL.CMD.END, bits [4:3], WO, reset 0b00 (17_data_engines). -/
def DFL_CMD_END (i : Nat) : Fld := ⟨0x430104 + i % 2 * 0x100, 3, 2, 0, .wo⟩

/-- DFL.STATUS.BUSY, bits [0:0], RO, reset 0 (17_data_engines). -/
def DFL_STATUS_BUSY (i : Nat) : Fld := ⟨0x430108 + i % 2 * 0x100, 0, 1, 0, .ro⟩

/-- DFL.STATUS.STREAM, bits [1:1], RO, reset 0 (17_data_engines). -/
def DFL_STATUS_STREAM (i : Nat) : Fld := ⟨0x430108 + i % 2 * 0x100, 1, 1, 0, .ro⟩

/-- DFL.STATUS.RESULT, bits [5:2], RO, reset 0x0 (17_data_engines). -/
def DFL_STATUS_RESULT (i : Nat) : Fld := ⟨0x430108 + i % 2 * 0x100, 2, 4, 0x0, .ro⟩

/-- DFL.STATUS.IGNORED, bits [6:6], W1C, reset 0 (17_data_engines). -/
def DFL_STATUS_IGNORED (i : Nat) : Fld := ⟨0x430108 + i % 2 * 0x100, 6, 1, 0, .w1c⟩

/-- DFL.STATUS.PACE_REFUSED, bits [7:7], W1C, reset 0 (17_data_engines). -/
def DFL_STATUS_PACE_REFUSED (i : Nat) : Fld := ⟨0x430108 + i % 2 * 0x100, 7, 1, 0, .w1c⟩

/-- DFL.SRC_LO.ADDR, bits [31:0], RWI, reset 0 (17_data_engines). -/
def DFL_SRC_LO_ADDR (i : Nat) : Fld := ⟨0x430110 + i % 2 * 0x100, 0, 32, 0, .rwi⟩

/-- DFL.SRC_HI.ADDR, bits [31:0], RWI, reset 0 (17_data_engines). -/
def DFL_SRC_HI_ADDR (i : Nat) : Fld := ⟨0x430114 + i % 2 * 0x100, 0, 32, 0, .rwi⟩

/-- DFL.SRC_LEN.BYTES, bits [31:0], RWI, reset 0 (17_data_engines). -/
def DFL_SRC_LEN_BYTES (i : Nat) : Fld := ⟨0x430118 + i % 2 * 0x100, 0, 32, 0, .rwi⟩

/-- DFL.DST_LO.ADDR, bits [31:0], RWI, reset 0 (17_data_engines). -/
def DFL_DST_LO_ADDR (i : Nat) : Fld := ⟨0x430120 + i % 2 * 0x100, 0, 32, 0, .rwi⟩

/-- DFL.DST_HI.ADDR, bits [31:0], RWI, reset 0 (17_data_engines). -/
def DFL_DST_HI_ADDR (i : Nat) : Fld := ⟨0x430124 + i % 2 * 0x100, 0, 32, 0, .rwi⟩

/-- DFL.DST_LEN.BYTES, bits [31:0], RWI, reset 0 (17_data_engines). -/
def DFL_DST_LEN_BYTES (i : Nat) : Fld := ⟨0x430128 + i % 2 * 0x100, 0, 32, 0, .rwi⟩

/-- DFL.IN_DONE.BYTES, bits [31:0], RO, reset 0 (17_data_engines). -/
def DFL_IN_DONE_BYTES (i : Nat) : Fld := ⟨0x430130 + i % 2 * 0x100, 0, 32, 0, .ro⟩

/-- DFL.OUT_DONE.BYTES, bits [31:0], RO, reset 0 (17_data_engines). -/
def DFL_OUT_DONE_BYTES (i : Nat) : Fld := ⟨0x430134 + i % 2 * 0x100, 0, 32, 0, .ro⟩

/-- DFL.CHECK.VALUE, bits [31:0], RO, reset 0 (17_data_engines). -/
def DFL_CHECK_VALUE (i : Nat) : Fld := ⟨0x430138 + i % 2 * 0x100, 0, 32, 0, .ro⟩

/-- DFL.PACE.MBPS, bits [12:0], RW, reset 0 (17_data_engines). -/
def DFL_PACE_MBPS (i : Nat) : Fld := ⟨0x43013c + i % 2 * 0x100, 0, 13, 0, .rw⟩

/-- TWN.CTRL.RELEASE, bits [0:0], W1S, reset 0 (16_twin_repair). -/
def TWN_CTRL_RELEASE : Fld := ⟨0x440000, 0, 1, 0, .w1s⟩

/-- TWN.CTRL.ELIGIBLE, bits [1:1], RW, reset 0 (16_twin_repair). -/
def TWN_CTRL_ELIGIBLE : Fld := ⟨0x440000, 1, 1, 0, .rw⟩

/-- TWN.KICK.GO, bits [0:0], W1S, reset 0 (16_twin_repair). -/
def TWN_KICK_GO : Fld := ⟨0x440004, 0, 1, 0, .w1s⟩

/-- TWN.STATUS.ROLE, bits [0:0], RO, reset Strap (16_twin_repair). -/
def TWN_STATUS_ROLE : Fld := ⟨0x440008, 0, 1, 0, .ro⟩

/-- TWN.STATUS.HB_OK, bits [1:1], RO, reset 0 (16_twin_repair). -/
def TWN_STATUS_HB_OK : Fld := ⟨0x440008, 1, 1, 0, .ro⟩

/-- TWN.STATUS.TL0_UP, bits [2:2], RO, reset 0 (16_twin_repair). -/
def TWN_STATUS_TL0_UP : Fld := ⟨0x440008, 2, 1, 0, .ro⟩

/-- TWN.STATUS.TL1_UP, bits [3:3], RO, reset 0 (16_twin_repair). -/
def TWN_STATUS_TL1_UP : Fld := ⟨0x440008, 3, 1, 0, .ro⟩

/-- TWN.STATUS.ROLE_CONFLICT, bits [4:4], RO, reset 0 (16_twin_repair). -/
def TWN_STATUS_ROLE_CONFLICT : Fld := ⟨0x440008, 4, 1, 0, .ro⟩

/-- TWN.STATUS.PARTNER_QUALIFIED, bits [5:5], RO, reset 0 (16_twin_repair). -/
def TWN_STATUS_PARTNER_QUALIFIED : Fld := ⟨0x440008, 5, 1, 0, .ro⟩

/-- TWN.STATUS.PARTNER_RELEASE, bits [6:6], RO, reset 0 (16_twin_repair). -/
def TWN_STATUS_PARTNER_RELEASE : Fld := ⟨0x440008, 6, 1, 0, .ro⟩

/-- TWN.STATUS.ID_MATCH, bits [7:7], RO, reset 0 (16_twin_repair). -/
def TWN_STATUS_ID_MATCH : Fld := ⟨0x440008, 7, 1, 0, .ro⟩

/-- TWN.STATUS.AUTHORITY, bits [8:8], RO, reset 0 (16_twin_repair). -/
def TWN_STATUS_AUTHORITY : Fld := ⟨0x440008, 8, 1, 0, .ro⟩

/-- TWN.STATUS.INTLK_IN, bits [9:9], RO, reset 0 (16_twin_repair). -/
def TWN_STATUS_INTLK_IN : Fld := ⟨0x440008, 9, 1, 0, .ro⟩

/-- TWN.STATUS.RELEASE_IGNORED, bits [10:10], W1C, reset 0 (16_twin_repair). -/
def TWN_STATUS_RELEASE_IGNORED : Fld := ⟨0x440008, 10, 1, 0, .w1c⟩

/-- TWN.STATUS.SET_OVERFLOW, bits [11:11], RO, reset 0 (16_twin_repair). -/
def TWN_STATUS_SET_OVERFLOW : Fld := ⟨0x440008, 11, 1, 0, .ro⟩

/-- TWN.STATUS.TAKEOVER_BLOCKED, bits [12:12], W1C, reset 0 (16_twin_repair). -/
def TWN_STATUS_TAKEOVER_BLOCKED : Fld := ⟨0x440008, 12, 1, 0, .w1c⟩

/-- TWN.HB_AGE.US, bits [23:0], RO, reset 0xFF_FFFF (16_twin_repair). -/
def TWN_HB_AGE_US : Fld := ⟨0x44000c, 0, 24, 0xffffff, .ro⟩

/-- TWN.PARTNER_ID_LO.ID, bits [31:0], RO, reset 0 (16_twin_repair). -/
def TWN_PARTNER_ID_LO_ID : Fld := ⟨0x440010, 0, 32, 0, .ro⟩

/-- TWN.PARTNER_ID_HI.ID, bits [31:0], RO, reset 0 (16_twin_repair). -/
def TWN_PARTNER_ID_HI_ID : Fld := ⟨0x440014, 0, 32, 0, .ro⟩

/-- TWN.COUNTS.HB_LOSSES, bits [7:0], RC, reset 0 (16_twin_repair). -/
def TWN_COUNTS_HB_LOSSES : Fld := ⟨0x440018, 0, 8, 0, .rc⟩

/-- TWN.COUNTS.RELEASES, bits [15:8], RC, reset 0 (16_twin_repair). -/
def TWN_COUNTS_RELEASES : Fld := ⟨0x440018, 8, 8, 0, .rc⟩

/-- TWN.COUNTS.BAD_MSG, bits [23:16], RC, reset 0 (16_twin_repair). -/
def TWN_COUNTS_BAD_MSG : Fld := ⟨0x440018, 16, 8, 0, .rc⟩

/-- TWN.COUNTS.SEC_VIOL, bits [31:24], RC, reset 0 (16_twin_repair). -/
def TWN_COUNTS_SEC_VIOL : Fld := ⟨0x440018, 24, 8, 0, .rc⟩

/-- TWN.RESYNC.STATE, bits [1:0], RO, reset 0b00 (16_twin_repair). -/
def TWN_RESYNC_STATE : Fld := ⟨0x44001c, 0, 2, 0, .ro⟩

/-- TWN.RESYNC.DONE, bits [6:2], RO, reset 0 (16_twin_repair). -/
def TWN_RESYNC_DONE : Fld := ⟨0x44001c, 2, 5, 0, .ro⟩

/-- TWN.RESYNC.TOTAL, bits [11:7], RO, reset 0 (16_twin_repair). -/
def TWN_RESYNC_TOTAL : Fld := ⟨0x44001c, 7, 5, 0, .ro⟩

/-- BCK.STATUS.RESULT, bits [1:0], RO, reset 0b00 (04_admission). -/
def BCK_STATUS_RESULT : Fld := ⟨0x450000, 0, 2, 0, .ro⟩

/-- BCK.STATUS.PARTIAL, bits [2:2], RO, reset 0 (04_admission). -/
def BCK_STATUS_PARTIAL : Fld := ⟨0x450000, 2, 1, 0, .ro⟩

/-- BCK.STATUS.CODE, bits [15:8], RO, reset 0x00 (04_admission). -/
def BCK_STATUS_CODE : Fld := ⟨0x450000, 8, 8, 0x0, .ro⟩

/-- BCK.STATUS.RUN_TIME, bits [31:16], RO, reset 0 (04_admission). -/
def BCK_STATUS_RUN_TIME : Fld := ⟨0x450000, 16, 16, 0, .ro⟩

/-- BCK.ELEMENT.INDEX, bits [15:0], RO, reset 0 (04_admission). -/
def BCK_ELEMENT_INDEX : Fld := ⟨0x450004, 0, 16, 0, .ro⟩

/-- BCK.ELEMENT.AUX, bits [23:16], RO, reset 0 (04_admission). -/
def BCK_ELEMENT_AUX : Fld := ⟨0x450004, 16, 8, 0, .ro⟩

/-- BCK.DETAIL.VALUE, bits [31:0], RO, reset 0 (04_admission). -/
def BCK_DETAIL_VALUE : Fld := ⟨0x450008, 0, 32, 0, .ro⟩

/-- BCK.LIMIT.VALUE, bits [31:0], RO, reset 0 (04_admission). -/
def BCK_LIMIT_VALUE : Fld := ⟨0x45000c, 0, 32, 0, .ro⟩

/-- BCK.QUERY.INDEX, bits [15:0], RW, reset 0 (04_admission). -/
def BCK_QUERY_INDEX : Fld := ⟨0x450010, 0, 16, 0, .rw⟩

/-- BCK.QBOUND.BOUND, bits [30:0], RO, reset 0 (04_admission). -/
def BCK_QBOUND_BOUND : Fld := ⟨0x450014, 0, 31, 0, .ro⟩

/-- BCK.QBOUND.VALID, bits [31:31], RO, reset 0 (04_admission). -/
def BCK_QBOUND_VALID : Fld := ⟨0x450014, 31, 1, 0, .ro⟩

/-- BCK.LOAD_DRAM.MBPS, bits [31:0], RO, reset 0 (04_admission). -/
def BCK_LOAD_DRAM_MBPS : Fld := ⟨0x450020, 0, 32, 0, .ro⟩

/-- BCK.LOAD_XING.KBPS, bits [31:0], RO, reset 0 (04_admission). -/
def BCK_LOAD_XING_KBPS : Fld := ⟨0x450024, 0, 32, 0, .ro⟩

/-- BCK.LOAD_OUT.MPXS, bits [31:0], RO, reset 0 (04_admission). -/
def BCK_LOAD_OUT_MPXS : Fld := ⟨0x450028, 0, 32, 0, .ro⟩

/-- BCK.LOAD_DEC.KSPS, bits [31:0], RO, reset 0 (04_admission). -/
def BCK_LOAD_DEC_KSPS (i : Nat) : Fld := ⟨0x450100 + i % 8 * 0x4, 0, 32, 0, .ro⟩

/-- BCK.LOAD_CE.KPXS, bits [31:0], RO, reset 0 (04_admission). -/
def BCK_LOAD_CE_KPXS (i : Nat) : Fld := ⟨0x450120 + i % 8 * 0x4, 0, 32, 0, .ro⟩

/-- BCK.LOAD_LB.BYTES, bits [31:0], RO, reset 0 (04_admission). -/
def BCK_LOAD_LB_BYTES (i : Nat) : Fld := ⟨0x450140 + i % 8 * 0x4, 0, 32, 0, .ro⟩

/-- BCK.LOAD_ENC.KPXS, bits [31:0], RO, reset 0 (04_admission). -/
def BCK_LOAD_ENC_KPXS (i : Nat) : Fld := ⟨0x450160 + i % 2 * 0x4, 0, 32, 0, .ro⟩

/-- SIM.CTRL.VERIFY, bits [0:0], W1S, reset 0 (03_structure_image). -/
def SIM_CTRL_VERIFY : Fld := ⟨0x458000, 0, 1, 0, .w1s⟩

/-- SIM.CTRL.ARM, bits [1:1], W1S, reset 0 (03_structure_image). -/
def SIM_CTRL_ARM : Fld := ⟨0x458000, 1, 1, 0, .w1s⟩

/-- SIM.CTRL.CANCEL, bits [2:2], W1S, reset 0 (03_structure_image). -/
def SIM_CTRL_CANCEL : Fld := ⟨0x458000, 2, 1, 0, .w1s⟩

/-- SIM.STATUS.STAGE, bits [3:0], RO, reset 0x0 (03_structure_image). -/
def SIM_STATUS_STAGE : Fld := ⟨0x458004, 0, 4, 0x0, .ro⟩

/-- SIM.STATUS.CTRL_IGNORED, bits [4:4], W1C, reset 0 (03_structure_image). -/
def SIM_STATUS_CTRL_IGNORED : Fld := ⟨0x458004, 4, 1, 0, .w1c⟩

/-- SIM.STATUS.UNQUALIFIED, bits [5:5], RO, reset 0 (03_structure_image). -/
def SIM_STATUS_UNQUALIFIED : Fld := ⟨0x458004, 5, 1, 0, .ro⟩

/-- SIM.STATUS.SPLIT, bits [6:6], RO, reset 0 (03_structure_image). -/
def SIM_STATUS_SPLIT : Fld := ⟨0x458004, 6, 1, 0, .ro⟩

/-- SIM.STATUS.FIELD_SPLIT, bits [7:7], RO, reset 0 (03_structure_image). -/
def SIM_STATUS_FIELD_SPLIT : Fld := ⟨0x458004, 7, 1, 0, .ro⟩

/-- SIM.STATUS.OVERRIDE_ARMED, bits [8:8], RO, reset 0 (03_structure_image). -/
def SIM_STATUS_OVERRIDE_ARMED : Fld := ⟨0x458004, 8, 1, 0, .ro⟩

/-- SIM.STATUS.BANK_SEQ, bits [31:16], RO, reset 0 (03_structure_image). -/
def SIM_STATUS_BANK_SEQ : Fld := ⟨0x458004, 16, 16, 0, .ro⟩

/-- SIM.REFUSAL.REASON, bits [7:0], RO, reset 0x00 (03_structure_image). -/
def SIM_REFUSAL_REASON : Fld := ⟨0x458008, 0, 8, 0x0, .ro⟩

/-- SIM.REFUSAL.SECTION, bits [15:8], RO, reset 0 (03_structure_image). -/
def SIM_REFUSAL_SECTION : Fld := ⟨0x458008, 8, 8, 0, .ro⟩

/-- SIM.REFUSAL.PEER, bits [18:16], RO, reset 0 (03_structure_image). -/
def SIM_REFUSAL_PEER : Fld := ⟨0x458008, 16, 3, 0, .ro⟩

/-- SIM.REFUSAL.SECTION_NONE, bits [19:19], RO, reset 0 (03_structure_image). -/
def SIM_REFUSAL_SECTION_NONE : Fld := ⟨0x458008, 19, 1, 0, .ro⟩

/-- SIM.STAGE_ADDR_LO.ADDR, bits [31:0], RW, reset 0 (03_structure_image). -/
def SIM_STAGE_ADDR_LO_ADDR : Fld := ⟨0x458010, 0, 32, 0, .rw⟩

/-- SIM.STAGE_ADDR_HI.ADDR, bits [31:0], RW, reset 0 (03_structure_image). -/
def SIM_STAGE_ADDR_HI_ADDR : Fld := ⟨0x458014, 0, 32, 0, .rw⟩

/-- SIM.STAGE_LEN.LEN, bits [31:0], RW, reset 0 (03_structure_image). -/
def SIM_STAGE_LEN_LEN : Fld := ⟨0x458018, 0, 32, 0, .rw⟩

/-- SIM.EPOCH_LO.DT, bits [31:0], RW, reset 0 (03_structure_image). -/
def SIM_EPOCH_LO_DT : Fld := ⟨0x458020, 0, 32, 0, .rw⟩

/-- SIM.EPOCH_HI.DT, bits [31:0], RW, reset 0 (03_structure_image). -/
def SIM_EPOCH_HI_DT : Fld := ⟨0x458024, 0, 32, 0, .rw⟩

/-- SIM.ACTIVE_ID_LO.ID, bits [31:0], RO, reset 0 (03_structure_image). -/
def SIM_ACTIVE_ID_LO_ID : Fld := ⟨0x458028, 0, 32, 0, .ro⟩

/-- SIM.ACTIVE_ID_HI.ID, bits [31:0], RO, reset 0 (03_structure_image). -/
def SIM_ACTIVE_ID_HI_ID : Fld := ⟨0x45802c, 0, 32, 0, .ro⟩

/-- SIM.ACTIVE_EPOCH_LO.DT, bits [31:0], RO, reset 0 (03_structure_image). -/
def SIM_ACTIVE_EPOCH_LO_DT : Fld := ⟨0x458030, 0, 32, 0, .ro⟩

/-- SIM.ACTIVE_EPOCH_HI.DT, bits [31:0], RO, reset 0 (03_structure_image). -/
def SIM_ACTIVE_EPOCH_HI_DT : Fld := ⟨0x458034, 0, 32, 0, .ro⟩

/-- SIM.TUPLE0.STEPPING, bits [7:0], RO, reset Fixed (03_structure_image). -/
def SIM_TUPLE0_STEPPING : Fld := ⟨0x458040, 0, 8, (Config.fixedReg ((0x458040) * 32 + 0) % 2 ^ 8), .ro⟩

/-- SIM.TUPLE0.SCHEMA, bits [31:16], RO, reset 0 (03_structure_image). -/
def SIM_TUPLE0_SCHEMA : Fld := ⟨0x458040, 16, 16, 0, .ro⟩

/-- SIM.TUPLE1.BOOT_ROM, bits [15:0], RO, reset Fixed (03_structure_image). -/
def SIM_TUPLE1_BOOT_ROM : Fld := ⟨0x458044, 0, 16, (Config.fixedReg ((0x458044) * 32 + 0) % 2 ^ 16), .ro⟩

/-- SIM.TUPLE2.HOST_BUILD, bits [31:0], RO, reset Fixed (03_structure_image). -/
def SIM_TUPLE2_HOST_BUILD : Fld := ⟨0x458048, 0, 32, (Config.fixedReg ((0x458048) * 32 + 0) % 2 ^ 32), .ro⟩

/-- SIM.TUPLE3.FIELD_BUILD, bits [31:0], RO, reset 0 (03_structure_image). -/
def SIM_TUPLE3_FIELD_BUILD : Fld := ⟨0x45804c, 0, 32, 0, .ro⟩

/-- SIM.FORCE.ARM, bits [0:0], WO, reset 0 (03_structure_image). -/
def SIM_FORCE_ARM : Fld := ⟨0x458050, 0, 1, 0, .wo⟩

/-- SIM.FORCE.KEY, bits [31:16], WO, reset 0 (03_structure_image). -/
def SIM_FORCE_KEY : Fld := ⟨0x458050, 16, 16, 0, .wo⟩

/-- SIM.KEY_STATUS.ENROLLED, bits [7:0], RO, reset Fixed (03_structure_image). -/
def SIM_KEY_STATUS_ENROLLED : Fld := ⟨0x458054, 0, 8, (Config.fixedReg ((0x458054) * 32 + 0) % 2 ^ 8), .ro⟩

/-- SIM.KEY_STATUS.REVOKED, bits [15:8], RO, reset Fixed (03_structure_image). -/
def SIM_KEY_STATUS_REVOKED : Fld := ⟨0x458054, 8, 8, (Config.fixedReg ((0x458054) * 32 + 8) % 2 ^ 8), .ro⟩

/-- SIM.PEER_ADMIT.ADMITTED, bits [7:0], RO, reset 0 (03_structure_image). -/
def SIM_PEER_ADMIT_ADMITTED : Fld := ⟨0x458058, 0, 8, 0, .ro⟩

/-- SIM.PEER_ADMIT.REFUSED, bits [15:8], RO, reset 0 (03_structure_image). -/
def SIM_PEER_ADMIT_REFUSED : Fld := ⟨0x458058, 8, 8, 0, .ro⟩

/-- RPR.STATUS.CE_SPARE_OK, bits [0:0], RO, reset 1 (16_twin_repair). -/
def RPR_STATUS_CE_SPARE_OK : Fld := ⟨0x460000, 0, 1, 1, .ro⟩

/-- RPR.STATUS.CE_REPLACES, bits [4:1], RO, reset 0xF (16_twin_repair). -/
def RPR_STATUS_CE_REPLACES : Fld := ⟨0x460000, 1, 4, 0xf, .ro⟩

/-- RPR.STATUS.DC_SPARE_OK, bits [5:5], RO, reset 1 (16_twin_repair). -/
def RPR_STATUS_DC_SPARE_OK : Fld := ⟨0x460000, 5, 1, 1, .ro⟩

/-- RPR.STATUS.DC_REPLACES, bits [9:6], RO, reset 0xF (16_twin_repair). -/
def RPR_STATUS_DC_REPLACES : Fld := ⟨0x460000, 6, 4, 0xf, .ro⟩

/-- RPR.CE_COUNTS.SAMPLES, bits [23:0], RO, reset 0 (16_twin_repair). -/
def RPR_CE_COUNTS_SAMPLES : Fld := ⟨0x460004, 0, 24, 0, .ro⟩

/-- RPR.CE_COUNTS.MISMATCHES, bits [31:24], RC, reset 0 (16_twin_repair). -/
def RPR_CE_COUNTS_MISMATCHES : Fld := ⟨0x460004, 24, 8, 0, .rc⟩

/-- RPR.DC_COUNTS.SAMPLES, bits [23:0], RO, reset 0 (16_twin_repair). -/
def RPR_DC_COUNTS_SAMPLES : Fld := ⟨0x460008, 0, 24, 0, .ro⟩

/-- RPR.DC_COUNTS.MISMATCHES, bits [31:24], RC, reset 0 (16_twin_repair). -/
def RPR_DC_COUNTS_MISMATCHES : Fld := ⟨0x460008, 24, 8, 0, .rc⟩

/-- RPR.LAST_MISMATCH.UNIT, bits [3:0], RO, reset 0 (16_twin_repair). -/
def RPR_LAST_MISMATCH_UNIT : Fld := ⟨0x46000c, 0, 4, 0, .ro⟩

/-- RPR.LAST_MISMATCH.DECODER, bits [4:4], RO, reset 0 (16_twin_repair). -/
def RPR_LAST_MISMATCH_DECODER : Fld := ⟨0x46000c, 4, 1, 0, .ro⟩

/-- RPR.LAST_MISMATCH.INDEX, bits [11:5], RO, reset 0 (16_twin_repair). -/
def RPR_LAST_MISMATCH_INDEX : Fld := ⟨0x46000c, 5, 7, 0, .ro⟩

/-- RPR.LAST_MISMATCH.SLICE, bits [19:12], RO, reset 0 (16_twin_repair). -/
def RPR_LAST_MISMATCH_SLICE : Fld := ⟨0x46000c, 12, 8, 0, .ro⟩

/-- RPR.SRAM.REPAIRS, bits [15:0], RO, reset 0 (16_twin_repair). -/
def RPR_SRAM_REPAIRS : Fld := ⟨0x460010, 0, 16, 0, .ro⟩

/-- RPR.SRAM.MIN_SPARES, bits [23:16], RO, reset 8 (16_twin_repair). -/
def RPR_SRAM_MIN_SPARES : Fld := ⟨0x460010, 16, 8, 8, .ro⟩

/-- RPR.SRAM.UE, bits [31:24], RC, reset 0 (16_twin_repair). -/
def RPR_SRAM_UE : Fld := ⟨0x460010, 24, 8, 0, .rc⟩

/-- STC.CTRL.RETRAIN, bits [0:0], W1S, reset 0 (15_lanes). -/
def STC_CTRL_RETRAIN (i : Nat) : Fld := ⟨0x470000 + i % 6 * 0x40, 0, 1, 0, .w1s⟩

/-- STC.STATUS.STATE, bits [2:0], RO, reset 0b000 (15_lanes). -/
def STC_STATUS_STATE (i : Nat) : Fld := ⟨0x470004 + i % 6 * 0x40, 0, 3, 0, .ro⟩

/-- STC.STATUS.WIRED, bits [6:3], RO, reset Image (15_lanes). -/
def STC_STATUS_WIRED (i : Nat) : Fld := ⟨0x470004 + i % 6 * 0x40, 3, 4, 0, .ro⟩

/-- STC.STATUS.ACTIVE, bits [10:7], RO, reset 0 (15_lanes). -/
def STC_STATUS_ACTIVE (i : Nat) : Fld := ⟨0x470004 + i % 6 * 0x40, 7, 4, 0, .ro⟩

/-- STC.STATUS.DEGRADED, bits [11:11], RO, reset 0 (15_lanes). -/
def STC_STATUS_DEGRADED (i : Nat) : Fld := ⟨0x470004 + i % 6 * 0x40, 11, 1, 0, .ro⟩

/-- STC.STATUS.ILM2400, bits [12:12], RO, reset Image (15_lanes). -/
def STC_STATUS_ILM2400 (i : Nat) : Fld := ⟨0x470004 + i % 6 * 0x40, 12, 1, 0, .ro⟩

/-- STC.STATUS.PEER_SYNC_OK, bits [13:13], RO, reset 0 (15_lanes). -/
def STC_STATUS_PEER_SYNC_OK (i : Nat) : Fld := ⟨0x470004 + i % 6 * 0x40, 13, 1, 0, .ro⟩

/-- STC.STATUS.ID_MATCH, bits [14:14], RO, reset 0 (15_lanes). -/
def STC_STATUS_ID_MATCH (i : Nat) : Fld := ⟨0x470004 + i % 6 * 0x40, 14, 1, 0, .ro⟩

/-- STC.CREDITS.TX_CREDITS, bits [8:0], RO, reset 0 (15_lanes). -/
def STC_CREDITS_TX_CREDITS (i : Nat) : Fld := ⟨0x470008 + i % 6 * 0x40, 0, 9, 0, .ro⟩

/-- STC.CREDITS.RX_FREE, bits [17:9], RO, reset 256 (15_lanes). -/
def STC_CREDITS_RX_FREE (i : Nat) : Fld := ⟨0x470008 + i % 6 * 0x40, 9, 9, 256, .ro⟩

/-- STC.CELLS_TX.COUNT, bits [31:0], RO, reset 0 (15_lanes). -/
def STC_CELLS_TX_COUNT (i : Nat) : Fld := ⟨0x47000c + i % 6 * 0x40, 0, 32, 0, .ro⟩

/-- STC.CELLS_RX.COUNT, bits [31:0], RO, reset 0 (15_lanes). -/
def STC_CELLS_RX_COUNT (i : Nat) : Fld := ⟨0x470010 + i % 6 * 0x40, 0, 32, 0, .ro⟩

/-- STC.ERRORS.CRC_ERR, bits [11:0], RC, reset 0 (15_lanes). -/
def STC_ERRORS_CRC_ERR (i : Nat) : Fld := ⟨0x470014 + i % 6 * 0x40, 0, 12, 0, .rc⟩

/-- STC.ERRORS.ID_DISCARD, bits [23:12], RC, reset 0 (15_lanes). -/
def STC_ERRORS_ID_DISCARD (i : Nat) : Fld := ⟨0x470014 + i % 6 * 0x40, 12, 12, 0, .rc⟩

/-- STC.ERRORS.REDUCTIONS, bits [31:24], RC, reset 0 (15_lanes). -/
def STC_ERRORS_REDUCTIONS (i : Nat) : Fld := ⟨0x470014 + i % 6 * 0x40, 24, 8, 0, .rc⟩

/-- STC.REGION.VALID, bits [0:0], RO, reset 0 (15_lanes). -/
def STC_REGION_VALID (i : Nat) : Fld := ⟨0x471000 + i % 256 * 0x4, 0, 1, 0, .ro⟩

/-- STC.REGION.WORST, bits [3:1], RO, reset 0 (15_lanes). -/
def STC_REGION_WORST (i : Nat) : Fld := ⟨0x471000 + i % 256 * 0x4, 1, 3, 0, .ro⟩

/-- STC.REGION.FRAME_LSB, bits [11:4], RO, reset 0 (15_lanes). -/
def STC_REGION_FRAME_LSB (i : Nat) : Fld := ⟨0x471000 + i % 256 * 0x4, 4, 8, 0, .ro⟩

/-- STC.REGION.DROPS, bits [23:16], RC, reset 0 (15_lanes). -/
def STC_REGION_DROPS (i : Nat) : Fld := ⟨0x471000 + i % 256 * 0x4, 16, 8, 0, .rc⟩

/-- The registers of the SYS block. -/
def blockSYS : List RegDesc :=
  [⟨0x0, 1, 0x0, 1, 0x0, [⟨0, 8, (Config.fixedReg ((0x0) * 32 + 0) % 2 ^ 8), .ro, []⟩, ⟨8, 16, 0x4816, .ro, []⟩]⟩,
   ⟨0x4, 1, 0x0, 1, 0x0, [⟨0, 4, 0x1, .ro, []⟩, ⟨4, 1, 0, .ro, []⟩, ⟨8, 8, 0x0, .ro, []⟩, ⟨16, 1, 0, .ro, []⟩, ⟨17, 1, 0, .ro, []⟩, ⟨18, 1, 0, .ro, []⟩, ⟨20, 12, 0, .ro, []⟩]⟩,
   ⟨0x8, 1, 0x0, 1, 0x0, [⟨0, 1, 0, .w1c, []⟩, ⟨1, 1, 0, .w1c, []⟩, ⟨2, 1, 0, .w1c, []⟩, ⟨3, 1, 0, .w1c, []⟩]⟩,
   ⟨0xc, 1, 0x0, 1, 0x0, [⟨0, 2, 0, .ro, []⟩, ⟨2, 1, 0, .ro, []⟩, ⟨3, 1, 0, .ro, []⟩, ⟨4, 3, 0, .ro, []⟩]⟩,
   ⟨0x10, 1, 0x0, 1, 0x0, [⟨0, 1, 0, .w1s, []⟩, ⟨1, 2, 0, .wo, []⟩, ⟨16, 16, 0, .wo, []⟩]⟩,
   ⟨0x14, 1, 0x0, 1, 0x0, [⟨0, 8, 0, .ro, []⟩, ⟨8, 8, 0, .rc, []⟩, ⟨16, 8, 0, .ro, []⟩]⟩,
   ⟨0x20, 1, 0x0, 1, 0x0, [⟨0, 1, 0, .w1c, []⟩, ⟨1, 1, 0, .w1c, []⟩, ⟨2, 1, 0, .w1c, []⟩, ⟨3, 1, 0, .w1c, []⟩, ⟨4, 1, 0, .w1c, []⟩, ⟨5, 1, 0, .w1c, []⟩, ⟨6, 1, 0, .w1c, []⟩, ⟨7, 1, 0, .w1c, []⟩, ⟨16, 12, 0, .ro, []⟩, ⟨28, 3, 0, .ro, []⟩, ⟨31, 1, 0, .ro, []⟩]⟩,
   ⟨0x30, 1, 0x0, 1, 0x0, [⟨0, 32, 0, .rw, []⟩]⟩,
   ⟨0x34, 1, 0x0, 1, 0x0, [⟨0, 32, 0, .rw, []⟩]⟩,
   ⟨0x38, 1, 0x0, 1, 0x0, [⟨0, 32, 0, .rw, []⟩]⟩,
   ⟨0x3c, 1, 0x0, 1, 0x0, [⟨0, 2, 0, .wo, []⟩, ⟨31, 1, 0, .w1s, []⟩]⟩,
   ⟨0x40, 1, 0x0, 1, 0x0, [⟨0, 2, 0, .ro, []⟩, ⟨2, 1, 0, .w1c, []⟩, ⟨4, 4, 0x0, .ro, []⟩, ⟨16, 16, 0, .ro, []⟩]⟩,
   ⟨0x50, 1, 0x0, 1, 0x0, [⟨0, 32, 0, .ro, []⟩]⟩,
   ⟨0x54, 1, 0x0, 1, 0x0, [⟨0, 32, 0, .ro, []⟩]⟩,
   ⟨0x58, 1, 0x0, 1, 0x0, [⟨0, 16, 0, .ro, []⟩]⟩,
   ⟨0x5c, 1, 0x0, 1, 0x0, [⟨0, 16, 0, .rw, []⟩]⟩,
   ⟨0x60, 1, 0x0, 1, 0x0, [⟨0, 16, 0, .rc, []⟩]⟩]

/-- The registers of the TRT block. -/
def blockTRT : List RegDesc :=
  [⟨0x10000, 1, 0x0, 1, 0x0, [⟨0, 1, 0, .w1s, []⟩]⟩,
   ⟨0x10004, 1, 0x0, 1, 0x0, [⟨0, 16, 0, .rc, []⟩, ⟨16, 6, 0, .ro, []⟩]⟩,
   ⟨0x10008, 1, 0x0, 1, 0x0, [⟨0, 32, 0, .rc, []⟩]⟩,
   ⟨0x1000c, 1, 0x0, 1, 0x0, [⟨0, 8, 0, .wo, []⟩, ⟨31, 1, 0, .w1s, []⟩]⟩,
   ⟨0x10010, 1, 0x0, 1, 0x0, [⟨0, 16, 0, .rc, []⟩]⟩,
   ⟨0x10100, 47, 0x4, 1, 0x0, [⟨0, 8, 128, .ro, []⟩, ⟨8, 8, 0, .ro, []⟩, ⟨16, 4, 0, .ro, []⟩]⟩,
   ⟨0x10300, 17, 0x4, 1, 0x0, [⟨0, 5, 0, .ro, []⟩, ⟨8, 6, 0, .ro, []⟩, ⟨16, 6, 0, .ro, []⟩]⟩,
   ⟨0x11000, 256, 0x4, 1, 0x0, [⟨0, 12, 0, .rw, []⟩, ⟨31, 1, 0, .ro, []⟩]⟩,
   ⟨0x10400, 17, 0x20, 6, 0x4, [⟨0, 3, 0, .ro, []⟩, ⟨3, 3, 0, .ro, []⟩, ⟨6, 3, 0, .ro, []⟩, ⟨9, 3, 0, .ro, []⟩, ⟨12, 3, 0, .ro, []⟩, ⟨15, 3, 0, .ro, []⟩, ⟨18, 3, 0, .ro, []⟩, ⟨21, 3, 0, .ro, []⟩]⟩]

/-- The registers of the MPU block. -/
def blockMPU : List RegDesc :=
  [⟨0x20000, 1, 0x0, 1, 0x0, [⟨0, 16, 0, .rw, []⟩]⟩,
   ⟨0x20004, 1, 0x0, 1, 0x0, [⟨0, 6, 0, .ro, []⟩, ⟨6, 1, 0, .ro, []⟩, ⟨7, 1, 0, .ro, []⟩, ⟨8, 1, 0, .ro, []⟩, ⟨9, 1, 0, .ro, []⟩, ⟨10, 5, 0, .ro, []⟩, ⟨15, 1, 0, .ro, []⟩, ⟨31, 1, 0, .w1c, []⟩]⟩,
   ⟨0x20008, 1, 0x0, 1, 0x0, [⟨0, 32, 0, .ro, []⟩]⟩,
   ⟨0x2000c, 1, 0x0, 1, 0x0, [⟨0, 6, 0, .ro, []⟩]⟩,
   ⟨0x20010, 1, 0x0, 1, 0x0, [⟨0, 32, 0, .rc, []⟩]⟩,
   ⟨0x20014, 1, 0x0, 1, 0x0, [⟨0, 16, 0, .rc, []⟩]⟩,
   ⟨0x20018, 1, 0x0, 1, 0x0, [⟨0, 1, 0, .rw, []⟩, ⟨16, 11, 0, .rw, []⟩]⟩]

/-- The registers of the CST block. -/
def blockCST : List RegDesc :=
  [⟨0x40000, 1, 0x0, 1, 0x0, [⟨0, 1, 0, .ro, []⟩, ⟨1, 1, 1, .ro, []⟩, ⟨2, 4, 0xb, .ro, []⟩, ⟨6, 1, 0, .ro, []⟩, ⟨7, 4, 0, .ro, []⟩, ⟨11, 3, 0, .ro, []⟩, ⟨14, 2, 0, .ro, []⟩, ⟨16, 4, 0, .ro, []⟩, ⟨20, 1, 0, .ro, []⟩]⟩,
   ⟨0x40004, 1, 0x0, 1, 0x0, [⟨0, 4, 0, .wo, []⟩, ⟨31, 1, 0, .w1s, []⟩]⟩,
   ⟨0x40008, 1, 0x0, 1, 0x0, [⟨0, 12, 0, .ro, []⟩]⟩,
   ⟨0x4000c, 1, 0x0, 1, 0x0, [⟨0, 16, 0, .rc, []⟩]⟩,
   ⟨0x40010, 1, 0x0, 1, 0x0, [⟨0, 20, 630784, .ro, []⟩]⟩,
   ⟨0x40014, 1, 0x0, 1, 0x0, [⟨0, 20, 0, .ro, []⟩]⟩,
   ⟨0x40018, 1, 0x0, 1, 0x0, [⟨0, 16, 0, .rc, []⟩]⟩,
   ⟨0x40020, 1, 0x0, 1, 0x0, [⟨0, 10, 0, .ro, []⟩, ⟨31, 1, 0, .ro, []⟩]⟩,
   ⟨0x40024, 1, 0x0, 1, 0x0, [⟨0, 10, 0, .rw, []⟩]⟩,
   ⟨0x40028, 1, 0x0, 1, 0x0, [⟨0, 32, 0, .ro, []⟩]⟩,
   ⟨0x4002c, 1, 0x0, 1, 0x0, [⟨0, 32, 0, .ro, []⟩]⟩,
   ⟨0x40030, 1, 0x0, 1, 0x0, [⟨0, 4, 0, .ro, []⟩, ⟨4, 2, 0, .ro, []⟩, ⟨8, 8, 0, .ro, []⟩, ⟨16, 16, 0, .ro, []⟩]⟩,
   ⟨0x40034, 1, 0x0, 1, 0x0, [⟨0, 32, 0, .ro, []⟩]⟩,
   ⟨0x40038, 1, 0x0, 1, 0x0, [⟨0, 32, 0, .ro, []⟩]⟩,
   ⟨0x4003c, 1, 0x0, 1, 0x0, [⟨0, 16, 0, .rc, []⟩]⟩,
   ⟨0x40040, 1, 0x0, 1, 0x0, [⟨0, 12, 0, .rw, []⟩, ⟨16, 1, 0, .w1s, []⟩]⟩,
   ⟨0x40044, 1, 0x0, 1, 0x0, [⟨0, 7, 0, .ro, []⟩, ⟨7, 1, 1, .ro, []⟩]⟩,
   ⟨0x40100, 12, 0x20, 1, 0x0, [⟨0, 2, 0, .rwi, [0, 1, 2]⟩]⟩,
   ⟨0x40104, 12, 0x20, 1, 0x0, [⟨0, 2, 0, .ro, []⟩, ⟨2, 4, 0, .ro, []⟩, ⟨6, 3, 1, .ro, []⟩, ⟨9, 2, 0, .ro, []⟩, ⟨11, 1, 0, .ro, []⟩]⟩,
   ⟨0x40108, 12, 0x20, 1, 0x0, [⟨0, 9, 256, .ro, []⟩, ⟨9, 9, 0, .ro, []⟩, ⟨18, 9, 0, .ro, []⟩]⟩,
   ⟨0x4010c, 12, 0x20, 1, 0x0, [⟨0, 16, 0, .rc, []⟩, ⟨16, 16, 0, .rc, []⟩]⟩,
   ⟨0x40110, 12, 0x20, 1, 0x0, [⟨0, 16, 0, .rc, []⟩, ⟨16, 8, 0, .rc, []⟩, ⟨24, 8, 0, .rc, []⟩]⟩]

/-- The registers of the LNE block. -/
def blockLNE : List RegDesc :=
  [⟨0x80000, 1, 0x0, 1, 0x0, [⟨0, 8, 0, .ro, []⟩, ⟨8, 1, 0, .ro, []⟩]⟩,
   ⟨0x80004, 1, 0x0, 1, 0x0, [⟨0, 2, 0, .rwi, [0, 1, 2]⟩, ⟨2, 2, 0, .rwi, [0, 1, 2]⟩, ⟨4, 2, 0, .rwi, [0, 1, 2]⟩, ⟨6, 2, 0, .rwi, [0, 1, 2]⟩]⟩,
   ⟨0x80100, 16, 0x8, 1, 0x0, [⟨0, 7, 0, .rw, List.range 96⟩, ⟨8, 2, 0, .rw, [0, 1, 2]⟩, ⟨10, 1, 0, .rw, []⟩, ⟨31, 1, 0, .w1s, []⟩]⟩,
   ⟨0x80104, 16, 0x8, 1, 0x0, [⟨0, 1, 0, .ro, []⟩, ⟨1, 1, 0, .ro, []⟩, ⟨2, 1, 0, .w1c, []⟩, ⟨8, 7, 0, .ro, []⟩]⟩,
   ⟨0x81000, 96, 0x20, 1, 0x0, [⟨0, 4, 0, .ro, []⟩, ⟨4, 3, 0, .ro, []⟩, ⟨7, 1, 0, .ro, []⟩, ⟨8, 1, 0, .ro, []⟩, ⟨9, 1, 0, .ro, []⟩, ⟨10, 1, 0, .ro, []⟩]⟩,
   ⟨0x81004, 96, 0x20, 1, 0x0, [⟨0, 12, 0, .ro, []⟩, ⟨12, 12, 0, .ro, []⟩, ⟨31, 1, 0, .ro, []⟩]⟩,
   ⟨0x81008, 96, 0x20, 1, 0x0, [⟨0, 6, 0, .ro, []⟩, ⟨8, 6, 0, .ro, []⟩, ⟨31, 1, 0, .ro, []⟩]⟩,
   ⟨0x8100c, 96, 0x20, 1, 0x0, [⟨0, 4, 0, .rw, []⟩, ⟨8, 5, 0, .rw, []⟩]⟩,
   ⟨0x81010, 96, 0x20, 1, 0x0, [⟨0, 16, 0, .rc, []⟩, ⟨16, 16, 0, .rc, []⟩]⟩]

/-- The registers of the ING block. -/
def blockING : List RegDesc :=
  [⟨0x100000, 1, 0x0, 1, 0x0, [⟨0, 32, 0, .rw, []⟩]⟩,
   ⟨0x100004, 1, 0x0, 1, 0x0, [⟨0, 32, 0, .rw, []⟩]⟩,
   ⟨0x100010, 4, 0x4, 1, 0x0, [⟨0, 32, 0, .rc, []⟩]⟩,
   ⟨0x101000, 128, 0x20, 1, 0x0, [⟨0, 1, 0, .ro, []⟩, ⟨1, 1, 0, .ro, []⟩, ⟨2, 2, 2, .ro, []⟩, ⟨4, 1, 0, .ro, []⟩, ⟨5, 1, 0, .ro, []⟩, ⟨6, 1, 0, .ro, []⟩, ⟨7, 1, 0, .ro, []⟩, ⟨16, 16, 0, .ro, []⟩]⟩,
   ⟨0x101004, 128, 0x20, 1, 0x0, [⟨0, 32, 0, .ro, []⟩]⟩,
   ⟨0x101008, 128, 0x20, 1, 0x0, [⟨0, 16, 0, .rc, []⟩, ⟨16, 16, 0, .rc, []⟩]⟩,
   ⟨0x10100c, 128, 0x20, 1, 0x0, [⟨0, 16, 0, .rc, []⟩, ⟨16, 16, 0, .rc, []⟩]⟩,
   ⟨0x101010, 128, 0x20, 1, 0x0, [⟨0, 16, 0, .rc, []⟩]⟩,
   ⟨0x101014, 128, 0x20, 1, 0x0, [⟨0, 1, 0, .w1s, []⟩, ⟨1, 1, 0, .w1s, []⟩, ⟨2, 1, 0, .ro, []⟩]⟩,
   ⟨0x101018, 128, 0x20, 1, 0x0, [⟨0, 32, 0, .ro, []⟩]⟩,
   ⟨0x10101c, 128, 0x20, 1, 0x0, [⟨0, 32, 0, .ro, []⟩]⟩]

/-- The registers of the DEC block. -/
def blockDEC : List RegDesc :=
  [⟨0x140000, 9, 0x4, 1, 0x0, [⟨0, 1, 0, .ro, []⟩, ⟨1, 1, 0, .ro, []⟩, ⟨2, 1, 0, .ro, []⟩, ⟨4, 7, 0, .ro, []⟩, ⟨11, 5, 0, .ro, []⟩]⟩,
   ⟨0x140040, 1, 0x0, 1, 0x0, [⟨0, 10, 0, .rw, []⟩, ⟨10, 2, 0, .rw, []⟩, ⟨31, 1, 0, .ro, []⟩]⟩,
   ⟨0x140044, 1, 0x0, 1, 0x0, [⟨0, 32, 0, .ro, []⟩]⟩,
   ⟨0x141000, 128, 0x10, 1, 0x0, [⟨0, 3, 0, .ro, []⟩, ⟨3, 1, 1, .ro, []⟩, ⟨4, 1, 0, .ro, []⟩, ⟨5, 1, 0, .ro, []⟩, ⟨6, 2, 2, .ro, []⟩, ⟨8, 4, 0, .ro, []⟩, ⟨12, 8, 0, .ro, []⟩, ⟨20, 4, 0x0, .ro, []⟩]⟩,
   ⟨0x141004, 128, 0x10, 1, 0x0, [⟨0, 8, 0, .rc, []⟩, ⟨8, 8, 0, .rc, []⟩, ⟨16, 8, 0, .rc, []⟩, ⟨24, 8, 0, .rc, []⟩]⟩,
   ⟨0x141008, 128, 0x10, 1, 0x0, [⟨0, 32, 0, .ro, []⟩]⟩,
   ⟨0x14100c, 128, 0x10, 1, 0x0, [⟨0, 5, 0, .ro, []⟩, ⟨8, 5, 0, .ro, []⟩, ⟨16, 5, 0, .ro, []⟩]⟩]

/-- The registers of the ENC block. -/
def blockENC : List RegDesc :=
  [⟨0x180000, 1, 0x0, 1, 0x0, [⟨0, 1, 0, .rw, []⟩, ⟨16, 11, 0, .rw, []⟩]⟩,
   ⟨0x180004, 1, 0x0, 1, 0x0, [⟨0, 16, 0, .w1c, []⟩]⟩,
   ⟨0x180010, 2, 0x4, 1, 0x0, [⟨0, 1, 0, .ro, []⟩, ⟨1, 1, 0, .ro, []⟩, ⟨2, 1, 0, .ro, []⟩, ⟨4, 4, 0, .ro, []⟩, ⟨8, 5, 0, .ro, []⟩]⟩,
   ⟨0x180400, 16, 0x40, 1, 0x0, [⟨0, 1, 0, .ro, []⟩, ⟨1, 1, 0, .w1c, []⟩, ⟨2, 1, 0, .ro, []⟩, ⟨8, 6, 0, .ro, []⟩]⟩,
   ⟨0x180404, 16, 0x40, 1, 0x0, [⟨0, 32, 0, .rw, []⟩]⟩,
   ⟨0x180408, 16, 0x40, 1, 0x0, [⟨0, 32, 0, .rw, []⟩]⟩,
   ⟨0x18040c, 16, 0x40, 1, 0x0, [⟨0, 6, 0, .rw, []⟩, ⟨8, 1, 0, .w1s, []⟩, ⟨31, 1, 0, .w1s, []⟩]⟩,
   ⟨0x180410, 16, 0x40, 1, 0x0, [⟨0, 24, 0, .ro, []⟩, ⟨24, 8, 0, .ro, []⟩]⟩,
   ⟨0x180414, 16, 0x40, 1, 0x0, [⟨0, 1, 0, .ro, []⟩, ⟨1, 1, 0, .ro, []⟩, ⟨2, 6, 0, .ro, []⟩, ⟨8, 6, 0, .ro, []⟩, ⟨16, 8, 0, .ro, []⟩, ⟨24, 8, 0, .ro, []⟩]⟩,
   ⟨0x180418, 16, 0x40, 1, 0x0, [⟨0, 8, 0, .rc, []⟩, ⟨8, 8, 0, .rc, []⟩, ⟨16, 8, 0, .rc, []⟩, ⟨24, 8, 0, .rc, []⟩]⟩,
   ⟨0x18041c, 16, 0x40, 1, 0x0, [⟨0, 32, 0, .ro, []⟩]⟩,
   ⟨0x180420, 16, 0x40, 1, 0x0, [⟨0, 32, 0, .rw, []⟩]⟩]

/-- The registers of the CMP block. -/
def blockCMP : List RegDesc :=
  [⟨0x200000, 1, 0x0, 1, 0x0, [⟨0, 1, 0, .rw, []⟩, ⟨1, 1, 0, .rw, []⟩, ⟨16, 11, 0, .rw, []⟩]⟩,
   ⟨0x200010, 1, 0x0, 1, 0x0, [⟨0, 32, 0, .w1c, []⟩]⟩,
   ⟨0x200014, 1, 0x0, 1, 0x0, [⟨0, 32, 0, .w1c, []⟩]⟩,
   ⟨0x200018, 1, 0x0, 1, 0x0, [⟨0, 12, 0, .rc, []⟩, ⟨30, 1, 0, .rc, []⟩, ⟨31, 1, 0, .rc, []⟩]⟩,
   ⟨0x200020, 1, 0x0, 1, 0x0, [⟨0, 12, 0, .wo, []⟩, ⟨12, 2, 0, .wo, [0, 1, 2]⟩, ⟨16, 6, 0, .wo, []⟩]⟩,
   ⟨0x200024, 1, 0x0, 1, 0x0, [⟨0, 2, 0, .ro, []⟩, ⟨16, 12, 0, .ro, []⟩]⟩,
   ⟨0x200030, 1, 0x0, 1, 0x0, [⟨0, 12, 0, .ro, []⟩, ⟨12, 1, 0, .ro, []⟩, ⟨31, 1, 0, .w1c, []⟩]⟩,
   ⟨0x200034, 1, 0x0, 1, 0x0, [⟨0, 32, 0, .ro, []⟩]⟩,
   ⟨0x200038, 1, 0x0, 1, 0x0, [⟨0, 32, 0, .ro, []⟩]⟩,
   ⟨0x20003c, 1, 0x0, 1, 0x0, [⟨0, 32, 0, .rc, []⟩]⟩,
   ⟨0x200040, 1, 0x0, 1, 0x0, [⟨0, 12, 0, .rw, []⟩]⟩,
   ⟨0x200044, 1, 0x0, 1, 0x0, [⟨0, 2, 0, .ro, []⟩, ⟨2, 1, 0, .ro, []⟩, ⟨3, 1, 0, .ro, []⟩, ⟨4, 4, 0, .ro, []⟩, ⟨8, 2, 0, .ro, []⟩, ⟨10, 2, 0, .ro, []⟩, ⟨12, 1, 0, .ro, []⟩, ⟨13, 1, 0, .w1c, []⟩, ⟨16, 16, 0, .ro, []⟩]⟩,
   ⟨0x200048, 1, 0x0, 1, 0x0, [⟨0, 16, 0, .ro, []⟩, ⟨16, 16, 0, .ro, []⟩]⟩,
   ⟨0x20004c, 1, 0x0, 1, 0x0, [⟨0, 32, 0, .ro, []⟩]⟩,
   ⟨0x200050, 1, 0x0, 1, 0x0, [⟨0, 32, 0, .rw, []⟩]⟩,
   ⟨0x200100, 9, 0x4, 1, 0x0, [⟨0, 1, 0, .ro, []⟩, ⟨1, 1, 0, .ro, []⟩, ⟨2, 1, 0, .ro, []⟩, ⟨4, 6, 0, .ro, []⟩, ⟨16, 16, 0, .rc, []⟩]⟩,
   ⟨0x200200, 48, 0x4, 1, 0x0, [⟨0, 30, 0, .rw, []⟩]⟩,
   ⟨0x200300, 48, 0x4, 1, 0x0, [⟨0, 8, 0, .ro, []⟩, ⟨16, 16, 0, .rc, []⟩]⟩,
   ⟨0x201000, 1024, 0x4, 1, 0x0, [⟨0, 1, 0, .ro, []⟩, ⟨1, 1, 0, .ro, []⟩, ⟨2, 1, 0, .ro, []⟩, ⟨4, 4, 0x0, .ro, []⟩, ⟨8, 1, 0, .w1c, []⟩, ⟨16, 6, 0, .ro, []⟩]⟩]

/-- The registers of the HDS block. -/
def blockHDS : List RegDesc :=
  [⟨0x300000, 1, 0x0, 1, 0x0, [⟨0, 32, (Config.fixedReg ((0x300000) * 32 + 0) % 2 ^ 32), .ro, []⟩]⟩,
   ⟨0x300004, 1, 0x0, 1, 0x0, [⟨0, 16, (Config.fixedReg ((0x300004) * 32 + 0) % 2 ^ 16), .ro, []⟩]⟩,
   ⟨0x300008, 1, 0x0, 1, 0x0, [⟨0, 32, 0, .rw, []⟩]⟩,
   ⟨0x30000c, 1, 0x0, 1, 0x0, [⟨0, 16, 0, .rw, []⟩]⟩,
   ⟨0x301000, 48, 0x40, 1, 0x0, [⟨0, 8, 0, .wo, []⟩, ⟨8, 1, 0, .wo, []⟩, ⟨31, 1, 0, .w1s, []⟩]⟩,
   ⟨0x301004, 48, 0x40, 1, 0x0, [⟨0, 1, 0, .ro, []⟩, ⟨1, 1, 0, .ro, []⟩, ⟨2, 1, 0, .w1c, []⟩, ⟨3, 1, 0, .w1c, []⟩, ⟨4, 1, 0, .w1c, []⟩, ⟨5, 1, 0, .ro, []⟩, ⟨6, 1, 0, .w1c, []⟩, ⟨7, 1, 0, .ro, []⟩, ⟨8, 1, 0, .ro, []⟩]⟩,
   ⟨0x301008, 48, 0x40, 1, 0x0, [⟨0, 32, 0, .ro, []⟩]⟩,
   ⟨0x30100c, 48, 0x40, 1, 0x0, [⟨0, 32, 0, .ro, []⟩]⟩,
   ⟨0x301010, 48, 0x40, 1, 0x0, [⟨0, 32, 0, .ro, []⟩]⟩,
   ⟨0x301014, 48, 0x40, 1, 0x0, [⟨0, 32, 0, .ro, []⟩]⟩,
   ⟨0x301018, 48, 0x40, 1, 0x0, [⟨0, 32, 0, .ro, []⟩]⟩,
   ⟨0x30101c, 48, 0x40, 1, 0x0, [⟨0, 32, 0, .ro, []⟩]⟩,
   ⟨0x301020, 48, 0x40, 1, 0x0, [⟨0, 1, 0, .rw, []⟩, ⟨8, 8, 0x2, .rw, []⟩, ⟨16, 16, 0, .rw, []⟩]⟩,
   ⟨0x301024, 48, 0x40, 1, 0x0, [⟨0, 8, 0, .ro, []⟩, ⟨8, 1, 0, .ro, []⟩, ⟨16, 16, 0, .ro, []⟩]⟩,
   ⟨0x301028, 48, 0x40, 1, 0x0, [⟨0, 16, 0, .rc, []⟩, ⟨16, 8, 0, .rc, []⟩, ⟨24, 8, 0, .rc, []⟩]⟩,
   ⟨0x30102c, 48, 0x40, 1, 0x0, [⟨0, 32, 0, .ro, []⟩]⟩]

/-- The registers of the MIM block. -/
def blockMIM : List RegDesc :=
  [⟨0x380000, 1, 0x0, 1, 0x0, [⟨0, 1, 0, .ro, []⟩, ⟨1, 1, 0, .ro, []⟩, ⟨8, 8, 0, .ro, []⟩]⟩,
   ⟨0x380004, 1, 0x0, 1, 0x0, [⟨0, 32, 0, .ro, []⟩]⟩,
   ⟨0x380008, 1, 0x0, 1, 0x0, [⟨0, 32, 0, .ro, []⟩]⟩,
   ⟨0x38000c, 1, 0x0, 1, 0x0, [⟨0, 32, 0, .rc, []⟩]⟩,
   ⟨0x380010, 1, 0x0, 1, 0x0, [⟨0, 16, 0, .rc, []⟩, ⟨16, 16, 0, .rc, []⟩]⟩,
   ⟨0x380014, 1, 0x0, 1, 0x0, [⟨0, 16, 0, .rc, []⟩]⟩,
   ⟨0x380018, 1, 0x0, 1, 0x0, [⟨0, 16, 0, .rc, []⟩]⟩,
   ⟨0x380020, 1, 0x0, 1, 0x0, [⟨0, 16, 0, .rw, []⟩]⟩,
   ⟨0x380024, 1, 0x0, 1, 0x0, [⟨0, 4, 0, .ro, []⟩, ⟨4, 1, 0, .ro, []⟩, ⟨5, 1, 0, .ro, []⟩, ⟨6, 2, 0, .ro, []⟩, ⟨8, 1, 0, .ro, []⟩, ⟨9, 1, 0, .ro, []⟩, ⟨16, 6, 0, .ro, []⟩]⟩,
   ⟨0x380028, 1, 0x0, 1, 0x0, [⟨0, 32, 0, .ro, []⟩]⟩,
   ⟨0x380030, 1, 0x0, 1, 0x0, [⟨0, 6, 0, .rw, []⟩, ⟨16, 14, 0, .rw, []⟩]⟩,
   ⟨0x380034, 1, 0x0, 1, 0x0, [⟨0, 6, 0, .ro, []⟩, ⟨8, 6, 0, .ro, []⟩]⟩,
   ⟨0x380038, 1, 0x0, 1, 0x0, [⟨0, 32, 0, .ro, []⟩]⟩,
   ⟨0x380100, 64, 0x4, 1, 0x0, [⟨0, 1, 0, .ro, []⟩, ⟨1, 1, 0, .ro, []⟩, ⟨16, 16, 0, .ro, []⟩]⟩]

/-- The registers of the FRS block. -/
def blockFRS : List RegDesc :=
  [⟨0x3c0000, 1, 0x0, 1, 0x0, [⟨0, 26, 0, .ro, []⟩, ⟨31, 1, 0, .ro, []⟩]⟩,
   ⟨0x3c0010, 1, 0x0, 1, 0x0, [⟨0, 32, 0, .ro, []⟩]⟩,
   ⟨0x3c0014, 1, 0x0, 1, 0x0, [⟨0, 32, 0, .ro, []⟩]⟩,
   ⟨0x3c0018, 1, 0x0, 1, 0x0, [⟨0, 12, 0, .ro, []⟩]⟩,
   ⟨0x3c001c, 1, 0x0, 1, 0x0, [⟨0, 12, 0, .rw, []⟩]⟩,
   ⟨0x3c0020, 1, 0x0, 1, 0x0, [⟨0, 16, 0, .rc, []⟩]⟩,
   ⟨0x3c0100, 48, 0x8, 1, 0x0, [⟨0, 3, 0, .ro, []⟩, ⟨4, 6, 0, .ro, []⟩, ⟨16, 7, 0, .ro, []⟩, ⟨24, 8, 0, .ro, []⟩]⟩,
   ⟨0x3c0104, 48, 0x8, 1, 0x0, [⟨1, 1, 0, .w1c, []⟩, ⟨2, 1, 0, .w1c, []⟩, ⟨3, 1, 0, .w1c, []⟩, ⟨4, 1, 0, .w1c, []⟩, ⟨5, 1, 0, .w1c, []⟩]⟩,
   ⟨0x3c1000, 1024, 0x8, 1, 0x0, [⟨0, 3, 0, .ro, []⟩, ⟨3, 1, 0, .ro, []⟩, ⟨4, 2, 0, .ro, []⟩, ⟨6, 1, 0, .ro, []⟩, ⟨7, 1, 0, .rw, []⟩, ⟨8, 4, 0, .ro, []⟩, ⟨12, 4, 0, .ro, []⟩, ⟨16, 4, 0, .ro, []⟩, ⟨20, 1, 0, .w1c, []⟩]⟩,
   ⟨0x3c1004, 1024, 0x8, 1, 0x0, [⟨0, 26, 0, .rw, []⟩]⟩]

/-- The registers of the TIM block. -/
def blockTIM : List RegDesc :=
  [⟨0x400000, 1, 0x0, 1, 0x0, [⟨0, 32, 0, .ro, []⟩]⟩,
   ⟨0x400004, 1, 0x0, 1, 0x0, [⟨0, 32, 0, .ro, []⟩]⟩,
   ⟨0x400008, 1, 0x0, 1, 0x0, [⟨0, 32, 0, .ro, []⟩]⟩,
   ⟨0x40000c, 1, 0x0, 1, 0x0, [⟨0, 32, 0, .ro, []⟩]⟩,
   ⟨0x400010, 1, 0x0, 1, 0x0, [⟨0, 32, 0x28000000, .rw, []⟩]⟩,
   ⟨0x400018, 1, 0x0, 1, 0x0, [⟨0, 32, 0, .rw, []⟩]⟩,
   ⟨0x40001c, 1, 0x0, 1, 0x0, [⟨0, 32, 0, .rw, []⟩]⟩,
   ⟨0x400020, 1, 0x0, 1, 0x0, [⟨0, 32, 0, .rwi, []⟩]⟩,
   ⟨0x400024, 1, 0x0, 1, 0x0, [⟨0, 32, 0, .rwi, []⟩]⟩,
   ⟨0x400030, 1, 0x0, 1, 0x0, [⟨0, 1, 0, .w1s, []⟩, ⟨1, 1, 0, .w1s, []⟩]⟩,
   ⟨0x400034, 1, 0x0, 1, 0x0, [⟨0, 1, 0, .ro, []⟩, ⟨1, 3, 0, .ro, []⟩, ⟨16, 16, 0, .ro, []⟩]⟩,
   ⟨0x400038, 1, 0x0, 1, 0x0, [⟨0, 20, 1000, .rw, []⟩]⟩,
   ⟨0x400040, 1, 0x0, 1, 0x0, [⟨0, 8, 0, .rw, List.range 128⟩, ⟨8, 4, 0, .rw, []⟩, ⟨12, 1, 0, .rw, []⟩, ⟨16, 4, 0xd, .rw, [13, 14, 15, 0]⟩]⟩,
   ⟨0x400044, 1, 0x0, 1, 0x0, [⟨0, 16, 0, .rc, []⟩, ⟨16, 16, 0, .rc, []⟩]⟩,
   ⟨0x400100, 52, 0x10, 1, 0x0, [⟨0, 32, 0, .rw, []⟩]⟩,
   ⟨0x400104, 52, 0x10, 1, 0x0, [⟨0, 32, 0, .rw, []⟩]⟩,
   ⟨0x400108, 52, 0x10, 1, 0x0, [⟨0, 32, 0, .rw, []⟩]⟩]

/-- The registers of the MBX block. -/
def blockMBX : List RegDesc :=
  [⟨0x418000, 1, 0x0, 1, 0x0, [⟨0, 2, 0, .ro, []⟩, ⟨2, 1, 0, .ro, []⟩, ⟨3, 1, 0, .ro, []⟩, ⟨4, 1, 0, .ro, []⟩]⟩,
   ⟨0x418004, 1, 0x0, 1, 0x0, [⟨0, 16, 0, .rc, []⟩, ⟨16, 16, 0, .rc, []⟩]⟩,
   ⟨0x418008, 1, 0x0, 1, 0x0, [⟨0, 16, 0, .rc, []⟩]⟩,
   ⟨0x41800c, 1, 0x0, 1, 0x0, [⟨0, 1, 0, .rw, []⟩, ⟨1, 1, 0, .rw, []⟩, ⟨16, 11, 0, .rw, []⟩]⟩,
   ⟨0x418010, 1, 0x0, 1, 0x0, [⟨0, 32, 0, .w1s, []⟩]⟩,
   ⟨0x418014, 1, 0x0, 1, 0x0, [⟨0, 32, 0, .w1s, []⟩]⟩,
   ⟨0x418018, 1, 0x0, 1, 0x0, [⟨0, 32, 0, .w1c, []⟩]⟩,
   ⟨0x41801c, 1, 0x0, 1, 0x0, [⟨0, 32, 0, .w1c, []⟩]⟩,
   ⟨0x410000, 8, 0x100, 16, 0x4, [⟨0, 32, 0, .rw, []⟩]⟩,
   ⟨0x411000, 8, 0x100, 16, 0x4, [⟨0, 32, 0, .rw, []⟩]⟩,
   ⟨0x414000, 16, 0x100, 16, 0x4, [⟨0, 32, 0, .rw, []⟩]⟩,
   ⟨0x410040, 8, 0x100, 1, 0x0, [⟨0, 1, 0, .w1s, []⟩]⟩,
   ⟨0x411040, 8, 0x100, 1, 0x0, [⟨0, 1, 0, .w1s, []⟩]⟩,
   ⟨0x414040, 16, 0x100, 1, 0x0, [⟨0, 1, 0, .w1s, []⟩]⟩,
   ⟨0x410044, 8, 0x100, 1, 0x0, [⟨0, 5, 16, .ro, []⟩, ⟨5, 5, 0, .ro, []⟩, ⟨10, 1, 0, .w1c, []⟩, ⟨11, 1, 0, .w1c, []⟩, ⟨12, 5, 0, .ro, []⟩]⟩,
   ⟨0x411044, 8, 0x100, 1, 0x0, [⟨0, 5, 16, .ro, []⟩, ⟨5, 5, 0, .ro, []⟩, ⟨10, 1, 0, .w1c, []⟩, ⟨11, 1, 0, .w1c, []⟩, ⟨12, 5, 0, .ro, []⟩]⟩,
   ⟨0x414044, 16, 0x100, 1, 0x0, [⟨0, 5, 16, .ro, []⟩, ⟨5, 5, 0, .ro, []⟩, ⟨10, 1, 0, .w1c, []⟩, ⟨11, 1, 0, .w1c, []⟩, ⟨12, 5, 0, .ro, []⟩]⟩,
   ⟨0x410048, 8, 0x100, 1, 0x0, [⟨0, 8, 0, .rc, []⟩, ⟨8, 16, 0, .rc, []⟩, ⟨31, 1, 0, .rc, []⟩]⟩,
   ⟨0x411048, 8, 0x100, 1, 0x0, [⟨0, 8, 0, .rc, []⟩, ⟨8, 16, 0, .rc, []⟩, ⟨31, 1, 0, .rc, []⟩]⟩,
   ⟨0x414048, 16, 0x100, 1, 0x0, [⟨0, 8, 0, .rc, []⟩, ⟨8, 16, 0, .rc, []⟩, ⟨31, 1, 0, .rc, []⟩]⟩,
   ⟨0x410880, 8, 0x100, 16, 0x4, [⟨0, 32, 0, .ro, []⟩]⟩,
   ⟨0x411880, 8, 0x100, 16, 0x4, [⟨0, 32, 0, .ro, []⟩]⟩,
   ⟨0x414080, 16, 0x100, 16, 0x4, [⟨0, 32, 0, .ro, []⟩]⟩,
   ⟨0x4108c0, 8, 0x100, 1, 0x0, [⟨0, 1, 0, .w1s, []⟩]⟩,
   ⟨0x4118c0, 8, 0x100, 1, 0x0, [⟨0, 1, 0, .w1s, []⟩]⟩,
   ⟨0x4140c0, 16, 0x100, 1, 0x0, [⟨0, 1, 0, .w1s, []⟩]⟩,
   ⟨0x4108c4, 8, 0x100, 1, 0x0, [⟨0, 5, 0, .ro, []⟩, ⟨5, 1, 0, .w1c, []⟩]⟩,
   ⟨0x4118c4, 8, 0x100, 1, 0x0, [⟨0, 5, 0, .ro, []⟩, ⟨5, 1, 0, .w1c, []⟩]⟩,
   ⟨0x4140c4, 16, 0x100, 1, 0x0, [⟨0, 5, 0, .ro, []⟩, ⟨5, 1, 0, .w1c, []⟩]⟩,
   ⟨0x4108c8, 8, 0x100, 1, 0x0, [⟨0, 8, 0, .wo, []⟩, ⟨8, 16, 0, .wo, []⟩, ⟨31, 1, 0, .w1s, []⟩]⟩,
   ⟨0x4118c8, 8, 0x100, 1, 0x0, [⟨0, 8, 0, .wo, []⟩, ⟨8, 16, 0, .wo, []⟩, ⟨31, 1, 0, .w1s, []⟩]⟩,
   ⟨0x4140c8, 16, 0x100, 1, 0x0, [⟨0, 8, 0, .wo, []⟩, ⟨8, 16, 0, .wo, []⟩, ⟨31, 1, 0, .w1s, []⟩]⟩]

/-- The registers of the CRC block. -/
def blockCRC : List RegDesc :=
  [⟨0x420000, 1, 0x0, 1, 0x0, [⟨0, 1, 0, .rw, []⟩, ⟨16, 11, 0, .rw, []⟩]⟩,
   ⟨0x420004, 1, 0x0, 1, 0x0, [⟨0, 8, 0, .w1c, []⟩]⟩,
   ⟨0x420008, 1, 0x0, 1, 0x0, [⟨0, 14, 0, .rw, []⟩, ⟨14, 1, 0, .w1c, []⟩]⟩,
   ⟨0x420100, 8, 0x40, 1, 0x0, [⟨0, 7, 32, .rwi, []⟩, ⟨7, 1, 0, .rwi, []⟩, ⟨8, 1, 0, .rwi, []⟩, ⟨30, 1, 0, .w1s, []⟩, ⟨31, 1, 0, .w1s, []⟩]⟩,
   ⟨0x420104, 8, 0x40, 1, 0x0, [⟨0, 1, 0, .ro, []⟩, ⟨1, 3, 0, .ro, []⟩, ⟨4, 1, 0, .w1c, []⟩]⟩,
   ⟨0x420108, 8, 0x40, 1, 0x0, [⟨0, 32, 0, .rwi, []⟩]⟩,
   ⟨0x42010c, 8, 0x40, 1, 0x0, [⟨0, 32, 0, .rwi, []⟩]⟩,
   ⟨0x420110, 8, 0x40, 1, 0x0, [⟨0, 32, 0, .rwi, []⟩]⟩,
   ⟨0x420114, 8, 0x40, 1, 0x0, [⟨0, 32, 0, .rwi, []⟩]⟩,
   ⟨0x420118, 8, 0x40, 1, 0x0, [⟨0, 32, 0, .rwi, []⟩]⟩,
   ⟨0x42011c, 8, 0x40, 1, 0x0, [⟨0, 32, 0, .rwi, []⟩]⟩,
   ⟨0x420120, 8, 0x40, 1, 0x0, [⟨0, 32, 0, .rwi, []⟩]⟩,
   ⟨0x420124, 8, 0x40, 1, 0x0, [⟨0, 32, 0, .rwi, []⟩]⟩,
   ⟨0x420128, 8, 0x40, 1, 0x0, [⟨0, 32, 0, .rwi, []⟩]⟩,
   ⟨0x420130, 8, 0x40, 1, 0x0, [⟨0, 32, 0, .ro, []⟩]⟩,
   ⟨0x420134, 8, 0x40, 1, 0x0, [⟨0, 32, 0, .ro, []⟩]⟩]

/-- The registers of the DFL block. -/
def blockDFL : List RegDesc :=
  [⟨0x430000, 1, 0x0, 1, 0x0, [⟨0, 1, 0, .rw, []⟩, ⟨16, 11, 0, .rw, []⟩]⟩,
   ⟨0x430004, 1, 0x0, 1, 0x0, [⟨0, 2, 0, .w1c, []⟩]⟩,
   ⟨0x430008, 1, 0x0, 1, 0x0, [⟨0, 16, 0, .rc, []⟩]⟩,
   ⟨0x430100, 2, 0x100, 1, 0x0, [⟨0, 1, 0, .rwi, []⟩, ⟨1, 2, 0, .rwi, [0, 1, 2]⟩, ⟨3, 1, 0, .rwi, []⟩, ⟨4, 3, 0, .rwi, [0, 1, 2, 3, 4]⟩]⟩,
   ⟨0x430104, 2, 0x100, 1, 0x0, [⟨0, 1, 0, .w1s, []⟩, ⟨1, 1, 0, .w1s, []⟩, ⟨2, 1, 0, .w1s, []⟩, ⟨3, 2, 0, .wo, []⟩]⟩,
   ⟨0x430108, 2, 0x100, 1, 0x0, [⟨0, 1, 0, .ro, []⟩, ⟨1, 1, 0, .ro, []⟩, ⟨2, 4, 0x0, .ro, []⟩, ⟨6, 1, 0, .w1c, []⟩, ⟨7, 1, 0, .w1c, []⟩]⟩,
   ⟨0x430110, 2, 0x100, 1, 0x0, [⟨0, 32, 0, .rwi, []⟩]⟩,
   ⟨0x430114, 2, 0x100, 1, 0x0, [⟨0, 32, 0, .rwi, []⟩]⟩,
   ⟨0x430118, 2, 0x100, 1, 0x0, [⟨0, 32, 0, .rwi, []⟩]⟩,
   ⟨0x430120, 2, 0x100, 1, 0x0, [⟨0, 32, 0, .rwi, []⟩]⟩,
   ⟨0x430124, 2, 0x100, 1, 0x0, [⟨0, 32, 0, .rwi, []⟩]⟩,
   ⟨0x430128, 2, 0x100, 1, 0x0, [⟨0, 32, 0, .rwi, []⟩]⟩,
   ⟨0x430130, 2, 0x100, 1, 0x0, [⟨0, 32, 0, .ro, []⟩]⟩,
   ⟨0x430134, 2, 0x100, 1, 0x0, [⟨0, 32, 0, .ro, []⟩]⟩,
   ⟨0x430138, 2, 0x100, 1, 0x0, [⟨0, 32, 0, .ro, []⟩]⟩,
   ⟨0x43013c, 2, 0x100, 1, 0x0, [⟨0, 13, 0, .rw, []⟩]⟩]

/-- The registers of the TWN block. -/
def blockTWN : List RegDesc :=
  [⟨0x440000, 1, 0x0, 1, 0x0, [⟨0, 1, 0, .w1s, []⟩, ⟨1, 1, 0, .rw, []⟩]⟩,
   ⟨0x440004, 1, 0x0, 1, 0x0, [⟨0, 1, 0, .w1s, []⟩]⟩,
   ⟨0x440008, 1, 0x0, 1, 0x0, [⟨0, 1, 0, .ro, []⟩, ⟨1, 1, 0, .ro, []⟩, ⟨2, 1, 0, .ro, []⟩, ⟨3, 1, 0, .ro, []⟩, ⟨4, 1, 0, .ro, []⟩, ⟨5, 1, 0, .ro, []⟩, ⟨6, 1, 0, .ro, []⟩, ⟨7, 1, 0, .ro, []⟩, ⟨8, 1, 0, .ro, []⟩, ⟨9, 1, 0, .ro, []⟩, ⟨10, 1, 0, .w1c, []⟩, ⟨11, 1, 0, .ro, []⟩, ⟨12, 1, 0, .w1c, []⟩]⟩,
   ⟨0x44000c, 1, 0x0, 1, 0x0, [⟨0, 24, 0xffffff, .ro, []⟩]⟩,
   ⟨0x440010, 1, 0x0, 1, 0x0, [⟨0, 32, 0, .ro, []⟩]⟩,
   ⟨0x440014, 1, 0x0, 1, 0x0, [⟨0, 32, 0, .ro, []⟩]⟩,
   ⟨0x440018, 1, 0x0, 1, 0x0, [⟨0, 8, 0, .rc, []⟩, ⟨8, 8, 0, .rc, []⟩, ⟨16, 8, 0, .rc, []⟩, ⟨24, 8, 0, .rc, []⟩]⟩,
   ⟨0x44001c, 1, 0x0, 1, 0x0, [⟨0, 2, 0, .ro, []⟩, ⟨2, 5, 0, .ro, []⟩, ⟨7, 5, 0, .ro, []⟩]⟩]

/-- The registers of the BCK block. -/
def blockBCK : List RegDesc :=
  [⟨0x450000, 1, 0x0, 1, 0x0, [⟨0, 2, 0, .ro, []⟩, ⟨2, 1, 0, .ro, []⟩, ⟨8, 8, 0x0, .ro, []⟩, ⟨16, 16, 0, .ro, []⟩]⟩,
   ⟨0x450004, 1, 0x0, 1, 0x0, [⟨0, 16, 0, .ro, []⟩, ⟨16, 8, 0, .ro, []⟩]⟩,
   ⟨0x450008, 1, 0x0, 1, 0x0, [⟨0, 32, 0, .ro, []⟩]⟩,
   ⟨0x45000c, 1, 0x0, 1, 0x0, [⟨0, 32, 0, .ro, []⟩]⟩,
   ⟨0x450010, 1, 0x0, 1, 0x0, [⟨0, 16, 0, .rw, []⟩]⟩,
   ⟨0x450014, 1, 0x0, 1, 0x0, [⟨0, 31, 0, .ro, []⟩, ⟨31, 1, 0, .ro, []⟩]⟩,
   ⟨0x450020, 1, 0x0, 1, 0x0, [⟨0, 32, 0, .ro, []⟩]⟩,
   ⟨0x450024, 1, 0x0, 1, 0x0, [⟨0, 32, 0, .ro, []⟩]⟩,
   ⟨0x450028, 1, 0x0, 1, 0x0, [⟨0, 32, 0, .ro, []⟩]⟩,
   ⟨0x450100, 8, 0x4, 1, 0x0, [⟨0, 32, 0, .ro, []⟩]⟩,
   ⟨0x450120, 8, 0x4, 1, 0x0, [⟨0, 32, 0, .ro, []⟩]⟩,
   ⟨0x450140, 8, 0x4, 1, 0x0, [⟨0, 32, 0, .ro, []⟩]⟩,
   ⟨0x450160, 2, 0x4, 1, 0x0, [⟨0, 32, 0, .ro, []⟩]⟩]

/-- The registers of the SIM block. -/
def blockSIM : List RegDesc :=
  [⟨0x458000, 1, 0x0, 1, 0x0, [⟨0, 1, 0, .w1s, []⟩, ⟨1, 1, 0, .w1s, []⟩, ⟨2, 1, 0, .w1s, []⟩]⟩,
   ⟨0x458004, 1, 0x0, 1, 0x0, [⟨0, 4, 0x0, .ro, []⟩, ⟨4, 1, 0, .w1c, []⟩, ⟨5, 1, 0, .ro, []⟩, ⟨6, 1, 0, .ro, []⟩, ⟨7, 1, 0, .ro, []⟩, ⟨8, 1, 0, .ro, []⟩, ⟨16, 16, 0, .ro, []⟩]⟩,
   ⟨0x458008, 1, 0x0, 1, 0x0, [⟨0, 8, 0x0, .ro, []⟩, ⟨8, 8, 0, .ro, []⟩, ⟨16, 3, 0, .ro, []⟩, ⟨19, 1, 0, .ro, []⟩]⟩,
   ⟨0x458010, 1, 0x0, 1, 0x0, [⟨0, 32, 0, .rw, []⟩]⟩,
   ⟨0x458014, 1, 0x0, 1, 0x0, [⟨0, 32, 0, .rw, []⟩]⟩,
   ⟨0x458018, 1, 0x0, 1, 0x0, [⟨0, 32, 0, .rw, []⟩]⟩,
   ⟨0x458020, 1, 0x0, 1, 0x0, [⟨0, 32, 0, .rw, []⟩]⟩,
   ⟨0x458024, 1, 0x0, 1, 0x0, [⟨0, 32, 0, .rw, []⟩]⟩,
   ⟨0x458028, 1, 0x0, 1, 0x0, [⟨0, 32, 0, .ro, []⟩]⟩,
   ⟨0x45802c, 1, 0x0, 1, 0x0, [⟨0, 32, 0, .ro, []⟩]⟩,
   ⟨0x458030, 1, 0x0, 1, 0x0, [⟨0, 32, 0, .ro, []⟩]⟩,
   ⟨0x458034, 1, 0x0, 1, 0x0, [⟨0, 32, 0, .ro, []⟩]⟩,
   ⟨0x458040, 1, 0x0, 1, 0x0, [⟨0, 8, (Config.fixedReg ((0x458040) * 32 + 0) % 2 ^ 8), .ro, []⟩, ⟨16, 16, 0, .ro, []⟩]⟩,
   ⟨0x458044, 1, 0x0, 1, 0x0, [⟨0, 16, (Config.fixedReg ((0x458044) * 32 + 0) % 2 ^ 16), .ro, []⟩]⟩,
   ⟨0x458048, 1, 0x0, 1, 0x0, [⟨0, 32, (Config.fixedReg ((0x458048) * 32 + 0) % 2 ^ 32), .ro, []⟩]⟩,
   ⟨0x45804c, 1, 0x0, 1, 0x0, [⟨0, 32, 0, .ro, []⟩]⟩,
   ⟨0x458050, 1, 0x0, 1, 0x0, [⟨0, 1, 0, .wo, []⟩, ⟨16, 16, 0, .wo, []⟩]⟩,
   ⟨0x458054, 1, 0x0, 1, 0x0, [⟨0, 8, (Config.fixedReg ((0x458054) * 32 + 0) % 2 ^ 8), .ro, []⟩, ⟨8, 8, (Config.fixedReg ((0x458054) * 32 + 8) % 2 ^ 8), .ro, []⟩]⟩,
   ⟨0x458058, 1, 0x0, 1, 0x0, [⟨0, 8, 0, .ro, []⟩, ⟨8, 8, 0, .ro, []⟩]⟩]

/-- The registers of the RPR block. -/
def blockRPR : List RegDesc :=
  [⟨0x460000, 1, 0x0, 1, 0x0, [⟨0, 1, 1, .ro, []⟩, ⟨1, 4, 0xf, .ro, []⟩, ⟨5, 1, 1, .ro, []⟩, ⟨6, 4, 0xf, .ro, []⟩]⟩,
   ⟨0x460004, 1, 0x0, 1, 0x0, [⟨0, 24, 0, .ro, []⟩, ⟨24, 8, 0, .rc, []⟩]⟩,
   ⟨0x460008, 1, 0x0, 1, 0x0, [⟨0, 24, 0, .ro, []⟩, ⟨24, 8, 0, .rc, []⟩]⟩,
   ⟨0x46000c, 1, 0x0, 1, 0x0, [⟨0, 4, 0, .ro, []⟩, ⟨4, 1, 0, .ro, []⟩, ⟨5, 7, 0, .ro, []⟩, ⟨12, 8, 0, .ro, []⟩]⟩,
   ⟨0x460010, 1, 0x0, 1, 0x0, [⟨0, 16, 0, .ro, []⟩, ⟨16, 8, 8, .ro, []⟩, ⟨24, 8, 0, .rc, []⟩]⟩]

/-- The registers of the STC block. -/
def blockSTC : List RegDesc :=
  [⟨0x470000, 6, 0x40, 1, 0x0, [⟨0, 1, 0, .w1s, []⟩]⟩,
   ⟨0x470004, 6, 0x40, 1, 0x0, [⟨0, 3, 0, .ro, []⟩, ⟨3, 4, 0, .ro, []⟩, ⟨7, 4, 0, .ro, []⟩, ⟨11, 1, 0, .ro, []⟩, ⟨12, 1, 0, .ro, []⟩, ⟨13, 1, 0, .ro, []⟩, ⟨14, 1, 0, .ro, []⟩]⟩,
   ⟨0x470008, 6, 0x40, 1, 0x0, [⟨0, 9, 0, .ro, []⟩, ⟨9, 9, 256, .ro, []⟩]⟩,
   ⟨0x47000c, 6, 0x40, 1, 0x0, [⟨0, 32, 0, .ro, []⟩]⟩,
   ⟨0x470010, 6, 0x40, 1, 0x0, [⟨0, 32, 0, .ro, []⟩]⟩,
   ⟨0x470014, 6, 0x40, 1, 0x0, [⟨0, 12, 0, .rc, []⟩, ⟨12, 12, 0, .rc, []⟩, ⟨24, 8, 0, .rc, []⟩]⟩,
   ⟨0x471000, 256, 0x4, 1, 0x0, [⟨0, 1, 0, .ro, []⟩, ⟨1, 3, 0, .ro, []⟩, ⟨4, 8, 0, .ro, []⟩, ⟨16, 8, 0, .rc, []⟩]⟩]

/-- Every register of Table 19.5. -/
def all : List RegDesc :=
  blockSYS ++ blockTRT ++ blockMPU ++ blockCST ++ blockLNE ++ blockING ++
  blockDEC ++ blockENC ++ blockCMP ++ blockHDS ++ blockMIM ++ blockFRS ++
  blockTIM ++ blockMBX ++ blockCRC ++ blockDFL ++ blockTWN ++ blockBCK ++
  blockSIM ++ blockRPR ++ blockSTC

end Sys2Proof.Machine.Reg
end

