-- ==== Sys2Proof/Machine/State/Cfg.lean ====
section
/-! DEFINITION. The entries of a structure image's sections, one structure per body table of the specification,
and the whole active configuration that an activation puts in force (03_structure_image.md). -/

namespace Sys2Proof.Machine

/-- HEADS entry (03_structure_image.md Table 03.5). -/
structure HeadEntry where
  head : Nat
  enable : Nat
  tickerEn : Nat
  tickerCorner : Nat
  cell : Nat
  format : Nat
  hActive : Nat
  vActive : Nat
  hTotal : Nat
  vTotal : Nat
  latchLines : Nat
  periodNs : Nat
  periodFrac : Nat
  epoch : Nat
  tickerOffX : Nat
  tickerOffY : Nat
  lane : Nat
  engine : Nat
  tickerOn : Nat
  tickerOff : Nat
  maxLayers : Nat
  destMac : Nat
  pcp : Nat
  vid : Nat
  streamHandle : Nat
  deriving DecidableEq, Repr

/-- GINGHAM entry (Table 03.6). -/
structure GinghamEntry where
  colourA : Nat
  colourB : Nat
  coverage : Nat
  deriving DecidableEq, Repr

/-- LAYERS entry (Table 03.7); the 64-byte initial descriptor is kept as its 16 words. -/
structure LayerEntry where
  layer : Nat
  head : Nat
  liveBearing : Nat
  ginghamEn : Nat
  kind : Nat
  source : Nat
  budget : Nat
  envX0 : Nat
  envY0 : Nat
  envX1 : Nat
  envY1 : Nat
  envSrcW : Nat
  envSrcH : Nat
  envDown : Nat
  envUp : Nat
  descriptor : List Nat
  deriving DecidableEq, Repr

/-- WATCH entry (Table 03.10). -/
structure WatchEntry where
  layer : Nat
  tile : Nat
  bound : Nat
  predicate : Nat
  x : Nat
  y : Nat
  w : Nat
  h : Nat
  point : Nat
  threshold : Nat
  pointBudget : Nat
  freezeMs : Nat
  deriving DecidableEq, Repr

/-- STREAMS entry (05_ingest_decode.md Table 05.1). -/
structure StreamEntry where
  stream : Nat
  enable : Nat
  cls : Nat
  syncSrc : Nat
  frer : Nat
  ipv6 : Nat
  multicast : Nat
  codec : Nat
  level : Nat
  portA : Nat
  portB : Nat
  pt : Nat
  udpPort : Nat
  addr : Nat
  ssrc : Nat
  maxW : Nat
  maxH : Nat
  minPeriodUs : Nat
  maxPeriodUs : Nat
  bitrate : Nat
  jbBytes : Nat
  syncBound : Nat
  pathMax : Nat
  extIdNtp : Nat
  extIdClk : Nat
  srMaxAge : Nat
  concealLimit : Nat
  syncHold : Nat
  jbHold : Nat
  tokens : Nat
  deriving DecidableEq, Repr

/-- SURFACES entry (06_composition.md Table 06.2). -/
structure SurfaceEntry where
  handle : Nat
  format : Nat
  coding : Nat
  cls : Nat
  fill : Nat
  width : Nat
  height : Nat
  fillColour : Nat
  syncBound : Nat
  deriving DecidableEq, Repr

/-- Mimic surface entry (07_mimic.md Table 07.3). -/
structure MimicSurface where
  surface : Nat
  width : Nat
  height : Nat
  bgColour : Nat
  syncBound : Nat
  deriving DecidableEq, Repr

/-- Atlas frame entry (Table 07.4). -/
structure FrameEntry where
  x : Nat
  y : Nat
  w : Nat
  h : Nat
  deriving DecidableEq, Repr

/-- State table entry (Table 07.5). -/
structure StateEntry where
  lo : Nat
  hi : Nat
  frame : Nat
  tintEn : Nat
  valid : Nat
  tint : Nat
  deriving DecidableEq, Repr

/-- Widget record (Table 07.6). -/
structure WidgetEntry where
  widget : Nat
  surface : Nat
  enable : Nat
  bound : Nat
  point : Nat
  table : Nat
  x : Nat
  y : Nat
  w : Nat
  h : Nat
  deriving DecidableEq, Repr

/-- ENCODE entry (09_encode.md Table 09.1). -/
structure EncodeEntry where
  context : Nat
  enable : Nat
  main10 : Nat
  layerSrc : Nat
  outPcie : Nat
  rowAdapt : Nat
  ipv6 : Nat
  head : Nat
  core : Nat
  layer : Nat
  div : Nat
  qpMin : Nat
  qpMax : Nat
  port : Nat
  gopLen : Nat
  maxFrameBits : Nat
  addr : Nat
  ringOffset : Nat
  ringBytes : Nat
  ssrc : Nat
  udpPort : Nat
  pt : Nat
  extIdNtp : Nat
  mtu : Nat
  deriving DecidableEq, Repr

/-- FIELD port entry (10_field_points_commands.md Table 10.2). -/
structure PortEntry where
  port : Nat
  mode : Nat
  gptp : Nat
  mac : Nat
  pcp : Nat
  vid : Nat
  ipv4 : Nat
  cycleNs : Nat
  winOpenNs : Nat
  winLenNs : Nat
  deriving DecidableEq, Repr

/-- FIELD source entry (Table 10.3). -/
structure SourceEntry where
  source : Nat
  enable : Nat
  modbus : Nat
  cls : Nat
  frer : Nat
  multicast : Nat
  portA : Nat
  portB : Nat
  unitId : Nat
  addr : Nat
  mac : Nat
  l4Port : Nat
  publisherId : Nat
  pathMax : Nat
  silenceMs : Nat
  syncBoundUs : Nat
  deriving DecidableEq, Repr

/-- FIELD poll entry (Table 10.6). -/
structure PollEntry where
  source : Nat
  function : Nat
  start : Nat
  quantity : Nat
  periodMs : Nat
  timeoutMs : Nat
  deriving DecidableEq, Repr

/-- FIELD map entry (Table 10.7). -/
structure MapEntry where
  point : Nat
  item : Nat
  key : Nat
  source : Nat
  decode : Nat
  wordSwap : Nat
  deriving DecidableEq, Repr

/-- POINTS entry (Table 10.8). -/
structure PointEntry where
  point : Nat
  type : Nat
  refreshMs : Nat
  deadband : Nat
  deriving DecidableEq, Repr

/-- Guard term (Table 10.13). -/
structure GuardTerm where
  point : Nat
  op : Nat
  operand : Nat
  actionMask : Nat
  dwellMs : Nat
  maxAgeMs : Nat
  deriving DecidableEq, Repr

/-- Command target entry (Table 10.12). -/
structure TargetEntry where
  target : Nat
  enable : Nat
  modbus : Nat
  frer : Nat
  port : Nat
  portB : Nat
  launchMax : Nat
  allowed : Nat
  minIntervalMs : Nat
  rateCount : Nat
  rateWindowMs : Nat
  argMin : Nat
  argMax : Nat
  termCount : Nat
  terms : List GuardTerm
  destMac : Nat
  pcp : Nat
  vid : Nat
  destIp : Nat
  destPort : Nat
  dswId : Nat
  publisherId : Nat
  mbAddr : Nat
  mbFunc : Nat
  run : Nat
  deriving DecidableEq, Repr

/-- CONSOLE_AUTH entry (11_crossing.md Table 11.7). -/
structure ConsoleEntry where
  console : Nat
  enable : Nat
  anyOperator : Nat
  operator : Nat
  targetFirst : Nat
  targetCount : Nat
  actions : Nat
  deriving DecidableEq, Repr

/-- STITCH link entry (15_lanes.md Table 15.5). -/
structure LinkEntry where
  link : Nat
  enable : Nat
  ilm2400 : Nat
  wired : Nat
  deriving DecidableEq, Repr

/-- STITCH send entry (Table 15.5). -/
structure SendEntry where
  region : Nat
  link : Nat
  head : Nat
  x : Nat
  y : Nat
  w : Nat
  h : Nat
  deriving DecidableEq, Repr

/-- STITCH receive entry (Table 15.5). -/
structure RecvEntry where
  region : Nat
  link : Nat
  w : Nat
  h : Nat
  deriving DecidableEq, Repr

/-- TWIN body (16_twin_repair.md Table 16.5). -/
structure TwinBody where
  role : Nat
  autoEngine : Nat
  autoDecoder : Nat
  autoRetire : Nat
  spareWarm : Nat
  ceLimit : Nat
  deriving DecidableEq, Repr

/-- LOG body (03_structure_image.md Table 03.18). -/
structure LogBody where
  frsRing : Nat
  modRing : Nat
  modCount : Nat
  deriving DecidableEq, Repr

/-- CST_MAP body (13_central_store.md Table 13.3). -/
structure CstMap where
  grainLog2 : Nat
  hashEn : Nat
  rhWide : Nat
  rhThreshold : Nat
  srEn : Nat
  srIdleUs : Nat
  bar2Base : Nat
  deriving DecidableEq, Repr

/-- BANK body (03_structure_image.md Table 03.9). -/
structure BankBody where
  members : Nat
  bankSeq : Nat
  deriving DecidableEq, Repr

/-- MPU region table entry (14_tartan_protection.md Table 14.5). -/
structure RegionEntry where
  start : Nat
  stop : Nat
  en : Nat
  ur : Nat
  uw : Nat
  pr : Nat
  pw : Nat
  sec : Nat
  deriving DecidableEq, Repr

/-- One claim record (03_structure_image.md Table 03.8) with its body (04_admission.md Table 04.1). -/
inductive ClaimBody where
  | deletion
  | reservation (kind inst amount : Nat)
  | capture (stream layer aSrc deadline : Nat)
  | pointToPixel (layer maxCells aSrc maxRedraw deadline : Nat)
  | command (targetFirst targetCount port deadline : Nat)
  | stitch (srcClaim link region bytes layer deadline : Nat)
  | budget (layer srcAge deadline : Nat)
  deriving DecidableEq, Repr

/-- A claim record: its owner, identifier, SHARED flag and body. -/
structure Claim where
  owner  : Nat
  id     : Nat
  shared : Bool
  body   : ClaimBody
  deriving DecidableEq, Repr

/-- The MIMIC section (07_mimic.md Tables 07.2 to 07.6): the atlas handle, surfaces, frames, state tables of sixteen
entries each, and widgets. -/
structure MimicCfg where
  atlas    : Nat
  surfaces : List MimicSurface
  frames   : List FrameEntry
  tables   : List (List StateEntry)
  widgets  : List WidgetEntry
  deriving DecidableEq, Repr

/-- The FIELD section (10_field_points_commands.md Tables 10.1 to 10.7). -/
structure FieldCfg where
  uaOffset   : Nat
  batchCells : Nat
  ports      : List PortEntry
  sources    : List SourceEntry
  polls      : List PollEntry
  maps       : List MapEntry
  deriving DecidableEq, Repr

/-- The POINTS section (Table 10.8). -/
structure PointsCfg where
  replicaOffset : Nat
  points        : List PointEntry
  deriving DecidableEq, Repr

/-- The STITCH section (15_lanes.md R358). -/
structure StitchCfg where
  links : List LinkEntry
  sends : List SendEntry
  recvs : List RecvEntry
  deriving DecidableEq, Repr

/-- The GINGHAM section (03_structure_image.md R64). -/
structure GinghamCfg where
  entries    : List GinghamEntry
  plausBound : Nat
  deriving DecidableEq, Repr

/-- The TARTAN section (14_tartan_protection.md Table 14.4): QoS by port, threshold by target, priority by
48 × target + port. -/
structure TartanCfg where
  qos    : List Nat
  urgent : List Nat
  prio   : List Nat
  deriving DecidableEq, Repr

/-- The sending head of a stitch claim: CLAIM_ID, the sending member, its head and the head's frame period in units of
2^-24 ns (04_admission.md R93, 15_lanes.md Table 15.5). -/
structure Sender where
  claim  : Nat
  target : Nat
  head   : Nat
  period : Nat
  deriving DecidableEq, Repr

/-- The configuration that a full image gives this module, or that an active configuration has after a partial image
(R61, R69). -/
structure Cfg where
  imageId  : Nat
  schema   : Nat
  bankFlag : Bool
  twill    : Bool
  bank     : Option BankBody
  claims   : List Claim
  heads    : List HeadEntry
  gingham  : GinghamCfg
  streams  : List StreamEntry
  layers   : List LayerEntry
  watch    : List WatchEntry
  surfaces : List SurfaceEntry
  decCore  : List Nat
  headEngine : List Nat
  cst      : CstMap
  tartan   : TartanCfg
  mpu      : List RegionEntry
  mimic    : Option MimicCfg
  encode   : List EncodeEntry
  field    : Option FieldCfg
  points   : Option PointsCfg
  commands : List TargetEntry
  console  : List ConsoleEntry
  twin     : Option TwinBody
  stitch   : Option StitchCfg
  log      : LogBody
  /-- The sending heads that the image's sections for the sending modules tell. -/
  senders  : List Sender
  deriving DecidableEq, Repr

/-- No configuration: what is active before the first activation. -/
def Cfg.blank : Cfg where
  imageId := 0
  schema := 0
  bankFlag := false
  twill := false
  bank := Option.none
  claims := []
  heads := []
  gingham := ⟨[], 0⟩
  streams := []
  layers := []
  watch := []
  surfaces := []
  decCore := []
  headEngine := []
  cst := ⟨0, 0, 0, 0, 0, 0, 0⟩
  tartan := ⟨[], [], []⟩
  mpu := []
  mimic := Option.none
  encode := []
  field := Option.none
  points := Option.none
  commands := []
  console := []
  twin := Option.none
  stitch := Option.none
  log := ⟨0, 0, 0⟩
  senders := []

end Sys2Proof.Machine
end

