-- ==== Sys2Proof/Machine/State/Crossing.lean ====
section
/-! DEFINITION. State of the Voile crossing and the host mailboxes at one end (11_crossing.md): channels, link cells,
doorbells, the crossing's state, the time transfer and the messages in assembly. -/

namespace Sys2Proof.Machine

/-- A cell on its way: its 64 bytes and the sender's DT of its push. -/
structure Flight where
  cell : List Byte
  at_  : DT
  deriving DecidableEq, Repr

/-- An acknowledge (R256): the message's MSG and the code. -/
structure Ack where
  msg  : Nat
  code : Nat
  deriving DecidableEq, Repr

/-- One end of a channel (R251 to R256), or both ends of a host mailbox. -/
structure Chan where
  /-- Slots that the sending end counts as full. -/
  full    : Nat
  /-- CSEQ of the next push. -/
  cseq    : Nat
  /-- Staged bytes of a field-side sender; a host-side sender stages in the MBX.TXCELL registers. -/
  stage   : List Byte
  /-- Pushed and not yet arrived, oldest first. -/
  flight  : List Flight
  /-- Acknowledges received, oldest first, at most 16. -/
  ackq    : List Ack
  /-- Cells in the receiving slots, oldest first. -/
  slots   : List (List Byte)
  /-- CSEQ of the next cell expected. -/
  expect  : Nat
  /-- Pop notices that no link cell has carried. -/
  popped  : Nat
  /-- Acknowledges written that no link cell has carried, oldest first. -/
  acks    : List Ack
  rejected : Bool
  ackLost  : Bool
  gap      : Bool
  deriving DecidableEq, Repr

def Chan.idle : Chan := ⟨0, 0, [], [], [], [], 0, 0, [], false, false, false⟩

/-- A field event that the host side shows and for which no message of the catalogue has a field (R12): the outcome of a dry
launch (16_twin_repair.md R379), TAKEOVER_BLOCKED (R372) and the end of a release (R374, R391). -/
inductive FieldNote where
  | dryLaunch (passed : Bool)
  | blocked
  | released
  deriving DecidableEq, Repr

/-- What a link cell carries (R253): pop notices by channel, acknowledges by channel, doorbells and, from the field side, the
notes of log entry 217; and the sender's DT when it left. Log entry 217 (DESIGN CHOICE). -/
structure LinkPayload where
  pops  : List (Nat × Nat)
  acks  : List (Nat × Ack)
  bells : Nat
  notes : List FieldNote
  at_   : DT
  deriving DecidableEq, Repr

/-- The four stamps of a time-transfer exchange (R263). -/
structure Exchange where
  t1 : DT
  t2 : DT
  t3 : DT
  t4 : DT
  deriving DecidableEq, Repr

/-- One side's part of the time transfer (R263, R264). -/
structure TimeXfer where
  /-- XSEQ of the last request sent or answered. -/
  xseq    : Nat
  /-- DT of the last request sent. -/
  lastSent : Option DT
  /-- Host: t3 and t4 of the last reply. Field: t1 and t2 of the last request answered. -/
  open_   : Option (DT × DT)
  /-- Exchanges taken: the newest, k, and the one before it, j. -/
  k       : Option Exchange
  j       : Option Exchange
  deriving DecidableEq, Repr

def TimeXfer.start : TimeXfer := ⟨0, .none, .none, .none, .none⟩

/-- A message that host Uliska sends piece by piece on XM2 (R267, R268): the content, what has been sent and the MSG
whose acknowledge it awaits. -/
structure Sending where
  /-- FW_STAGE rather than FIELD_CONFIG. -/
  fw       : Bool
  imageId  : Nat
  content  : List Byte
  /-- Content bytes sent so far. -/
  sent     : Nat
  /-- 0 BEGIN sent, 1 DATA sent, 2 END sent, 3 taken whole, 4 refused. -/
  phase    : Nat
  msg      : Nat
  deadline : DT
  deriving DecidableEq, Repr

/-- A message that field Uliska receives piece by piece (R267, R268). -/
structure Receiving where
  imageId : Nat
  total   : Nat
  crc     : Nat
  content : List Byte
  deriving DecidableEq, Repr

/-- One end of the crossing. -/
structure XEnd where
  chans  : Table Chan
  /-- Link cells sent by this end and not yet arrived, oldest first. -/
  link   : List LinkPayload
  /-- Raw count at which this end last sent a link cell, plus 1; 0 for never. -/
  lastLink : Nat
  /-- 0 DOWN, 1 HELLO, 2 FULL, 3 LIMITED (R260). -/
  state  : Nat
  /-- Own DT of the last HEALTH received, or of the entry into HELLO. -/
  lastHealth : DT
  /-- Own DT of the last HEALTH sent (R266). -/
  healthSent : Option DT
  /-- The channel of each class that the transmitter of this end served last, and when its cell was pushed (R254). -/
  served  : Table (Option (Nat × DT))
  /-- Field end: notes that no link cell has carried, oldest first. -/
  notes   : List FieldNote
  /-- Field end: doorbells that it rings and no link cell has carried, and doorbells pending for field Uliska. -/
  ring   : Nat
  pend   : Nat
  xfer   : TimeXfer
  /-- Cells of the POINT_BATCH in assembly, and whole batches waiting, with the VT of their first cell's arrival. -/
  batch   : Option (VT × List (List Byte))
  batches : List (VT × List (List Byte))
  /-- A CSEQ gap on XM9 that the next host HEALTH reports as RESYNC (R255). -/
  resync  : Bool
  /-- MSG of the next message of this end's Uliska. -/
  msg     : Nat
  /-- Host: messages in progress on XM2. Field: content being received. -/
  sending : Option Sending
  fwSend  : Option Sending
  cfgRx   : Option Receiving
  fwRx    : Option Receiving
  /-- Cells discarded for a line-code violation, at the field end (R255). -/
  cellErr : Nat
  downs   : Nat
  /-- Host: a channel has lost lock since the last reset and not regained it (R14). -/
  lost0   : Bool
  lost1   : Bool
  deriving DecidableEq, Repr

def XEnd.reset : XEnd where
  chans := []
  link := []
  lastLink := 0
  state := 0
  lastHealth := 0
  healthSent := .none
  served := []
  notes := []
  ring := 0
  pend := 0
  xfer := .start
  batch := none
  batches := []
  resync := false
  msg := 0
  sending := none
  fwSend := none
  cfgRx := none
  fwRx := none
  cellErr := 0
  downs := 0
  lost0 := false
  lost1 := false

end Sys2Proof.Machine
end

