-- ==== Sys2Proof/Machine/State/Points.lean ====
section
/-! DEFINITION. State of the field points, sources and commands (10_field_points_commands.md) and of the interlock
(16_twin_repair.md R369 to R374). -/

namespace Sys2Proof.Machine

/-- One record of the field point image (Table 10.9), with the DT at which the point became pending. SOURCE,
DEADBAND and REFRESH_MS repeat the active configuration. -/
structure PointRec where
  value    : Nat
  vintage  : VT
  seq      : Nat
  fwdMs    : Nat
  sent     : Nat
  deadband : Nat
  refreshMs : Nat
  source   : Nat
  quality  : Nat
  type     : Nat
  cls      : Nat
  received : Bool
  pending  : Bool
  pendAt   : DT
  deriving DecidableEq, Repr

def PointRec.blank : PointRec := ⟨0, 0, 0, 0, 0, 0, 0, 0, 0, 0, 0, false, false, 0⟩

/-- Sequence recovery of IEEE 802.1CB with the vector algorithm (R116): the history (bit i: the number `seq − i` has
been accepted), the recovery sequence number, TakeAny and the DT at which the reset timer ends. -/
structure Frer where
  history : Nat
  seq     : Nat
  takeAny : Bool
  endAt   : DT
  deriving DecidableEq, Repr

def Frer.fresh : Frer := ⟨0, 0, true, 0⟩

/-- What the field side keeps for one source (R225 to R229). -/
structure SourceState where
  /-- By writer: last accepted sequence number and the DT of its acceptance. -/
  writers  : List (Nat × Nat × DT)
  frer     : Frer
  /-- DT of the last activity, from which silence counts. -/
  lastAct  : DT
  /-- The Modbus connection is open. -/
  connected : Bool
  /-- DT of the next retry of a connection that has failed. -/
  retryAt  : Option DT
  /-- Poll index of the request outstanding, the DT at which it began to leave and its number. -/
  outstanding : Option (Nat × DT × Nat)
  /-- Requests sent on the connections of this source so far: the number of the next one. -/
  requests : Nat
  /-- Polls due and not yet sent, in order of due time. -/
  queue    : List Nat
  /-- Responses discarded and counted (R227). -/
  discards : Nat
  deriving DecidableEq, Repr

def SourceState.fresh : SourceState := ⟨[], .fresh, 0, false, none, none, 0, [], 0⟩

/-- A poll entry's state: the DT at which it is next due, and how often it was skipped (R227). -/
structure PollState where
  due     : DT
  skipped : Nat
  deriving DecidableEq, Repr

/-- A command that waits for launch (R243, R244). -/
structure Queued where
  req      : Nat
  target   : Nat
  action   : Nat
  argument : Nat
  operator : Nat
  issueF   : DT
  deadline : DT
  /-- DT of the end of its validation. -/
  validated : DT
  msg      : Nat
  /-- The first copy has left (a FRER command's first copy has launched it). -/
  launched : Bool
  /-- Payload and R-TAG number of the first copy, which the second repeats. -/
  sent     : List Byte × Nat
  deriving DecidableEq, Repr

/-- A copy of a command at a port's launch queue. -/
structure QueuedCopy where
  req   : Nat
  copyB : Bool
  deriving DecidableEq, Repr

/-- What a field frame carries: an ARP reply that tells `targetMac` at `target` the address `sender` of the port, an
IGMPv3 membership report for a group, a UDP datagram, a TCP segment with data, and the opening of a TCP connection.
Log entry 249 (DESIGN CHOICE). -/
inductive FieldBody where
  | arp (sender target targetMac : Nat)
  | igmp (source group : Nat)
  | udp (source dest destPort : Nat) (payload : List Byte)
  | tcp (source dest destPort : Nat) (data : List Byte)
  | connect (source dest destPort : Nat)
  | gptp (msg : GptpOut)
  deriving DecidableEq, Repr

/-- A frame that leaves a field port: its MAC addresses, its VLAN tag (VID 0: untagged), its R-TAG number and the DT at
which its preamble begins. Log entry 249 (DESIGN CHOICE). -/
structure FieldSent where
  port : Nat
  dest : Nat
  src  : Nat
  pcp  : Nat
  vid  : Nat
  rtag : Option Nat
  body : FieldBody
  at_  : DT
  deriving DecidableEq, Repr

/-- One record of the field event log (R82, R269). -/
structure FieldEvent where
  dt   : DT
  code : Nat
  unit : Nat
  detail : Nat
  deriving DecidableEq, Repr

/-- The interlock (R369 to R374). Doorbell times are own DTs of the last ring. -/
structure Interlock where
  out      : Bool
  in_      : Bool
  /-- DT of the assertion while the contention window runs. -/
  contention : Option DT
  /-- DT since which INTLK_IN has stayed deasserted, and whether it fell from asserted. -/
  inLowAt  : DT
  fell     : Bool
  bell0    : Option DT
  bell2    : Option DT
  bell3    : Option DT
  bell4    : Option DT
  watchdog : Option DT
  /-- DT at which a release began. -/
  release  : Option DT
  /-- DT from which a released or reset module counts as standby. -/
  standbyAt : DT
  /-- TAKEOVER_BLOCKED has been logged for this silence. -/
  blocked  : Bool
  deriving DecidableEq, Repr

def Interlock.reset : Interlock :=
  ⟨false, false, none, 0, false, none, none, none, none, none, none, 0, false⟩

/-- The field configuration in force and what field Uliska holds (R76, R267). -/
structure FieldActive where
  activeId  : Nat
  contentId : Nat
  field     : Option FieldCfg
  points    : Option PointsCfg
  targets   : List TargetEntry
  /-- Verified content held, with its IMAGE_ID. -/
  held      : Option (Nat × List Byte)
  /-- Arm notice held: IMAGE_ID and E. -/
  armed     : Option (Nat × DT)
  split     : Bool
  unqualified : Bool
  hostId    : Nat
  deriving DecidableEq, Repr

def FieldActive.blank : FieldActive := ⟨0, 0, .none, .none, [], .none, .none, false, false, 0⟩

/-- Points, sources and commands of the field side. -/
structure FieldWork where
  recs    : Table PointRec
  sources : Table SourceState
  polls   : Table PollState
  /-- Messages discarded, by port (R225). -/
  drops   : Table Nat
  /-- Carry-overs since the last HEALTH (R235). -/
  carry   : Nat
  /-- Cells of a batch that wait for a free slot of XM9. -/
  outbox  : List (List Byte)
  /-- LOG_EXPORT replies that wait for a free slot of XM24. -/
  exportBox : List (List Byte)
  /-- CMD_ACKs that wait for a free slot of XM8. -/
  ackBox  : List (List Byte)
  /-- DT of the last close of a batch. -/
  lastClose : Nat
  /-- Dwell runs by target × 8 + term: start of an open run (R242). -/
  runs    : Table (Option VT)
  waiting : List Queued
  queues  : Table (List QueuedCopy)
  /-- DT until which a port is busy with a command frame. -/
  busy    : Table (Option DT)
  /-- DT until which a port is busy with other frames. -/
  busyOther : Table (Option DT)
  /-- The connections to DEST_IP and DEST_PORT that are kept for commands alone (R245). -/
  cmdConns : List (Nat × Nat)
  /-- Segments of Modbus commands that may have to be sent again, by request, newest first (R245). -/
  segments : List (Nat × FieldSent)
  /-- The last 1,024 validated REQUEST_IDs with their codes, newest first; none while the code is not known. -/
  history : List (Nat × Option Nat)
  /-- Acknowledges of duplicates that await the original's code: request and MSG. -/
  dupWait : List (Nat × Nat)
  /-- Launches by target: DTs, newest first (R243). -/
  launches : Table (List DT)
  /-- UADP sequence number by target (R245). -/
  useq    : Table Nat
  /-- R-TAG number of FRER commands, by target. -/
  rtag    : Table Nat
  launched : Nat
  refused  : Nat
  parseDrops : Nat
  /-- Copies that missed D (R244). -/
  copyDrops : Nat
  /-- Target from which the next dry launch looks on (R379). -/
  dryNext : Nat
  /-- Raw count, plus 1, of the last dry launch (R379). -/
  dryAt   : Nat
  log     : List FieldEvent
  sent    : List FieldSent
  deriving DecidableEq, Repr

def FieldWork.blank : FieldWork where
  recs := []
  sources := []
  polls := []
  drops := []
  carry := 0
  outbox := []
  exportBox := []
  ackBox := []
  lastClose := 0
  runs := []
  waiting := []
  queues := []
  busy := []
  busyOther := []
  cmdConns := []
  segments := []
  history := []
  dupWait := []
  launches := []
  useq := []
  rtag := []
  launched := 0
  refused := 0
  parseDrops := 0
  copyDrops := 0
  dryNext := 0
  dryAt := 0
  log := []
  sent := []

end Sys2Proof.Machine
end

