-- ==== Sys2Proof/Machine/State/Field.lean ====
section
/-! DEFINITION. The field side as plain data. -/

namespace Sys2Proof.Machine

/-- The field side's start-up (18_module_electrical.md R426): the current step, 1 to 6 for F1 to F6 and 7 in service,
and whether it has failed. -/
structure FieldBoot where
  step      : Nat
  failed    : Bool
  stepEntry : Nat
  deriving DecidableEq, Repr

/-- A field lane FL0 to FL9 (15_lanes.md R340 to R343, R350). `state` is coded as LNE.STATUS.STATE. -/
structure FieldLane where
  state   : Nat
  los     : Bool
  lol     : Bool
  txFault : Bool
  /-- DT since which LOS or LOL has been held (R388). -/
  badAt   : Option DT
  /-- The spare that replaced the lane. -/
  spare   : Option Nat
  term    : Nat
  offset  : Nat
  eyeW    : Nat
  eyeH    : Nat
  deriving DecidableEq, Repr

def FieldLane.reset : FieldLane := ⟨0, false, false, false, none, none, 0, 0, 0, 0⟩

/-- The field side. -/
structure FieldSide where
  run    : Bool
  /-- Free values taken so far (log entry 1). -/
  freeN  : Nat
  tb     : TimeBase
  boot   : FieldBoot
  /-- TWIN_ROLE sampled at the last field reset: true for B. -/
  role   : Bool
  /-- FIELD_FAULT_N is asserted. -/
  faultPin : Bool
  /-- Bank booted (R420). -/
  bank   : Nat
  fallback : Bool
  /-- Build of the field Uliska that runs. -/
  build  : Nat
  temp   : Int
  zref   : Nat
  lanes  : Table FieldLane
  xing   : XEnd
  act    : FieldActive
  work   : FieldWork
  il     : Interlock
  /-- The module's own path latencies in ns from the J-F pins to the stamp point and from there to the pins
  (12_time.md R284). Log entry 253 (DESIGN CHOICE). -/
  latIn  : Nat
  latOut : Nat
  /-- The sync limit in ns that field Uliska sets (R286). Log entry 253 (DESIGN CHOICE). -/
  syncLimit : Nat
  /-- SRAM rows redirected to spare rows: array and row (R389). -/
  repaired : List (Nat × Nat)
  deriving DecidableEq, Repr

/-- The field side as it leaves reset. Log entries 10 (DESIGN CHOICE), 253 (DESIGN CHOICE). -/
def FieldSide.start : FieldSide where
  run := true
  freeN := 0
  tb := TimeBase.reset
  boot := ⟨1, false, 0⟩
  role := false
  faultPin := false
  bank := 0
  fallback := false
  build := 0
  temp := 0
  zref := 0
  lanes := []
  xing := XEnd.reset
  act := FieldActive.blank
  work := FieldWork.blank
  il := Interlock.reset
  latIn := 0
  latOut := 0
  syncLimit := 1000
  repaired := []

end Sys2Proof.Machine
end

