-- ==== Sys2Proof/Machine/State/Fresh.lean ====
section
/-! DEFINITION. State of freshness assurance (02_freshness.md): vintage tags, watch tiles and the accumulation of a
frame's summary. -/

namespace Sys2Proof.Machine

/-- A vintage tag (R26, Table 02.1). `cls` is CLASS: 0 PROVEN, 1 BOUNDED, 2 UNPROVEN. -/
structure Tag where
  vt        : VT
  cls       : Nat
  ancient   : Bool
  concealed : Bool
  fault     : Bool
  deriving DecidableEq, Repr

/-- The tag of content that does not exist: ANCIENT and UNPROVEN (R29, R74, R141). -/
def Tag.absent : Tag := ⟨0, 2, true, false, false⟩

/-- What the module keeps for one watch tile (R43, R44, R50). -/
structure WatchTile where
  hash      : Option Nat
  runStart  : VT
  verdict   : Bool
  noVerdict : Bool
  /-- Vintage of the picture that raised the own verdict. -/
  raisedAt  : VT
  /-- A verdict adopted from the partner, with its picture's vintage. -/
  adopted   : Option VT
  deriving DecidableEq, Repr

def WatchTile.fresh : WatchTile := ⟨none, 0, false, false, 0, none⟩

/-- A frame's summary while it is gathered (R52): states present, slices not LIVE, and by layer the states present and
the class of its last region. -/
structure FrameAcc where
  frame    : Nat
  states   : List Nat
  nonlive  : Nat
  layers   : Table (List Nat)
  classes  : Table Nat
  deriving DecidableEq, Repr

def FrameAcc.empty : FrameAcc := ⟨0, [], 0, [], []⟩

/-- Freshness state beside the registers. -/
structure Fresh where
  /-- Watch tiles by layer × 4 + tile. -/
  tiles      : Table WatchTile
  /-- Summary being gathered, by head. -/
  acc        : Table FrameAcc
  /-- Streams now demoted from PROVEN (R28). -/
  demoted    : Table Bool
  deriving DecidableEq, Repr

def Fresh.start : Fresh := ⟨[], [], []⟩

end Sys2Proof.Machine
end

