-- ==== Sys2Proof/Machine/State/Display.lean ====
section
/-! DEFINITION. State of surfaces, layers and heads beside their registers (06_composition.md, 08_heads.md). -/

namespace Sys2Proof.Machine

/-- A source buffer that can be leased (06_composition.md R149, R156). -/
inductive Buf where
  | surface (sh : Nat)
  | picture (id : Nat)
  | mimic (m : Nat)
  | stitch (region buffer : Nat)
  deriving DecidableEq, Repr

/-- An allocated surface (R136 to R141). `leases` is the lease count that the module keeps (R149). -/
structure Surface where
  page      : Nat
  format    : Nat
  coding    : Nat
  cls       : Nat
  width     : Nat
  height    : Nat
  syncBound : Nat
  tag       : Tag
  /-- A release request is pending (RELEASING), with RETAIN and its doorbell bit. -/
  pending   : Bool
  retain    : Bool
  bell      : Option Nat
  leases    : Nat
  deriving DecidableEq, Repr

/-- The timing that a head runs by: its HEADS entry and its effective HEAD_EPOCH (08_heads.md R186). -/
structure HeadTime where
  entry : HeadEntry
  epoch : DT
  deriving DecidableEq, Repr

/-- One layer of a latched frame: its entry, its active descriptor and its budget (R53, R148). -/
structure PlanLayer where
  entry  : LayerEntry
  words  : List Nat
  budget : Nat
  deriving DecidableEq, Repr

/-- What a latch fixes for its frame (R148, R190, R201). `no` numbers the latched frames of the head. -/
structure Plan where
  no     : Nat
  time   : HeadTime
  frame  : Nat
  phi    : Int
  /-- The step of φ that the latch applied. -/
  step   : Int
  bg     : Nat
  layers : List PlanLayer
  /-- Gingham colours of the image that the frame belongs to (03_structure_image.md R73). -/
  look   : GinghamCfg
  /-- MARK and AUX of its packets, once composition of slice 0 has begun (R204). -/
  mark   : Option Nat
  aux    : Nat
  deriving DecidableEq, Repr

/-- One region of a composed slice: its layer, state, effective class and tag (02_freshness.md R36). -/
structure RegionRec where
  layer : Nat
  state : Nat
  cls   : Nat
  tag   : Tag
  deriving DecidableEq, Repr

/-- A slice in composition or handed over: its place, its regions, the buffers it reads, and its pixels, RGB 10:10:10 by
line and column, as its ring slot decodes and as they were composed. -/
structure SliceRec where
  no      : Nat
  /-- The engine that composes it. -/
  engine  : Nat
  frame   : Nat
  slice   : Nat
  regions : List RegionRec
  bufs    : List Buf
  pixels  : List (List Nat)
  drawn   : List (List Nat)
  deriving DecidableEq, Repr

/-- What the valid trailer of a ring slot holds (R164). The slot's pixels are bytes of the central store. -/
structure RingSlot where
  frame  : Nat
  slice  : Nat
  worst  : Nat
  mask   : Nat
  tag    : Tag
  deriving DecidableEq, Repr

/-- A scan-out hold (R150): the latched frame, the buffer and the last slice composed so far that reads it. -/
structure Hold where
  no   : Nat
  buf  : Buf
  last : Nat
  deriving DecidableEq, Repr

/-- The newest accepted tearing-effect report (R201): its FRAME, φ_f + SCAN_DT − start(f), and the latched frame
current at its acceptance. -/
structure Report where
  frame : Nat
  base  : Int
  atNo  : Nat
  /-- Raw count of the cycle that accepted it. -/
  at_   : Nat
  deriving DecidableEq, Repr

/-- One head (08_heads.md). -/
structure HeadState where
  /-- The timing in force; none while the head is not enabled. -/
  time    : Option HeadTime
  /-- The frame whose latch comes next. -/
  nextFrame : Nat
  /-- φ of the timing in force before its first latch. -/
  phi0    : Int
  /-- A timing that begins at the head's coming switch instant. -/
  coming  : Option HeadTime
  /-- The latched frame that is the first of a committed image (03_structure_image.md R73). -/
  firstNo : Option Nat
  /-- Frames latched so far. -/
  latches : Nat
  /-- Latched frames, newest first, at most 10. -/
  plans   : List Plan
  /-- Latched frames started. -/
  started : Nat
  /-- The frame whose latch takes the pending commit. -/
  commit  : Option Nat
  report  : Option Report
  /-- The newest report of the cycles before that of `report` (R201). -/
  former  : Option Report
  /-- Latched frames of a timing that has ended by a disabling of the head: their φ does not carry on (R203). -/
  ended   : Nat
  /-- Next slice that may begin composition: latched frame and slice. -/
  compNo  : Nat
  compSlice : Nat
  /-- Slices in composition that fill no staging slot yet, oldest first (R157). -/
  composing : List SliceRec
  /-- Slices that fill a staging slot (R198), oldest first. -/
  filling : List SliceRec
  /-- Slices handed over and not wholly sent: their slots are emitting (R198). -/
  handed  : List SliceRec
  /-- Slices sent or to be sent as the fault pattern. -/
  missed  : List (Nat × Nat)
  /-- DTs of the last two missed handovers, newest first (16_twin_repair.md R385). -/
  missAt  : List DT
  /-- Next packet to leave: latched frame and packet. -/
  emitNo  : Nat
  emitPkt : Nat
  /-- Next slice whose last packet leaves. -/
  doneNo  : Nat
  doneSlice : Nat
  holds   : List Hold
  /-- Marker frames sent of the coming timing change. -/
  marks   : Nat
  /-- Latched frame for which event 0x2 is logged. -/
  faultLogged : Nat
  deriving DecidableEq, Repr

def HeadState.idle : HeadState where
  time := none
  nextFrame := 0
  phi0 := 0
  coming := none
  firstNo := none
  latches := 0
  plans := []
  started := 0
  commit := none
  report := none
  former := none
  ended := 0
  compNo := 1
  compSlice := 0
  composing := []
  filling := []
  handed := []
  missed := []
  missAt := []
  emitNo := 1
  emitPkt := 0
  doneNo := 1
  doneSlice := 0
  holds := []
  marks := 0
  faultLogged := 0

/-- Surfaces, layers and heads. -/
structure Display where
  surfaces : Table (Option Surface)
  /-- Active descriptors by layer: 16 words, all 0 where not listed. -/
  active   : Table (List Nat)
  /-- Armed descriptors by layer. -/
  armed    : Table (Option (List Nat))
  heads    : Table HeadState
  /-- Trailers of the slice rings by head × 16 + slot; none while a trailer is marked invalid. -/
  rings    : Table (Option RingSlot)
  /-- Handles of which CMP.SURF_STATUS.TAG_REFUSED is 1 (R141). -/
  tagRefused : List Nat
  /-- Comparison holds (R149). -/
  compares : List Buf
  /-- Handles of the release-complete queue, oldest first (R153). -/
  relDone  : List Nat
  /-- The engine that CE8 replaces, and the heads that it has taken over (16_twin_repair.md R386). -/
  ce8For   : Option Nat
  ce8Heads : List Nat
  deriving DecidableEq, Repr

def Display.start : Display := ⟨[], [], [], [], [], [], [], [], none, []⟩

end Sys2Proof.Machine
end

