-- ==== Sys2Proof/Machine/State/Encode.lean ====
section
/-! DEFINITION. State of the encoders beside their registers (09_encode.md). -/

namespace Sys2Proof.Machine

/-- A rate-control set (R216). -/
structure RcSet where
  qp     : Nat
  ceil   : Nat
  target : Nat
  idr    : Bool
  deriving DecidableEq, Repr

/-- A frame being read from the slice ring (R210): its number, its start, the number of the latched frame, the next
slice, tags and worst state so far, and the lines read, RGB 10:10:10. -/
structure EncInput where
  frame : Nat
  start : DT
  no    : Nat
  next  : Nat
  tags  : List Tag
  worst : Nat
  lines : List (List Nat)
  deriving DecidableEq, Repr

/-- An input-complete frame: its context, its number, its start, its tag and worst state, its input buffer as tiles, and
the raw count of its completion. Log entry 77 (DESIGN CHOICE). -/
structure EncFrame where
  ctx   : Nat
  frame : Nat
  start : DT
  tag   : Tag
  worst : Nat
  tiles : List (List Nat)
  at_   : Nat
  deriving DecidableEq, Repr

/-- A frame in progress on a core. -/
structure EncCoding where
  input : EncFrame
  idr   : Bool
  set   : RcSet
  deriving DecidableEq, Repr

/-- An encode context. -/
structure EncCtx where
  reading  : Option EncInput
  /-- The last latched frame of its head that was begun, skipped or lost. -/
  last     : Nat
  /-- Input buffers in use, 0 to 3. -/
  buffers  : Nat
  applied  : RcSet
  /-- The newest accepted set not yet applied and the raw count of its GO. -/
  accepted : Option (RcSet × Nat)
  /-- The newest accepted set of the cycles before that GO, not yet applied. -/
  earlier  : Option RcSet
  /-- Frames coded since the last IDR picture, that one included; none before the first. -/
  sinceIdr : Option Nat
  /-- The previous frame was dropped (R219). -/
  dropped  : Bool
  refTag   : Tag
  seq      : Nat
  /-- RTP sequence number of the next packet. -/
  rtpSeq   : Nat
  deriving DecidableEq, Repr

def EncCtx.idle : EncCtx where
  reading := none
  last := 0
  buffers := 0
  applied := ⟨0, 0, 0, false⟩
  accepted := none
  earlier := none
  sinceIdr := none
  dropped := false
  refTag := ⟨0, 0, false, false, false⟩
  seq := 0
  rtpSeq := 0

structure EncCore where
  queue   : List EncFrame
  current : Option EncCoding
  deriving DecidableEq, Repr

def EncCore.idle : EncCore := ⟨[], none⟩

structure Encode where
  ctxs  : Table EncCtx
  cores : Table EncCore
  deriving DecidableEq, Repr

def Encode.start : Encode := ⟨[], []⟩

end Sys2Proof.Machine
end

