-- ==== Sys2Proof/Machine/State/Engine.lean ====
section
/-! DEFINITION. What a Calico engine keeps of its open stream (17_data_engines.md R397 to R402), and what a job finds. -/

namespace Sys2Proof.Machine

/-- A Calico engine's stream: its operation, framing, tables and effort as they stood at START; the running job's END;
every byte fed; every byte of coded output, in compression; the bytes of plain output delivered, in decompression; where
the history was last cleared, in output and input; and where the current job began, resumptions included, in output and
input. -/
structure DflEngine where
  op      : Nat
  framing : Nat
  dynamic : Bool
  level   : Nat
  fin     : Nat
  fed     : List Byte
  out     : List Byte
  given   : Nat
  cutOut  : Nat
  cutIn   : Nat
  jobOut  : Nat
  jobIn   : Nat
  deriving DecidableEq, Repr

def DflEngine.idle : DflEngine := ⟨0, 0, false, 0, 0, [], [], 0, 0, 0, 0, 0⟩

end Sys2Proof.Machine
end

