-- ==== Sys2Proof/Machine/State/Lanes.lean ====
section
/-! DEFINITION. State of the stitch and twin links, their regions and the host lanes beside the LNE and STC registers
(15_lanes.md). Links are numbered 0 to 3 for SL0 to SL3, 4 and 5 for TL0 and TL1. -/

namespace Sys2Proof.Machine

/-- One link (R352 to R356). -/
structure LinkState where
  /-- LSEQ of the next cell sent. -/
  nextSeq  : Nat
  /-- Cells sent since link-up, and the last count received in a CREDIT block, modulo 65,536. -/
  sent     : Nat
  credited : Nat
  /-- Cells that a recovery may resend, oldest first: LSEQ and bytes. -/
  replay   : List (Nat × List Byte)
  /-- LSEQ of the last cell received whole and in order. -/
  lastGood : Nat
  /-- Cells freed by this receiver since link-up, modulo 65,536. -/
  freed    : Nat
  /-- The active mask that this receiver asked for in the recovery in progress. -/
  asked    : Nat
  /-- Successive markers missed, by lane. -/
  misses   : Table Nat
  /-- Good markers received in ALIGN, by lane (R354). -/
  good     : Table Nat
  /-- Raw count at which the link entered CAL or ALIGN. -/
  since    : Nat
  /-- The last PEER_HEALTH: SYNC_OK, UNQUALIFIED, TARGET; no message yet reads as not synchronised. -/
  peerSync : Bool
  peerUnqualified : Bool
  peerTarget : Nat
  deriving DecidableEq, Repr

def LinkState.down : LinkState := ⟨0, 0, 0, [], 2 ^ 32 - 1, 0, 0, [], [], 0, false, false, 0⟩

/-- A stitch transfer: its frame, tag and state. -/
structure Transfer where
  frame : Nat
  tag   : Tag
  state : Nat
  buffer : Nat
  deriving DecidableEq, Repr

/-- A transfer being received (R360): its frame and buffer, and the byte offsets and lengths that have arrived. -/
structure InTransfer where
  frame  : Nat
  buffer : Nat
  parts  : List (Nat × Nat)
  /-- A byte has arrived twice: the transfer cannot complete. -/
  spoiled : Bool
  deriving DecidableEq, Repr

/-- A stitch receive region (R360). -/
structure Region where
  latest : Option Transfer
  coming : Option InTransfer
  /-- A frame whose transfer is discarded for want of a buffer. -/
  dropped : Option Nat
  deriving DecidableEq, Repr

def Region.empty : Region := ⟨none, none, none⟩

/-- A stitch send entry's progress (R359): the latched frame it sends or has sent, the next slice of it, and the bytes,
tags and worst state sent. -/
structure SendState where
  frame  : Nat
  next   : Nat
  offset : Nat
  tags   : List Tag
  worst  : Nat
  /-- Bytes that have not filled a cell. -/
  carry  : List Byte
  deriving DecidableEq, Repr

def SendState.idle : SendState := ⟨0, 0, 0, [], 0, []⟩

/-- Lanes and links of the host side beside their registers. -/
structure Lanes where
  links   : Table LinkState
  regions : Table Region
  sends   : Table SendState
  /-- Spares triggered and not yet able to send, by spare: lane + 1. -/
  waking  : Table Nat
  /-- Consecutive eye measurements of a lane below the limits of Table 15.2. -/
  weak    : Table Nat
  /-- Raw count, plus 1, since which LOS or LOL of a lane has been held. -/
  badAt   : Table Nat
  /-- Raw count, plus 1, of the last PEER_HEALTH sent (R363). -/
  peerAt  : Nat
  deriving DecidableEq, Repr

def Lanes.start : Lanes := ⟨[], [], [], [], [], [], 0⟩

end Sys2Proof.Machine
end

