-- ==== Sys2Proof/Machine/State/Mimic.lean ====
section
/-! DEFINITION. State of the symbol engine (07_mimic.md): surfaces with their cell maps and drawing, widget tags, the
queue of replica updates and the batch in process. -/

namespace Sys2Proof.Machine

/-- A compact cell entry (R169): VT and FLAGS[5:0]. -/
structure Cell where
  vt    : VT
  flags : Nat
  deriving DecidableEq, Repr

/-- One drawing into a box (R175): the frame of the atlas with its tint, or the background alone, over BG_COLOUR. -/
structure Drawing where
  x : Nat
  y : Nat
  w : Nat
  h : Nat
  bg    : Nat
  frame : Option FrameEntry
  tint  : Option Nat
  /-- An error on the way left the pixels open (R181): the number of a free value. -/
  open_ : Option Nat
  deriving DecidableEq, Repr

/-- A mimic surface: its pages, its entry and the entries of its cell map. Its pixels, and its map as Table 07.1 lays it out,
are bytes of the central store. -/
structure MimicSurf where
  page    : Nat
  mapPage : Nat
  entry   : MimicSurface
  cells   : Table Cell
  /-- The initial drawing is not complete (R182). -/
  initial : Bool
  deriving DecidableEq, Repr

/-- What the engine keeps of a widget: the last entry drawn and its tag (R176, R177). -/
structure WidgetState where
  last : Option Nat
  tag  : Tag
  deriving DecidableEq, Repr

def WidgetState.fresh : WidgetState := ⟨none, ⟨0, 2, true, false, false⟩⟩

/-- A replica update that waits or is in process (R177, R180): its points and the raw count of the update. -/
structure Batch where
  points : List Nat
  at_    : Nat
  deriving DecidableEq, Repr

/-- The batch in process: its update, the widgets left and its pixel work P so far. -/
structure Busy where
  batch   : Batch
  widgets : List Nat
  work    : Nat
  deriving DecidableEq, Repr

/-- A widget whose writes await their acknowledges: its number, the record and the surface's page it is drawn by, its entry and
its new tag, and whether it is drawn or only its cells are written. -/
structure InDraw where
  widget  : Nat
  record  : WidgetEntry
  page    : Nat
  entry   : Nat
  tag     : Tag
  draws   : Bool
  deriving DecidableEq, Repr

structure Mimic where
  surfs   : Table (Option MimicSurf)
  widgets : Table WidgetState
  queue   : List Batch
  busy    : Option Busy
  drawing : Option InDraw
  deriving DecidableEq, Repr

def Mimic.start : Mimic := ⟨[], [], [], none, none⟩

end Sys2Proof.Machine
end

