-- ==== Sys2Proof/Machine/State/Stage.lean ====
section
/-! DEFINITION. State of staging and activation (03_structure_image.md R70 to R78) and what host Uliska keeps for
commands and the field side's identity (10_field_points_commands.md R238, 03_structure_image.md R76, R77). -/

namespace Sys2Proof.Machine

/-- The staged image once it has passed steps 1 to 7 of R71. -/
structure Staged where
  epoch    : DT
  imageId  : Nat
  /-- A partial image. -/
  part     : Bool
  /-- Members by TARGET code (R67). -/
  members  : Nat
  /-- The configuration that its activation gives. -/
  cfg      : Cfg
  /-- Field content of R267, where it is not equal to the active field configuration. -/
  content  : Option (List Byte)
  /-- Field Uliska has verified the content. -/
  held     : Bool
  /-- The image passed step 4 by its override (R78). -/
  forced   : Bool
  /-- The staged copy, header to signature block, for the twin (R380). -/
  copy     : List Byte
  /-- Heads and layers that the image lists. -/
  headsIn  : List Nat
  layersIn : List Nat
  /-- Claims that its Buckram run proves, with their ordinals in the CLAIMS section of the image; none for a claim that a
  partial image does not carry and whose items lie in its scope (04_admission.md R103). -/
  due      : List (Option Nat × Claim)
  deriving DecidableEq, Repr

/-- The last IMAGE_MSG of a member (R363): its TARGET code, ADMIT or refusal, and what it names. -/
structure PeerMsg where
  target  : Nat
  admits   : Bool
  imageId : Nat
  epoch   : DT
  deriving DecidableEq, Repr

/-- A layer that has left its head and waits to join another (R74): its new entry and its old head's switch instant. -/
structure Mover where
  entry : LayerEntry
  left  : DT
  deriving DecidableEq, Repr

structure Stage where
  staged   : Option Staged
  peers    : List PeerMsg
  /-- Heads that have not switched while an image activates. -/
  switches : List Nat
  /-- E has passed: every part but the heads that have not switched is in effect (R73). -/
  live     : Bool
  movers   : List Mover
  /-- DT of the last switch instant of the active image (R75). -/
  lastSwitch : Option DT
  /-- Peers, by TARGET code, whose active ID differs (R75). -/
  splitPeers : Nat
  /-- Heads and layers that the committed image changes (R74). -/
  chHeads  : List Nat
  chLayers : List Nat
  /-- The configuration that was active at the commit point. -/
  before   : Cfg
  /-- Proven bounds of the last admitted run, by claim ordinal (04_admission.md R106). -/
  bounds   : List (Nat × Nat)
  /-- BANK_SEQ of the last active bank image. -/
  bankSeq  : Nat
  deriving DecidableEq, Repr

def Stage.start : Stage := ⟨none, [], [], false, [], none, 0, [], [], Cfg.blank, [], 0⟩

/-- A forwarded command request that awaits its CMD_ACK (R238): its identity, its MSG on HM0, and the MSG of its CMD_REQ. -/
structure Await where
  req      : Nat
  msg      : Nat
  sentMsg  : Nat
  deadline : DT
  deriving DecidableEq, Repr

/-- What host Uliska keeps. -/
structure Uliska where
  /-- Field content ID (R76). -/
  contentId : Nat
  await     : List Await
  /-- A field HEALTH has arrived since the crossing came up (R76). -/
  seenHealth : Bool
  /-- The tested-set list, empty where it fails verification (R77). -/
  tested    : List Tuple
  /-- MSGs of ARM and CANCEL messages whose acknowledge is awaited (11_crossing.md R257, R267). -/
  arms      : List Nat
  deriving DecidableEq, Repr

def Uliska.start : Uliska := ⟨0, [], false, [], []⟩

end Sys2Proof.Machine
end

