-- ==== Sys2Proof/Machine/State/Twin.lean ====
section
/-! DEFINITION. State of the Twill pair at the host side (16_twin_repair.md): twin messages, the retained set,
resynchronisation, and the checks by the spare engine and the spare core. -/

namespace Sys2Proof.Machine

/-- An image of the retained set (R380): its signed bytes, and the E at which this module activated it. -/
structure Retained where
  imageId : Nat
  epoch   : DT
  bytes   : List Byte
  deriving DecidableEq, Repr

/-- What a joining module holds of its partner's set (R381 to R383): the heads' epochs and φ once RESYNC_INFO has arrived,
the image in reception, and whole images not yet staged, in order. -/
structure Joining where
  info    : Option (List (DT × Int))
  index   : Nat
  bytes   : List Byte
  waiting : List (List Byte)
  deriving DecidableEq, Repr

/-- A sample of a spare unit (R384, R387): the unit checked, its head or stream, its slice, and the buffers that it holds
(06_composition.md R149). -/
structure Sample where
  unit    : Nat
  index   : Nat
  slice   : Nat
  bufs    : List Buf
  deriving DecidableEq, Repr

/-- The rotation of one spare unit's checks. `again` is a unit to be sampled again and how many periods that lasts;
`misses` holds DTs of the last counted mismatch by unit. -/
structure Rotation where
  /-- The unit sampled last, and by unit and head what was sampled last; values are one more than the number. -/
  lastUnit : Nat
  lastHead : Table Nat
  lastSlice : Table Nat
  sample   : Option Sample
  again    : Option (Nat × Nat)
  misses   : Table (Option DT)
  /-- Raw count, plus 1, of the last sample. -/
  at_      : Nat
  deriving DecidableEq, Repr

def Rotation.start : Rotation := ⟨0, [], [], none, none, [], 0⟩

structure Twin where
  hbSeq     : Nat
  healthSeq : Nat
  retained  : List Retained
  /-- The set has overflowed since the last full image. -/
  overflow  : Bool
  /-- TWIN_MSG payloads that wait for credits, oldest first. -/
  outbox    : List (List Byte)
  /-- DT of the last partner heartbeat. -/
  heard     : Option DT
  /-- A HEALTH whose VERDICTS cells have not all arrived, and how many are left (R376). -/
  coming    : Option (TwinHealth × Nat)
  /-- A release is in progress (R391). -/
  releasing : Bool
  joining   : Option Joining
  /-- SELFTEST bits 0 to 2 of Table 16.4. -/
  cePassed  : Bool
  dcPassed  : Bool
  dryPassed : Bool
  ce        : Rotation
  dc        : Rotation
  /-- Raw counts, plus 1, of the last doorbell 4 and of the last HEALTH sent. -/
  bell4At   : Nat
  healthAt  : Nat
  deriving DecidableEq, Repr

def Twin.start : Twin := ⟨0, 0, [], false, [], none, none, false, none, false, false, false, .start, .start, 0, 0⟩

end Sys2Proof.Machine
end

