-- ==== Sys2Proof/Machine/State/Video.lean ====
section
/-! DEFINITION. State of video ingest and decoding beside the registers (05_ingest_decode.md): jitter buffers, sender
reports, sync evidence, the queues of the decoder cores, contexts and decoded pictures. -/

namespace Sys2Proof.Machine

/-- How an RTP payload carries NAL units (R109). -/
inductive Packing where
  | whole
  | fuStart
  | fuMiddle
  | fuEnd
  deriving DecidableEq, Repr

/-- A packet in a jitter buffer: `begins` says that it starts with a NAL unit that begins an access unit or with a
slice; `sync` that sync evidence was held at its arrival (R114); `ntp` its RFC 6051 element. -/
structure RtpPacket where
  seq     : Nat
  ts      : Nat
  marker  : Bool
  arrival : DT
  size    : Nat
  begins  : Bool
  packing : Packing
  ntp     : Option Nat
  sync    : Bool
  deriving DecidableEq, Repr

/-- A sender report (R112). -/
structure SenderReport where
  arrival : DT
  ntp     : Nat
  rtpTs   : Nat
  deriving DecidableEq, Repr

/-- A half-open window of DT: from its start to before its end (R113, 12_time.md R278). -/
structure Window where
  start : DT
  stop  : DT
  deriving DecidableEq, Repr

/-- What ingest keeps of one stream. -/
structure StreamState where
  ssrc     : Option Nat
  /-- The jitter buffer in RTP sequence order. Log entry 77 (DESIGN CHOICE). -/
  packets  : List RtpPacket
  /-- The foremost sequence number of the released pictures, and their timestamps, newest first, at most 256. -/
  lastSeq  : Option Nat
  released : List Nat
  reports  : List SenderReport
  /-- The in-band and the attested windows (R113). -/
  inband   : Option Window
  attested : Option Window
  frer     : Frer
  /-- DT of the last R-TAGged packet. -/
  tagged   : Option DT
  deriving DecidableEq, Repr

def StreamState.fresh : StreamState := ⟨none, [], none, [], [], none, none, .fresh, none⟩

/-- A picture released to its core (R117, R118, R124) with its origin vintage and class, its NAL units marked missing, and
the raw count of its release. -/
structure Released where
  stream  : Nat
  ts      : Nat
  vintage : VT
  cls     : Nat
  missing : Nat
  at_     : Nat
  deriving DecidableEq, Repr

/-- A rectangle of a picture, in its coded luma samples, whose samples are those of another content (R128): that of the
picture copied, or mid-grey. -/
structure Patch where
  x0 : Nat
  y0 : Nat
  x1 : Nat
  y1 : Nat
  content : Option Nat
  deriving DecidableEq, Repr

/-- A decoded picture or an absent reference (R125 to R132). `content` names its samples, which the bitstream gives
(log entry 40), none for mid-grey; `patches` its concealed blocks, the first one that covers a sample counting; the size is
that of the cropped picture, whose left top sample is coded sample (cropL, cropT). -/
structure Picture where
  stream  : Nat
  tag     : Tag
  width   : Nat
  height  : Nat
  cropL   : Nat
  cropT   : Nat
  /-- 10-bit samples: profile Main 10. -/
  wide    : Bool
  content : Option Nat
  patches : List Patch
  /-- No IRAP picture, and of mid-grey: an absent reference. -/
  absent  : Bool
  poc     : Int
  tainted : Bool
  inDpb   : Bool
  /-- It holds a token (R132). -/
  token   : Bool
  deriving DecidableEq, Repr

/-- A decoder context (R123 to R132). -/
structure Context where
  /-- The presented picture; none is the absent reference of R123. -/
  current  : Option Nat
  /-- Number of the sequence of the current picture and of the newest sequence (R125). -/
  curSeq   : Nat
  sequence : Nat
  /-- The context decodes RASL pictures only after an IRAP at which decoding did not start. -/
  skipRasl : Bool
  /-- Consecutive tainted pictures (R129). -/
  run      : Nat
  /-- The previous picture in decoding order (R128). -/
  prev     : Option Nat
  deriving DecidableEq, Repr

def Context.fresh : Context := ⟨none, 0, 0, false, 0, none⟩

/-- A picture in progress on a core: its identity, when it started, whether it is an IRAP picture, the first one after
WAIT_IRAP or OUT_OF_ENVELOPE, kept as a reference, the pictures that it refers to, and its parameter sets. -/
structure Decoding where
  rel     : Released
  id      : Nat
  start   : DT
  irap    : Bool
  first   : Bool
  keep    : Bool
  refs    : List Nat
  params  : ParamFacts
  deriving DecidableEq, Repr

structure Core where
  queue   : List Released
  current : Option Decoding
  deriving DecidableEq, Repr

def Core.idle : Core := ⟨[], none⟩

/-- Ingest and decoding. -/
structure Video where
  streams  : Table StreamState
  cores    : Table Core
  contexts : Table Context
  pictures : Table (Option Picture)
  /-- Number of the next picture. -/
  nextPic  : Nat
  /-- The core that DC8 has replaced. -/
  dc8For   : Option Nat
  /-- ING.TS_OFFSET as last written whole (R134). -/
  tsOffset : Nat
  deriving DecidableEq, Repr

def Video.start : Video := ⟨[], [], [], [], 1, none, 0⟩

end Sys2Proof.Machine
end

