-- ==== Sys2Proof/Machine/State/Host.lean ====
section
/-! DEFINITION. The host side as plain data. -/

namespace Sys2Proof.Machine

/-- One MSI-X table entry (19_register_map.md R430). -/
structure MsixEntry where
  addr   : Nat
  data   : Nat
  masked : Bool
  deriving DecidableEq, Repr

/-- What a side has sent, newest first: the model's record of the module's outputs. -/
inductive Sent where
  | msix (vector addr data : Nat)
  /-- A gPTP message on a host port, numbered as the corrections of 12_time.md R283, with its corrected egress timestamp. -/
  | gptp (port : Nat) (msg : GptpOut) (stamp : DT)
  /-- A link cell, and the control blocks of a link. -/
  | cell (link : Nat) (bytes : List Byte)
  | credit (link count : Nat)
  | recover (link mask lastGood free : Nat)
  | widthAck (link mask : Nat)
  /-- The answer to a request for a tap step (15_lanes.md R345): 0 UPDATED, 1 AT_MIN, 2 AT_MAX, 3 NOT_UPDATED. -/
  | train (lane pre post : Nat)
  | report (port : Nat) (group : Nat) (v6 : Bool)
  /-- A head-stream frame of R192. -/
  | headFrame (head : Nat) (bytes : List Byte)
  /-- An RTP packet on a host network port to an address and UDP port (09_encode.md R218). -/
  | rtp (port addr udpPort : Nat) (bytes : List Byte)
  deriving DecidableEq, Repr

/-- A start-up in progress (18_module_electrical.md R422): raw counts at which the step and the store's lane
calibration began. -/
structure BootState where
  stepEntry : Nat
  romEntry  : Nat
  deriving DecidableEq, Repr

/-- The firmware operation in progress (R421): its OP, address and length. -/
structure FwOp where
  op   : Nat
  addr : Nat
  len  : Nat
  deriving DecidableEq, Repr

/-- What the check of the conserved quantities keeps (01_architecture.md R24, R25). -/
structure Conserve where
  /-- Resources held in their safer state until reset, by quantity code and instance. -/
  stuck     : List (Nat × Nat)
  /-- DT of the last check. -/
  lastCheck : Option DT
  /-- Raw count of the last failure, and the bits of SYS.INVAR_STATUS that failed then. -/
  failed    : Option (BitVec 64 × Nat)
  /-- Raw count of the write that last cleared the last bit. -/
  cleared   : Option (BitVec 64)
  deriving DecidableEq, Repr

def Conserve.start : Conserve := ⟨[], none, none, none⟩

/-- The host side. -/
structure HostSide where
  /-- The side runs: it is not in reset. -/
  run     : Bool
  /-- Free values taken so far (log entry 1). -/
  freeN   : Nat
  regs    : Table Nat
  /-- Pair latches by the lower word's offset (R6). -/
  latch   : Table Nat
  resp    : Resp
  tb      : TimeBase
  /-- Low words written and held (R287), by register offset: value + 1. -/
  heldLo  : Table Nat
  /-- Port corrections that were in force before a write of this tick, by register offset: value + 1 (12_time.md R283). -/
  corrOld : Table Nat
  /-- EPOCH_SHIFT written and not yet applied (R282), and the shift in force. -/
  shiftNew : Bool
  shift    : BitVec 64
  boot    : BootState
  fwOp    : Option FwOp
  fresh   : Fresh
  store   : Store
  tartan  : Tartan
  cfg     : Cfg
  msix    : Table MsixEntry
  msixPend : Table Bool
  sent    : List Sent
  /-- The PCIe endpoint is out of its own reset. -/
  pcieUp  : Bool
  xing    : XEnd
  lanes   : Lanes
  stage   : Stage
  twin    : Twin
  uliska  : Uliska
  display : Display
  video   : Video
  mimic   : Mimic
  encode  : Encode
  /-- The open streams of the Calico engines. -/
  dfl     : Table DflEngine
  /-- SRAM rows redirected to spare rows: array and row (R389). -/
  repaired : List (Nat × Nat)
  conserve : Conserve
  deriving DecidableEq, Repr

/-- The host side with every register at its reset value. Log entry 10 (DESIGN CHOICE). -/
def HostSide.start : HostSide where
  run := true
  freeN := 0
  regs := []
  latch := []
  resp := .none
  tb := TimeBase.reset
  heldLo := []
  corrOld := []
  shiftNew := false
  shift := 0
  boot := ⟨0, 0⟩
  fwOp := none
  fresh := Fresh.start
  store := Store.start
  tartan := Tartan.start
  cfg := Cfg.blank
  msix := []
  msixPend := []
  sent := []
  pcieUp := true
  xing := XEnd.reset
  lanes := Lanes.start
  stage := Stage.start
  twin := Twin.start
  uliska := Uliska.start
  display := Display.start
  video := Video.start
  mimic := Mimic.start
  encode := Encode.start
  dfl := []
  repaired := []
  conserve := Conserve.start

end Sys2Proof.Machine
end

