-- ==== Sys2Proof/Machine/Ops.lean ====
section
/-! DEFINITION. The named operations over the host side: register fields, free values, device time, the central
store, the two event rings and MSI-X messages. -/

namespace Sys2Proof.Machine

/-! ## Register fields -/

/-- A field's key in the register table: no two fields share one. -/
def Fld.key (f : Fld) : Nat := f.off * 32 + f.lo

/-- The current value of a field. -/
def HostSide.get (h : HostSide) (f : Fld) : Nat := tget f.rst h.regs f.key

/-- Sets a field, keeping the bits of its width. -/
def HostSide.put (h : HostSide) (f : Fld) (v : Nat) : HostSide :=
  { h with regs := tput f.rst h.regs f.key (v % 2 ^ f.w) }

/-- Sets a field to 1 or 0. -/
def HostSide.putB (h : HostSide) (f : Fld) (b : Bool) : HostSide := h.put f (b2n b)

/-- A one-bit field as a Boolean. -/
def HostSide.flag (h : HostSide) (f : Fld) : Bool := h.get f == 1

/-- Sets a field to its reset value. -/
def HostSide.toReset (h : HostSide) (f : Fld) : HostSide := { h with regs := tput f.rst h.regs f.key f.rst }

/-- Adds to a counter that saturates. -/
def HostSide.bump (h : HostSide) (f : Fld) (n : Nat := 1) : HostSide := h.put f (satAdd (h.get f) n f.w)

/-- Adds to a counter of which the specification does not say what a count beyond its largest value leaves: that one
value is open (log entry 2). Log entry 2 (DESIGN CHOICE). -/
def HostSide.count (h : HostSide) (f : Fld) (n : Nat := 1) : HostSide :=
  if h.get f + n < 2 ^ f.w then h.put f (h.get f + n)
  else h.put f (Config.counterOver f.key (h.get f))

/-- Adds to a counter that wraps. -/
def HostSide.countWrap (h : HostSide) (f : Fld) (n : Nat := 1) : HostSide := h.put f (h.get f + n)

/-- Sets bit `i` of a field. -/
def HostSide.setBitOf (h : HostSide) (f : Fld) (i : Nat) : HostSide := h.put f (setBit (h.get f) i)

/-- A 64-bit pair. -/
def HostSide.pair (h : HostSide) (lo hi : Fld) : Nat := h.get lo + 2 ^ 32 * h.get hi

/-- Sets a 64-bit pair. -/
def HostSide.putPair (h : HostSide) (lo hi : Fld) (v : Nat) : HostSide := (h.put lo v).put hi (v / 2 ^ 32)

/-- Word `w` of an entry of the MPU region table (14_tartan_protection.md R333, Table 14.5). -/
def Reg.mpuWord (port region w : Nat) : Fld :=
  let rst := if port = 34 then
      (match region, w with
        | 0, 0 => 0x10000000 / 64
        | 0, 1 => 0x14000000 / 64
        | 1, 0 => 0x1000000000 / 64
        | 1, 1 => 0x19A0000000 / 64
        | 2, 0 => 0x40000000 / 64
        | 2, 1 => 0x60000000 / 64
        | 0, 2 => 7
        | 1, 2 => 7
        | 2, 2 => 7
        | _, _ => 0)
    else 0
  ⟨0x28000 + 16 * (32 * (port % 47) + region % 32) + 4 * (w % 4), 0, 32, rst, .rw⟩

/-- Word `w` of a layer's pending descriptor (06_composition.md R143). -/
def Reg.layerWord (l w : Nat) : Fld := ⟨0x280000 + l % 1024 * 0x80 + w % 32 * 4, 0, 32, 0, .rw⟩

/-! ## Free values and answers -/

/-- Takes the next free value, below `n` (log entry 1). Log entry 1 (DESIGN CHOICE). -/
def HostSide.free (h : HostSide) (n : Nat) : Nat × HostSide :=
  (Config.freeNat (2 * h.freeN) % n, { h with freeN := h.freeN + 1 })

/-- Takes the field side's next free value, below `n`; the two sides never share one. Log entry 1 (DESIGN CHOICE). -/
def FieldSide.free (f : FieldSide) (n : Nat) : Nat × FieldSide :=
  (Config.freeNat (2 * f.freeN + 1) % n, { f with freeN := f.freeN + 1 })

/-- Records the answer to an access. -/
def HostSide.answer (h : HostSide) (r : Resp) : HostSide := { h with resp := r }

/-- Records something sent. -/
def HostSide.send (h : HostSide) (x : Sent) : HostSide := { h with sent := x :: h.sent }

/-- The count of quantity `qty` for instance `inst` has failed: the resource stays in its safer state until reset
(01_architecture.md R24). Log entries 83 (DEDUCED), 221 (DESIGN CHOICE). -/
def HostSide.stuck (h : HostSide) (qty inst : Nat) : Bool := h.conserve.stuck.contains (qty, inst)

/-- A refused write ends with a bus error at a control core and is discarded when posted (19_register_map.md R433). -/
def HostSide.refuseWrite (h : HostSide) (who : Requester) : HostSide :=
  match who.src with
  | .pcie => h.answer .discarded
  | .hcc _ => h.answer .busError

/-- The request comes from a secure context of a control-core cluster (R433). -/
def Requester.isSecure (who : Requester) : Bool :=
  match who.src with
  | .pcie => false
  | .hcc _ => who.secure

/-- The request comes from a secure privileged context of a control-core cluster. -/
def Requester.isSecurePriv (who : Requester) : Bool := who.isSecure && who.priv

/-- BAR0 is open to the requester: PCIe reaches it only from the end of start-up step 4, not after a failure at steps 5 to 7
(R424), and while the endpoint is out of reset (R417). Log entry 39 (DEDUCED). -/
def HostSide.barOpen (h : HostSide) (who : Requester) : Bool :=
  match who.src with
  | .pcie => h.pcieUp && decide (5 ≤ h.get Reg.SYS_BOOT_STATUS_STEP) &&
    !(h.flag Reg.SYS_BOOT_STATUS_FAILED && decide (h.get Reg.SYS_BOOT_STATUS_STEP ≤ 7))
  | .hcc _ => true

/-! ## Device time -/

/-- DT of a time base (12_time.md R273). -/
def TimeBase.now (t : TimeBase) : DT :=
  BitVec.ofNat 64 ((t.acc + (t.raw - t.ra).toNat * t.incr.toNat) / 2 ^ 28) + t.offset

/-- One tick of 2.5 ns of the reference (R272): an OFFSET written in the tick before takes its place (R275).
Log entry 50 (DESIGN CHOICE). -/
def TimeBase.tick (t : TimeBase) : TimeBase := { t with raw := t.raw + 1, offset := t.next.getD t.offset, next := none }

/-- The synchronised state (R285): within the confirm window. -/
def TimeBase.syncOk (t : TimeBase) : Bool :=
  match t.syncUntil with
  | none => false
  | some e => decide (dtDiff t.now e < 0)

/-- The replaced values of INCR that changes of the last 2 ms by the raw counter have left (R281). -/
def TimeBase.recent (t : TimeBase) : List (Nat × BitVec 64) :=
  t.rates.filter (fun x => decide ((t.raw - x.2).toNat * t.incr.toNat < 2000000 * 2 ^ 28))

/-- A change of rate: the anchor moves so that DT does not (R274). -/
def TimeBase.setIncr (t : TimeBase) (v : BitVec 32) : TimeBase :=
  { t with acc := t.acc + (t.raw - t.ra).toNat * t.incr.toNat, ra := t.raw, incr := v,
           rates := (t.incr.toNat, t.raw) :: t.recent }

/-- INCR lies in the accepted range (R274). -/
def incrOk (v : Nat) : Bool := decide (0x27F5C290 ≤ v ∧ v ≤ 0x280A3D70)

/-- A step of OFFSET ends the synchronised state; timestamps and compares of this tick still use the old one (R275,
R285). Log entry 43 (DEDUCED). -/
def TimeBase.step (t : TimeBase) (v : BitVec 64) : TimeBase := { t with next := some v, syncUntil := none, offsets := [] }

/-- The OFFSET that was written last. -/
def TimeBase.written (t : TimeBase) : BitVec 64 := t.next.getD t.offset

/-- The host's DT and VT. -/
def HostSide.now (h : HostSide) : DT := h.tb.now
def HostSide.vt (h : HostSide) : VT := vtOf h.tb.now

/-- The field's DT and VT. -/
def FieldSide.now (f : FieldSide) : DT := f.tb.now
def FieldSide.vt (f : FieldSide) : VT := vtOf f.tb.now

/-- Nanoseconds of the reference since raw count `r`: 2.5 ns a tick. -/
def TimeBase.sinceNs (t : TimeBase) (r : Nat) : Nat := (t.raw.toNat - r) * 5 / 2

/-- `ticks` of the raw count have passed since a count that is 0 for never, or one more than the count. -/
def TimeBase.due (t : TimeBase) (at_ ticks : Nat) : Bool := at_ == 0 || decide (at_ - 1 + ticks ≤ t.raw.toNat)

/-! ## MSI-X (19_register_map.md R430) -/

/-- An entry of the MSI-X table at reset is masked (log entry 5). Log entry 5 (PRESUMED). -/
def MsixEntry.reset : MsixEntry := ⟨0, 0, true⟩

/-- A rising interrupt event at an entry: its message is sent, or the pending bit set while the entry is masked.
Log entry 5 (PRESUMED). -/
def HostSide.interrupt (h : HostSide) (vector : Nat) : HostSide :=
  let e := tget MsixEntry.reset h.msix vector
  if e.masked then { h with msixPend := tput false h.msixPend vector true }
  else h.send (.msix vector e.addr e.data)

/-- A source's rising event, where its enable is set. -/
def HostSide.interruptIf (h : HostSide) (en vec : Fld) : HostSide :=
  if h.flag en then h.interrupt (h.get vec) else h

/-! ## Central-store bytes and uncorrectable errors (13_central_store.md) -/

/-- The canonical form of a memory: addresses strictly rising and no byte listed that reads as an unlisted one does.
Log entry 3 (DESIGN CHOICE). -/
def Memory.wf (m : Table Byte) : Bool := twf 0 m

/-- The byte at a CA. An unlisted CA reads 0 (log entry 3). Log entry 3 (DESIGN CHOICE). -/
def Store.byte (s : Store) (ca : Nat) : Byte := tget 0 s.mem ca

/-- The bytes from a CA. -/
def Store.bytes (s : Store) (ca : Nat) : Nat → List Byte
  | 0 => []
  | n + 1 => s.byte ca :: s.bytes (ca + 1) n

/-- Stores bytes from a CA. -/
def Store.store (s : Store) (ca : Nat) : List Byte → Store
  | [] => s
  | b :: bs => ({ s with mem := tput 0 s.mem ca b }).store (ca + 1) bs

/-- The block of a CA is poisoned (R294). -/
def Store.poisoned (s : Store) (ca : Nat) : Bool := tget false s.poison (ca / 64)

/-- Some block of a range is poisoned. -/
def Store.anyPoison (s : Store) (ca len : Nat) : Bool :=
  len != 0 && (List.range ((ca + len - 1) / 64 - ca / 64 + 1)).any (fun k => tget false s.poison (ca / 64 + k))

/-- The end of the data of the central store: 38.5 GiB (R290). -/
def caEnd : Nat := 0x9A0000000

/-- UE_ADDR, UE_INFO and UE_DT reflect the entry that UE_SEL names (R295). -/
def HostSide.showUe (h : HostSide) : HostSide :=
  let e := (tget none h.store.ueLog (h.get Reg.CST_UE_SEL_INDEX)).getD ⟨0, 0, 0, 0, 0, 0⟩
  (((((h.putPair Reg.CST_UE_ADDR_LO_CA Reg.CST_UE_ADDR_HI_CA e.ca).put Reg.CST_UE_INFO_CH e.ch).put
    Reg.CST_UE_INFO_KIND e.kind).put Reg.CST_UE_INFO_PORT e.port).put Reg.CST_UE_INFO_SYNDROME e.syndrome).putPair
    Reg.CST_UE_DT_LO_DT Reg.CST_UE_DT_HI_DT e.dt.toNat

/-- Logs an uncorrectable error (R295). Log entry 42 (DEDUCED). -/
def HostSide.logUe (h : HostSide) (ca ch kind port syndrome : Nat) : HostSide :=
  let i := h.get Reg.CST_UE_WR_INDEX
  let lost := (tget none h.store.ueLog i).isSome
  let h := if lost then h.bump Reg.CST_UE_LOST_COUNT else h
  let h := { h with store := { h.store with
    ueLog := tput none h.store.ueLog i (some ⟨ca / 64 * 64, ch, kind, port, syndrome, h.now⟩) } }
  let h := if i = 1023 then h.put Reg.CST_UE_WR_WRAPPED 1 else h
  (h.put Reg.CST_UE_WR_INDEX (i + 1)).showUe

/-- The GRAIN_LOG2 in force, from 8 to 16: that of the active image's CST_MAP, of which CST.STATUS shows the low four bits;
12 stands for none before the first activation (log entry 6). Log entry 6 (DEDUCED). -/
def HostSide.grainLog2 (h : HostSide) : Nat := if h.cfg.imageId = 0 then 12 else h.cfg.cst.grainLog2

/-- The rotation of a stripe under the hash (R290). -/
def hashRot (s : Nat) : Nat :=
  (bits s 0 4 ^^^ bits s 4 4 ^^^ bits s 8 4 ^^^ bits s 12 4 ^^^ bits s 16 4 ^^^ bits s 20 4) % 11

/-- The logical slot of a CA and the offset within its channel (R290). -/
def caSlot (grainLog2 : Nat) (hash : Bool) (ca : Nat) : Nat × Nat :=
  let g := 2 ^ grainLog2
  let b := ca / g
  let s := b / 11
  let i := b - 11 * s
  let rot := if hash then hashRot s else 0
  ((i + rot) % 11, s * g + ca % g)

/-- The channel that serves a slot: the slot map as the CH_STATUS registers show it (R289). -/
def HostSide.slotChannel (h : HostSide) (slot : Nat) : Nat :=
  ((List.range 12).find? (fun c =>
    h.get (Reg.CST_CH_STATUS_ROLE c) == 0 && h.get (Reg.CST_CH_STATUS_SLOT c) == slot)).getD 0

/-- The channel of a CA. Log entry 6 (DEDUCED). -/
def HostSide.caChannel (h : HostSide) (ca : Nat) : Nat :=
  h.slotChannel (caSlot h.grainLog2 (h.flag Reg.CST_STATUS_HASH_EN) ca).1

/-- A write of bytes to the central store at once: a full 64-byte block clears its poison, a partial write to a
poisoned block is refused and logged with KIND 0b01 (R294). Answers whether every byte landed. -/
def HostSide.caWrite (h : HostSide) (port ca : Nat) (bs : List Byte) : HostSide × Bool :=
  let full := (List.range ((ca + bs.length) / 64 - cdiv ca 64)).map (· + cdiv ca 64)
  let st := { h.store with poison := full.foldl (fun p k => tput false p k false) h.store.poison }
  if st.anyPoison ca bs.length then
    let h := { h with store := st }
    (h.logUe ca (h.caChannel ca) 1 port 0, false)
  else ({ h with store := st.store ca bs }, true)

/-- A write of bytes whose failure nobody answers. -/
def HostSide.caPut (h : HostSide) (port ca : Nat) (bs : List Byte) : HostSide := (h.caWrite port ca bs).1

/-! ## Event rings -/

/-- The span that runs forward round a ring of `n` from `rd` to `wr` holds `i` (R54, R82). -/
def onSpan (n rd wr i : Nat) : Bool := decide (i < n ∧ (i + n - rd) % n ≤ (wr + n - rd) % n)

/-- Writes a module event record, or counts it lost (03_structure_image.md R82, Table 03.19). -/
def HostSide.log (h : HostSide) (source code index : Nat) (frame detail : Nat := 0) : HostSide :=
  let n := h.cfg.log.modCount
  let wr := h.get Reg.SYS_LOG_WR_INDEX
  if n = 0 ∨ (wr + 1) % n = h.get Reg.SYS_LOG_RD_INDEX then h.bump Reg.SYS_LOG_LOST_COUNT
  else
    let rec_ := leBytes h.vt.toNat 4 ++ leBytes 0 4 ++ leBytes h.now.toNat 8 ++ leBytes source 1 ++ leBytes code 1 ++
      leBytes 0 2 ++ leBytes index 4 ++ leBytes frame 4 ++ leBytes detail 4
    (h.caPut 0xFF (h.cfg.log.modRing + 32 * wr) rec_).put Reg.SYS_LOG_WR_INDEX ((wr + 1) % n)

/-- A freshness event (02_freshness.md Tables 02.11 and 02.12). -/
structure FrsEvent where
  code     : Nat
  frame    : Nat := 0
  layer    : Nat := 0
  head     : Nat := 0
  oldState : Nat := 0
  newState : Nat := 0
  tile     : Nat := 0
  detail   : Nat := 0
  deriving DecidableEq, Repr

/-- Writes a freshness event, or counts it lost (02_freshness.md R54). -/
def HostSide.frsEvent (h : HostSide) (e : FrsEvent) : HostSide :=
  let base := h.pair Reg.FRS_EVT_BASE_LO_ADDR Reg.FRS_EVT_BASE_HI_ADDR
  let wr := h.get Reg.FRS_EVT_WR_INDEX
  if h.cfg.log.modCount = 0 ∨ (wr + 1) % 4096 = h.get Reg.FRS_EVT_RD_INDEX then h.bump Reg.FRS_EVT_LOST_COUNT
  else
    let w2 := e.layer % 1024 + 2 ^ 10 * (e.head % 64) + 2 ^ 16 * (e.oldState % 8) + 2 ^ 19 * (e.newState % 8) +
      2 ^ 22 * (e.tile % 4) + 2 ^ 24 * (e.code % 256)
    (h.caPut 0xFF (base + 16 * wr) (leBytes h.vt.toNat 4 ++ leBytes e.frame 4 ++ leBytes w2 4 ++ leBytes e.detail 4)).put
      Reg.FRS_EVT_WR_INDEX (wr + 1)

end Sys2Proof.Machine
end

