-- ==== Sys2Proof/Machine/StoreOps.lean ====
section
/-! DEFINITION. Operations of the channel controllers (13_central_store.md): serving requests with their error
correction, row activation, self-refresh, training, rates and retirement. -/

namespace Sys2Proof.Machine

/-- Requests held or queued at a channel, oldest first. -/
def HostSide.dramQueue (h : HostSide) (c : Nat) : List DramReq := tget [] h.store.heldReqs c

/-- Sets a channel's queue, and CST.CH_SLOTS with it: free + queued + in service = 256 (R313). After a miscount no slot falls
free again (01_architecture.md R24). -/
def HostSide.setDramQueue (h : HostSide) (c : Nat) (q : List DramReq) : HostSide :=
  let free := 256 - q.length
  let free := if h.stuck 7 c then min free (h.get (Reg.CST_CH_SLOTS_FREE c)) else free
  (({ h with store := { h.store with heldReqs := tput [] h.store.heldReqs c q } }).put
    (Reg.CST_CH_SLOTS_FREE c) free).put (Reg.CST_CH_SLOTS_QUEUED c) q.length

/-- The idle timer restarts (R299). -/
def HostSide.touch (h : HostSide) (c : Nat) : HostSide :=
  { h with store := { h.store with lastReq := tput 0 h.store.lastReq c h.tb.raw.toNat } }

/-- A request reaches its channel controller: it takes a transaction slot and restarts the idle timer; a channel in
self-refresh begins to leave it (R300). -/
def HostSide.enqueueDram (h : HostSide) (c : Nat) (r : DramReq) : HostSide :=
  let h := (h.setDramQueue c (h.dramQueue c ++ [r])).touch c
  if tget 0 h.store.srPhase c = 1 then { h with store := { h.store with srPhase := tput 0 h.store.srPhase c 2 } } else h

/-- The channel can serve: active, awake. -/
def HostSide.canServe (h : HostSide) (c : Nat) : Bool := h.get (Reg.CST_CH_STATUS_STATE c) == 0

/-- Puts a row into a bank's activation table (R297). Answers the table and whether the row reached the threshold. -/
def activate (threshold : Nat) (t : List (Nat × Nat)) (row : Nat) : List (Nat × Nat) × Bool :=
  let step (k : Nat) := if threshold ≠ 0 ∧ threshold ≤ k then ((row, 0), true) else ((row, k), false)
  match t.find? (fun e => e.1 == row) with
  | some e =>
    let (x, hit) := step (e.2 + 1)
    (t.map (fun y => if y.1 == row then x else y), hit)
  | none =>
    if t.length < 32 then
      let (x, hit) := step 1
      (t ++ [x], hit)
    else
      let m := t.foldl (fun a e => min a e.2) ((t.headD (0, 0)).2)
      let (x, hit) := step (m + 1)
      let i := t.findIdx (fun e => e.2 == m)
      (t.set i x, hit)

/-- A row activation of a bank, with the neighbour refresh that it may cause (R297, R298). -/
def HostSide.activateRow (h : HostSide) (c bank row : Nat) : HostSide :=
  let k := c * 256 + bank
  let (t, hit) := activate h.store.rhThreshold (tget [] h.store.actTables k) row
  let h := { h with store := { h.store with actTables := tput [] h.store.actTables k t } }
  if hit then h.bump (Reg.CST_CH_RH_NREF c) else h

/-- Poisons the block of a CA (R294). Log entry 42 (DEDUCED). -/
def HostSide.poison (h : HostSide) (ca : Nat) : HostSide :=
  { h with store := { h.store with poison := tput false h.store.poison (ca / 64) true } }

/-- The controller serves one request (R292 to R294): the answer it returns, and the state after it.
Log entry 42 (DEDUCED). -/
def HostSide.serve (h : HostSide) (c : Nat) (r : DramReq) (ecc : EccFact) : HostSide :=
  if caEnd ≤ r.ca then (h.bump Reg.CST_DECODE_ERR_COUNT).answer .errorResponse
  else match r.op with
  | .read len =>
    match ecc with
    | .uncorrectable blk syn =>
      let ca := r.ca / 64 * 64 + 64 * blk
      ((((h.poison ca).logUe ca c 0 r.port syn.toNat).bump (Reg.CST_CH_ERR_UE c))).answer .errorResponse
    | _ =>
      let h := if ecc = .correctable then h.bump (Reg.CST_CH_ERR_CE c) else h
      if h.store.anyPoison r.ca len then h.answer .errorResponse
      else h.answer (.bytes (h.store.bytes r.ca len))
  | .write bs =>
    let partialWrite := !(r.ca % 64 == 0 && bs.length % 64 == 0)
    match partialWrite, ecc with
    | true, .uncorrectable blk syn =>
      let ca := r.ca / 64 * 64 + 64 * blk
      ((((h.poison ca).logUe ca c 1 r.port syn.toNat).bump (Reg.CST_CH_ERR_UE c))).answer .errorResponse
    | _, _ =>
      let h := if partialWrite && ecc == .correctable then h.bump (Reg.CST_CH_ERR_CE c) else h
      let (h, ok) := h.caWrite r.port r.ca bs
      h.answer (if ok then .none else .errorResponse)

/-- The CA of an offset within a channel that serves a slot: R290 read backwards. -/
def slotCa (grainLog2 : Nat) (hash : Bool) (slot off : Nat) : Nat :=
  let g := 2 ^ grainLog2
  let s := off / g
  let rot := if hash then hashRot s else 0
  (11 * s + (slot + 11 - rot) % 11) * g + off % g

/-- The CA of a block of a channel; of a channel that serves no slot it is open (log entry 8).
Log entry 8 (DESIGN CHOICE). -/
def HostSide.blockCa (h : HostSide) (c block : Nat) : Nat × HostSide :=
  if h.get (Reg.CST_CH_STATUS_ROLE c) = 0 then
    (slotCa h.grainLog2 (h.flag Reg.CST_STATUS_HASH_EN) (h.get (Reg.CST_CH_STATUS_SLOT c)) (block * 64), h)
  else
    let (v, h) := h.free (caEnd / 64)
    (v * 64, h)

/-- A block that the module itself reads, patrol or copy: corrected, or poisoned and logged (R296, R304).
Log entry 8 (DESIGN CHOICE). -/
def HostSide.selfRead (h : HostSide) (c block kind : Nat) (ecc : EccFact) : HostSide :=
  match ecc with
  | .clean => h
  | .correctable => h.bump (Reg.CST_CH_ERR_CE c)
  | .uncorrectable _ syn =>
    let slotRole := h.get (Reg.CST_CH_STATUS_ROLE c)
    let (ca, h) := h.blockCa c block
    let h := if slotRole = 0 then h.poison ca else h
    (h.logUe ca c kind 0xFF syn.toNat).bump (Reg.CST_CH_ERR_UE c)

/-- Blocks of a channel: 3.5 GiB of 64 bytes (R288). -/
def channelBlocks : Nat := 58720256

/-- The spare channel, while one remains. -/
def HostSide.spareCh (h : HostSide) : Option Nat :=
  if h.flag Reg.CST_STATUS_SPARE_VALID then some (h.get Reg.CST_STATUS_SPARE_CH) else none

/-- A retirement is in progress: WAKING, COPYING or SWITCHING (R303). -/
def HostSide.retiringNow (h : HostSide) : Bool :=
  let s := h.get Reg.CST_STATUS_RETIRE_STATE
  s == 1 || s == 2 || s == 3

/-- CST.CH_CTRL.RATE is inactive, so it accepts a write (R302, R434). -/
def HostSide.rateInactive (h : HostSide) (c : Nat) : Bool :=
  h.cfg.imageId == 0 ||
    (h.get (Reg.CST_CH_STATUS_ROLE c) != 0 && !(h.retiringNow && (h.spareCh == some c || h.store.retiring == some c)))

/-- A new rate: the burst in progress is aborted, the clock relocks, training starts afresh (R302). -/
def HostSide.newRate (h : HostSide) (c rate : Nat) : HostSide :=
  if rate = 3 ∨ rate = h.get (Reg.CST_CH_CTRL_RATE c) then h
  else
    let busy := tget 0 h.store.burstEnd c ≠ 0 ∧ h.tb.raw.toNat ≤ tget 0 h.store.burstEnd c
    let h := if busy then h.bump (Reg.CST_CH_RH_TRAIN_ABORT c) else h
    let h := { h with store := { h.store with
      burstEnd := tput 0 h.store.burstEnd c 0
      srPhase := tput 0 h.store.srPhase c 0 } }
    (h.put (Reg.CST_CH_CTRL_RATE c) rate).put (Reg.CST_CH_STATUS_STATE c) 4

/-- Begins a retirement, or records why not (R303). -/
def HostSide.startRetire (h : HostSide) (ch : Nat) : HostSide :=
  let refuse (r : Nat) := h.put Reg.CST_STATUS_RETIRE_RESULT r
  match h.spareCh with
  | none => refuse 1
  | some sp =>
    if ¬ (ch < 12 ∧ h.get (Reg.CST_CH_STATUS_ROLE ch) = 0) then refuse 2
    else if h.retiringNow then refuse 3
    else
      let h := (((h.put Reg.CST_STATUS_RETIRE_RESULT 0).put Reg.CST_STATUS_RETIRE_STATE 1).put
        Reg.CST_RETIRE_PROGRESS_MIB 0)
      let h := { h with store := { h.store with retiring := some ch, copied := 0 } }
      let h := h.touch sp
      let h := if tget 0 h.store.srPhase sp = 1 then
          { h with store := { h.store with srPhase := tput 0 h.store.srPhase sp 2 } } else h
      if h.get (Reg.CST_CH_STATUS_RATE_NOW sp) ≠ 0 then h.newRate sp 0 else h

/-- The switch of a retirement: in one cycle the slot points at the former spare, whose SR_EN is dropped
(R299, R303). -/
def HostSide.retireSwitch (h : HostSide) : HostSide :=
  match h.store.retiring, h.spareCh with
  | some ch, some sp =>
    ((((h.put (Reg.CST_CH_STATUS_SLOT sp) (h.get (Reg.CST_CH_STATUS_SLOT ch))).put (Reg.CST_CH_STATUS_ROLE sp) 0).put
      (Reg.CST_CH_STATUS_SR_EN sp) 0).put (Reg.CST_CH_STATUS_ROLE ch) 2).put Reg.CST_STATUS_RETIRE_STATE 3
  | _, _ => h

/-- The retired channel is powered down and shown (R303). -/
def HostSide.retireDone (h : HostSide) : HostSide :=
  match h.store.retiring with
  | some ch =>
    let h := ((((h.put Reg.CST_STATUS_RETIRE_STATE 4).put Reg.CST_STATUS_RETIRED_VALID 1).put
      Reg.CST_STATUS_RETIRED_CH ch).put Reg.CST_STATUS_SPARE_VALID 0).put (Reg.CST_CH_STATUS_STATE ch) 3
    { h with store := { h.store with retiring := none } }
  | none => h

/-- The slot map after a reset: LSi at CHi and CH11 spare, but a retired channel stays retired and the spare serves
its slot (R289). Log entry 6 (DEDUCED). -/
def HostSide.mapAfterReset (h : HostSide) (retired : Option Nat) : HostSide :=
  match retired with
  | none => h
  | some r =>
    let h := (((h.put Reg.CST_STATUS_SPARE_VALID 0).put Reg.CST_STATUS_RETIRED_VALID 1).put
      Reg.CST_STATUS_RETIRED_CH r).put (Reg.CST_CH_STATUS_STATE r) 3
    let h := h.put (Reg.CST_CH_STATUS_ROLE r) 2
    if r < 11 then (h.put (Reg.CST_CH_STATUS_ROLE 11) 0).put (Reg.CST_CH_STATUS_SLOT 11) r else h

/-- Initial training ends (R301): a channel that fails is retired at once and the spare takes its slot without a
copy. Answers whether a spare was left for each. -/
def HostSide.initialTraining (h : HostSide) (failed : List Nat) : HostSide × Bool :=
  match failed with
  | [] => (h, true)
  | c :: rest =>
    if h.flag Reg.CST_STATUS_SPARE_VALID && rest.isEmpty then (h.mapAfterReset (some c), true) else (h, false)

/-- After initial training every channel that is not off is active at full rate. -/
def HostSide.trainedAll (h : HostSide) : HostSide :=
  (List.range 12).foldl (fun h c =>
    if h.get (Reg.CST_CH_STATUS_STATE c) = 3 then h else h.put (Reg.CST_CH_STATUS_STATE c) 0)
    (h.put Reg.CST_STATUS_TRAINED 1)

/-! ## Pages (01_architecture.md R17, 06_composition.md R140) -/

/-- Pages in use. -/
def Store.usedPages (s : Store) : Nat := s.pages.foldl (fun n r => n + r.count) 0

/-- CST.PAGES follows the allocator. -/
def HostSide.showPages (h : HostSide) : HostSide :=
  (h.put Reg.CST_PAGES_LO_FREE (630784 - h.store.usedPages)).put Reg.CST_PAGES_HI_USED h.store.usedPages

/-- A page lies in some run. -/
def Store.pageUsed (s : Store) (first count : Nat) : Bool :=
  s.pages.any (fun r => decide (first < r.first + r.count ∧ r.first < first + count))

/-- The owner of the page of a CA. -/
def Store.pageOwner (s : Store) (ca : Nat) : Option PageOwner :=
  (s.pages.find? (fun r => decide (r.first ≤ ca / 65536 ∧ ca / 65536 < r.first + r.count))).map (·.owner)

/-- Reserves a run at a page that is free. -/
def HostSide.reservePages (h : HostSide) (run : PageRun) : HostSide :=
  ({ h with store := { h.store with pages := run :: h.store.pages } }).showPages

/-- Frees the runs that a test picks; after a miscount a page stays used (01_architecture.md R24). -/
def HostSide.freePages (h : HostSide) (p : PageRun → Bool) : HostSide :=
  if h.stuck 6 0 then h
  else ({ h with store := { h.store with pages := h.store.pages.filter (fun r => !p r) } }).showPages

end Sys2Proof.Machine
end

