-- ==== Sys2Proof/Machine/Muslin.lean ====
section
/-! DEFINITION. Muslin coding (13_central_store.md R306 to R308): tile slots, what a coding pass leaves of a tile, and
the tiles of a coded surface. The coder's bytes and its choice within the error bound are the part's own
(Config.lean). -/

namespace Sys2Proof.Machine

/-- The pixel classes of Table 13.1: 0 for 32 bits, 1 for 8-bit 4:2:0, 2 for 10-bit 4:2:0. -/
def muslinClass (format : Nat) : Nat := match format with | 3 => 1 | 4 => 2 | _ => 0

/-- Bytes of a group of three tiles (Table 13.1). -/
def groupBytes (cls coding : Nat) : Nat :=
  match cls, coding with
  | 0, 1 => 256 | 0, 2 => 192 | 0, _ => 128
  | 1, 1 => 96 | 1, 2 => 72 | 1, _ => 48
  | _, 1 => 120 | _, 2 => 90 | _, _ => 60

/-- Bytes of a tile slot and of the slots before it in its group (Table 13.1). -/
def slotBytes (cls coding k : Nat) : Nat × Nat :=
  match cls, coding with
  | 0, 1 => if k = 0 then (85, 0) else if k = 1 then (85, 85) else (86, 170)
  | 0, 3 => if k = 0 then (42, 0) else if k = 1 then (43, 42) else (43, 85)
  | _, _ => (groupBytes cls coding / 3, k * (groupBytes cls coding / 3))

/-- Offset and size of the slot of tile (tx, ty) from the surface's start (R306). -/
def tileSlot (cls coding width tx ty : Nat) : Nat × Nat :=
  let g := groupBytes cls coding
  let (n, before) := slotBytes cls coding (tx % 3)
  (ty * cdiv width 24 * g + tx / 3 * g + before, n)

/-- Components of a tile: 32 pixels of A, R, G, B, or 32 luma, 8 Cb and 8 Cr samples. -/
def tileComponents (cls : Nat) : Nat := if cls = 0 then 128 else 48

/-- The largest value and the error bound (Table 13.2) of component `i` of a tile; FORMAT 0x02 and the slice rings keep
their upper two bits exactly. -/
def componentBound (format coding i : Nat) : Nat × Nat :=
  let wide := if coding = 1 then 1 else if coding = 2 then 2 else 8
  let narrow := if coding = 3 then 4 else 1
  match format with
  | 2 => if i % 4 = 0 then (3, 0) else (1023, wide)
  | 4 => (1023, wide)
  | _ => (255, narrow)

/-- Every pixel of the tile is equal. -/
def tileUniform (cls : Nat) (t : List Nat) : Bool :=
  if cls = 0 then (List.range 128).all (fun i => t.getD i 0 == t.getD (i % 4) 0)
  else (List.range 48).all (fun i => t.getD i 0 == t.getD (if i < 32 then 0 else if i < 40 then 32 else 40) 0)

/-- What a tile decodes to after one coding pass (R307). Log entry 15 (DESIGN CHOICE). -/
def muslinPass (format coding : Nat) (t : List Nat) : List Nat :=
  let cls := muslinClass format
  if coding = 0 || tileUniform cls t then t
  else t.zipIdx.map (fun (v, i) =>
    let (top, b) := componentBound format coding i
    let lo := v - b
    let hi := min top (v + b)
    lo + Config.muslinError (4 * format + coding) t i % (hi - lo + 1))

/-- The bytes of a coded tile slot of `n` bytes (R308). Log entry 15 (DESIGN CHOICE). -/
def muslinBytes (format coding n : Nat) (t : List Nat) : List Byte :=
  (List.range n).map (fun i => BitVec.ofNat 8 (Config.muslinByte (4 * format + coding) t i))

/-- Codes a tile into its slot: its bytes, and beside them what they decode to. -/
def HostSide.codeTile (h : HostSide) (format coding ca n : Nat) (t : List Nat) : HostSide :=
  let bs := muslinBytes format coding n t
  let h := h.caPut 0xFF ca bs
  { h with store := { h.store with
      decoded := tput [] h.store.decoded ca (bs.map (·.toNat) ++ muslinPass format coding t) } }

/-- Decodes a tile slot: the record of the pass that wrote these bytes, or what the bytes of another writer decode
to. Log entry 15 (DESIGN CHOICE). -/
def HostSide.decodeTile (h : HostSide) (format coding ca n : Nat) : List Nat :=
  let bs := (h.store.bytes ca n).map (·.toNat)
  let r := tget [] h.store.decoded ca
  if r.length != 0 && r.take n == bs then r.drop n
  else (List.range (tileComponents (muslinClass format))).map (fun i =>
    Config.muslinSample (4 * format + coding) bs i % ((componentBound format coding i).1 + 1))

/-! ## Slice rings (06_composition.md R164) -/

/-- Bytes of the pixels of one ring slot: 32 lines of Muslin 2:1. -/
def ringPixelBytes (width : Nat) : Nat := 8 * cdiv width 24 * groupBytes 0 2

/-- Bytes of one ring slot with its trailer. -/
def ringSlotBytes (width : Nat) : Nat := ringPixelBytes width + 64

/-- Pages of a head's slice ring of 16 slots. -/
def ringPages (width : Nat) : Nat := cdiv (16 * ringSlotBytes width) 65536

/-- The page run of a head's slice ring. -/
def HostSide.ringRun (h : HostSide) (k width : Nat) : Option PageRun :=
  h.store.pages.find? (fun r => r.owner == .ring k width)

/-- The CA of a slot of a head's slice ring: its slots follow one another. Log entry 241 (DESIGN CHOICE). -/
def HostSide.ringCa (h : HostSide) (k width slot : Nat) : Option Nat :=
  (h.ringRun k width).map (fun r => r.first * 65536 + slot * ringSlotBytes width)

/-- The place of tile (tx, ty) in a ring slot. -/
def ringTileCa (width ca tx ty : Nat) : Nat := ca + (tileSlot 0 2 width tx ty).1

/-- Lines of packed pixels that a ring slot decodes to: `n` lines of `width` pixels. -/
def HostSide.ringRows (h : HostSide) (ca width n : Nat) : List (List Nat) :=
  (List.range n).map (fun y => (List.range (cdiv width 8)).flatMap (fun tx =>
    let t := h.decodeTile 2 2 (ringTileCa width ca tx (y / 4)) 64
    (List.range (min 8 (width - 8 * tx))).map (fun i =>
      let k := 4 * (y % 4 * 8 + i)
      t.getD (k + 1) 0 * 2 ^ 20 + t.getD (k + 2) 0 * 2 ^ 10 + t.getD (k + 3) 0)))

/-- Marks a ring slot's trailer invalid or writes it: the record, and the 64 bytes after the pixels, whose layout is the
part's own. Log entry 241 (DESIGN CHOICE). -/
def HostSide.writeTrailer (h : HostSide) (k width slot : Nat) (t : Option RingSlot) : HostSide :=
  let h := { h with display := { h.display with rings := tput none h.display.rings (16 * k + slot) t } }
  match h.ringCa k width slot with
  | none => h
  | some ca =>
    let fields := match t with
      | none => []
      | some r => [r.frame, r.slice, r.worst, r.mask, r.tag.vt.toNat, r.tag.cls, b2n r.tag.ancient, b2n r.tag.concealed,
        b2n r.tag.fault]
    h.caPut 0xFF (ca + ringPixelBytes width) ((List.range 64).map (fun i => BitVec.ofNat 8 (Config.trailerByte fields i)))

end Sys2Proof.Machine
end

