-- ==== Sys2Proof/Machine/Tags.lean ====
section
/-! DEFINITION. Vintage tags and region states (02_freshness.md R26, R29, R33, R34, R36). -/

namespace Sys2Proof.Machine

/-- The 64-bit layout of a tag (Table 02.1). -/
def Tag.encode (t : Tag) : Nat :=
  t.vt.toNat + 2 ^ 32 * (t.cls % 4) + 2 ^ 34 * b2n t.ancient + 2 ^ 35 * b2n t.concealed + 2 ^ 36 * b2n t.fault

/-- The tag of 64 bits. -/
def Tag.decode (v : Nat) : Tag := ⟨BitVec.ofNat 32 v, bits v 32 2, bit v 34, bit v 35, bit v 36⟩

/-- One step of the oldest-vintage rule (R29). -/
def Tag.join (a b : Tag) : Tag :=
  ⟨if vtDiff b.vt a.vt < 0 then b.vt else a.vt, max a.cls b.cls, a.ancient || b.ancient, a.concealed || b.concealed,
   a.fault || b.fault⟩

/-- The combination of R29 over a list of input tags; no input leaves every field 0 (VT: log entry 30).
Log entry 30 (DEDUCED). -/
def combine : List Tag → Tag
  | [] => ⟨0, 0, false, false, false⟩
  | t :: ts => ts.foldl Tag.join t

/-- ANCIENT is set by the sweep (R30). -/
def Tag.sweep (t : Tag) (now : VT) : Tag := { t with ancient := t.ancient || decide (0x40000000 ≤ vtDiff now t.vt) }

/-- How high a state stands in Table 02.3. -/
def stateRank : Nat → Nat
  | 5 => 5
  | 1 => 4
  | 2 => 3
  | 3 => 2
  | 4 => 1
  | _ => 0

/-- The worse of two states (R36). -/
def worse (a b : Nat) : Nat := if stateRank a < stateRank b then b else a

/-- The worst of a list of states; LIVE of none. -/
def worst (l : List Nat) : Nat := l.foldl worse 0

/-- The effective class of a tag (R28). -/
def Tag.effective (t : Tag) (syncOk : Bool) : Nat := if t.cls = 0 ∧ !syncOk then 2 else t.cls

/-- A region is fresh (R33). -/
def Tag.fresh (t : Tag) (emission : VT) (budget : Nat) : Bool :=
  !t.ancient && decide (vtDiff emission t.vt < (budget : Int))

/-- A tag lies in the future by more than its margin (R34). -/
def Tag.implausible (t : Tag) (emission : VT) (margin : Nat) : Bool := decide ((margin : Int) < vtDiff t.vt emission)

/-- The state of a region (R36, Table 02.3). -/
def regionState (t : Tag) (fetchError frozen syncOk : Bool) (emission : VT) (budget srcBound bound : Nat) : Nat :=
  let margin := if t.effective syncOk = 0 then srcBound else bound
  if t.fault || fetchError then 5
  else if !t.fresh emission budget || t.implausible emission margin then 1
  else if frozen then 2
  else if t.concealed then 3
  else if t.effective syncOk = 2 then 4
  else 0

end Sys2Proof.Machine
end

