-- ==== Sys2Proof/Machine/DisplayOps.lean ====
section
/-! DEFINITION. Surfaces and leases (06_composition.md R136 to R156): the lease count, release, write protection and the
probe registers that reflect a surface. -/

namespace Sys2Proof.Machine

/-! ## Layers and descriptors -/

/-- The LAYERS entry of a layer in the active configuration. -/
def HostSide.layerEntry (h : HostSide) (l : Nat) : Option LayerEntry := h.cfg.layers.find? (fun e => e.layer == l)

/-- The active descriptor of a layer (R143): 16 words. -/
def HostSide.activeDesc (h : HostSide) (l : Nat) : List Nat := tget [] h.display.active l

/-- The armed descriptor of a layer (R148). -/
def HostSide.armedDesc (h : HostSide) (l : Nat) : Option (List Nat) := tget none h.display.armed l

/-- A word of a descriptor. -/
def descWord (d : List Nat) (i : Nat) : Nat := d.getD i 0

/-- ENABLE, OPAQUE, ALPHA_MODE, CSC, Z, GLOBAL_ALPHA and SURFACE of a descriptor (Table 06.3). -/
def descEnable (d : List Nat) : Bool := bit (descWord d 0) 1
def descOpaque (d : List Nat) : Bool := bit (descWord d 0) 2
def descAlphaMode (d : List Nat) : Nat := bits (descWord d 0) 3 2
def descCsc (d : List Nat) : Nat := bits (descWord d 0) 5 2
def descZ (d : List Nat) : Nat := bits (descWord d 0) 8 8
def descAlpha (d : List Nat) : Nat := bits (descWord d 0) 16 10
def descSurface (d : List Nat) : Nat := bits (descWord d 1) 0 12
def descSrcX (d : List Nat) : Nat := bits (descWord d 2) 0 16
def descSrcY (d : List Nat) : Nat := bits (descWord d 2) 16 16
def descSrcW (d : List Nat) : Nat := bits (descWord d 3) 0 16
def descSrcH (d : List Nat) : Nat := bits (descWord d 3) 16 16
def descDstX (d : List Nat) : Nat := bits (descWord d 4) 0 16
def descDstY (d : List Nat) : Nat := bits (descWord d 4) 16 16
def descDstW (d : List Nat) : Nat := bits (descWord d 5) 0 16
def descDstH (d : List Nat) : Nat := bits (descWord d 5) 16 16

/-- Sets a layer's active descriptor, with LAYER_STATUS.ENABLED. -/
def HostSide.setActiveDesc (h : HostSide) (l : Nat) (d : List Nat) : HostSide :=
  ({ h with display := { h.display with active := tput [] h.display.active l d } }).putB (Reg.CMP_LAYER_STATUS_ENABLED l)
    (descEnable d)

/-- Sets or drops a layer's armed descriptor, with LAYER_STATUS.ARMED. -/
def HostSide.setArmedDesc (h : HostSide) (l : Nat) (d : Option (List Nat)) : HostSide :=
  ({ h with display := { h.display with armed := tput none h.display.armed l d } }).putB (Reg.CMP_LAYER_STATUS_ARMED l)
    d.isSome

/-- The buffer that an enabled descriptor of a layer references: a named surface, the stream's current picture, the
mimic surface or the region's latest transfer (R149, R156). -/
def HostSide.bufOf (h : HostSide) (e : LayerEntry) (d : List Nat) : Option Buf :=
  if !descEnable d then none
  else match e.kind with
  | 0 => ((tget Context.fresh h.video.contexts e.source).current).map Buf.picture
  | 1 => some (.surface (descSurface d))
  | 2 => some (.mimic e.source)
  | _ => ((tget Region.empty h.lanes.regions e.source).latest).map (fun t => Buf.stitch e.source t.buffer)

/-! ## Leases (R149 to R151) -/

/-- References of descriptors on a buffer. -/
def HostSide.references (h : HostSide) (b : Buf) : Nat :=
  h.cfg.layers.foldl (fun n e =>
    let n := if h.bufOf e (h.activeDesc e.layer) = some b then n + 1 else n
    match h.armedDesc e.layer with
    | some d => if h.bufOf e d = some b then n + 1 else n
    | none => n) 0

/-- The atlas reference (07_mimic.md R172). -/
def HostSide.atlasRef (h : HostSide) (b : Buf) : Nat :=
  match h.cfg.mimic with
  | some m => b2n (decide (b = Buf.surface m.atlas))
  | none => 0

/-- Scan-out holds on a buffer, over all heads (R150). -/
def HostSide.scanHolds (h : HostSide) (b : Buf) : Nat :=
  h.display.heads.foldl (fun n p => n + (p.2.holds.filter (fun x => x.buf == b)).length) 0

/-- Comparison holds on a buffer. -/
def HostSide.compareHolds (h : HostSide) (b : Buf) : Nat := (h.display.compares.filter (· == b)).length

/-- What holds a buffer: the true value of its lease count (R149). -/
def HostSide.leaseCount (h : HostSide) (b : Buf) : Nat :=
  h.references b + h.atlasRef b + h.scanHolds b + h.compareHolds b

/-! ## Surfaces (R136 to R142) -/

def HostSide.surface (h : HostSide) (sh : Nat) : Option Surface := tget none h.display.surfaces sh
def HostSide.setSurface (h : HostSide) (sh : Nat) (v : Option Surface) : HostSide :=
  { h with display := { h.display with surfaces := tput none h.display.surfaces sh v } }

/-- No lease holds a surface, and no miscount keeps it leased (R149; 01_architecture.md R24). -/
def HostSide.unleased (h : HostSide) (sh : Nat) : Bool := h.leaseCount (.surface sh) == 0 && !h.stuck 2 sh

/-- The state of a handle (R136): 0 FREE, 1 IDLE, 2 LEASED, 3 RELEASING. -/
def HostSide.surfState (h : HostSide) (sh : Nat) : Nat :=
  match h.surface sh with
  | none => 0
  | some s => if s.pending then 3 else if h.unleased sh then 1 else 2

/-- Row pitch of a plain surface (R138). -/
def pitchOf (format width : Nat) : Nat := cdiv (width * (if format = 3 then 1 else 4)) 256 * 256

/-- Bytes that a surface occupies: a plain surface's rows, or its Muslin tiles (13_central_store.md R306). -/
def surfaceBytes (format coding width height : Nat) : Nat :=
  if coding = 0 then
    let luma := pitchOf format width * height
    if format = 3 then luma + luma / 2 else luma
  else cdiv width 24 * (height / 4) * groupBytes (muslinClass format) coding

def Surface.bytes (s : Surface) : Nat := surfaceBytes s.format s.coding s.width s.height

/-- A 64-bit offset of the BAR2 window for a page (R138, 19_register_map.md R429). -/
def HostSide.windowBase (h : HostSide) : Nat := h.cfg.cst.bar2Base

/-- CMP.SURF_STATUS, SURF_GEOM, SURF_ADDR and SURF_TAG reflect the surface of CMP.SURF_PROBE (R167). -/
def HostSide.showSurf (h : HostSide) : HostSide :=
  let sh := h.get Reg.CMP_SURF_PROBE_HANDLE
  let s := (h.surface sh).getD ⟨0, 0, 0, 0, 0, 0, 0, ⟨0, 0, false, false, false⟩, false, false, none, 0⟩
  let h := (((h.put Reg.CMP_SURF_STATUS_STATE (h.surfState sh)).putB Reg.CMP_SURF_STATUS_RETAIN (s.pending && s.retain)).putB
    Reg.CMP_SURF_STATUS_ANCIENT s.tag.ancient).put Reg.CMP_SURF_STATUS_FORMAT s.format
  let h := (((h.put Reg.CMP_SURF_STATUS_CODING s.coding).put Reg.CMP_SURF_STATUS_CLASS s.tag.cls).putB
    Reg.CMP_SURF_STATUS_FAULT s.tag.fault).putB Reg.CMP_SURF_STATUS_TAG_REFUSED
      (h.display.tagRefused.contains sh)
  let h := ((h.put Reg.CMP_SURF_STATUS_LEASES (min 0xFFFF s.leases)).put Reg.CMP_SURF_GEOM_WIDTH
    s.width).put Reg.CMP_SURF_GEOM_HEIGHT s.height
  (h.put Reg.CMP_SURF_ADDR_OFFSET (if (h.surface sh).isSome then s.page * 65536 - h.windowBase else 0)).put
    Reg.CMP_SURF_TAG_VT s.tag.vt.toNat

/-- Lease counts of the mimic surfaces (Table 07.8). -/
def HostSide.showMimicLeases (h : HostSide) : HostSide :=
  h.mimic.surfs.foldl (fun h p => h.put (Reg.MIM_SURF_STATUS_LEASES p.1) (min 0xFFFF (h.leaseCount (.mimic p.1)))) h

/-- CMP.REL_DONE shows the oldest completed release. -/
def HostSide.showRelDone (h : HostSide) : HostSide :=
  (h.put Reg.CMP_REL_DONE_HANDLE (h.display.relDone.headD 0)).putB Reg.CMP_REL_DONE_VALID (!h.display.relDone.isEmpty)

/-- Sets a doorbell bit of CMP.REL_DOORBELL, with its interrupt where the bit rises (R153). -/
def HostSide.ringRelease (h : HostSide) (bell : Nat) : HostSide :=
  let f := if bell < 32 then Reg.CMP_REL_DOORBELL_LO_BITS else Reg.CMP_REL_DOORBELL_HI_BITS
  if bit (h.get f) (bell % 32) then h
  else (h.setBitOf f (bell % 32)).interruptIf Reg.CMP_IRQ_CTRL_REL_IRQ_EN Reg.CMP_IRQ_CTRL_VECTOR

/-- A release completes (R153). -/
def HostSide.completeRelease (h : HostSide) (sh : Nat) (s : Surface) : HostSide :=
  let h := if s.retain then h.setSurface sh (some { s with pending := false, retain := false, bell := none })
    else (h.setSurface sh none).freePages (fun r => r.owner == .surface sh && !r.staged)
  let h := if h.display.relDone.length < 4096 then
      { h with display := { h.display with relDone := h.display.relDone ++ [sh] } }
    else h.put Reg.CMP_REL_DONE_LOST 1
  let h := match s.bell with
    | some b => h.ringRelease b
    | none => h
  h.showRelDone

/-- The Muslin-coded surface that the coding window shows (13_central_store.md R309). -/
def HostSide.windowSurface (h : HostSide) : Option Surface :=
  match h.surface (h.get Reg.CST_CWIN_CTRL_HANDLE) with
  | some s => if s.coding = 0 then none else some s
  | none => none

/-- CST.CWIN_STATUS. -/
def HostSide.showWindow (h : HostSide) : HostSide :=
  (h.put Reg.CST_CWIN_STATUS_OPEN h.store.openTiles.length).putB Reg.CST_CWIN_STATUS_BAD_HANDLE h.windowSurface.isNone

/-- The kept lease count of a surface follows what holds it; after a miscount it falls no more. -/
def HostSide.recount (h : HostSide) (sh : Nat) (s : Surface) : Surface :=
  let n := h.leaseCount (.surface sh)
  { s with leases := if h.stuck 2 sh then max n s.leases else n }

/-- After a change of leases: the kept counts follow, every RELEASING surface without a lease completes its release, and the
registers that reflect leases follow (R149, R151, R153). -/
def HostSide.settle (h : HostSide) : HostSide :=
  let h := h.display.surfaces.foldl (fun h p =>
    match p.2 with
    | some s =>
      let s := h.recount p.1 s
      if s.pending && h.unleased p.1 then h.completeRelease p.1 s
      else if h.surface p.1 = some s then h
      else h.setSurface p.1 (some s)
    | none => h) h
  h.showSurf.showMimicLeases.showWindow

/-- A request for release (R152). -/
def HostSide.requestRelease (h : HostSide) (sh : Nat) (retain : Bool) (bell : Nat) : HostSide :=
  let h := h.put Reg.CMP_SURF_CMD_RESULT_HANDLE sh
  match h.surface sh with
  | none => h.put Reg.CMP_SURF_CMD_RESULT_RESULT 2
  | some s =>
    if s.pending then h.put Reg.CMP_SURF_CMD_RESULT_RESULT 3
    else ((h.setSurface sh (some { s with pending := true, retain := retain, bell := some bell })).put
      Reg.CMP_SURF_CMD_RESULT_RESULT 1).settle

/-- A tag write of a handle is refused: TAG_REFUSED of the handle is set, whatever its state. -/
def HostSide.refuseTag (h : HostSide) (sh : Nat) : HostSide :=
  let kept := h.display.tagRefused.filter (fun (x : Nat) => x != sh)
  ({ h with display := { h.display with tagRefused := sh :: kept } }).showSurf

/-- A write of CMP.SURF_TAG: the surface's vintage while it is IDLE (R141). Log entry 69 (DEDUCED). -/
def HostSide.writeSurfTag (h : HostSide) (vt : VT) : HostSide :=
  let sh := h.get Reg.CMP_SURF_PROBE_HANDLE
  match h.surface sh with
  | some s =>
    if h.surfState sh = 1 then
      (h.setSurface sh (some { s with tag := ⟨vt, s.tag.cls, false, false, false⟩ })).showSurf
    else h.refuseTag sh
  | none => h.refuseTag sh

/-- An engine fetch from a surface was answered with an error (R142). -/
def HostSide.faultSurface (h : HostSide) (sh : Nat) : HostSide :=
  match h.surface sh with
  | some s => (h.setSurface sh (some { s with tag := { s.tag with fault := true } })).showSurf
  | none => h

/-! ## Write protection (R154, 07_mimic.md R183) -/

/-- Two ranges of bytes meet. -/
def rangesMeet (a n b m : Nat) : Bool := n != 0 && m != 0 && decide (a < b + m ∧ b < a + n)

/-- The LEASED or RELEASING surface that a range of CAs touches. -/
def HostSide.protectedSurface (h : HostSide) (ca len : Nat) : Option Nat :=
  (h.display.surfaces.find? (fun p => match p.2 with
    | some s => rangesMeet ca len (s.page * 65536) (cdiv s.bytes 65536 * 65536) && decide (2 ≤ h.surfState p.1)
    | none => false)).map (·.1)

/-- A range of CAs touches pages of a given kind. -/
def HostSide.touches (h : HostSide) (ca len : Nat) (p : PageOwner → Bool) : Bool :=
  h.store.pages.any (fun r => p r.owner && rangesMeet ca len (r.first * 65536) (r.count * 65536))

/-- The range meets the output ring of an enabled encode context (09_encode.md R219). -/
def HostSide.touchesRing (h : HostSide) (ca len : Nat) : Bool :=
  h.cfg.encode.any (fun e => e.enable == 1 && e.outPcie == 1 &&
    rangesMeet ca len (h.windowBase + e.ringOffset) e.ringBytes)

/-- Why a write from the PCIe endpoint (`hcc` false) or a host control-core cluster is refused beyond the MPU's regions:
a leased surface, a mimic surface or cell map, the host replica (07_mimic.md R183, 10_field_points_commands.md R236), an
encode ring for the clusters (09_encode.md R219). -/
inductive Guarded where
  | surface (sh : Nat)
  | mimic
  | replica
  | ring
  deriving DecidableEq, Repr

/-- What protects the bytes from a write of the endpoint or a control core, if anything. Log entries 80 (DESIGN CHOICE), 81 (DEDUCED). -/
def HostSide.guarded (h : HostSide) (hcc : Bool) (ca len : Nat) : Option Guarded :=
  match h.protectedSurface ca len with
  | some sh => some (.surface sh)
  | none =>
    if h.touches ca len (fun o => match o with | .mimicSurface _ => true | .cellMap _ => true | _ => false) then
      some .mimic
    else if h.touches ca len (· == .replica) then some .replica
    else if hcc && h.touchesRing ca len then some .ring
    else none

/-- Counts and records a refused write; the handle shown for an encode ring, which is no surface, is open (log
entry 1). Log entries 80 (DESIGN CHOICE), 81 (DEDUCED). -/
def HostSide.refuseProtected (h : HostSide) (hcc : Bool) (ca : Nat) (g : Guarded) : HostSide :=
  match g with
  | .surface sh =>
    let h := h.bump Reg.CMP_WP_COUNT_COUNT
    if h.flag Reg.CMP_WP_FAULT_VALID then h
    else
      let h := ((h.put Reg.CMP_WP_FAULT_HANDLE sh).putB Reg.CMP_WP_FAULT_SOURCE hcc).put Reg.CMP_WP_FAULT_VALID 1
      (h.putPair Reg.CMP_WP_ADDR_LO_ADDR Reg.CMP_WP_ADDR_HI_ADDR ca).interruptIf Reg.CMP_IRQ_CTRL_WP_IRQ_EN
        Reg.CMP_IRQ_CTRL_VECTOR
  | .mimic => (h.bump Reg.MIM_WP_COUNT_COUNT).log 4 5 0
  | .replica => (h.bump Reg.MIM_WP_COUNT_COUNT).log 4 5 0
  | .ring =>
    let h := h.bump Reg.CMP_WP_COUNT_COUNT
    if h.flag Reg.CMP_WP_FAULT_VALID then h
    else
      let (v, h) := h.free 4096
      let h := ((h.put Reg.CMP_WP_FAULT_HANDLE v).putB Reg.CMP_WP_FAULT_SOURCE hcc).put Reg.CMP_WP_FAULT_VALID 1
      (h.putPair Reg.CMP_WP_ADDR_LO_ADDR Reg.CMP_WP_ADDR_HI_ADDR ca).interruptIf Reg.CMP_IRQ_CTRL_WP_IRQ_EN
        Reg.CMP_IRQ_CTRL_VECTOR

end Sys2Proof.Machine
end

