-- ==== Sys2Proof/Machine/WindowOps.lean ====
section
/-! DEFINITION. The coding window (13_central_store.md R309 to R311): the plain view of a Muslin-coded surface, its open
tiles and their coding. -/

namespace Sys2Proof.Machine

/-- Plain-view bytes of a sample of a format's planes: 4 for the ARGB formats, else 1 or 2. -/
def viewUnit (format : Nat) : Nat := match format with | 3 => 1 | 4 => 2 | _ => 4

/-- Pitch of the plain view (R309). -/
def viewPitch (s : Surface) : Nat := cdiv (s.width * viewUnit s.format) 256 * 256

/-- Size of the plain view. -/
def viewSize (s : Surface) : Nat :=
  let luma := viewPitch s * s.height
  if s.format = 3 ∨ s.format = 4 then luma + luma / 2 else luma

/-- Plain-view bytes of a tile. -/
def tileViewBytes (format : Nat) : Nat := if format = 3 then 48 else if format = 4 then 96 else 128

/-- The tile and the index within its plain bytes of a view offset; none for the padding of a row. -/
def viewTile (s : Surface) (o : Nat) : Option (Nat × Nat × Nat) :=
  let u := viewUnit s.format
  let luma := viewPitch s * s.height
  let row (o lines base : Nat) : Option (Nat × Nat × Nat) :=
    let y := o / viewPitch s
    let b := o % viewPitch s
    if s.width * u ≤ b then none
    else some (b / (8 * u), y / lines, base + y % lines * (8 * u) + b % (8 * u))
  if viewSize s ≤ o then none
  else if o < luma then row o 4 0 else row (o - luma) 2 (32 * u)

/-- The plain bytes of a tile's components. -/
def tileToBytes (format : Nat) (t : List Nat) : List Byte :=
  let chroma (u : Nat) : List Byte :=
    (List.range 8).flatMap (fun i => leBytes (t.getD (32 + i) 0) u ++ leBytes (t.getD (40 + i) 0) u)
  match format with
  | 3 => (t.take 32).flatMap (leBytes · 1) ++ chroma 1
  | 4 => (t.take 32).flatMap (leBytes · 2) ++ chroma 2
  | 2 => (List.range 32).flatMap (fun i =>
      leBytes (t.getD (4 * i) 0 * 2 ^ 30 + t.getD (4 * i + 1) 0 * 2 ^ 20 + t.getD (4 * i + 2) 0 * 2 ^ 10 +
        t.getD (4 * i + 3) 0) 4)
  | _ => (List.range 32).flatMap (fun i =>
      [t.getD (4 * i + 3) 0, t.getD (4 * i + 2) 0, t.getD (4 * i + 1) 0, t.getD (4 * i) 0].map (BitVec.ofNat 8))

/-- The components of a tile's plain bytes. -/
def tileOfBytes (format : Nat) (b : List Byte) : List Nat :=
  let v (o u : Nat) : Nat := if u = 2 then fieldAt b o 2 % 1024 else fieldAt b o 1
  let planes (u : Nat) : List Nat :=
    (List.range 32).map (fun i => v (i * u) u) ++ (List.range 8).map (fun i => v (32 * u + 2 * i * u) u) ++
      (List.range 8).map (fun i => v (32 * u + (2 * i + 1) * u) u)
  match format with
  | 3 => planes 1
  | 4 => planes 2
  | 2 => (List.range 32).flatMap (fun i =>
      let w := fieldAt b (4 * i) 4
      [bits w 30 2, bits w 20 10, bits w 10 10, bits w 0 10])
  | _ => (List.range 32).flatMap (fun i =>
      let w := fieldAt b (4 * i) 4
      [bits w 24 8, bits w 16 8, bits w 8 8, bits w 0 8])

/-- CA and size of a tile's slot in a surface. -/
def Surface.slotCa (s : Surface) (tx ty : Nat) : Nat × Nat :=
  let (o, n) := tileSlot (muslinClass s.format) s.coding s.width tx ty
  (s.page * 65536 + o, n)

/-- The stored components of a tile. -/
def HostSide.storedTile (h : HostSide) (s : Surface) (tx ty : Nat) : List Nat :=
  let (ca, n) := s.slotCa tx ty
  h.decodeTile s.format s.coding ca n

/-- The plain bytes of an open tile: those written, merged with the stored ones (R310). -/
def HostSide.openBytes (h : HostSide) (s : Surface) (o : OpenTile) : List Byte :=
  (tileToBytes s.format (h.storedTile s o.tx o.ty)).zipIdx.map (fun (b, i) => (tget none o.written i).getD b)

/-- Codes an open tile and writes its slot. -/
def HostSide.closeTile (h : HostSide) (o : OpenTile) : HostSide :=
  match h.windowSurface with
  | some s =>
    let (ca, n) := s.slotCa o.tx o.ty
    h.codeTile s.format s.coding ca n (tileOfBytes s.format (h.openBytes s o))
  | none => h

/-- Closes every open tile (R310, R311). Log entry 82 (DEDUCED). -/
def HostSide.closeAll (h : HostSide) : HostSide :=
  let h := h.store.openTiles.foldl (fun h o => h.closeTile o) h
  ({ h with store := { h.store with openTiles := [] } }).showWindow

/-- A byte written through the window. -/
def HostSide.windowByte (h : HostSide) (s : Surface) (o : Nat) (b : Byte) : HostSide :=
  match viewTile s o with
  | none => h
  | some (tx, ty, i) =>
    let h := match h.store.openTiles.find? (fun x => x.tx == tx && x.ty == ty), h.store.openTiles with
      | none, old :: rest =>
        if 64 ≤ h.store.openTiles.length then
          let h := h.closeTile old
          { h with store := { h.store with openTiles := rest ++ [OpenTile.mk tx ty []] } }
        else { h with store := { h.store with openTiles := h.store.openTiles ++ [OpenTile.mk tx ty []] } }
      | none, [] => { h with store := { h.store with openTiles := [OpenTile.mk tx ty []] } }
      | some _, _ => h
    let h := { h with store := { h.store with openTiles := h.store.openTiles.map (fun (x : OpenTile) =>
      if x.tx == tx && x.ty == ty then { x with written := tput none x.written i (some b) } else x) } }
    match h.store.openTiles.find? (fun x => x.tx == tx && x.ty == ty) with
    | some x =>
      if x.written.length = tileViewBytes s.format then
        let h := h.closeTile x
        { h with store := { h.store with openTiles := h.store.openTiles.filter (fun y => y != x) } }
      else h
    | none => h

/-- A write through the window at offset `o` of the view (R309, R310). -/
def HostSide.windowWrite (h : HostSide) (hcc : Bool) (o : Nat) (bs : List Byte) : HostSide :=
  match h.windowSurface with
  | none => h
  | some s =>
    let sh := h.get Reg.CST_CWIN_CTRL_HANDLE
    if 2 ≤ h.surfState sh then
      (h.refuseProtected hcc (s.page * 65536) (.surface sh)).answer (if hcc then .busError else .discarded)
    else (bs.zipIdx.foldl (fun h (b, i) => h.windowByte s (o + i) b) h).showWindow

/-- A byte read through the window. -/
def HostSide.windowRead1 (h : HostSide) (s : Surface) (o : Nat) : Byte :=
  match viewTile s o with
  | none => 0
  | some (tx, ty, i) =>
    match h.store.openTiles.find? (fun x => x.tx == tx && x.ty == ty) with
    | some x => (h.openBytes s x).getD i 0
    | none => (tileToBytes s.format (h.storedTile s tx ty)).getD i 0

/-- A byte of the view lies in a tile whose slot holds a poisoned block (R294). -/
def HostSide.windowPoisoned (h : HostSide) (s : Surface) (o : Nat) : Bool :=
  match viewTile s o with
  | none => false
  | some (tx, ty, _) => h.store.anyPoison (s.slotCa tx ty).1 (s.slotCa tx ty).2

/-- A read through the window: none of it is answered where a tile that it touches has a poisoned slot (R294, R310). -/
def HostSide.windowRead (h : HostSide) (o n : Nat) : Option (List Byte) :=
  match h.windowSurface with
  | none => some (List.replicate n 0)
  | some s =>
    if (List.range n).any (fun i => h.windowPoisoned s (o + i)) then none
    else some ((List.range n).map (fun i => h.windowRead1 s (o + i)))

/-- HANDLE of a word written to CST.CWIN_CTRL. -/
def HostSide.windowHandle (_ : HostSide) (v : Nat) : Nat := v / 2 ^ Reg.CST_CWIN_CTRL_HANDLE.lo % 2 ^ Reg.CST_CWIN_CTRL_HANDLE.w

/-- A write of CST.CWIN_CTRL: FLUSH or a new HANDLE closes the open tiles first. Log entry 82 (DEDUCED). -/
def HostSide.windowSelect (h : HostSide) (handle : Nat) (flush : Bool) : HostSide :=
  let h := if flush || handle != h.get Reg.CST_CWIN_CTRL_HANDLE then h.closeAll else h
  (h.put Reg.CST_CWIN_CTRL_HANDLE handle).showWindow

end Sys2Proof.Machine
end

