-- ==== Sys2Proof/Machine/TartanOps.lean ====
section
/-! DEFINITION. Operations of the Tartan matrix, the lock registers and the MPU (14_tartan_protection.md). -/

namespace Sys2Proof.Machine

/-- Bytes of an operation. -/
def DramOp.length : DramOp → Nat
  | .read n => n
  | .write bs => bs.length

def DramOp.isWrite : DramOp → Bool
  | .read _ => false
  | .write _ => true

/-! ## The address map and the MPU -/

/-- The target port of a TA (Table 14.2), or none. -/
def HostSide.targetOf (h : HostSide) (ta : Nat) : Option Nat :=
  let remap := h.flag Reg.TRT_CTRL_REMAP
  let rom (o : Nat) : Option Nat := if o < 0x40000 then some 13 else none
  if ta < 0x400000 then (if remap then some 12 else rom ta)
  else if ta < 0x800000 then (if remap then rom (ta - 0x400000) else some 12)
  else if 0x10000000 ≤ ta ∧ ta < 0x14000000 then some 14
  else if 0x20000000 ≤ ta ∧ ta < 0x40000000 then some 15
  else if 0x40000000 ≤ ta ∧ ta < 0x60000000 then some 16
  else if 0x1000000000 ≤ ta ∧ ta < 0x2000000000 then some (h.caChannel (ta - 0x1000000000))
  else none

/-- The default map for privileged requests (Table 14.3). -/
def HostSide.defaultAllows (h : HostSide) (secure write : Bool) (ta : Nat) : Bool :=
  match h.targetOf ta with
  | none => false
  | some 13 => !write
  | some 14 => true
  | some 16 => false
  | some _ => secure

/-- The governing region of a 64-byte line of TA for a port: the enabled region of lowest number (R328). -/
def HostSide.governing (h : HostSide) (port line : Nat) : Option Nat :=
  (List.range 32).find? (fun r => bit (h.get (Reg.mpuWord port r 2)) 0 &&
    decide (h.get (Reg.mpuWord port r 0) ≤ line ∧ line < h.get (Reg.mpuWord port r 1)))

/-- A line of an access is allowed (R328). Regions and targets begin and end on 64-byte lines. -/
def HostSide.lineAllowed (h : HostSide) (port : Nat) (priv secure write : Bool) (line : Nat) : Bool :=
  match h.governing port line with
  | some r =>
    let w := h.get (Reg.mpuWord port r 2)
    let dir := if priv then (if write then bit w 4 else bit w 3) else (if write then bit w 2 else bit w 1)
    dir && (!bit w 5 || secure)
  | none => priv && h.defaultAllows secure write (line * 64)

/-- The 64-byte lines of an access. -/
def linesOf (ta len : Nat) : List Nat :=
  if len = 0 then [] else (List.range ((ta + len - 1) / 64 - ta / 64 + 1)).map (· + ta / 64)

/-- The MPU allows an access whole (R328). Log entry 38 (DEDUCED). -/
def HostSide.mpuAllows (h : HostSide) (port : Nat) (priv secure write : Bool) (ta len : Nat) : Bool :=
  (linesOf ta len).all (h.lineAllowed port priv secure write)

/-- Counts and records an MPU fault (R329). -/
def HostSide.mpuFault (h : HostSide) (port : Nat) (priv secure write : Bool) (ta len : Nat) : HostSide :=
  let h := h.bump Reg.MPU_FAULT_COUNT_COUNT
  if h.flag Reg.MPU_FAULT_VALID then h
  else
    let bad := ((linesOf ta len).find? (fun l => !h.lineAllowed port priv secure write l)).getD 0
    let g := h.governing port bad
    let h := ((((h.put Reg.MPU_FAULT_PORT port).putB Reg.MPU_FAULT_WRITE write).putB Reg.MPU_FAULT_PRIV priv).putB
      Reg.MPU_FAULT_SECURE secure).putB Reg.MPU_FAULT_STRADDLE (bad != ta / 64)
    let h := ((h.put Reg.MPU_FAULT_REGION (g.getD 0)).putB Reg.MPU_FAULT_NO_MATCH g.isNone)
    let h := (h.put Reg.MPU_FAULT_ADDR_LO_TA ta).put Reg.MPU_FAULT_ADDR_HI_TA (ta / 2 ^ 32)
    (h.put Reg.MPU_FAULT_VALID 1).interruptIf Reg.MPU_IRQ_CTRL_FAULT_IRQ_EN Reg.MPU_IRQ_CTRL_VECTOR

/-- How a refused access answers its requester (R329). -/
def HostSide.refuseAccess (h : HostSide) (port : Nat) (write : Bool) : HostSide :=
  if port = 35 ∨ port = 36 then h.answer .busError
  else if port = 34 then h.answer (if write then .discarded else .completerAbort)
  else h.answer .errorResponse

/-- A read through the coding window answers its requester (13_central_store.md R294, R310). -/
def HostSide.answerWindow (h : HostSide) (port o n : Nat) : HostSide :=
  match h.windowRead o n with
  | some bs => h.answer (.bytes bs)
  | none => h.refuseAccess port false

/-! ## Arbitration -/

/-- A point's state. -/
def Tartan.point (t : Tartan) (p : ArbPoint) : PointState :=
  ((t.points.find? (fun x => x.1 == p)).map (·.2)).getD PointState.idle

/-- Sets a point's state; an idle point is not listed. -/
def Tartan.setPoint (t : Tartan) (p : ArbPoint) (s : PointState) : Tartan :=
  { t with points := (if s = PointState.idle then [] else [(p, s)]) ++ t.points.filter (fun x => x.1 != p) }

/-- Sets a point, with TRT.URGENT.RR_PTR and PARKED of a target port. -/
def HostSide.setPoint (h : HostSide) (p : ArbPoint) (s : PointState) : HostSide :=
  let h := { h with tartan := h.tartan.setPoint p s }
  match p with
  | .link _ => h
  | .target t => (h.put (Reg.TRT_URGENT_RR_PTR t.val) s.rrPtr).put (Reg.TRT_URGENT_PARKED t.val) s.parked

/-- The priority of a port at a target (R319). -/
def HostSide.prio (h : HostSide) (t m : Nat) : Nat :=
  let f : Fld := ⟨0x10400 + t * 0x20 + (m / 8) * 4, 3 * (m % 8), 3, 0, .ro⟩
  h.get f

/-- A request is urgent at its target port (R319). -/
def HostSide.urgent (h : HostSide) (w : Waiting) : Bool :=
  decide (h.get (Reg.TRT_URGENT_THRESHOLD w.target) ≤ w.qos)

/-- A request's key: urgent requests by QoS above all others, the others by priority (R319). -/
def HostSide.keyOf (h : HostSide) (w : Waiting) : Nat :=
  if h.urgent w then 16 + w.qos else h.prio w.target w.req.port.val

/-- The first request of each port in a queue. -/
def firstOfPorts : List Waiting → List Waiting
  | [] => []
  | w :: ws => w :: (firstOfPorts ws).filter (fun v => v.req.port != w.req.port)

/-- The requests presented at a point: of each port the one that reached the point first (R319). -/
def PointState.presented (s : PointState) : List Waiting := firstOfPorts s.queue

/-- A request is held by the order of its transaction ID: an earlier request of its port with its ID to another
target has not returned its last response beat (R322). -/
def HostSide.idHeld (h : HostSide) (w : Waiting) : Bool :=
  let clash (v : TReq) (t serial : Nat) : Bool :=
    v.port == w.req.port && v.id == w.req.id && t != w.target && decide (serial < w.serial)
  h.tartan.inFlight.any (fun f => clash f.req f.target f.serial) ||
    h.tartan.points.any (fun p => p.2.queue.any (fun v => clash v.req v.target v.serial))

/-- A request is eligible: its ID does not hold it, an urgent round does not bar it, and at its target port its master has a free
credit and a DRAM channel controller a free transaction slot (R318, R319, R322; 01_architecture.md R18). -/
def HostSide.eligible (h : HostSide) (p : ArbPoint) (s : PointState) (w : Waiting) : Bool :=
  let barred := h.urgent w &&
    s.waitingOn.any (fun x => x.1 == w.req.port.val && s.queue.any (fun v => v.serial == x.2))
  let slot := match p with
    | .link _ => true
    | .target t => decide (0 < h.get (Reg.TRT_MASTER_FREE w.req.port.val)) &&
      (decide (12 ≤ t.val) || decide (0 < h.get (Reg.CST_CH_SLOTS_FREE t.val)))
  !h.idHeld w && !barred && slot

/-- Distance of a port from the round-robin pointer, ascending with wrap from MP46 to MP0. -/
def rrDistance (ptr m : Nat) : Nat := (m + 47 - ptr) % 47

/-- `a` ranks before `b` (R319). -/
def HostSide.ranks (h : HostSide) (ptr : Nat) (a b : Waiting) : Bool :=
  decide (h.keyOf b < h.keyOf a) ||
    (h.keyOf a == h.keyOf b && decide (rrDistance ptr a.req.port.val < rrDistance ptr b.req.port.val))

/-- The first of a list by rank. -/
def HostSide.bestOf (h : HostSide) (ptr : Nat) : List Waiting → Option Waiting
  | [] => none
  | w :: ws =>
    match h.bestOf ptr ws with
    | none => some w
    | some b => if h.ranks ptr w b then some w else some b

/-- A grant into a link breaks the buffer rule: a request that enters or turns needs two free places, one that goes
straight needs one, of four (R323). -/
def PointState.linkFull (s : PointState) (w : Waiting) : Bool :=
  match w.left with
  | [] => false
  | hop :: _ => decide (4 < s.buffer + (if hop.straight then 1 else 2))

/-- The winner of an arbitration, and how many grants were held back for the buffer rule. -/
def HostSide.arbitrate (h : HostSide) (s : PointState) : Nat → List Waiting → Option Waiting × Nat
  | 0, _ => (none, 0)
  | n + 1, ws =>
    match h.bestOf s.rrPtr ws with
    | none => (none, 0)
    | some w =>
      if s.linkFull w then
        let (r, k) := h.arbitrate s n (ws.filter (fun v => v.serial != w.serial))
        (r, k + 1)
      else (some w, 0)

/-- The cycle of 0.625 ns in which a point arbitrates within this tick of four, where it does: not while a burst holds its data
path (R320). Log entry 222 (DEDUCED). -/
def HostSide.arbCycle (h : HostSide) (s : PointState) : Option Nat :=
  let c := max s.nextArb (4 * h.tb.raw.toNat)
  if c < 4 * h.tb.raw.toNat + 4 then some c else none

/-- Beats of a request's burst (R317). -/
def TReq.beats (r : TReq) : Nat := cdiv r.op.length 64

/-- The holding cycle of a burst granted in cycle `c`: its beats begin in the next cycle, or in its arrival cycle where an idle
point is parked on its master and no other request is present (R320). Log entry 222 (DEDUCED). -/
def HostSide.holdingCycle (h : HostSide) (s : PointState) (w : Waiting) (c : Nat) : Nat :=
  let parked := s.parked == w.req.port.val && decide (s.queue.length ≤ 1) && w.since == h.tb.raw &&
    decide (s.nextArb ≤ 4 * h.tb.raw.toNat)
  c + w.req.beats + (if parked then 0 else 1)

/-- A point after a grant: the pointer moves to the port after the granted one, the point parks on it, other urgent requests
present wait on it, and its path is held through the holding cycle (R319, R320). -/
def HostSide.afterGrant (h : HostSide) (s : PointState) (c : Nat) (w : Waiting) : PointState :=
  let others := (s.presented.filter (fun v => v.serial != w.serial && h.urgent v)).map (fun v => (w.req.port.val, v.serial))
  { s with
    queue := s.queue.filter (fun v => v.serial != w.serial)
    rrPtr := (w.req.port.val + 1) % 47
    parked := w.req.port.val
    nextArb := h.holdingCycle s w c
    waitingOn := (s.waitingOn.filter (fun x => x.2 != w.serial)) ++ (if h.urgent w then others else []) }

/-- A request joins a point. Log entry 35 (DEDUCED). -/
def HostSide.joinPoint (h : HostSide) (p : ArbPoint) (w : Waiting) : HostSide :=
  let s := h.tartan.point p
  h.setPoint p { s with queue := s.queue ++ [{ w with since := h.tb.raw }] }

/-- The point that a route begins with. Log entry 35 (DEDUCED). -/
def pointOf (route : List Hop) (target : Nat) : ArbPoint :=
  match route with
  | [] => .target (Fin.ofNat 17 target)
  | hop :: _ => .link hop.link

/-- A credit passes to in flight (R318). -/
def HostSide.takeCredit (h : HostSide) (m : Nat) : HostSide :=
  (h.put (Reg.TRT_MASTER_FREE m) (h.get (Reg.TRT_MASTER_FREE m) - 1)).put (Reg.TRT_MASTER_IN_FLIGHT m)
    (h.get (Reg.TRT_MASTER_IN_FLIGHT m) + 1)

/-- A credit returns (R318); after a miscount it stays consumed (01_architecture.md R24). -/
def HostSide.returnCredit (h : HostSide) (m : Nat) : HostSide :=
  if h.stuck 0 m then h
  else (h.put (Reg.TRT_MASTER_FREE m) (h.get (Reg.TRT_MASTER_FREE m) + 1)).put (Reg.TRT_MASTER_IN_FLIGHT m)
    (h.get (Reg.TRT_MASTER_IN_FLIGHT m) - 1)

/-- One place of a link's input buffer falls free. -/
def HostSide.leaveLink (h : HostSide) (n : Nat) : HostSide :=
  let s := h.tartan.point (.link n)
  h.setPoint (.link n) { s with buffer := s.buffer - 1 }

/-- The link whose buffer a waiting request occupies: the hop before what is left of its route. -/
def Waiting.inLink (w : Waiting) : Option Nat :=
  let k := w.req.route.length - w.left.length
  if k = 0 then none else (w.req.route[k - 1]?).map (·.link)

/-- The offset of a TA in the low or the high window. -/
def windowOffset (ta : Nat) : Nat := ta % 0x400000

/-- The next `n` free bytes. -/
def HostSide.freeBytes (h : HostSide) : Nat → List Byte × HostSide
  | 0 => ([], h)
  | n + 1 =>
    let (v, h) := h.free 256
    let (t, h) := h.freeBytes n
    (BitVec.ofNat 8 v :: t, h)

/-- Stores bytes in control-core SRAM. -/
def Tartan.store (t : Tartan) (o : Nat) : List Byte → Tartan
  | [] => t
  | b :: bs => ({ t with sram := tput 0 t.sram o b }).store (o + 1) bs

/-- A request granted at a target that is no DRAM channel: control-core SRAM and the boot ROM answer at once; what
flash reads is open (log entry 1); the coding window acts under 13_central_store.md R309; the register space has
commands of its own (log entry 34). Log entry 34 (DEDUCED). -/
def HostSide.atTarget (h : HostSide) (port t ta : Nat) (op : DramOp) : HostSide :=
  match t, op with
  | 16, .read n => h.answerWindow port (ta - 0x40000000) n
  | 16, .write bs => (h.answer .none).windowWrite (port == 35 || port == 36) (ta - 0x40000000) bs
  | 12, .read n => h.answer (.bytes ((List.range n).map (fun i => tget 0 h.tartan.sram (windowOffset ta + i))))
  | 12, .write bs => { h with tartan := h.tartan.store (windowOffset ta) bs }
  | 13, .read n => h.answer (.bytes ((List.range n).map (fun i => BitVec.ofNat 8 (Config.bootRom (windowOffset ta + i)))))
  | 15, .read n => let (bs, h) := h.freeBytes n; h.answer (.bytes bs)
  | _, _ => h

/-- The target at which a request granted at target port `t` completes: the windows of the address-zero remap follow the
mapping in force at its grant (R324). -/
def HostSide.grantTarget (h : HostSide) (t : Nat) (w : Waiting) : Nat :=
  if t = 12 ∨ t = 13 then (h.targetOf w.req.ta.toNat).getD t else t

/-- One arbitration at a point, in a cycle in which no burst holds its path (R318 to R324). -/
def HostSide.grant (h : HostSide) (p : ArbPoint) : HostSide :=
  let s := h.tartan.point p
  let cands := s.presented.filter (h.eligible p s)
  let (win, back) := h.arbitrate s cands.length cands
  match h.arbCycle s, win with
  | none, _ => h
  | some _, none => if back = 0 then h else h.bump Reg.TRT_HOLDBACK_COUNT back
  | some c, some w =>
    let h := if back = 0 then h else h.bump Reg.TRT_HOLDBACK_COUNT back
    let h := h.setPoint p (h.afterGrant s c w)
    let h := match w.inLink with
      | none => h
      | some n => h.leaveLink n
    match p with
    | .link n =>
      let st := h.tartan.point (.link n)
      let h := h.setPoint (.link n) { st with buffer := st.buffer + 1 }
      h.joinPoint (pointOf (w.left.drop 1) w.target) { w with left := w.left.drop 1 }
    | .target t =>
      let h := h.takeCredit w.req.port.val
      let at_ := h.grantTarget t.val w
      let h := { h with tartan := { h.tartan with inFlight := h.tartan.inFlight ++ [InFlight.mk w.serial w.req w.target] } }
      if t.val < 12 then
        h.enqueueDram t.val (DramReq.mk w.req.port.val (w.req.ta.toNat - 0x1000000000) w.req.op w.serial)
      else h.atTarget w.req.port.val at_ w.req.ta.toNat w.req.op

/-- A request that passed every judgement waits at the first point of its route. -/
def HostSide.present (h : HostSide) (r : TReq) (target : Nat) : HostSide :=
  let w : Waiting := ⟨h.tartan.serial + 1, r, r.route, target, h.get (Reg.TRT_MASTER_QOS r.port.val), h.tb.raw⟩
  let h := { h with tartan := { h.tartan with serial := h.tartan.serial + 1 } }
  h.joinPoint (pointOf r.route target) w

/-- Serials of every access checked and not retired. -/
def Tartan.live (t : Tartan) : List Nat :=
  t.inFlight.map (·.serial) ++ (t.points.flatMap (fun p => p.2.queue.map (·.serial)))

/-- An earlier request of the same port and transaction ID to the same target awaits its last response beat: requests of one ID
complete in issue order (R322). -/
def Tartan.earlierOpen (t : Tartan) (f : InFlight) : Bool :=
  t.inFlight.any (fun g => g.req.port == f.req.port && g.req.id == f.req.id && g.target == f.target &&
    decide (g.serial < f.serial))

/-- The last response beat of a request is accepted (R318, R321, R322); a waiting read of MPU.SYNC answers once every access
checked before the SYNC write has returned (R332). Log entry 36 (DESIGN CHOICE). -/
def HostSide.respond (h : HostSide) (m serial : Nat) : HostSide :=
  let queued := (List.range 12).any (fun c => (h.dramQueue c).any (fun r => r.serial == serial))
  if h.tartan.inFlight.any (fun f => f.serial == serial && f.req.port.val == m && !h.tartan.earlierOpen f) && !queued then
    let h := h.returnCredit m
    let t := h.tartan
    let wait := t.syncWait.filter (· != serial)
    let h := { h with tartan := { t with
      inFlight := t.inFlight.filter (fun f => f.serial != serial), syncWait := wait,
      syncRead := t.syncRead && !wait.isEmpty } }
    if t.syncRead && wait.isEmpty then h.answer (.data (h.get Reg.MPU_SYNC_TOKEN)) else h
  else h

/-! ## Locks (R325 to R327) -/

/-- A requester's lock identity: port, core and security (R325). Log entry 195 (DEDUCED). -/
def Requester.lockId (who : Requester) (core : Nat) : Nat :=
  match who.src with
  | .pcie => 34
  | .hcc k => 35 + k.val + 2 ^ 6 * core + 2 ^ 9 * b2n who.secure

/-- A read of a lock (R325): a free lock answers 0 and is acquired; a held lock answers BUSY and its owner. -/
def HostSide.lockRead (h : HostSide) (n id : Nat) : HostSide :=
  if h.flag (Reg.TRT_LK_BUSY n) then h.answer (.data (2 ^ 31 + h.get (Reg.TRT_LK_OWNER n)))
  else ((h.put (Reg.TRT_LK_OWNER n) id).put (Reg.TRT_LK_BUSY n) 1).answer (.data 0)

/-- Frees a lock. -/
def HostSide.lockFree (h : HostSide) (n : Nat) : HostSide := (h.put (Reg.TRT_LK_OWNER n) 0).put (Reg.TRT_LK_BUSY n) 0

/-- A write of a lock (R326). Log entry 195 (DEDUCED). -/
def HostSide.lockWrite (h : HostSide) (n id v : Nat) : HostSide :=
  if v = 0 ∧ h.flag (Reg.TRT_LK_BUSY n) ∧ h.get (Reg.TRT_LK_OWNER n) = id then h.lockFree n
  else h.bump Reg.TRT_LOCK_VIOL_COUNT

/-! ## The region table (R331, R333) -/

/-- A write of a word of a region entry by a secure privileged context: words 0 and 1 are held, word 2 applies all. -/
def HostSide.regionWrite (h : HostSide) (port region word v : Nat) : HostSide :=
  let e := 32 * port + region
  if word < 2 then
    { h with tartan := { h.tartan with heldWords := tput 0 h.tartan.heldWords (e * 2 + word) (v + 1) } }
  else if word = 2 then
    let word_ (k : Nat) : Nat :=
      match tget 0 h.tartan.heldWords (e * 2 + k) with
      | 0 => h.get (Reg.mpuWord port region k)
      | x + 1 => x
    let h := ((h.put (Reg.mpuWord port region 0) (word_ 0)).put (Reg.mpuWord port region 1) (word_ 1)).put
      (Reg.mpuWord port region 2) (v % 64)
    { h with tartan := { h.tartan with
        heldWords := tput 0 (tput 0 h.tartan.heldWords (e * 2) 0) (e * 2 + 1) 0 } }
  else h

/-- The whole region table becomes an image's MPU section (R333). -/
def HostSide.loadRegions (h : HostSide) (rs : List RegionEntry) : HostSide :=
  (rs.zipIdx).foldl (fun h (r, e) =>
    let p := e / 32
    let k := e % 32
    ((h.put (Reg.mpuWord p k 0) r.start).put (Reg.mpuWord p k 1) r.stop).put (Reg.mpuWord p k 2)
      (r.en + 2 * r.ur + 4 * r.uw + 8 * r.pr + 16 * r.pw + 32 * r.sec)) h

end Sys2Proof.Machine
end

