-- ==== Sys2Proof/Machine/AccessOps.lean ====
section
/-! DEFINITION. How a request is judged before the matrix carries it (14_tartan_protection.md R314 to R317, R328 to R330)
and how a BAR2 request is served (19_register_map.md R429). -/

namespace Sys2Proof.Machine

/-- The longest burst of a master port in beats (Table 14.1). -/
def burstLimit (port : Nat) : Nat :=
  if port = 33 ∨ port = 34 then 4 else if port = 35 ∨ port = 36 ∨ port = 46 then 1 else 16

/-- The privilege and security that a port shows (Table 14.1); a control-core cluster shows its context's. -/
def portIdentity (port : Nat) (priv secure : Bool) : Bool :=
  if port = 35 ∨ port = 36 then true else priv == (port != 34) && !secure

/-- The request is one that a master issues (R317): part of one beat, or a naturally aligned burst within the port's
length and within one interleave grain. -/
def HostSide.burstOk (h : HostSide) (r : TReq) : Bool :=
  let n := r.op.length
  let ta := r.ta.toNat
  let short := decide (0 < n ∧ n < 64 ∧ ta % 64 + n ≤ 64)
  let whole := decide (0 < n ∧ n % 64 = 0 ∧ n / 64 ≤ burstLimit r.port.val ∧ ta % n = 0 ∧
    ta / 2 ^ h.grainLog2 = (ta + n - 1) / 2 ^ h.grainLog2)
  (short || whole) && portIdentity r.port.val r.priv r.secure

/-- Range of CAs that an access touches at the DRAM targets: its start, where it lies there. -/
def caOfTa (ta : Nat) : Option Nat := if 0x1000000000 ≤ ta ∧ ta < 0x2000000000 then some (ta - 0x1000000000) else none

/-- The write protection of R330 that refuses a write from the PCIe endpoint or a control-core cluster. -/
def HostSide.protection (h : HostSide) (port ta : Nat) (op : DramOp) : Option (Guarded × Nat) :=
  if op.isWrite && (port == 34 || port == 35 || port == 36) then
    (caOfTa ta).bind (fun ca => (h.guarded (port != 34) ca op.length).map (fun g => (g, ca)))
  else none

/-- A request is judged by the MPU, by the protections and by the address map, and waits at the matrix (R315, R317,
R328 to R330). A master without a free credit presents none (R318). -/
def HostSide.presentRequest (h : HostSide) (r : TReq) : HostSide :=
  let port := r.port.val
  let ta := r.ta.toNat
  let write := r.op.isWrite
  if !h.burstOk r || h.get (Reg.TRT_MASTER_FREE port) == 0 then h
  else if !h.mpuAllows port r.priv r.secure write ta r.op.length then
    (h.mpuFault port r.priv r.secure write ta r.op.length).refuseAccess port write
  else match h.protection port ta r.op with
  | some (g, ca) => (h.refuseProtected (port != 34) ca g).refuseAccess port write
  | none =>
    match h.targetOf ta with
    | none => (((h.bump Reg.TRT_DECODE_ERR_COUNT).put Reg.TRT_DECODE_ERR_PORT port).refuseAccess port write)
    | some t => h.present r t

/-- The TA of a BAR2 offset (R316). Log entry 37 (DEDUCED). -/
def HostSide.bar2Ta (h : HostSide) (off : Nat) : Nat :=
  if off < 0xE0000000 then 0x1000000000 + h.windowBase + off else 0x40000000 + (off - 0xE0000000)

/-- A BAR2 request at the central store (13_central_store.md R292, R294). Log entry 37 (DEDUCED). -/
def HostSide.bar2Store (h : HostSide) (ca : Nat) (op : DramOp) : HostSide :=
  if caEnd < ca + op.length then
    (h.bump Reg.CST_DECODE_ERR_COUNT).refuseAccess 34 op.isWrite
  else match op with
  | .read n => h.answer (if h.store.anyPoison ca n then .completerAbort else .bytes (h.store.bytes ca n))
  | .write bs =>
    let (h, ok) := h.caWrite 34 ca bs
    h.answer (if ok then .none else .discarded)

/-- A BAR2 request (R429): judged whole by the MPU as MP34, by the write protections and by the address map, and served
at once. Log entries 37 (DEDUCED), 80 (DESIGN CHOICE), 215 (DEDUCED). -/
def HostSide.bar2 (h : HostSide) (off : Nat) (op : DramOp) : HostSide :=
  let ta := h.bar2Ta off
  let write := op.isWrite
  if !h.mpuAllows 34 false false write ta op.length then
    (h.mpuFault 34 false false write ta op.length).refuseAccess 34 write
  else match h.protection 34 ta op with
  | some (g, ca) => (h.refuseProtected false ca g).refuseAccess 34 write
  | none =>
    match caOfTa ta with
    | some ca => h.bar2Store ca op
    | none =>
      match op with
      | .read n => h.answerWindow 34 (ta - 0x40000000) n
      | .write bs => (h.answer .none).windowWrite false (ta - 0x40000000) bs

/-- The service of a channel's oldest request reads stored bytes, so that an error in them is found (R293). -/
def HostSide.servesStored (h : HostSide) (c : Nat) : Bool :=
  match h.dramQueue c with
  | [] => false
  | r :: _ =>
    h.canServe c && decide (r.ca < caEnd) && (match r.op with
      | .read _ => true
      | .write bs => !(r.ca % 64 == 0 && bs.length % 64 == 0))

/-- The head of a channel's queue is served (13_central_store.md R292 to R294, R297). -/
def HostSide.dramServe (h : HostSide) (c : Nat) (ecc : EccFact) (bank : Nat) (row : Option Nat) : HostSide :=
  match h.dramQueue c with
  | [] => h
  | r :: rest =>
    if !h.canServe c then h
    else
      let h := match row with
        | some n => h.activateRow c bank n
        | none => h
      (h.setDramQueue c rest).serve c r ecc

end Sys2Proof.Machine
end

