-- ==== Sys2Proof/Machine/Crc.lean ====
section
/-! DEFINITION. The two cyclic redundancy checks of the manual: CRC-32C (02_freshness.md R42) and CRC-32 of ISO-HDLC
(03_structure_image.md R57), both reflected, initial value and final XOR all ones. -/

namespace Sys2Proof.Machine

/-- One bit of a reflected CRC. -/
def crcBit (poly c : BitVec 32) : BitVec 32 := if c.getLsbD 0 then (c >>> 1) ^^^ poly else c >>> 1

/-- One byte of a reflected CRC. -/
def crcByte (poly c : BitVec 32) (b : Byte) : BitVec 32 :=
  let f := crcBit poly
  f (f (f (f (f (f (f (f (c ^^^ b.zeroExtend 32))))))))

/-- A CRC over bytes, continued from a remainder. -/
def crcRun (poly c : BitVec 32) (bs : List Byte) : BitVec 32 := bs.foldl (crcByte poly) c

/-- CRC-32C (R42). -/
def crc32c (bs : List Byte) : BitVec 32 := crcRun 0x82F63B78 0xFFFFFFFF bs ^^^ 0xFFFFFFFF

/-- CRC-32 (R57). -/
def crc32 (bs : List Byte) : BitVec 32 := crcRun 0xEDB88320 0xFFFFFFFF bs ^^^ 0xFFFFFFFF

end Sys2Proof.Machine
end

