-- ==== Sys2Proof/Machine/State.lean ====
section
/-! DEFINITION. The state of the module: the queue of waiting commands, the host side, the field side and what
belongs to the module as a physical part (01_architecture.md Table 01.1). -/

namespace Sys2Proof.Machine

/-- What belongs to no side, or outlives the sides' resets. -/
structure ModuleState where
  hostPhys  : SidePhys
  fieldPhys : SidePhys
  /-- PCIE_PERST_N is asserted. -/
  perst     : Bool
  /-- Lock of the isolation channels 0 and 1 (R14). -/
  lock0     : Bool
  lock1     : Bool
  /-- The channel retired for good (R289). -/
  retired   : Option Nat
  /-- Levels last seen at the host's straps (R415): slot and role. -/
  slotPin   : Nat
  rolePin   : Bool
  /-- Level last seen at TWIN_ROLE. -/
  fieldRolePin : Bool
  deriving DecidableEq, Repr

/-- The module. -/
structure State where
  pending : List Instr
  host    : HostSide
  field   : FieldSide
  phys    : ModuleState
  deriving DecidableEq, Repr

/-- Why the machine stops. No command stops it: a side whose supply leaves its range fails, one of the ends that R413
gives its undefined behaviour, and a failed side does nothing. Log entry 114 (DESIGN CHOICE). -/
inductive Fault where
  deriving DecidableEq, Repr

/-- Why a command has no meaning. -/
inductive Refusal where
  /-- The command is not modelled yet: raised by no meaning. Safe. -/
  | notModelled (mnemonic : String)
  deriving DecidableEq, Repr

/-- A side's physical part with its supply in range and erased flash. Log entry 10 (DESIGN CHOICE). -/
def SidePhys.start : SidePhys where
  supply := .inRange
  rstPin := false
  tripHeld := false
  tripped := false
  firstReset := false
  temp := 0
  bankA := ⟨none, false, 0, false, 0, [], false⟩
  bankB := ⟨none, false, 0, false, 0, [], false⟩

/-- The module right after both sides' first resets are released, straps at slot 0 and role A (log entry 10).
Log entry 10 (DESIGN CHOICE). -/
def State.reset : State where
  pending := []
  host := { HostSide.start with regs := [(8 * 32, 1), (8 * 32 + 1, 1)] }
  field := FieldSide.start
  phys := ⟨SidePhys.start, SidePhys.start, false, false, false, none, 0, false, false⟩

end Sys2Proof.Machine
end

