-- ==== Sys2Proof/Machine/CrossOps.lean ====
section
/-! DEFINITION. Operations of the Voile crossing and the host mailboxes (11_crossing.md R248 to R270): pushing and
popping cells, acknowledges, link cells, the crossing's states, the time mapping and the messages. -/

namespace Sys2Proof.Machine

/-! ## Channels -/

/-- Channels that the host side sends: XM0 to XM7, XM16 to XM23 and the host mailboxes, at index 64 + m.
Log entry 209 (DEDUCED). -/
def hostSends (c : Nat) : Bool := decide (c < 8 ∨ (16 ≤ c ∧ c < 24) ∨ (64 ≤ c ∧ c < 80))

/-- Channels that the host side receives: XM8 to XM15, XM24 to XM31 and the host mailboxes. -/
def hostReceives (c : Nat) : Bool := decide ((8 ≤ c ∧ c < 16) ∨ (24 ≤ c ∧ c < 32) ∨ (64 ≤ c ∧ c < 80))

/-- A crossing channel's receiving side (Table 11.1). -/
def receiverOf (c : Nat) : Side := if hostReceives c then .host else .field

/-- XM0 to XM15 are secure (R249). -/
def secureChan (c : Nat) : Bool := decide (c < 16)

/-- The catalogue assigns TYPE `ty` to the channel (Tables 11.1 and 11.3, R259). -/
def typeAssigned (c ty : Nat) : Bool :=
  match c with
  | 0 => ty == 1
  | 1 => ty == 4 || ty == 5 || ty == 6
  | 2 => ty == 7 || ty == 8
  | 8 => ty == 2
  | 9 => ty == 3
  | 10 => ty == 4 || ty == 5 || ty == 6
  | 16 => ty == 9 || ty == 10
  | 24 => ty == 9 || ty == 10
  | 64 => ty == 1
  | 72 => ty == 2
  | _ => false

/-- TYPE of a cell. -/
def cellType (cell : List Byte) : Nat := fieldAt cell 0 1
/-- MSG of a cell. -/
def cellMsg (cell : List Byte) : Nat := fieldAt cell 3 1

/-- A cell of 64 bytes: header without CSEQ, and payload padded with 0 (R251). -/
def mkCell (ty flags msg : Nat) (payload : List Byte) : List Byte :=
  let c := leBytes ty 1 ++ [0] ++ leBytes flags 1 ++ leBytes msg 1 ++ payload
  c ++ List.replicate (64 - c.length) 0

/-- A message of one cell: FIRST and LAST. -/
def oneCell (ty msg : Nat) (payload : List Byte) : List Byte := mkCell ty 3 msg payload

/-- Writes bytes into a cell at an offset. -/
def patch (cell : List Byte) (o : Nat) (bs : List Byte) : List Byte := cell.take o ++ bs ++ cell.drop (o + bs.length)

def XEnd.chan (x : XEnd) (c : Nat) : Chan := tget Chan.idle x.chans c
def XEnd.setChan (x : XEnd) (c : Nat) (v : Chan) : XEnd := { x with chans := tput Chan.idle x.chans c v }

/-- The sending end takes a cell: a slot counts full and CSEQ is written (R251 to R253). -/
def Chan.push (ch : Chan) (cell : List Byte) (now : DT) : Chan :=
  { ch with full := ch.full + 1, cseq := (ch.cseq + 1) % 256,
            flight := ch.flight ++ [⟨patch cell 1 (leBytes ch.cseq 1), now⟩] }

/-- A push while no slot is free, or while the crossing does not carry the channel, is rejected (R252). -/
def XEnd.canPush (x : XEnd) (c : Nat) : Bool :=
  decide ((x.chan c).full < 16) &&
    (decide (64 ≤ c) || decide (2 ≤ x.state) || (x.state == 1 && (c == 1 || c == 10)))

/-- The receiving end takes a cell whole: into a slot, with the CSEQ check (R255). -/
def Chan.receive (ch : Chan) (cell : List Byte) : Chan × Bool :=
  let n := fieldAt cell 1 1
  ({ ch with slots := ch.slots ++ [cell], expect := (n + 1) % 256, gap := ch.gap || n != ch.expect }, n != ch.expect)

/-- A damaged cell: its slot returns as though it had been popped (R255). -/
def Chan.discard (ch : Chan) : Chan := { ch with popped := ch.popped + 1 }

/-- Removes the oldest received cell; its slot returns with the next link cell (R253). -/
def Chan.pop (ch : Chan) : Chan :=
  match ch.slots with
  | [] => ch
  | _ :: rest => { ch with slots := rest, popped := ch.popped + 1 }

/-- An acknowledge joins the sending end's queue of 16 (R256). -/
def Chan.takeAck (ch : Chan) (a : Ack) : Chan :=
  if ch.ackq.length < 16 then { ch with ackq := ch.ackq ++ [a] } else { ch with ackLost := true }

/-- The host's registers of a channel follow its state (R270). -/
def HostSide.showChan (h : HostSide) (c : Nat) : HostSide :=
  let ch := h.xing.chan c
  let h := if hostSends c then
      ((h.put (Reg.MBX_TXSTAT_FREE c) (16 - ch.full)).put (Reg.MBX_TXSTAT_FULL c) ch.full).put
        (Reg.MBX_TXSTAT_ACKS c) ch.ackq.length
    else h
  if hostReceives c then
    let cell := ch.slots.headD []
    (List.range 16).foldl (fun h w => h.put (Reg.MBX_RXCELL_DATA c w) (fieldAt cell (4 * w) 4))
      (h.put (Reg.MBX_RXSTAT_COUNT c) ch.slots.length)
  else h

/-- Sets a channel's state at the host end. -/
def HostSide.setChan (h : HostSide) (c : Nat) (ch : Chan) : HostSide :=
  ({ h with xing := h.xing.setChan c ch }).showChan c

/-- The staged cell of a channel: the 16 MBX.TXCELL words (R252). Log entry 67 (DEDUCED). -/
def HostSide.staged (h : HostSide) (c : Nat) : List Byte :=
  (List.range 16).flatMap (fun w => leBytes (h.get (Reg.MBX_TXCELL_DATA c w)) 4)

/-- A cell is written into the 16 MBX.TXCELL words (R252). -/
def HostSide.stageCell (h : HostSide) (c : Nat) (cell : List Byte) : HostSide :=
  (List.range 16).foldl (fun h w => h.put (Reg.MBX_TXCELL_DATA c w) (fieldAt cell (4 * w) 4)) h

/-- A push of the staging words as they stand, at the host end; a rejected push sets TXSTAT.REJECTED and answers false
(R250, R252). Log entry 67 (DEDUCED). -/
def HostSide.pushStaged (h : HostSide) (c : Nat) : HostSide × Bool :=
  if h.xing.canPush c then (h.setChan c ((h.xing.chan c).push (h.staged c) h.now), true)
  else (h.put (Reg.MBX_TXSTAT_REJECTED c) 1, false)

/-- A push of a message of host Uliska, which writes its cell into the staging words first (R250, R252). -/
def HostSide.pushCell (h : HostSide) (c : Nat) (cell : List Byte) : HostSide × Bool := (h.stageCell c cell).pushStaged c

/-- A message of host Uliska whose rejection it does not follow up. -/
def HostSide.sendCell (h : HostSide) (c : Nat) (cell : List Byte) : HostSide := (h.pushCell c cell).1

/-- An acknowledge reaches a channel's queue at the host end: it joins the queue, with the interrupt of a queue entry where
the channel has one, or the full queue discards it (R256, R270). -/
def HostSide.ackArrives (h : HostSide) (c : Nat) (a : Ack) : HostSide :=
  let g := h.setChan c ((h.xing.chan c).takeAck a)
  if 16 ≤ (h.xing.chan c).ackq.length then g.put (Reg.MBX_TXSTAT_ACK_LOST c) 1
  else if c = 16 ∨ (64 ≤ c ∧ c < 72) then g.interruptIf Reg.MBX_IRQ_CTRL_RX_IRQ_EN Reg.MBX_IRQ_CTRL_VECTOR
  else g

/-- A pop notice frees its slots at the sending end (R253); the slots of a channel whose count has failed stay consumed
(01_architecture.md R24). -/
def HostSide.slotsReturn (h : HostSide) (c n : Nat) : HostSide :=
  if h.stuck 1 c then h
  else
    let ch := h.xing.chan c
    h.setChan c { ch with full := ch.full - n }

/-- Host mailboxes have no link cell: a pop notice and an acknowledge return at once (R259). -/
def HostSide.settleMailbox (h : HostSide) (c : Nat) : HostSide :=
  if 64 ≤ c then
    let ch := h.xing.chan c
    let h := (h.setChan c { ch with popped := 0, acks := [] }).slotsReturn c ch.popped
    ch.acks.foldl (fun h a => h.ackArrives c a) h
  else h

/-- A pop at the host end; a pop of an empty channel is ignored (R253). -/
def HostSide.popCell (h : HostSide) (c : Nat) : Option (List Byte) × HostSide :=
  match (h.xing.chan c).slots with
  | [] => (none, h)
  | cell :: _ => (some cell, (h.setChan c (h.xing.chan c).pop).settleMailbox c)

/-- Host Uliska takes the oldest cell of a channel if it has TYPE `ty`; a cell of a TYPE that the catalogue does not
assign to the channel is popped and logged (R248). Log entry 48 (DEDUCED). -/
def HostSide.takeCell (h : HostSide) (c ty : Nat) : Option (List Byte) × HostSide :=
  match (h.xing.chan c).slots with
  | [] => (none, h)
  | cell :: _ =>
    if cellType cell = ty then h.popCell c
    else if typeAssigned c (cellType cell) then (none, h)
    else (none, ((h.popCell c).2).log 7 1 c 0 (cellType cell))

/-- An acknowledge written by a receiver at the host end (R256). Log entry 48 (DEDUCED). -/
def HostSide.writeAck (h : HostSide) (c : Nat) (a : Ack) : HostSide :=
  (h.setChan c { h.xing.chan c with acks := (h.xing.chan c).acks ++ [a] }).settleMailbox c

/-! ## The field end -/

/-- Field Uliska's own log (R82). Kinds: 1 unassigned cell, 2 dry launch failed, 3 silence, 4 release, 5 reset.
Log entry 18 (DESIGN CHOICE). -/
def FieldSide.logEvent (f : FieldSide) (code unit detail : Nat) : FieldSide :=
  { f with work := { f.work with log := ⟨f.now, code, unit, detail⟩ :: f.work.log } }

def FieldSide.setChan (f : FieldSide) (c : Nat) (ch : Chan) : FieldSide := { f with xing := f.xing.setChan c ch }

/-- A push at the field end: the staging words take the cell (R250, R252). -/
def FieldSide.pushCell (f : FieldSide) (c : Nat) (cell : List Byte) : FieldSide × Bool :=
  let f := f.setChan c { f.xing.chan c with stage := cell }
  if f.xing.canPush c then (f.setChan c ((f.xing.chan c).push cell f.now), true)
  else (f.setChan c { f.xing.chan c with rejected := true }, false)

def FieldSide.sendCell (f : FieldSide) (c : Nat) (cell : List Byte) : FieldSide := (f.pushCell c cell).1

/-- Field Uliska takes the oldest cell of a channel if it has TYPE `ty` (R248, R253). -/
def FieldSide.takeCell (f : FieldSide) (c ty : Nat) : Option (List Byte) × FieldSide :=
  match (f.xing.chan c).slots with
  | [] => (none, f)
  | cell :: _ =>
    if cellType cell = ty then (some cell, f.setChan c (f.xing.chan c).pop)
    else if typeAssigned c (cellType cell) then (none, f)
    else (none, (f.setChan c (f.xing.chan c).pop).logEvent 1 c (cellType cell))

def FieldSide.writeAck (f : FieldSide) (c : Nat) (a : Ack) : FieldSide :=
  f.setChan c { f.xing.chan c with acks := (f.xing.chan c).acks ++ [a] }

/-! ## Crossing states (R260 to R262) -/

/-- A crossing channel's end after an entry to DOWN: its slots are free and its cells and acknowledges gone; its staging
words and its W1C bits stay (R262). Counts of pushes begin again (log entry 20). Log entry 20 (DEDUCED). -/
def Chan.cleared (ch : Chan) : Chan :=
  { Chan.idle with stage := ch.stage, rejected := ch.rejected, ackLost := ch.ackLost, gap := ch.gap }

/-- One end at an entry to DOWN (R262). Host mailboxes are not part of the crossing. Log entry 20 (DEDUCED). -/
def XEnd.goDown (x : XEnd) : XEnd :=
  { x with
    chans := x.chans.foldl (fun t p => tput Chan.idle t p.1 (if p.1 < 32 then p.2.cleared else p.2)) []
    link := []
    ring := 0
    served := []
    notes := []
    state := 0
    batch := none
    downs := x.downs + 1 }

/-- The host end goes DOWN. A release in progress ends, since the field side loses its eligibility with the crossing
(16_twin_repair.md R371). Log entries 47 (DEDUCED), 218 (DEDUCED). -/
def HostSide.crossingDown (h : HostSide) : HostSide :=
  let h := { h with
    xing := h.xing.goDown
    twin := { h.twin with releasing := false }
    uliska := { h.uliska with arms := [] } }
  let h := (List.range 32).foldl (fun h c => h.showChan c) h
  (((h.put Reg.MBX_DB_RING_LO_BITS 0).put Reg.MBX_DB_RING_HI_BITS 0).put Reg.MBX_XING_STATUS_STATE 0).bump
    Reg.MBX_XING_COUNTS_DOWNS

/-- The field end goes DOWN: cells that wait for a slot are discarded with those in the slots. Queued commands stay (R247).
Log entry 47 (DEDUCED). -/
def FieldSide.crossingDown (f : FieldSide) : FieldSide :=
  { f with xing := f.xing.goDown, work := { f.work with outbox := [], exportBox := [], ackBox := [] } }

/-- The crossing goes DOWN at both ends that run (R262). Log entry 47 (DEDUCED). -/
def State.crossingDown (s : State) : State :=
  { s with
    host := if s.host.run ∧ s.host.xing.state ≠ 0 then s.host.crossingDown else s.host
    field := if s.field.run ∧ s.field.xing.state ≠ 0 then s.field.crossingDown else s.field }

/-- The host enters a crossing state. -/
def HostSide.setCrossing (h : HostSide) (st : Nat) : HostSide :=
  ({ h with xing := { h.xing with state := st, lastHealth := h.now } }).put Reg.MBX_XING_STATUS_STATE st

def FieldSide.setCrossing (f : FieldSide) (st : Nat) : FieldSide :=
  { f with xing := { f.xing with state := st, lastHealth := f.now } }

/-! ## Time transfer (R263, R264) -/

/-- An exchange is accepted (R264). -/
def Exchange.accepted (e : Exchange) : Bool := decide (dtDiff e.t4 e.t1 - dtDiff e.t3 e.t2 ≤ 3000)

/-- Twice the offset of an exchange, in ns. -/
def Exchange.off2 (e : Exchange) : Int := dtDiff e.t2 e.t1 - dtDiff e.t4 e.t3

/-- A side takes an exchange (R264). -/
def TimeXfer.take (x : TimeXfer) (e : Exchange) : TimeXfer :=
  if e.accepted then { x with j := x.k, k := some e } else x

/-- The mapping's exchanges, when it is valid at `now` by the stamp that the side's age counts from (R264). Two exchanges with
one t2 give no rate. Log entry 219 (DEDUCED). -/
def TimeXfer.mapping (x : TimeXfer) (now : DT) (ageFrom : Exchange → DT) : Option (Exchange × Exchange) :=
  match x.k, x.j with
  | some k, some j =>
    let d := dtDiff k.t2 j.t2
    if d ≠ 0 ∧ d ≤ 10000000 ∧ dtDiff now (ageFrom k) ≤ 10000000 then some (k, j) else none
  | _, _ => none

/-- host_DT(x) = floor(x − off(x)) (R264). -/
def hostDT (k j : Exchange) (x : DT) : DT :=
  let d := dtDiff k.t2 j.t2
  x + BitVec.ofInt 64 ((-(k.off2 * d) - (k.off2 - j.off2) * dtDiff x k.t2).fdiv (2 * d))

/-- field_DT(y) = floor(y + off(y + off_k)) (R264). -/
def fieldDT (k j : Exchange) (y : DT) : DT :=
  let d := dtDiff k.t2 j.t2
  y + BitVec.ofInt 64 ((2 * k.off2 * d + (k.off2 - j.off2) * (2 * dtDiff y k.t2 + k.off2)).fdiv (4 * d))

/-- The host side's mapping. Log entry 47 (DEDUCED). -/
def HostSide.mapping (h : HostSide) : Option (Exchange × Exchange) := h.xing.xfer.mapping h.now (·.t4)

/-- The field side's mapping. -/
def FieldSide.mapping (f : FieldSide) : Option (Exchange × Exchange) := f.xing.xfer.mapping f.now (·.t3)

/-- MAP_VALID follows the host side's mapping. -/
def HostSide.showMap (h : HostSide) : HostSide := h.putB Reg.MBX_XING_STATUS_MAP_VALID h.mapping.isSome

/-- DEPART of a time-transfer cell: an instant between its push and its arrival (log entry 21).
Log entry 21 (DESIGN CHOICE). -/
def departStamp (pushed now : DT) (choice : Nat) : DT :=
  let d := dtDiff now pushed
  if 0 < d then pushed + BitVec.ofNat 64 (choice % (d.toNat + 1)) else pushed

/-- The crossing writes DEPART and ARRIVE into a TIME_XFER cell (R263). Log entry 21 (DESIGN CHOICE). -/
def stamp (cell : List Byte) (depart arrive : DT) : List Byte :=
  if cellType cell = 4 then patch (patch cell 8 (leBytes depart.toNat 8)) 16 (leBytes arrive.toNat 8) else cell

/-- A time in a cell. -/
def dtAt (cell : List Byte) (o : Nat) : DT := BitVec.ofNat 64 (fieldAt cell o 8)

/-! ## Link cells -/

/-- What waits at an end for a link cell that leaves at `now`. -/
def XEnd.linkWaiting (x : XEnd) (bells : Nat) (now : DT) : LinkPayload :=
  let mine := x.chans.filter (fun p => decide (p.1 < 32))
  ⟨(mine.filter (fun p => p.2.popped != 0)).map (fun p => (p.1, p.2.popped)),
   mine.flatMap (fun p => p.2.acks.map (fun a => (p.1, a))), bells, x.notes, now⟩

/-- A pop, an acknowledge or a doorbell waits, so that a link cell is sent (R253). -/
def LinkPayload.waiting (p : LinkPayload) : Bool := !p.pops.isEmpty || !p.acks.isEmpty || p.bells != 0

/-- An end after a link cell has carried what waited. -/
def XEnd.linkTaken (x : XEnd) : XEnd :=
  { x with
    chans := x.chans.foldl (fun t p =>
      tput Chan.idle t p.1 (if p.1 < 32 then { p.2 with popped := 0, acks := [] } else p.2)) []
    notes := [] }

/-- At most one link cell leaves in any 8 µs (R253). -/
def XEnd.linkDue (x : XEnd) (raw : Nat) : Bool := x.lastLink == 0 || decide (x.lastLink - 1 + 3200 ≤ raw)

/-- The doorbells that the host end rings. -/
def HostSide.ringing (h : HostSide) : Nat := h.pair Reg.MBX_DB_RING_LO_BITS Reg.MBX_DB_RING_HI_BITS

/-- Rings a secure host-to-field doorbell (R258, Table 16.1); no doorbell is kept while the crossing is DOWN. -/
def HostSide.ring (h : HostSide) (i : Nat) : HostSide :=
  if i < 32 then h.setBitOf Reg.MBX_DB_RING_LO_BITS i else h.setBitOf Reg.MBX_DB_RING_HI_BITS (i - 32)

/-- Doorbells from the field side become pending at the host (R258). -/
def HostSide.bellsArrive (h : HostSide) (bells : Nat) : HostSide :=
  let lo := bells % 2 ^ 32
  let hi := bells / 2 ^ 32
  let rise := clrMask hi (h.get Reg.MBX_DB_PEND_HI_BITS)
  let h := (h.put Reg.MBX_DB_PEND_LO_BITS (h.get Reg.MBX_DB_PEND_LO_BITS ||| lo)).put Reg.MBX_DB_PEND_HI_BITS
    (h.get Reg.MBX_DB_PEND_HI_BITS ||| hi)
  if rise ≠ 0 then h.interruptIf Reg.MBX_IRQ_CTRL_DB_IRQ_EN Reg.MBX_IRQ_CTRL_VECTOR else h

/-- A link cell's notices at the sending end of the channels that they name. -/
def XEnd.linkArrives (x : XEnd) (l : LinkPayload) : XEnd :=
  let x := l.pops.foldl (fun x p => let ch := x.chan p.1; x.setChan p.1 { ch with full := ch.full - p.2 }) x
  l.acks.foldl (fun x p => x.setChan p.1 ((x.chan p.1).takeAck p.2)) x

/-- A field event shows on the host side (R12; 16_twin_repair.md R372, R379, R391). Log entry 217 (DESIGN CHOICE). -/
def HostSide.takeNote (h : HostSide) (n : FieldNote) : HostSide :=
  match n with
  | .dryLaunch passed => { h with twin := { h.twin with dryPassed := passed } }
  | .blocked => (h.put Reg.TWN_STATUS_TAKEOVER_BLOCKED 1).log 8 3 0
  | .released => ({ h with twin := { h.twin with releasing := false } }).bump Reg.TWN_COUNTS_RELEASES

/-- A link cell's notices at the host end. -/
def HostSide.linkArrives (h : HostSide) (l : LinkPayload) : HostSide :=
  let h := l.pops.foldl (fun h p => h.slotsReturn p.1 p.2) h
  let h := l.acks.foldl (fun h p => h.ackArrives p.1 p.2) h
  l.notes.foldl (fun h n => h.takeNote n) (h.bellsArrive l.bells)

/-! ## The transmitter's order (R254) -/

/-- Class of a crossing channel (Table 11.1): 0 URGENT, 1 POINT, 2 CONTROL, 3 BULK. -/
def classOf (c : Nat) : Nat :=
  match c with
  | 0 => 0
  | 8 => 0
  | 9 => 1
  | 1 => 2
  | 10 => 2
  | _ => 3

/-- The oldest cell in flight of channel `c` may arrive before the others of its direction: no link cell and no cell of a
higher class left or was pushed at or before its push, and within its class no other channel's cell has waited since before
the channel's last turn (R254). Log entry 220 (DEDUCED). -/
def XEnd.mayArrive (x : XEnd) (c : Nat) : Bool :=
  match (x.chan c).flight with
  | [] => false
  | v :: _ =>
    let others := x.chans.filter (fun p => p.1 != c && decide (p.1 < 32))
    let since (k : Nat) (t : DT) : Bool := others.any (fun p => (k == classOf p.1) &&
      (p.2.flight.head?.map (fun w => decide (dtDiff w.at_ t ≤ 0))).getD false)
    !(x.link.any (fun l => decide (dtDiff l.at_ v.at_ ≤ 0))) &&
      !((List.range (classOf c)).any (fun k => since k v.at_)) &&
      (match tget none x.served (classOf c) with
        | some (d, t) => d != c || !since (classOf c) t
        | none => true)

/-- The transmitter has served a cell of channel `c`. -/
def XEnd.serve (x : XEnd) (c : Nat) (at_ : DT) : XEnd := { x with served := tput none x.served (classOf c) (some (c, at_)) }

/-! ## CRC of command cells (Table 11.4) -/

/-- The CRC of bytes 0x04 to 0x3B stands at 0x3C. -/
def crcHolds (cell : List Byte) : Bool := (crc32c (slice cell 4 56)).toNat == fieldAt cell 60 4

/-- Writes the CRC of a command cell. -/
def withCrc (cell : List Byte) : List Byte := patch cell 60 (leBytes (crc32c (slice cell 4 56)).toNat 4)

end Sys2Proof.Machine
end

