-- ==== Sys2Proof/Machine/Reset.lean ====
section
/-! DEFINITION. Resets and power of the two sides (18_module_electrical.md R412 to R420), lock of the isolation
channels (R14, R260) and what a reset of one side does to the other (R262). -/

namespace Sys2Proof.Machine

/-! ## Lock of the isolation channels -/

/-- A channel's lock. -/
def State.locked (s : State) (ch : Nat) : Bool := if ch = 0 then s.phys.lock0 else s.phys.lock1

def State.setLock (s : State) (ch : Nat) (v : Bool) : State :=
  let p := if ch = 0 then { s.phys with lock0 := v } else { s.phys with lock1 := v }
  let h := s.host.putB (if ch = 0 then Reg.MBX_XING_STATUS_LOCK0 else Reg.MBX_XING_STATUS_LOCK1) v
  { s with phys := p, host := if s.host.run then h else s.host }

/-- The host remembers that a channel lost its lock. Log entry 52 (DEDUCED). -/
def HostSide.setLost (h : HostSide) (ch : Nat) (v : Bool) : HostSide :=
  { h with xing := if ch = 0 then { h.xing with lost0 := v } else { h.xing with lost1 := v } }

/-- A channel loses lock (R14); with both out of lock the crossing goes DOWN (R262). Log entry 52 (DEDUCED). -/
def State.lockLost (s : State) (ch : Nat) : State :=
  if !s.locked ch then s
  else
    let s := s.setLock ch false
    let s := if s.host.run then { s with host := (s.host.setLost ch true).log 1 2 ch } else s
    if s.phys.lock0 || s.phys.lock1 then s else s.crossingDown

/-- Both channels lose lock. -/
def State.locksLost (s : State) : State := (s.lockLost 0).lockLost 1

/-! ## Flash banks (R420) -/

/-- The bank preferred at boot: a valid record with the higher generation, A when equal or neither is valid. -/
def SidePhys.preferred (p : SidePhys) : Nat :=
  match p.bankA.recordValid, p.bankB.recordValid with
  | true, true => if p.bankA.generation < p.bankB.generation then 1 else 0
  | false, true => 1
  | _, _ => 0

def SidePhys.bank (p : SidePhys) (i : Nat) : FlashBank := if i = 0 then p.bankA else p.bankB
/-- Flash bank `i` becomes `b` (R420). Log entry 115 (DESIGN CHOICE). -/
def SidePhys.setBank (p : SidePhys) (i : Nat) (b : FlashBank) : SidePhys :=
  if i = 0 then { p with bankA := b } else { p with bankB := b }

/-- The bank booted and whether it is the fall-back; none where both fail verification. -/
def SidePhys.chooseBank (p : SidePhys) : Option (Nat × Bool) :=
  let i := p.preferred
  if (p.bank i).verifies then some (i, false)
  else if (p.bank (1 - i)).verifies then some (1 - i, true)
  else none

/-- A bank is selected by raising its generation to the other bank's plus 1. Log entry 2 (DESIGN CHOICE). -/
def SidePhys.select (p : SidePhys) (i : Nat) : SidePhys :=
  let g := (p.bank (1 - i)).generation + 1
  p.setBank i { p.bank i with recordValid := true, generation := if g < 2 ^ 32 then g else Config.counterOver 1 g % 2 ^ 32 }

/-! ## Host side -/

/-- The host side in reset: every register at its reset value. DRAM keeps its contents (log entry 3), a retired channel
stays retired (R289). Log entries 3 (DESIGN CHOICE), 5 (PRESUMED), 12 (DESIGN CHOICE), 120 (DEDUCED). -/
def HostSide.inReset (h : HostSide) (retired : Option Nat) : HostSide :=
  ({ HostSide.start with
    run := false
    freeN := h.freeN
    resp := h.resp
    sent := h.sent
    pcieUp := h.pcieUp
    store := { Store.start with mem := h.store.mem, poison := h.store.poison, decoded := h.store.decoded } }).mapAfterReset
      retired

/-- The host side leaves reset with these straps and causes (R415, R422).
Log entries 3 (DESIGN CHOICE), 4 (DEDUCED). -/
def HostSide.leaveReset (h : HostSide) (slot : Nat) (role power pin soft thermal : Bool) : HostSide :=
  let h := { h with run := true }
  let h := (((h.put Reg.SYS_STRAPS_SLOT slot).putB Reg.SYS_STRAPS_ROLE role).put Reg.SYS_STRAPS_TARGET
    (4 * b2n role + slot)).putB Reg.TWN_STATUS_ROLE role
  (((h.putB Reg.SYS_RESET_CAUSE_POWER power).putB Reg.SYS_RESET_CAUSE_PIN pin).putB Reg.SYS_RESET_CAUSE_SOFT
    soft).putB Reg.SYS_RESET_CAUSE_THERMAL thermal

/-- A flash write that a reset aborts (R417): what the bank that it wrote then holds is open (log entry 1).
Log entry 115 (DESIGN CHOICE). -/
def State.abortFlash (s : State) : State :=
  match s.host.fwOp with
  | some ⟨1, _, _⟩ =>
    let i := 1 - s.host.get Reg.SYS_BOOT_STATUS_HOST_BANK
    let (v, h) := s.host.free 2
    let (b, h) := h.free (2 ^ 32)
    let p := s.phys.hostPhys
    { s with host := h, phys := { s.phys with hostPhys := p.setBank i { p.bank i with verifies := v == 1, build := b } } }
  | _ => s

/-- The host side enters reset: the crossing goes DOWN, the isolation channels lose lock, a flash write in progress is
aborted (R417). Log entry 211 (DEDUCED). -/
def State.hostDown (s : State) : State :=
  let s := if s.host.run then s.abortFlash.locksLost.crossingDown else s
  { s with host := s.host.inReset s.phys.retired }

/-- The field side in reset. INTLK_OUT drives low (R410). Log entries 12 (DESIGN CHOICE), 181 (DEDUCED). -/
def FieldSide.inReset (f : FieldSide) : FieldSide :=
  { FieldSide.start with
    run := false
    freeN := f.freeN
    work := { FieldWork.blank with sent := f.work.sent }
    latIn := f.latIn
    latOut := f.latOut
    il := { Interlock.reset with in_ := f.il.in_ } }

/-- The field side enters reset (R417). Log entry 211 (DEDUCED). -/
def State.fieldDown (s : State) : State :=
  let s := if s.field.run then s.locksLost.crossingDown else s
  { s with field := s.field.inReset }

/-- The field side leaves reset with this level at TWIN_ROLE (R415, R426). -/
def FieldSide.leaveReset (f : FieldSide) (role : Bool) : FieldSide := { f with run := true, role := role }

/-- A reset that SYS.RESET orders: the side starts again at once, from the strap levels last seen (R418).
Log entry 54 (DEDUCED). -/
def State.softHost (s : State) : State :=
  let s := s.hostDown
  { s with host := s.host.leaveReset s.phys.slotPin s.phys.rolePin false false true false }

/-- A soft reset of the field side (R418). Log entry 54 (DEDUCED). -/
def State.softField (s : State) : State :=
  let s := s.fieldDown
  { s with field := s.field.leaveReset s.phys.fieldRolePin }

/-- A die's temperature trip (R419): its side enters reset and is held. -/
def State.trip (s : State) (side : Side) : State :=
  match side with
  | .host =>
    let s := s.hostDown
    { s with phys := { s.phys with hostPhys := { s.phys.hostPhys with tripHeld := true, tripped := true } } }
  | .field =>
    let s := s.fieldDown
    { s with
      phys := { s.phys with fieldPhys := { s.phys.fieldPhys with tripHeld := true, tripped := true } }
      field := { s.field with faultPin := true } }

end Sys2Proof.Machine
end

