-- ==== Sys2Proof/Machine/Guard.lean ====
section
/-! DEFINITION. How a command reaches its side: a side whose logic has failed for want of supply (R413) or that is in reset
takes no command; the PCIe endpoint reaches BAR0 only from the end of start-up step 4 (R424). An event whose condition does not hold does not occur (log entry 11). -/

namespace Sys2Proof.Machine

/-- What a command answers. -/
abbrev Out := Host.Outcome State Fault Refusal

/-- What no command but those of power, reset pins and the endpoint's own reset touches: the queue, which sides run and
whether the PCIe endpoint is out of reset. -/
def State.held (s t : State) : State :=
  { t with
    pending := s.pending
    host := { t.host with run := s.host.run, pcieUp := s.host.pcieUp }
    field := { t.field with run := s.field.run } }

/-- Runs a host-side effect over the whole state. Log entry 16 (DESIGN CHOICE). -/
def hostState (s : State) (f : State → State) : Out :=
  if s.host.run then .next (s.held (f s)) else .next s

/-- Runs an effect on the host side alone. Log entry 16 (DESIGN CHOICE). -/
def hostCmd (s : State) (f : HostSide → HostSide) : Out := hostState s (fun s => { s with host := f s.host })

/-- Runs a field-side effect over the whole state. Log entry 16 (DESIGN CHOICE). -/
def fieldState (s : State) (f : State → State) : Out :=
  if s.field.run then .next (s.held (f s)) else .next s

/-- Runs an effect on the field side alone. Log entry 16 (DESIGN CHOICE). -/
def fieldCmd (s : State) (f : FieldSide → FieldSide) : Out := fieldState s (fun s => { s with field := f s.field })

/-- Runs an effect on one of the sides. -/
def sideState (s : State) (side : Side) (f : State → State) : Out :=
  match side with
  | .host => hostState s f
  | .field => fieldState s f

/-- A register access over the whole state: writes are ignored while BAR0 is closed to the requester (R424).
Log entries 16 (DESIGN CHOICE), 39 (DEDUCED). -/
def regState (s : State) (who : Requester) (f : State → State) : Out :=
  hostState s (fun s => if s.host.barOpen who then f s else s)

/-- A register access on the host side alone. Log entries 16 (DESIGN CHOICE), 39 (DEDUCED). -/
def regCmd (s : State) (who : Requester) (f : HostSide → HostSide) : Out :=
  regState s who (fun s => { s with host := f s.host })

/-- A register read: a closed BAR0 reads 0 (R424). Log entries 16 (DESIGN CHOICE), 39 (DEDUCED). -/
def readCmd (s : State) (who : Requester) (f : HostSide → HostSide) : Out :=
  hostCmd s (fun h => if h.barOpen who then f h else if h.pcieUp then h.answer (.data 0) else h)

/-- Guards an effect by a condition: an event whose condition does not hold does not occur. -/
def onlyIf {α : Type} (b : Bool) (f : α → α) (a : α) : α := if b then f a else a

end Sys2Proof.Machine
end

