-- ==== Sys2Proof/Machine/LaneOps.lean ====
section
/-! DEFINITION. Operations of the serial lanes, the spares and the stitch and twin links (15_lanes.md). -/

namespace Sys2Proof.Machine

/-! ## Lanes (R336 to R350) -/

/-- LNE.STATUS.ROLE: 0 head, 1 network, 2 PCIe, 3 stitch, 4 twin, 5 spare (Table 15.1). -/
def laneRole (l : Nat) : Nat :=
  if l < 48 then 0 else if l < 52 then 1 else if l < 56 then 2 else if l < 72 then 3 else if l < 80 then 4 else 5

/-- The link and lane number of a stitch or twin lane. -/
def linkOfLane (l : Nat) : Option (Nat × Nat) := if 56 ≤ l ∧ l < 80 then some ((l - 56) / 4, (l - 56) % 4) else none

/-- The host lane of lane `i` of a link. -/
def laneOfLink (k i : Nat) : Nat := 56 + 4 * k + i

/-- The lane of a spare. -/
def spareLane (k : Nat) : Nat := 80 + k

def HostSide.link (h : HostSide) (k : Nat) : LinkState := tget LinkState.down h.lanes.links k
def HostSide.setLink (h : HostSide) (k : Nat) (v : LinkState) : HostSide :=
  { h with lanes := { h.lanes with links := tput LinkState.down h.lanes.links k v } }

/-- The twin links carry a joining module's messages before any image is active (18_module_electrical.md R425). -/
def HostSide.awaitsPartner (h : HostSide) : Bool := h.cfg.imageId == 0 && decide (8 ≤ h.get Reg.SYS_BOOT_STATUS_STEP)

/-- The twin links are enabled: by the TWIN section, or for a joining module. Log entry 170 (DEDUCED). -/
def HostSide.twinEnabled (h : HostSide) : Bool := h.cfg.twin.isSome || h.awaitsPartner

/-- Lanes wired of a link: the STITCH section's, or all four of a twin link. -/
def HostSide.wired (h : HostSide) (k : Nat) : Nat :=
  if k < 4 then ((h.cfg.stitch.bind (fun s => s.links.find? (fun e => e.link == k && e.enable == 1))).map (·.wired)).getD 0
  else if h.twinEnabled then 15 else 0

/-- The link is enabled. Log entry 170 (DEDUCED). -/
def HostSide.linkEnabled (h : HostSide) (k : Nat) : Bool :=
  if k < 4 then (h.cfg.stitch.map (fun s => s.links.any (fun e => e.link == k && e.enable == 1))).getD false
  else h.twinEnabled

def HostSide.ilm2400 (h : HostSide) (k : Nat) : Bool :=
  (h.cfg.stitch.map (fun s => s.links.any (fun e => e.link == k && e.ilm2400 == 1))).getD false

def HostSide.linkUp (h : HostSide) (k : Nat) : Bool := h.get (Reg.STC_STATUS_STATE k) == 4

/-- Sets a link's state, with TWN.STATUS.TL0_UP and TL1_UP. -/
def HostSide.setLinkState (h : HostSide) (k st : Nat) : HostSide :=
  let h := h.put (Reg.STC_STATUS_STATE k) st
  if k = 4 then h.putB Reg.TWN_STATUS_TL0_UP (st == 4)
  else if k = 5 then h.putB Reg.TWN_STATUS_TL1_UP (st == 4)
  else h

/-- Sets the active lanes of a link, and DEGRADED with them. -/
def HostSide.setActive (h : HostSide) (k mask : Nat) : HostSide :=
  (h.put (Reg.STC_STATUS_ACTIVE k) mask).putB (Reg.STC_STATUS_DEGRADED k) (mask != h.wired k)

/-- A lane is wanted awake: its unit is enabled (R340). -/
def HostSide.laneWanted (h : HostSide) (l : Nat) : Bool :=
  match laneRole l with
  | 0 => true
  | 1 => match l with
    | 48 => h.get Reg.LNE_HN_MODE_MODE_0 != 0
    | 49 => h.get Reg.LNE_HN_MODE_MODE_1 != 0
    | 50 => h.get Reg.LNE_HN_MODE_MODE_2 != 0
    | _ => h.get Reg.LNE_HN_MODE_MODE_3 != 0
  | 2 => true
  | 5 => let k := l - 80
    h.get (Reg.LNE_SPARE_CTRL_MODE k) == 2 || tget 0 h.lanes.waking k != 0 || h.flag (Reg.LNE_SPARE_STATUS_ACTIVE k)
  | _ => match linkOfLane l with
    | some (k, i) => h.linkEnabled k && bit (h.wired k) i
    | none => false

/-- Calibration records a lane's codes (R342); a lane whose unit needs no further step goes UP. -/
def HostSide.calibrate (h : HostSide) (c : LaneCal) : HostSide :=
  ((h.put (Reg.LNE_CAL_TERM c.lane) c.term).put (Reg.LNE_CAL_OFFSET c.lane) c.offset).put (Reg.LNE_CAL_DONE c.lane) 1

/-- Lanes that carry traffic or idle blocks as soon as they are calibrated: head, PCIe and enabled network lanes. -/
def HostSide.wakeCalibrated (h : HostSide) : HostSide :=
  (List.range 56).foldl (fun h l =>
    if h.flag (Reg.LNE_CAL_DONE l) && h.get (Reg.LNE_STATUS_STATE l) == 0 && h.laneWanted l
    then h.put (Reg.LNE_STATUS_STATE l) 3 else h) h

/-- A lane whose unit is disabled enters DORMANT (R340). -/
def HostSide.sleepLane (h : HostSide) (l : Nat) : HostSide :=
  let st := h.get (Reg.LNE_STATUS_STATE l)
  if !h.laneWanted l && st != 4 then h.put (Reg.LNE_STATUS_STATE l) 0 else h

/-- The lane that carries a lane's role now: the spare that replaced it, or itself. -/
def HostSide.carrier (h : HostSide) (l : Nat) : Nat :=
  match (List.range 16).find? (fun k => h.flag (Reg.LNE_SPARE_STATUS_ACTIVE k) && h.get (Reg.LNE_SPARE_STATUS_LANE k) == l) with
  | some k => spareLane k
  | none => l

/-- The head whose stream a lane carries in the active image. -/
def HostSide.headOfLane (h : HostSide) (l : Nat) : Option Nat := (h.cfg.heads.find? (fun e => e.enable == 1 && e.lane == l)).map (·.head)

/-- The TIM.PORT index of a lane's role: HNn, or 4 plus the head. -/
def HostSide.portOfLane (h : HostSide) (l : Nat) : Option Nat :=
  if 48 ≤ l ∧ l < 52 then some (l - 48) else (h.headOfLane l).map (· + 4)

/-- The port's corrections take the difference of the two lanes' path latencies (R348).
Log entry 17 (DESIGN CHOICE). -/
def HostSide.moveLatency (h : HostSide) (from_ into : Nat) : HostSide :=
  match h.portOfLane from_ with
  | none => h
  | some p =>
    let d (e : Bool) : Int := (Config.pathLatency e into : Int) - (Config.pathLatency e from_ : Int)
    let add (h : HostSide) (f : Fld) (e : Bool) := h.put f (unsigned (signed (h.get f) 32 + d e) 32)
    add (add h (Reg.TIM_PORT_INGRESS_NS p) false) (Reg.TIM_PORT_EGRESS_NS p) true

/-- A spare becomes able to send: it carries the replaced lane's whole role (R348). -/
def HostSide.spareCarries (h : HostSide) (k l : Nat) : HostSide :=
  let h := { h with lanes := { h.lanes with waking := tput 0 h.lanes.waking k 0 } }
  (h.put (Reg.LNE_SPARE_STATUS_ACTIVE k) 1).moveLatency l (spareLane k)

/-- A spare's class allows the lane (R347). Log entry 58 (DEDUCED). -/
def spareAllows (k l : Nat) : Bool := if k < 12 then decide (l < 48) else decide (48 ≤ l ∧ l < 52)

/-- The lowest spare armed for a lane (R349). Log entry 58 (DEDUCED). -/
def HostSide.armedFor (h : HostSide) (l : Nat) : Option Nat :=
  (List.range 16).find? (fun k => h.flag (Reg.LNE_SPARE_STATUS_ARMED k) && h.get (Reg.LNE_SPARE_CTRL_LANE k) == l)

/-- A trigger of the spares armed for a lane (R347 to R349): answers the spare that took over. -/
def HostSide.triggerLane (h : HostSide) (l : Nat) (auto : Bool) : HostSide :=
  match h.armedFor l with
  | none => h
  | some k =>
    if h.flag (Reg.LNE_STATUS_REPLACED l) then h
    else
      let h := ((h.put (Reg.LNE_STATUS_STATE l) 4).put (Reg.LNE_STATUS_REPLACED l) 1).put (Reg.LNE_SPARE_STATUS_ARMED k) 0
      let h := h.put (Reg.LNE_SPARE_STATUS_LANE k) l
      let h := if auto then h.put (Reg.LNE_SPARE_STATUS_AUTO_FIRED k) 1 else h
      if h.get (Reg.LNE_STATUS_STATE (spareLane k)) = 3 then h.spareCarries k l
      else { h with lanes := { h.lanes with waking := tput 0 h.lanes.waking k (l + 1) } }

/-- A write of LNE.SPARE_CTRL[k] in effect: arming and disarming (R347). A spare that has been triggered stays. -/
def HostSide.armSpare (h : HostSide) (k lane mode : Nat) (auto : Bool) : HostSide :=
  let h := h.put (Reg.LNE_SPARE_CTRL_LANE k) lane
  let h := if mode = 3 then h else h.put (Reg.LNE_SPARE_CTRL_MODE k) mode
  let h := h.putB (Reg.LNE_SPARE_CTRL_AUTO k) auto
  if h.flag (Reg.LNE_SPARE_STATUS_ACTIVE k) || tget 0 h.lanes.waking k != 0 then h
  else
    let m := h.get (Reg.LNE_SPARE_CTRL_MODE k)
    let h := h.putB (Reg.LNE_SPARE_STATUS_ARMED k) (m != 0 && spareAllows k lane)
    h.sleepLane (spareLane k)

/-! ## Links (R351 to R357) -/

/-- TX_CREDITS follows the cells sent and the last count received (R353); after a miscount no credit returns
(01_architecture.md R24). Log entry 175 (DEDUCED). -/
def HostSide.showCredits (h : HostSide) (k : Nat) : HostSide :=
  let l := h.link k
  let n := 256 - (l.sent + 65536 - l.credited) % 65536
  h.put (Reg.STC_CREDITS_TX_CREDITS k) (if h.stuck 4 k then min n (h.get (Reg.STC_CREDITS_TX_CREDITS k)) else n)

/-- The link begins its bring-up again: its cells are lost, and its wired lanes that are awake calibrate again (R354,
R356). Log entry 57 (DEDUCED). -/
def HostSide.restartLink (h : HostSide) (k : Nat) : HostSide :=
  let p := h.link k
  let h := (List.range 4).foldl (fun h i =>
    if bit (h.wired k) i && h.get (Reg.LNE_STATUS_STATE (laneOfLink k i)) != 0
    then h.put (Reg.LNE_STATUS_STATE (laneOfLink k i)) 1 else h) h
  let h := h.setLink k { LinkState.down with
    since := h.tb.raw.toNat, peerSync := p.peerSync, peerUnqualified := p.peerUnqualified, peerTarget := p.peerTarget }
  ((h.setLinkState k 1).setActive k 0).put (Reg.STC_CREDITS_TX_CREDITS k) 0

/-- A recovery starts, or starts again with a narrower mask (R355, R356): RECOVER is sent. -/
def HostSide.recover (h : HostSide) (k mask : Nat) : HostSide :=
  if mask = 0 then h.restartLink k
  else
    let h := (h.setLink k { h.link k with asked := mask }).setLinkState k 5
    h.send (.recover k mask (h.link k).lastGood (h.get (Reg.STC_CREDITS_RX_FREE k)))

/-- A link carries cells or recovers. -/
def HostSide.linkAlive (h : HostSide) (k : Nat) : Bool := h.linkUp k || h.get (Reg.STC_STATUS_STATE k) == 5

/-- The receiver loses a lane of its link (R341, R351, R355). -/
def HostSide.loseLane (h : HostSide) (l : Nat) : HostSide :=
  match linkOfLane l with
  | none => h
  | some (k, i) =>
    let mask := if h.linkUp k then h.get (Reg.STC_STATUS_ACTIVE k) else (h.link k).asked
    if h.linkAlive k && bit mask i then (h.put (Reg.LNE_STATUS_STATE l) 4).recover k (clrBit mask i) else h

/-- Sends one cell on an UP link, for one credit (R352, R353); without a credit no cell is sent. -/
def HostSide.sendLink (h : HostSide) (k : Nat) (header : List Byte) (payload : List Byte) : HostSide × Bool :=
  if !h.linkUp k || h.get (Reg.STC_CREDITS_TX_CREDITS k) = 0 then (h, false)
  else
    let l := h.link k
    let head := header.take 4 ++ leBytes l.nextSeq 4 ++ header.drop 8
    let cell := head ++ leBytes (crc32c (head ++ payload)).toNat 4 ++ payload
    let h := h.setLink k { l with
      nextSeq := (l.nextSeq + 1) % 2 ^ 32
      sent := (l.sent + 1) % 65536
      replay := (l.replay ++ [(l.nextSeq, cell)]).drop ((l.replay.length + 1) - 256) }
    (((h.countWrap (Reg.STC_CELLS_TX_COUNT k)).send (.cell k cell)).showCredits k, true)

/-- SIM.ACTIVE_ID. -/
def HostSide.activeId (h : HostSide) : Nat := h.pair Reg.SIM_ACTIVE_ID_LO_ID Reg.SIM_ACTIVE_ID_HI_ID

/-- A cell's header up to the CRC, LSEQ left 0 (Table 15.4). -/
def HostSide.cellHeader (h : HostSide) (type state len tag frame region offset : Nat) : List Byte :=
  leBytes type 1 ++ leBytes state 1 ++ leBytes len 2 ++ leBytes 0 4 ++ leBytes h.activeId 8 ++ leBytes tag 8 ++
    leBytes frame 4 ++ leBytes region 1 ++ leBytes offset 3 ++ leBytes 0 4

/-- A message cell: IMAGE_MSG, PEER_HEALTH or TWIN_MSG. -/
def HostSide.sendMessage (h : HostSide) (k type : Nat) (payload : List Byte) : HostSide :=
  (h.sendLink k (h.cellHeader type 0 payload.length 0 0 0 0) payload).1

/-- The twin link that carries messages: TL0 if it is UP, otherwise TL1 (R376). -/
def HostSide.sendTwin (h : HostSide) (payload : List Byte) : HostSide :=
  if h.linkUp 4 then h.sendMessage 4 5 payload else h.sendMessage 5 5 payload

/-- Twin messages that wait are sent while credits last (16_twin_repair.md R381). -/
def HostSide.pumpTwin (h : HostSide) : Nat → HostSide
  | 0 => h
  | n + 1 =>
    match h.twin.outbox with
    | [] => h
    | p :: rest =>
      let k := if h.linkUp 4 then 4 else 5
      let (h', ok) := h.sendLink k (h.cellHeader 5 0 p.length 0 0 0 0) p
      if ok then ({ h' with twin := { h'.twin with outbox := rest } }).pumpTwin n else h

/-- RECOVER at the sender (R355): credits become FREE, WIDTH_ACK is sent, and every cell from LAST_GOOD + 1 is resent. -/
def HostSide.onRecover (h : HostSide) (k mask lastGood free : Nat) : HostSide :=
  let l := h.link k
  let again := l.replay.filter (fun c => decide (0 < signed (c.1 + 2 ^ 32 - lastGood) 32))
  let base := (l.sent + 65536 - again.length % 65536) % 65536
  let h := h.setLink k { l with sent := (base + again.length) % 65536, credited := (base + free + 65536 - 256) % 65536 }
  let h := h.send (.widthAck k mask)
  let h := again.foldl (fun h c => (h.countWrap (Reg.STC_CELLS_TX_COUNT k)).send (.cell k c.2)) h
  h.showCredits k

/-- WIDTH_ACK ends a recovery at the receiver (R355): the lanes left out stay FAILED. Log entry 57 (DEDUCED). -/
def HostSide.onWidthAck (h : HostSide) (k mask : Nat) : HostSide :=
  if h.get (Reg.STC_STATUS_STATE k) ≠ 5 then h
  else
    let h := ((h.setLinkState k 4).setActive k mask).bump (Reg.STC_ERRORS_REDUCTIONS k)
    (List.range 4).foldl (fun h i =>
      if bit (h.wired k) i && !bit mask i then h.put (Reg.LNE_STATUS_STATE (laneOfLink k i)) 4 else h) h

/-- Once every wired lane of a link in bring-up is UP or left out, the link aligns on the lanes that remain (R354). -/
def HostSide.endTraining (h : HostSide) (k : Nat) : HostSide :=
  let st := h.get (Reg.STC_STATUS_STATE k)
  let lanes := ((List.range 4).filter (fun i => bit (h.wired k) i)).map (fun i => h.get (Reg.LNE_STATUS_STATE (laneOfLink k i)))
  if (st == 1 || st == 2) && lanes.all (fun s => s == 3 || s == 4) && lanes.any (· == 3) then
    (h.setLink k { h.link k with good := [], since := h.tb.raw.toNat }).setLinkState k 3
  else h

/-- Lane `i` of a link has had its two good markers. -/
def HostSide.aligned (h : HostSide) (k i : Nat) : Bool := decide (2 ≤ tget 0 (h.link k).good i)

/-- A marker of a link in ALIGN: `number` is the lane number that it names. A lane whose marker names another lane is wired
crosswise and left out of its link (R337, R354). -/
def HostSide.alignMarker (h : HostSide) (k i : Nat) (number : Option Nat) : HostSide :=
  let l := h.link k
  match number with
  | none => h
  | some n =>
    if n = i then h.setLink k { l with good := tput 0 l.good i (tget 0 l.good i + 1) }
    else h.put (Reg.LNE_STATUS_STATE (laneOfLink k i)) 4

/-- A link in ALIGN finishes its bring-up on the lanes that have had two good markers, once every lane has or 100 µs have
passed; the others are left out (R354). -/
def HostSide.bringUp (h : HostSide) (k : Nat) : HostSide :=
  let up := (List.range 4).filter (fun i => bit (h.wired k) i && h.get (Reg.LNE_STATUS_STATE (laneOfLink k i)) == 3)
  let mask := up.foldl (fun m i => if h.aligned k i then setBit m i else m) 0
  let late := decide ((h.link k).since + 40000 ≤ h.tb.raw.toNat)
  if !h.linkEnabled k || h.get (Reg.STC_STATUS_STATE k) != 3 || !(up.all (h.aligned k) || late) then h
  else
    let h := up.foldl (fun h i => if bit mask i then h else h.put (Reg.LNE_STATUS_STATE (laneOfLink k i)) 4) h
    if mask = 0 then h
    else
      let p := h.link k
      let h := h.setLink k { LinkState.down with
        peerSync := p.peerSync, peerUnqualified := p.peerUnqualified, peerTarget := p.peerTarget }
      (((h.setLinkState k 4).setActive k mask).showCredits k).put (Reg.STC_CREDITS_RX_FREE k) 256

/-- An enabled link leaves DORMANT for CAL; a disabled one goes DORMANT with its lanes (R340, R354). -/
def HostSide.enableLinks (h : HostSide) : HostSide :=
  (List.range 6).foldl (fun h k =>
    let h := (h.put (Reg.STC_STATUS_WIRED k) (h.wired k)).putB (Reg.STC_STATUS_ILM2400 k) (h.ilm2400 k)
    if h.linkEnabled k then (if h.get (Reg.STC_STATUS_STATE k) = 0 then h.restartLink k else h)
    else
      let h := ((h.setLink k LinkState.down).setLinkState k 0).setActive k 0
      (List.range 4).foldl (fun h i => h.sleepLane (laneOfLink k i)) h) h

/-! ## Regions (R360) -/

def HostSide.region (h : HostSide) (r : Nat) : Region := tget Region.empty h.lanes.regions r
def HostSide.setRegion (h : HostSide) (r : Nat) (v : Region) : HostSide :=
  { h with lanes := { h.lanes with regions := tput Region.empty h.lanes.regions r v } }

/-- A buffer that holds neither the latest complete transfer nor a lease. -/
def HostSide.freeBuffer (h : HostSide) (r : Nat) : Option Nat :=
  (List.range 3).find? (fun b => (h.region r).latest.map (·.buffer) != some b && h.leaseCount (.stitch r b) == 0)

def HostSide.recvEntry (h : HostSide) (r : Nat) : Option RecvEntry :=
  h.cfg.stitch.bind (fun s => s.recvs.find? (fun e => e.region == r))

/-- CA of a buffer of a region: its three buffers lie one after another in the reserved pages. -/
def HostSide.bufferCa (h : HostSide) (r b : Nat) (e : RecvEntry) : Option Nat :=
  (h.store.pages.find? (fun p => p.owner == .stitch r && !p.staged)).map (fun p => p.first * 65536 + b * (e.w * e.h * 2))

/-- Starts a transfer of frame `n`, or discards it for want of a buffer. -/
def HostSide.startTransfer (h : HostSide) (r n : Nat) : HostSide :=
  let g := h.region r
  match h.freeBuffer r with
  | some b => h.setRegion r { g with coming := some ⟨n, b, [], false⟩, dropped := none }
  | none => (h.setRegion r { g with coming := none, dropped := some n }).bump (Reg.STC_REGION_DROPS r)

/-- Bytes of a DATA cell arrive (R360). -/
def HostSide.stitchData (h : HostSide) (r n off : Nat) (data : List Byte) : HostSide :=
  match h.recvEntry r with
  | none => h
  | some e =>
    let g := h.region r
    let h := match g.coming with
      | some c => if 0 < signed (n + 2 ^ 32 - c.frame) 32 then h.startTransfer r n else h
      | none => if g.dropped = some n then h else h.startTransfer r n
    match (h.region r).coming, data.isEmpty with
    | some c, false =>
      if c.frame ≠ n then h
      else
        let spoils := c.parts.any (fun p => decide (off < p.1 + p.2 ∧ p.1 < off + data.length)) ||
          decide (e.w * e.h * 2 < off + data.length)
        let h := h.setRegion r { h.region r with
          coming := some { c with parts := (off, data.length) :: c.parts, spoiled := c.spoiled || spoils } }
        match spoils, h.bufferCa r c.buffer e with
        | false, some ca => h.caPut 0xFF (ca + off) data
        | _, _ => h
    | _, _ => h

/-- An END arrives: the transfer completes where its total matches and every byte has arrived exactly once (R360). -/
def HostSide.stitchEnd (h : HostSide) (r n total : Nat) (tag : Tag) (state : Nat) : HostSide :=
  match h.recvEntry r, (h.region r).coming with
  | some e, some c =>
    if c.frame ≠ n then h
    else
      let got := c.parts.foldl (fun a p => a + p.2) 0
      if total = e.w * e.h * 2 ∧ got = total ∧ !c.spoiled then
        let h := h.setRegion r { h.region r with latest := some ⟨n, tag, state, c.buffer⟩, coming := none }
        ((h.put (Reg.STC_REGION_VALID r) 1).put (Reg.STC_REGION_WORST r) state).put (Reg.STC_REGION_FRAME_LSB r) n
      else h.setRegion r { h.region r with coming := none }
  | _, _ => h

/-! ## Eye figures and arming (R343, R344, R388) -/

/-- Minimum eye width and height of a lane (Table 15.2). -/
def HostSide.eyeLimits (h : HostSide) (l : Nat) : Nat × Nat :=
  match laneRole l with
  | 1 =>
    let m := match l with
      | 48 => h.get Reg.LNE_HN_MODE_MODE_0
      | 49 => h.get Reg.LNE_HN_MODE_MODE_1
      | 50 => h.get Reg.LNE_HN_MODE_MODE_2
      | _ => h.get Reg.LNE_HN_MODE_MODE_3
    if m = 2 then (400, 40) else (300, 30)
  | 2 => (300, 20)
  | 3 => if h.ilm2400 ((l - 56) / 4) then (250, 20) else (280, 25)
  | 4 => (280, 25)
  | _ => (300, 30)

/-- The calibration codes of a lane and of the host's reference resistor lie within Table 15.2. -/
def HostSide.codesOk (h : HostSide) (l : Nat) : Bool :=
  let z := h.get Reg.LNE_ZREF_CODE
  let t := h.get (Reg.LNE_CAL_TERM l)
  decide (40 ≤ z ∧ z ≤ 215 ∧ 8 ≤ t ∧ t ≤ 55 ∧ (signed (h.get (Reg.LNE_CAL_OFFSET l)) 6).natAbs ≤ 24)

/-- AUTO_ENGINE, AUTO_DECODER, AUTO_RETIRE and SPARE_WARM are 1 without a TWIN section, CE_LIMIT 256 (R378). -/
def HostSide.twinBody (h : HostSide) : TwinBody := h.cfg.twin.getD ⟨0, 1, 1, 1, 1, 256⟩

/-- A spare has been used. -/
def HostSide.spareUsed (h : HostSide) (k : Nat) : Bool :=
  h.flag (Reg.LNE_SPARE_STATUS_ACTIVE k) || tget 0 h.lanes.waking k != 0

/-- Inserts a lane by eye height, ties in ascending lane order. -/
def eyeInsert (x : Nat × Nat) : List (Nat × Nat) → List (Nat × Nat)
  | [] => [x]
  | y :: t => if x.2 < y.2 then x :: y :: t else y :: eyeInsert x t

/-- Host Uliska arms the spares (R388): SP0 to SP11 on the lanes of enabled heads with the smallest eye height, SP12 to
SP15 on the four network lanes in order. -/
def HostSide.armSpares (h : HostSide) : HostSide :=
  let warm := if h.twinBody.spareWarm = 1 then 2 else 1
  let cand := (List.range 48).filter (fun l => (h.headOfLane l).isSome && !h.flag (Reg.LNE_STATUS_REPLACED l))
  let ranked := (cand.map (fun l => (l, h.get (Reg.LNE_QUALITY_EYE_H l)))).reverse.foldl (fun t x => eyeInsert x t) []
  let free := (List.range 12).filter (fun k => !h.spareUsed k)
  let h := (free.zip ranked).foldl (fun h p => h.armSpare p.1 p.2.1 warm true) h
  (List.range 4).foldl (fun h n => if h.spareUsed (12 + n) then h else h.armSpare (12 + n) (48 + n) warm true) h

/-- A lane fails by its figures: a spare that is armed for it, or else a free spare, takes over (R344, R388).
Log entry 58 (DEDUCED). -/
def HostSide.swapWeak (h : HostSide) (l : Nat) : HostSide :=
  match h.armedFor l with
  | some _ => h.triggerLane l false
  | none =>
    match (List.range 16).find? (fun k => spareAllows k l && !h.spareUsed k) with
    | some k => (h.armSpare k l (h.get (Reg.LNE_SPARE_CTRL_MODE k)|> fun m => if m = 0 then 1 else m) true).triggerLane l false
    | none => h

end Sys2Proof.Machine
end

