-- ==== Sys2Proof/Machine/StoreCmd.lean ====
section
/-! DEFINITION. Meanings of the channel commands (13_central_store.md R296 to R304) and the automatic retirement of
16_twin_repair.md R390. DRAM_ACCESS and the coding window stand with the surfaces. -/

namespace Sys2Proof.Machine

/-! ## Automatic retirement (R390) -/

/-- One hour in ns. -/
def hourNs : Int := 3600000000000

/-- Notes a corrected error of a channel; the newest 4,096 of the last hour are kept. Log entry 121 (DEDUCED). -/
def HostSide.noteCe (h : HostSide) (c : Nat) : HostSide :=
  let old := (tget [] h.store.ceTimes c).filter (fun t => decide (dtDiff h.now t < hourNs))
  { h with store := { h.store with ceTimes := tput [] h.store.ceTimes c ((h.now :: old).take 4096) } }

/-- Notes an uncorrectable error that patrol found; 24 h are kept. -/
def HostSide.notePatrolUe (h : HostSide) (c block : Nat) : HostSide :=
  let old := (tget [] h.store.patrolUes c).filter (fun t => t.1 != block && decide (dtDiff h.now t.2 < 24 * hourNs))
  { h with store := { h.store with patrolUes := tput [] h.store.patrolUes c (((block, h.now) :: old).take 2) } }

/-- Corrected errors of a channel within the last hour. -/
def HostSide.ceInHour (h : HostSide) (c : Nat) : Nat :=
  ((tget [] h.store.ceTimes c).filter (fun t => decide (dtDiff h.now t < hourNs))).length

/-- A channel qualifies for retirement. -/
def HostSide.failing (h : HostSide) (c : Nat) : Bool :=
  h.get (Reg.CST_CH_STATUS_ROLE c) == 0 &&
    (decide (h.twinBody.ceLimit ≤ h.ceInHour c) ||
      decide (2 ≤ ((tget [] h.store.patrolUes c).filter (fun t => decide (dtDiff h.now t.2 < 24 * hourNs))).length))

/-- The failing channel of the highest count. -/
def HostSide.worstChannel (h : HostSide) : Option Nat :=
  (List.range 12).foldl (fun best c =>
    if h.failing c then
      (match best with
        | some b => if h.ceInHour b < h.ceInHour c then some c else some b
        | none => some c)
    else best) none

/-- 10 s have passed since the activation of the active image. -/
def HostSide.settled (h : HostSide) : Bool :=
  h.activeId == 0 || decide (10000000000 ≤ dtDiff h.now
    (BitVec.ofNat 64 (h.pair Reg.SIM_ACTIVE_EPOCH_LO_DT Reg.SIM_ACTIVE_EPOCH_HI_DT)))

/-- Host Uliska starts a retirement of a failing channel (R390). Log entry 121 (DEDUCED). -/
def HostSide.autoRetire (h : HostSide) : HostSide :=
  if h.twinBody.autoRetire = 1 ∧ h.spareCh.isSome ∧ !h.retiringNow ∧ h.settled then
    match h.worstChannel with
    | some c => h.startRetire c
    | none => h
  else h

/-! ## Patrol and refresh (R296 to R299) -/

/-- PATROL_READ (R296, R300, R390): of an idle channel that is not retired; a sleeping channel wakes. -/
def execPatrolRead (ch : Fin 12) (block : Nat) (ecc : EccFact) (s : State) : Out :=
  hostCmd s (fun h =>
    let c := ch.val
    if channelBlocks ≤ block ∨ h.get (Reg.CST_CH_STATUS_ROLE c) = 2 ∨ h.dramQueue c ≠ [] then h
    else if tget 0 h.store.srPhase c = 1 then
      (({ h with store := { h.store with srPhase := tput 0 h.store.srPhase c 2 } }).touch c)
    else if !h.canServe c then h
    else
      let h := (h.touch c).selfRead c block 2 ecc
      let h := match ecc with
        | .clean => h
        | .correctable => h.noteCe c
        | .uncorrectable _ _ => h.notePatrolUe c block
      h.autoRetire)

/-- REFRESH (R297): of an awake channel. -/
def execRefresh (ch : Fin 12) (bank : Fin 256) (s : State) : Out :=
  hostCmd s (fun h =>
    if h.get (Reg.CST_CH_STATUS_STATE ch.val) = 3 then h
    else { h with store := { h.store with
      refreshed := tput 0 h.store.refreshed (ch.val * 256 + bank.val) h.tb.raw.toNat } })

/-- REFRESH_WINDOW (R297): every activation table is emptied. -/
def execRefreshWindow (s : State) : Out :=
  hostCmd s (fun h => { h with store := { h.store with actTables := [] } })

/-! ## Self-refresh, training and rates (R299 to R302) -/

/-- SELF_REFRESH_ENTRY (R299). -/
def execSelfRefreshEntry (ch : Fin 12) (s : State) : Out :=
  hostCmd s (fun h =>
    let c := ch.val
    if h.get (Reg.CST_CH_STATUS_ROLE c) ≠ 0 ∧ h.flag (Reg.CST_CH_STATUS_SR_EN c) ∧ h.canServe c ∧ h.dramQueue c = [] ∧
        tget 0 h.store.lastReq c + h.cfg.cst.srIdleUs * 400 ≤ h.tb.raw.toNat then
      ({ h with store := { h.store with srPhase := tput 0 h.store.srPhase c 1 } }).put (Reg.CST_CH_STATUS_STATE c) 2
        |>.bump (Reg.CST_CH_RH_SR_ENTRIES c)
    else h)

/-- SELF_REFRESH_EXIT (R300). -/
def execSelfRefreshExit (ch : Fin 12) (s : State) : Out :=
  hostCmd s (fun h =>
    let c := ch.val
    if tget 0 h.store.srPhase c = 2 then
      (({ h with store := { h.store with srPhase := tput 0 h.store.srPhase c 0 } }).put (Reg.CST_CH_STATUS_STATE c) 0).touch c
    else h)

/-- RETRAIN_PAUSE (R301): at most one in every 128 µs of an awake channel. -/
def execRetrainPause (ch : Fin 12) (ns : Fin 401) (s : State) : Out :=
  hostCmd s (fun h =>
    let c := ch.val
    let last := tget 0 h.store.lastPause c
    if h.canServe c ∧ (last = 0 ∨ last + 51200 ≤ h.tb.raw.toNat) then
      { h with store := { h.store with
        lastPause := tput 0 h.store.lastPause c h.tb.raw.toNat,
        burstEnd := tput 0 h.store.burstEnd c (h.tb.raw.toNat + ns.val * 2 / 5) } }
    else h)

/-- CHANNEL_RATE_WRITE (R302, 19_register_map.md R434): ignored while the channel is in use. -/
def execChannelRateWrite (who : Requester) (ch : Fin 12) (v : Word) (s : State) : Out :=
  regCmd s who (fun h =>
    let h := h.answer .none
    if h.rateInactive ch.val then h.newRate ch.val (bits v.toNat 0 2) else h)

/-- CHANNEL_TRAINED (R302). -/
def execChannelTrained (ch : Fin 12) (s : State) : Out :=
  hostCmd s (fun h =>
    let c := ch.val
    if h.get (Reg.CST_CH_STATUS_STATE c) = 4 then
      ((h.put (Reg.CST_CH_STATUS_RATE_NOW c) (h.get (Reg.CST_CH_CTRL_RATE c))).put (Reg.CST_CH_STATUS_STATE c) 0).touch c
    else h)

/-! ## Retirement (R303 to R305) -/

/-- CHANNEL_RETIRE (R303): from a secure context. -/
def execChannelRetire (who : Requester) (ch : Fin 16) (s : State) : Out :=
  regCmd s who (fun h =>
    if who.isSecure then (h.answer .none).startRetire ch.val
    else (h.bump Reg.CST_SEC_VIOL_COUNT).refuseWrite who)

/-- RETIRE_WAKE_DONE (R303). -/
def execRetireWakeDone (s : State) : Out :=
  hostCmd s (fun h =>
    match h.spareCh with
    | some sp =>
      if h.get Reg.CST_STATUS_RETIRE_STATE = 1 ∧ h.canServe sp ∧ h.get (Reg.CST_CH_STATUS_RATE_NOW sp) = 0 then
        h.put Reg.CST_STATUS_RETIRE_STATE 2
      else h
    | none => h)

/-- RETIRE_COPY_BLOCK (R303, R304): only while no other request is queued on either channel. Both hold the CAs that
the slot has, so the copy moves no byte of the central store. -/
def execRetireCopyBlock (ecc : EccFact) (s : State) : Out :=
  hostCmd s (fun h =>
    match h.store.retiring, h.spareCh with
    | some ch, some sp =>
      if h.get Reg.CST_STATUS_RETIRE_STATE = 2 ∧ h.store.copied < channelBlocks ∧ h.dramQueue ch = [] ∧ h.dramQueue sp = [] ∧
          h.canServe ch ∧ h.canServe sp then
        let n := h.store.copied
        let h := ((h.touch ch).touch sp).selfRead ch n 3 ecc
        let h := { h with store := { h.store with copied := n + 1 } }
        h.put Reg.CST_RETIRE_PROGRESS_MIB ((n + 1) / 16384)
      else h
    | _, _ => h)

/-- RETIRE_COPY_DONE (R303). -/
def execRetireCopyDone (s : State) : Out :=
  hostCmd s (fun h =>
    if h.get Reg.CST_STATUS_RETIRE_STATE = 2 ∧ h.store.copied = channelBlocks then h.retireSwitch else h)

/-- RETIRE_DRAIN_DONE (R303): the retired channel stays retired across resets (R289). -/
def execRetireDrainDone (s : State) : Out :=
  hostState s (fun s =>
    match s.host.store.retiring with
    | some ch =>
      if s.host.get Reg.CST_STATUS_RETIRE_STATE = 3 ∧ s.host.dramQueue ch = [] then
        { s with host := s.host.retireDone, phys := { s.phys with retired := some ch } }
      else s
    | none => s)

/-- UE_SELECT (R295). -/
def execUeSelect (who : Requester) (v : Word) (s : State) : Out :=
  regCmd s who (fun h => ((h.answer .none).put Reg.CST_UE_SEL_INDEX (bits v.toNat 0 10)).showUe)

end Sys2Proof.Machine
end

