-- ==== Sys2Proof/Machine/Access.lean ====
section
/-! DEFINITION. Meanings of the accesses to the central store: a request at the matrix, a BAR2 request and a channel's
service (13_central_store.md, 14_tartan_protection.md, 19_register_map.md). -/

namespace Sys2Proof.Machine

/-- DRAM_ACCESS (R293, R297, R390). Log entry 121 (DEDUCED). -/
def execDramAccess (ch : Fin 12) (ecc : EccFact) (bank : Fin 256) (row : Option Nat) (s : State) : Out :=
  hostCmd s (fun h =>
    let g := h.dramServe ch.val ecc bank.val row
    if ecc = .correctable ∧ h.servesStored ch.val then (g.noteCe ch.val).autoRetire else g)

/-- TARTAN_REQUEST (R314 to R318, R328 to R330). -/
def execTartanRequest (req : TReq) (s : State) : Out := hostCmd s (fun h => h.presentRequest req)

/-- BAR2_REQUEST (R292, R309, R316, R429). Log entry 215 (DEDUCED). -/
def execBar2Request (off : BitVec 32) (op : DramOp) (s : State) : Out :=
  hostCmd s (fun h => if h.pcieUp then h.bar2 off.toNat op else h)

end Sys2Proof.Machine
end

