-- ==== Sys2Proof/Machine/Float.lean ====
section
/-! DEFINITION. binary32 and binary64 values as the points and guard terms use them (10_field_points_commands.md R226,
R233, R240; 07_mimic.md R174): exact values, rounding to nearest with ties to even, and the comparisons. -/

namespace Sys2Proof.Machine

/-- Rounds a quotient to the nearest integer, ties to even. -/
def roundEven (n d : Nat) : Nat :=
  let q := n / d
  let r := n % d
  if 2 * r < d then q else if d < 2 * r then q + 1 else if q % 2 = 0 then q else q + 1

/-- binary32 of magnitude `num ÷ den`, rounded to nearest, ties to even; a magnitude too large gives infinity. -/
def f32Mag (num den : Nat) : Nat :=
  let n := num * 2 ^ 149
  let l := Nat.log2 (n / den)
  let sh := l - 23
  min (sh * 2 ^ 23 + roundEven n (den * 2 ^ sh)) 0x7F800000

/-- binary32 of a signed quotient; the sign of a zero is plus. -/
def f32Of (num : Int) (den : Nat) : Nat :=
  if num < 0 then 2 ^ 31 + f32Mag num.natAbs den else f32Mag num.natAbs den

def f32Nan (x : Nat) : Bool := bits x 23 8 == 255 && bits x 0 23 != 0
def f32Inf (x : Nat) : Bool := bits x 23 8 == 255 && bits x 0 23 == 0

/-- A finite binary32 as an integer number of 2^-149. -/
def f32Int (x : Nat) : Int :=
  let e := bits x 23 8
  let m := if e = 0 then bits x 0 23 else (2 ^ 23 + bits x 0 23) * 2 ^ (e - 1)
  if bit x 31 then -(m : Int) else m

/-- The order of binary32 values that are no NaN; the two zeros are equal. -/
def f32Key (x : Nat) : Int := if bit x 31 then -(bits x 0 31 : Int) else (bits x 0 31 : Int)

def f32Lt (a b : Nat) : Bool := !f32Nan a && !f32Nan b && decide (f32Key a < f32Key b)
def f32Le (a b : Nat) : Bool := !f32Nan a && !f32Nan b && decide (f32Key a ≤ f32Key b)
def f32Eq (a b : Nat) : Bool := !f32Nan a && !f32Nan b && decide (f32Key a = f32Key b)

/-- |a − b| in binary32; none where it is a NaN. -/
def f32AbsDiff (a b : Nat) : Option Nat :=
  if f32Nan a || f32Nan b then none
  else if f32Inf a || f32Inf b then (if f32Key a = f32Key b then none else some 0x7F800000)
  else some (f32Mag (f32Int a - f32Int b).natAbs (2 ^ 149))

/-- |x|. -/
def f32Abs (x : Nat) : Nat := bits x 0 31

/-- A binary64 in binary32; none for a NaN, whose payload no rule gives. -/
def f64ToF32 (x : Nat) : Option Nat :=
  let e := bits x 52 11
  let sign := if bit x 63 then 2 ^ 31 else 0
  if e = 2047 then (if bits x 0 52 = 0 then some (sign + 0x7F800000) else none)
  else some (sign + f32Mag (if e = 0 then bits x 0 52 else (2 ^ 52 + bits x 0 52) * 2 ^ (e - 1)) (2 ^ 1074))

/-- binary32 of a point's VALUE by its TYPE (07_mimic.md R174). -/
def pointF32 (type value : Nat) : Nat :=
  match type with
  | 2 => f32Of (signed value 32) 1
  | 3 => value % 2 ^ 32
  | _ => f32Of value 1

/-- The condition of a guard term (R240); a NaN satisfies only 0x1 and 0x7. Log entry 206 (DEDUCED). -/
def guardCond (op x operand : Nat) : Bool :=
  match op with
  | 0 => f32Eq x operand
  | 1 => !f32Eq x operand
  | 2 => f32Lt x operand
  | 3 => f32Le x operand
  | 4 => f32Lt operand x
  | 5 => f32Le operand x
  | 6 => f32Le (f32Abs x) operand
  | 7 => f32Nan x || f32Nan operand || f32Lt operand (f32Abs x)
  | _ => false

end Sys2Proof.Machine
end

