-- ==== Sys2Proof/Machine/TimeOps.lean ====
section
/-! DEFINITION. Operations of the time bases: the synchronised state, rate changes, steps and the servo
(12_time.md R272 to R287). -/

namespace Sys2Proof.Machine

/-- SYNC_OK in TIM.SYNC_STATUS and FRS.SYNC_BOUND (R285). -/
def HostSide.showSync (h : HostSide) : HostSide :=
  (h.putB Reg.TIM_SYNC_STATUS_SYNC_OK h.tb.syncOk).putB Reg.FRS_SYNC_BOUND_SYNC_OK h.tb.syncOk

/-- The host time base takes an INCR in range (R274). -/
def HostSide.setIncr (h : HostSide) (v : Nat) : HostSide :=
  if incrOk v then ({ h with tb := h.tb.setIncr (BitVec.ofNat 32 v) }).put Reg.TIM_INCR_INCR v else h

/-- The host time base takes an OFFSET: one step (R275). Log entry 43 (DEDUCED). -/
def HostSide.stepOffset (h : HostSide) (v : BitVec 64) : HostSide :=
  ((({ h with tb := h.tb.step v }).putPair Reg.TIM_OFFSET_LO_OFFSET Reg.TIM_OFFSET_HI_OFFSET v.toNat).bump
    Reg.TIM_COUNTS_STEPS).showSync

/-- Uliska may confirm (R285): there is a slave port, and each of the last 8 Sync messages, none of them before a step,
had an offset below the limit. -/
def TimeBase.mayConfirm (t : TimeBase) (limit : Nat) : Bool :=
  t.slave.isSome && t.offsets.length == 8 && t.offsets.all (fun e => decide (e < limit))

/-- A CONFIRM, or a LOSE, at a time base (R285): a LOSE in the same write wins, as does a step in the same tick. Uliska
writes no CONFIRM while it may not. -/
def TimeBase.confirm (t : TimeBase) (lose : Bool) (limit : Nat) : TimeBase :=
  { t with syncUntil := if lose || t.next.isSome then none
                        else if t.mayConfirm limit then some (t.now + 250000000) else t.syncUntil }

/-- Ends an elapsed confirm window. -/
def TimeBase.expire (t : TimeBase) : TimeBase :=
  match t.syncUntil with
  | some e => if dtReached t.now e then { t with syncUntil := none } else t
  | none => t

/-- The largest change of INCR in 2 ms: 100 ppm of 2.5 ns (R281). Log entry 7 (DESIGN CHOICE). -/
def servoLimit : Nat := 67108

/-- The values of INCR that R281 and R274 allow a servo now: at most 100 ppm from every value of the last 2 ms. Log entry 7 (DESIGN CHOICE). -/
def TimeBase.incrRange (t : TimeBase) : Nat × Nat :=
  let was := t.recent.map (·.1)
  (was.foldl (fun m v => max m (v - servoLimit)) (max 0x27F5C290 (t.incr.toNat - servoLimit)),
   was.foldl (fun m v => min m (v + servoLimit)) (min 0x280A3D70 (t.incr.toNat + servoLimit)))

/-- A servo's rate correction: a value that the implementation chooses within the limits (log entry 7).
Log entry 7 (DESIGN CHOICE). -/
def TimeBase.servoIncr (t : TimeBase) (choice : Nat) : BitVec 32 :=
  let (lo, hi) := t.incrRange
  if hi < lo then t.incr else BitVec.ofNat 32 (lo + choice % (hi - lo + 1))

/-- The offsets of the last 8 Sync messages. -/
def TimeBase.noteOffset (t : TimeBase) (e : Int) : TimeBase := { t with offsets := (e.natAbs :: t.offsets).take 8 }

/-- Counts a gPTP frame outside the subset (R280). -/
def TimeBase.gptpDiscard (t : TimeBase) (port : Nat) : TimeBase :=
  { t with discards := tput 0 t.discards port (tget 0 t.discards port + 1) }

/-- The best master clock algorithm's result at a port (R280): at most one slave port. -/
def TimeBase.announced (t : TimeBase) (port : Nat) (gm : Nat) (slave : Bool) : TimeBase :=
  if slave then { t with slave := some port, gm := gm }
  else if t.slave = some port then { t with slave := none } else t

/-- A port on which gPTP is switched off is slave no more (R280). -/
def TimeBase.portOff (t : TimeBase) (port : Nat) : TimeBase :=
  if t.slave = some port then { t with slave := none } else t

/-- A Sync, or the Follow_Up of the Sync before it, gives the domain time `origin` at which it left the peer; the answer is
the offset of the side's DT, by the ingress timestamp, the link delay and the asymmetry (R280, R283). -/
def TimeBase.offsetOf (t : TimeBase) (port : Nat) (stamp origin : DT) (asym : Int) : Int :=
  dtDiff stamp origin - (tget 0 t.gptp.delay port + asym)

/-- A two-step Sync waits for its Follow_Up. -/
def TimeBase.awaitFollowUp (t : TimeBase) (port : Nat) (stamp : DT) : TimeBase :=
  { t with gptp := { t.gptp with syncAt := some (port, stamp) } }

/-- The ingress timestamp of the Sync that a Follow_Up belongs to. -/
def TimeBase.followed (t : TimeBase) (port : Nat) : Option DT × TimeBase :=
  match t.gptp.syncAt with
  | some (p, x) => if p = port then (some x, { t with gptp := { t.gptp with syncAt := none } }) else (none, t)
  | none => (none, t)

/-- A peer-delay request leaves. -/
def TimeBase.delayAsked (t : TimeBase) (port : Nat) (stamp : DT) : TimeBase :=
  { t with gptp := { t.gptp with reqAt := tput none t.gptp.reqAt port (some stamp) } }

/-- A peer-delay response with its ingress timestamp gives the mean link delay. Log entry 252 (PRESUMED). -/
def TimeBase.delayHeard (t : TimeBase) (port : Nat) (stamp : DT) (turnaround : Nat) : TimeBase :=
  match tget none t.gptp.reqAt port with
  | none => t
  | some t1 => { t with gptp := { t.gptp with
      reqAt := tput none t.gptp.reqAt port none
      delay := tput 0 t.gptp.delay port ((dtDiff stamp t1 - turnaround) / 2) } }

/-- Number of a kind among the messages of a port. -/
def GptpSend.code : GptpSend → Nat
  | .sync => 0
  | .announce => 1
  | .pdelayReq => 2

/-- The interval of a kind of message has passed since the last one. -/
def TimeBase.sendDue (t : TimeBase) (port : Nat) (kind : GptpSend) (interval : Nat) : Bool :=
  match tget none t.gptp.sentAt (3 * port + kind.code) with
  | none => true
  | some x => decide ((interval : Int) ≤ dtDiff t.now x)

def TimeBase.noteSent (t : TimeBase) (port : Nat) (kind : GptpSend) : TimeBase :=
  { t with gptp := { t.gptp with sentAt := tput none t.gptp.sentAt (3 * port + kind.code) (some t.now) } }

/-- SLAVE_PORT of TIM.SYNC_STATUS: 0b100 to 0b111 for HN0 to HN3. -/
def HostSide.showSlave (h : HostSide) : HostSide :=
  h.put Reg.TIM_SYNC_STATUS_SLAVE_PORT (match h.tb.slave with | some p => 4 + p | none => 0)

/-- The error saturated to 16 signed bits. -/
def satError (e : Int) : Nat := unsigned (max (-32768) (min 32767 e)) 16

/-- A correction of a host port in force: a write holds from the tick after it (R283). -/
def HostSide.corr (h : HostSide) (f : Fld) : Int :=
  signed (match tget 0 h.corrOld f.off with | 0 => h.get f | x + 1 => x) 32

/-- The ingress timestamp of what arrives at a host port now (R283). -/
def HostSide.ingressAt (h : HostSide) (port : Nat) : DT := h.now - BitVec.ofInt 64 (h.corr (Reg.TIM_PORT_INGRESS_NS port))

/-- The egress timestamp of what leaves a host port now (R283). -/
def HostSide.egressAt (h : HostSide) (port : Nat) : DT := h.now + BitVec.ofInt 64 (h.corr (Reg.TIM_PORT_EGRESS_NS port))

/-- The offset at a Sync of the host's slave port (R281, R282): a new EPOCH_SHIFT is applied with one step, a first lock or
an error above 1 ms steps OFFSET, every smaller error is corrected by rate alone. -/
def HostSide.servo (h : HostSide) (offset : Int) : HostSide :=
  let target := (BitVec.ofNat 64 (h.pair Reg.TIM_EPOCH_SHIFT_LO_SHIFT Reg.TIM_EPOCH_SHIFT_HI_SHIFT))
  let new := h.shiftNew
  let shift := if new then target else h.shift
  let err := offset - shift.toInt
  let h := h.put Reg.TIM_SYNC_STATUS_ERROR (satError err)
  let h := { h with shift := shift, shiftNew := false, tb := h.tb.noteOffset err }
  if new ∨ !h.tb.locked ∨ err.natAbs > 1000000 then
    let h := h.stepOffset (h.tb.written - BitVec.ofInt 64 err)
    { h with tb := { h.tb with locked := true } }
  else
    let (c, h) := h.free (2 ^ 32)
    let v := h.tb.servoIncr c
    ({ h with tb := h.tb.setIncr v }).put Reg.TIM_INCR_INCR v.toNat

/-- A host port sends a gPTP message now. -/
def HostSide.gptpOut (h : HostSide) (port : Nat) (m : GptpOut) : HostSide := h.send (.gptp port m (h.egressAt port))

/-- A host port answers a peer-delay request in two steps (R280). -/
def HostSide.answerDelay (h : HostSide) (port : Nat) : HostSide :=
  let sent := h.egressAt port
  (h.gptpOut port (.pdelayResp (h.ingressAt port))).gptpOut port (.pdelayRespFollowUp sent)

/-- A domain time reaches the host's slave port with a Sync whose ingress timestamp is `stamp`. -/
def HostSide.syncTime (h : HostSide) (port : Nat) (stamp origin : DT) : HostSide :=
  if h.tb.slave = some port then
    h.servo (h.tb.offsetOf port stamp origin (h.corr (Reg.TIM_PORT_ASYM_NS port)))
  else h

/-- gPTP runs on a host port: on a network port enabled in HN_EN, and on the lane of an enabled head while HEAD_MASTER is
1. -/
def HostSide.gptpOn (h : HostSide) (port : Nat) : Bool :=
  if port < 4 then bit (h.get Reg.TIM_GPTP_CTRL_HN_EN) port
  else h.flag Reg.TIM_GPTP_CTRL_HEAD_MASTER && h.flag (Reg.HDS_STATUS_ENABLED (port - 4))

/-- A gPTP message at a host port (R280): network ports enabled in HN_EN may be slave; head lanes are masters and take
peer-delay messages only. -/
def HostSide.gptp (h : HostSide) (port : Nat) (m : GptpMsg) : HostSide :=
  let discard : HostSide := { h with tb := h.tb.gptpDiscard port }
  let dom (d : BitVec 8) : Bool := h.gptpOn port && d.toNat == h.get Reg.TIM_GPTP_CTRL_DOMAIN
  let net (d : BitVec 8) : Bool := decide (port < 4) && dom d
  match m with
  | .sync d i o =>
    if net d && decide (-7 ≤ i ∧ i ≤ 0) then
      (match o with
        | some t => h.syncTime port (h.ingressAt port) t
        | none => { h with tb := h.tb.awaitFollowUp port (h.ingressAt port) })
    else discard
  | .followUp d t =>
    if net d then
      (match h.tb.followed port with
        | (some x, tb) => ({ h with tb := tb }).syncTime port x t
        | (none, _) => h)
    else discard
  | .announce d gm sl =>
    if net d then ({ h with tb := h.tb.announced port gm.toNat sl }).showSlave else discard
  | .pdelayReq d => if dom d then h.answerDelay port else discard
  | .pdelayResp d n => if dom d then { h with tb := h.tb.delayHeard port (h.ingressAt port) n } else discard
  | .other => discard

/-- The offset at a Sync of the field side's slave port: the same servo without EPOCH_SHIFT (R281, R286). -/
def FieldSide.servo (f : FieldSide) (offset : Int) : FieldSide :=
  let tb := f.tb.noteOffset offset
  if !tb.locked ∨ offset.natAbs > 1000000 then
    { f with tb := { tb.step (tb.written - BitVec.ofInt 64 offset) with locked := true } }
  else
    let (c, f) := f.free (2 ^ 32)
    { f with tb := tb.setIncr (tb.servoIncr c) }

/-- A domain time reaches the field's slave port; field links count as symmetric (R284). -/
def FieldSide.syncTime (f : FieldSide) (port : Nat) (stamp origin : DT) : FieldSide :=
  if f.tb.slave = some port then f.servo (f.tb.offsetOf port stamp origin 0) else f

/-- A write of a secure TIM register (R433): from any source but a secure context it is counted and has no effect. -/
def HostSide.timWrite (h : HostSide) (who : Requester) (f : HostSide → HostSide) : HostSide :=
  if who.isSecure then f (h.answer .none) else (h.bump Reg.TIM_COUNTS_SEC_VIOL).refuseWrite who

/-- A low word that a write holds until its high word comes (R287). -/
def HostSide.holdLow (h : HostSide) (off v : Nat) : HostSide := { h with heldLo := tput 0 h.heldLo off (v + 1) }

/-- The low word that goes with a high word: the one held, or the current one. The hold ends. -/
def HostSide.takeLow (h : HostSide) (f : Fld) : Nat × HostSide :=
  let v := match tget 0 h.heldLo f.off with
    | 0 => h.get f
    | x + 1 => x
  (v, { h with heldLo := tput 0 h.heldLo f.off 0 })

/-- A write of TIM.OFFSET_HI (R275, R287). Log entry 43 (DEDUCED). -/
def HostSide.writeOffsetHi (h : HostSide) (v : Nat) : HostSide :=
  let (lo, h) := h.takeLow Reg.TIM_OFFSET_LO_OFFSET
  h.stepOffset (BitVec.ofNat 64 (lo + 2 ^ 32 * v))

/-- A write of TIM.EPOCH_SHIFT_HI (R282, R287): applied at the next servo update; ignored while an image is active. -/
def HostSide.writeShiftHi (h : HostSide) (v : Nat) : HostSide :=
  let (lo, h) := h.takeLow Reg.TIM_EPOCH_SHIFT_LO_SHIFT
  if h.pair Reg.SIM_ACTIVE_ID_LO_ID Reg.SIM_ACTIVE_ID_HI_ID ≠ 0 then h
  else { (h.putPair Reg.TIM_EPOCH_SHIFT_LO_SHIFT Reg.TIM_EPOCH_SHIFT_HI_SHIFT (lo + 2 ^ 32 * v)) with shiftNew := true }

/-- A write of TIM.SYNC (R285). -/
def HostSide.writeSync (h : HostSide) (confirm lose : Bool) : HostSide :=
  if confirm || lose then ({ h with tb := h.tb.confirm lose (h.get Reg.TIM_SYNC_LIMIT_LIMIT) }).showSync else h

/-- The slave port's receipt timeout (R280): the port is slave no more. -/
def TimeBase.receiptTimeout (t : TimeBase) : TimeBase := { t with slave := none }

/-- The interval of what a host port sends: Sync at LOG_SYNC, Announce and Pdelay_Req every second (R280). -/
def HostSide.gptpInterval (h : HostSide) (kind : GptpSend) : Nat :=
  match kind with
  | .sync =>
    let l := signed (h.get Reg.TIM_GPTP_CTRL_LOG_SYNC) 4
    if l < 0 then 1000000000 / 2 ^ l.natAbs else 1000000000 * 2 ^ l.natAbs
  | _ => 1000000000

/-- A host port sends what its interval brings (R280, R283): a head's lane Sync in two steps, Announce with priority1 255
and Pdelay_Req, a network port Pdelay_Req only. Log entry 252 (PRESUMED). -/
def HostSide.gptpSend (h : HostSide) (port : Nat) (kind : GptpSend) : HostSide :=
  if h.gptpOn port && (decide (4 ≤ port) || kind == .pdelayReq) && h.tb.sendDue port kind (h.gptpInterval kind) then
    let h := { h with tb := h.tb.noteSent port kind }
    let t := h.egressAt port
    match kind with
    | .sync => (h.gptpOut port .sync).gptpOut port (.followUp (t - h.shift))
    | .announce => h.gptpOut port (.announce 255 h.tb.gm)
    | .pdelayReq => ({ h with tb := h.tb.delayAsked port t }).gptpOut port .pdelayReq
  else h

end Sys2Proof.Machine
end

