-- ==== Sys2Proof/Machine/FieldOps.lean ====
section
/-! DEFINITION. Operations of the field side (10_field_points_commands.md): gate windows, sequence recovery, point
updates and guard runs, batches, command validation, launch and acknowledge; and the interlock's gate and eligibility
(16_twin_repair.md R369 to R371). -/

namespace Sys2Proof.Machine

/-! ## Small accessors -/

def FieldSide.setWork (f : FieldSide) (w : FieldWork) : FieldSide := { f with work := w }
def FieldSide.rec_ (f : FieldSide) (p : Nat) : PointRec := tget PointRec.blank f.work.recs p
def FieldSide.setRec (f : FieldSide) (p : Nat) (r : PointRec) : FieldSide :=
  f.setWork { f.work with recs := tput PointRec.blank f.work.recs p r }
def FieldSide.src (f : FieldSide) (i : Nat) : SourceState := tget SourceState.fresh f.work.sources i
def FieldSide.setSrc (f : FieldSide) (i : Nat) (v : SourceState) : FieldSide :=
  f.setWork { f.work with sources := tput SourceState.fresh f.work.sources i v }
def FieldSide.fieldCfg (f : FieldSide) : FieldCfg := f.act.field.getD ⟨0, 0, [], [], [], []⟩
def FieldSide.sourceEntry (f : FieldSide) (i : Nat) : Option SourceEntry := f.fieldCfg.sources.find? (fun e => e.source == i)
def FieldSide.portEntry (f : FieldSide) (p : Nat) : Option PortEntry := f.fieldCfg.ports.find? (fun e => e.port == p)
def FieldSide.targetEntry (f : FieldSide) (t : Nat) : Option TargetEntry := f.act.targets.find? (fun e => e.target == t)
def FieldSide.emit (f : FieldSide) (x : FieldSent) : FieldSide := f.setWork { f.work with sent := x :: f.work.sent }

/-- Discards a received message and counts it against its port (R225). -/
def FieldSide.drop (f : FieldSide) (port : Nat) : FieldSide :=
  f.setWork { f.work with drops := tput 0 f.work.drops port (tget 0 f.work.drops port + 1),
                          parseDrops := (f.work.parseDrops + 1) % 2 ^ 32 }

/-- The lane that serves a field port: its own, or the spare that replaced it (15_lanes.md R350). -/
def FieldSide.laneOf (f : FieldSide) (p : Nat) : Nat := (tget FieldLane.reset f.lanes p).spare.getD p

/-- The port has link: a mode, and an UP lane that sees signal. -/
def FieldSide.portUp (f : FieldSide) (p : Nat) : Bool :=
  let l := tget FieldLane.reset f.lanes (f.laneOf p)
  ((f.portEntry p).map (·.mode)).getD 0 != 0 && l.state == 3 && !l.los && !l.lol

/-! ## Gate windows (R223) -/

/-- Bits per ns, times 2, of a port mode: 1, 2.5 and 10 Gb/s. -/
def modeRate2 (mode : Nat) : Nat := match mode with | 1 => 2 | 2 => 5 | 3 => 20 | _ => 2

/-- Time on the wire of a frame of `n` bytes with its check sequence, preamble and gap, in ns. -/
def wireNs (mode n : Nat) : Nat := cdiv ((n + 20) * 16) (modeRate2 mode)

/-- A command frame that takes `w` ns may begin at `t`. -/
def PortEntry.commandFits (e : PortEntry) (t w : Nat) : Bool :=
  let r := t % e.cycleNs
  decide (e.winOpenNs ≤ r ∧ r + w ≤ e.winOpenNs + e.winLenNs)

/-- The earliest instant from `t` at which another frame that takes `w` ns may begin; none when the window leaves it no
room in any cycle. -/
def PortEntry.otherStart (e : PortEntry) (t w : Nat) : Option Nat :=
  let r := t % e.cycleNs
  let b := t - r
  let close := e.winOpenNs + e.winLenNs
  if e.cycleNs < w + e.winLenNs then none
  else if r < e.winOpenNs then (if r + w ≤ e.winOpenNs then some t else some (b + close))
  else if r < close then some (b + close)
  else if r + w ≤ e.cycleNs + e.winOpenNs then some t else some (b + e.cycleNs + close)

/-- Bytes of a frame on the wire without preamble and gap: header, tags, body and check sequence, at least 64.
Log entry 254 (PRESUMED). -/
def frameBytes (vid : Nat) (rtag : Option Nat) (n : Nat) : Nat :=
  max 64 (14 + (if vid = 0 then 0 else 4) + (if rtag.isNone then 0 else 6) + n + 4)

/-- Bytes of a frame's body: an ARP packet, an IGMPv3 report of one group with the router alert option, a datagram, a
segment, a segment without data. Log entry 254 (PRESUMED). -/
def FieldBody.bytes : FieldBody → Nat
  | .arp .. => 28
  | .igmp .. => 40
  | .udp _ _ _ d => 28 + d.length
  | .tcp _ _ _ d => 40 + d.length
  | .connect .. => 40
  | .gptp _ => 54

/-- The VLAN that a port's frame goes in: gPTP frames carry no tag. Log entry 252 (PRESUMED). -/
def PortEntry.vidOf (e : PortEntry) (b : FieldBody) : Nat := match b with | .gptp _ => 0 | _ => e.vid

/-- Ns that a frame takes on a port. -/
def PortEntry.takes (e : PortEntry) (vid : Nat) (rtag : Option Nat) (b : FieldBody) : Nat :=
  wireNs e.mode (frameBytes vid rtag b.bytes)

/-- The later of two DTs, one of which may be absent. -/
def dtLater (t : DT) : Option DT → DT
  | none => t
  | some u => if dtReached t u then t else u

/-- The ingress timestamp at the J-F pins of what arrives now (12_time.md R284). -/
def FieldSide.arrival (f : FieldSide) : DT := f.now - BitVec.ofNat 64 f.latIn

/-- The egress timestamp at the J-F pins of what leaves now (12_time.md R284). -/
def FieldSide.departure (f : FieldSide) : DT := f.now + BitVec.ofNat 64 f.latOut

/-- A frame that is no command: it begins at the earliest instant that its gate and the frames before it allow, and the
answer is that instant (R223). A port that is disabled, or whose gate leaves the frame no room, sends nothing. Log
entries 68 (DEDUCED), 249 (DESIGN CHOICE). -/
def FieldSide.sendOther (f : FieldSide) (port dest : Nat) (body : FieldBody) : Option DT × FieldSide :=
  match f.portEntry port with
  | none => (none, f)
  | some e =>
    let w := e.takes (e.vidOf body) none body
    match if e.mode = 0 then none else e.otherStart (dtLater f.departure (tget none f.work.busyOther port)).toNat w with
    | none => (none, f)
    | some t =>
      let t := BitVec.ofNat 64 t
      (some t, (f.setWork { f.work with
        busyOther := tput none f.work.busyOther port (some (t + BitVec.ofNat 64 w)) }).emit
          ⟨port, dest, e.mac, e.pcp, e.vidOf body, none, body, t⟩)

/-- The MAC address of gPTP. Log entry 252 (PRESUMED). -/
def gptpMac : Nat := 0x0180C200000E

/-- The MAC address of the group of all IGMPv3 routers, 224.0.0.22. Log entry 254 (PRESUMED). -/
def igmpMac : Nat := 0x01005E000016

/-- A membership report for a group (R222). -/
def FieldSide.sendReport (f : FieldSide) (port group : Nat) : FieldSide :=
  (f.sendOther port igmpMac (.igmp (((f.portEntry port).map (·.ipv4)).getD 0) group)).2

/-- The TCP connection of a Modbus source is opened (R227). -/
def FieldSide.sendConnect (f : FieldSide) (e : SourceEntry) : FieldSide :=
  (f.sendOther e.portA e.mac (.connect (((f.portEntry e.portA).map (·.ipv4)).getD 0) e.addr e.l4Port)).2

/-! ## Sequence recovery (05_ingest_decode.md R116) -/

/-- The vector recovery algorithm with history length 32 and reset timeout 100 ms: whether the frame passes.
Log entry 93 (DEDUCED). -/
def Frer.step (r : Frer) (n : Nat) (now : DT) : Frer × Bool :=
  let till := now + 100000000
  if r.takeAny then (⟨1, n, false, till⟩, true)
  else
    let d := signed (n + 65536 - r.seq) 16
    if d ≥ 32 ∨ d ≤ -32 then (r, false)
    else if d ≤ 0 then
      let k := d.natAbs
      if bit r.history k then (r, false) else ({ r with history := setBit r.history k, endAt := till }, true)
    else (⟨(r.history * 2 ^ d.toNat + 1) % 2 ^ 32, n, false, till⟩, true)

/-- The reset timer ends. -/
def Frer.timeout (r : Frer) (now : DT) : Frer := if !r.takeAny && dtReached now r.endAt then Frer.fresh else r

/-! ## Guard terms (R240, R242) -/

/-- A time of milliseconds in VT units, rounded up. -/
def msVt (ms : Nat) : Nat := cdiv (ms * 15625) 16

/-- A point is fresh for a term. -/
def FieldSide.freshFor (f : FieldSide) (t : GuardTerm) : Bool :=
  let r := f.rec_ t.point
  r.received && r.quality == 0 && decide (vtDiff f.vt r.vintage < msVt t.maxAgeMs)

/-- The condition of a term on its point's value. -/
def FieldSide.condOf (f : FieldSide) (t : GuardTerm) : Bool :=
  let r := f.rec_ t.point
  guardCond t.op (pointF32 r.type r.value) t.operand

def FieldSide.run_ (f : FieldSide) (target term : Nat) : Option VT := tget none f.work.runs (target * 8 + term)
def FieldSide.setRun (f : FieldSide) (target term : Nat) (v : Option VT) : FieldSide :=
  f.setWork { f.work with runs := tput none f.work.runs (target * 8 + term) v }

/-- The dwell of a term is met. -/
def FieldSide.heldFor (f : FieldSide) (target i : Nat) (t : GuardTerm) : Bool :=
  f.condOf t && (t.dwellMs == 0 ||
    (match f.run_ target i with | some v => decide ((msVt t.dwellMs : Int) ≤ vtDiff f.vt v) | none => false))

/-- A term's run at an update or a quality change of its point (R242). -/
def FieldSide.termRun (f : FieldSide) (target i : Nat) (t : GuardTerm) : FieldSide :=
  if f.freshFor t && f.condOf t then
    (match f.run_ target i with | none => f.setRun target i (some (f.rec_ t.point).vintage) | some _ => f)
  else f.setRun target i none

/-- The terms of a target that count. -/
def TargetEntry.live (e : TargetEntry) : List (GuardTerm × Nat) := (e.terms.take e.termCount).zipIdx

/-- Every run of a point's terms, at an update or a quality change of the point. -/
def FieldSide.runsOf (f : FieldSide) (p : Nat) : FieldSide :=
  f.act.targets.foldl (fun f e => e.live.foldl (fun f x => if x.1.point = p then f.termRun e.target x.2 x.1 else f) f) f

/-! ## Point updates (R226, R231 to R234) -/

/-- The value moved beyond the deadband (R233). -/
def PointRec.moved (r : PointRec) (v : Nat) : Bool :=
  match r.type with
  | 2 => decide ((r.deadband : Int) < ((signed v 32 - signed r.sent 32).natAbs : Int))
  | 3 => match f32AbsDiff (v % 2 ^ 32) r.sent with | some d => f32Lt r.deadband d | none => false
  | 5 => decide (r.deadband < (v % 2 ^ 32 + 2 ^ 32 - r.sent) % 2 ^ 32)
  | _ => v % 2 ^ 32 != r.sent

/-- Bits [15:0] of the field DT in ms. -/
def FieldSide.ms16 (f : FieldSide) : Nat := f.now.toNat / 1000000 % 65536

/-- A point becomes pending. -/
def PointRec.pend (r : PointRec) (now : DT) : PointRec :=
  if r.pending then r else { r with pending := true, pendAt := now }

/-- Vintage and class of an update, as R232 forms them. Log entry 22 (DEDUCED). -/
def FieldSide.vintageOf (f : FieldSide) (e : SourceEntry) (ts : Option VT) : VT × Nat :=
  let margin := e.syncBoundUs * 1000 / 1024
  let arrival := vtOf f.arrival
  let proven := match ts with
    | some t => e.cls == 0 && f.tb.syncOk && decide (vtDiff t arrival ≤ margin)
    | none => false
  if proven then (ts.getD 0, 0)
  else if e.pathMax ≠ 0 then (arrival - BitVec.ofNat 32 (cdiv e.pathMax 1024), 1)
  else (arrival, 2)

/-- One update of a point (R232, R233). `val` is none where the value cannot be converted. -/
def FieldSide.update (f : FieldSide) (e : SourceEntry) (p : Nat) (val : Option Nat) (quality : Nat) (ts : Option VT) :
    FieldSide :=
  let r := f.rec_ p
  if r.type = 0 then f
  else
    let (v, c) := f.vintageOf e ts
    if r.received && decide (vtDiff v r.vintage < 0) then f
    else
      let x := val.getD r.value
      let q := if val.isNone then 2 else quality
      let due := !r.received || q != r.quality || r.moved x || r.refreshMs == 0 ||
        decide (r.refreshMs ≤ (f.ms16 + 65536 - r.fwdMs) % 65536)
      let r := { r with value := x, quality := q, vintage := v, cls := c, received := true, seq := (r.seq + 1) % 65536 }
      let r := if due then r.pend f.now else r
      (f.setRec p r).runsOf p

/-- A quality change of a point without an update (R229, R234): it becomes pending (log entry 23).
Log entry 23 (DEDUCED). -/
def FieldSide.requality (f : FieldSide) (p q : Nat) : FieldSide :=
  let r := f.rec_ p
  if r.quality = q ∨ r.type = 0 then f else (f.setRec p ({ r with quality := q }.pend f.now)).runsOf p

/-- The conversion of Table 10.5: none where the value cannot be converted; a Double that is no number leaves the bits
of the binary32 NaN open (log entry 1). -/
def FieldSide.convert (f : FieldSide) (type : Nat) (v : UaValue) : Option Nat × FieldSide :=
  match type, v with
  | 1, .bool b => (some (b2n b), f)
  | 1, .int i => (some (b2n (i != 0)), f)
  | 2, .int i => (if -(2 ^ 31) ≤ i ∧ i < 2 ^ 31 then some (unsigned i 64) else none, f)
  | 3, .float x => (some x.toNat, f)
  | 3, .double x =>
    match f64ToF32 x.toNat with
    | some y => (some y, f)
    | none => let (n, f) := f.free (2 ^ 23 - 1); (some (0x7F800001 + n), f)
  | 3, .int i => (some (f32Of i 1), f)
  | 4, .int i => (if 0 ≤ i ∧ i < 65536 then some i.toNat else none, f)
  | 5, .int i => (if 0 ≤ i ∧ i < 2 ^ 64 then some i.toNat else none, f)
  | _, _ => (none, f)

/-- A source's activity (R229). -/
def FieldSide.active (f : FieldSide) (i : Nat) : FieldSide := f.setSrc i { f.src i with lastAct := f.now }

/-- Ticks of 100 ns in field VT (Table 10.1). -/
def FieldSide.ticksVt (f : FieldSide) (d : Int) : VT :=
  vtOf (BitVec.ofInt 64 (d * 100 + signed f.fieldCfg.uaOffset 64))

/-- The quality that a StatusCode gives (R226). -/
def statusQuality : Option (BitVec 32) → Nat
  | none => 0
  | some s => match s.toNat / 2 ^ 30 with | 0 => 0 | 1 => 1 | _ => 2

/-- One DataSetMessage of an accepted message (R226). -/
def FieldSide.dataSet (f : FieldSide) (e : SourceEntry) (d : UaDataSet) : FieldSide :=
  if !d.valid then f
  else if d.kind = .keepAlive then f.active e.source
  else
    let st := f.src e.source
    let fresh := match d.seq with
      | none => true
      | some n =>
        match st.writers.find? (fun w => w.1 == d.writer) with
        | none => true
        | some w => decide (0 < signed (n.toNat + 65536 - w.2.1) 16) || decide (1000000000 ≤ dtDiff f.now w.2.2)
    if !fresh then f
    else
      let writers := match d.seq with
        | none => st.writers
        | some n => (d.writer, n.toNat, f.now) :: st.writers.filter (fun w => w.1 != d.writer)
      let f := (f.setSrc e.source { st with writers := writers }).active e.source
      d.fields.foldl (fun f x =>
        if x.value = .other then f
        else
          match f.fieldCfg.maps.find? (fun m => m.source == e.source && m.key == d.writer && m.item == x.item) with
          | none => f
          | some m =>
            let (v, f) := f.convert (f.rec_ m.point).type x.value
            let ts := match x.source with | some t => some t | none => d.stamp
            f.update e m.point v (statusQuality x.status) (ts.map f.ticksVt)) f

/-- A UADP NetworkMessage on a port (R225). -/
def FieldSide.uadp (f : FieldSide) (port : Nat) (m : UadpMessage) : FieldSide :=
  let onPort (e : SourceEntry) : Bool := e.enable == 1 && e.modbus == 0 &&
    (e.portA == port || (e.frer == 1 && e.portB == port)) && e.l4Port == m.destPort.toNat &&
    (if e.multicast = 1 then e.addr == m.destIp.toNat
     else ((f.portEntry port).map (·.ipv4)) == some m.destIp.toNat)
  if !f.fieldCfg.sources.any onPort then f
  else
    let bad := m.version != 1 || !m.payloadHeader || m.refused || m.msgs.isEmpty || decide (16 < m.msgs.length) ||
      m.msgs.any (fun d => d.raw || d.kind == .event)
    let who := f.fieldCfg.sources.find? (fun e => onPort e && m.publisher.map (·.toNat) == some e.publisherId)
    match bad, who with
    | false, some e =>
      if e.frer = 1 then
        match m.rtag with
        | none => f.drop port
        | some n =>
          let st := f.src e.source
          let (r, pass) := st.frer.step n.toNat f.now
          let f := f.setSrc e.source { st with frer := r }
          if pass then m.msgs.foldl (fun f d => f.dataSet e d) f else f
      else m.msgs.foldl (fun f d => f.dataSet e d) f
    | _, _ => f.drop port

/-! ## Modbus polls (R227) -/

/-- A Modbus/TCP request: transaction, protocol 0, length, unit and the request proper, of five bytes in every function
that the module uses. Log entries 248 (DESIGN CHOICE), 24 (PRESUMED). -/
def modbusAdu (txn unit function address value : Nat) : List Byte :=
  beBytes txn 2 ++ beBytes 0 2 ++ beBytes 6 2 ++ beBytes unit 1 ++ beBytes function 1 ++ beBytes address 2 ++ beBytes value 2

/-- Sends the oldest due poll of a source whose connection is open and idle. Log entry 68 (DEDUCED). -/
def FieldSide.sendPoll (f : FieldSide) (i : Nat) : FieldSide :=
  let st := f.src i
  match st.connected, st.outstanding, st.queue, f.sourceEntry i with
  | true, none, q :: rest, some e =>
    match f.fieldCfg.polls[q]? with
    | none => f
    | some p =>
      match f.sendOther e.portA e.mac (.tcp (((f.portEntry e.portA).map (·.ipv4)).getD 0) e.addr e.l4Port
          (modbusAdu (Config.modbusTxn i st.requests) e.unitId p.function p.start p.quantity)) with
      | (some t, f) => f.setSrc i { st with
          outstanding := some (q, t, st.requests), requests := st.requests + 1, queue := rest }
      | (none, f) => f
  | _, _, _, _ => f

/-- The registers of an item, most significant word first unless WORD_SWAP (Table 10.7). -/
def modbusItem (m : MapEntry) (vs : List Nat) : Option UaValue :=
  let regs (n : Nat) : Option Nat :=
    let w := (vs.drop m.item).take n
    if w.length = n then some ((if m.wordSwap = 1 then w.reverse else w).foldl (fun a x => a * 65536 + x % 65536) 0) else none
  match m.decode with
  | 0 => (vs[m.item]?).map (fun v => .bool (v % 2 == 1))
  | 1 => (regs 1).map (fun v => .int v)
  | 2 => (regs 1).map (fun v => .int (signed v 16))
  | 3 => (regs 2).map (fun v => .int (signed v 32))
  | 4 => (regs 2).map (fun v => .float (BitVec.ofNat 32 v))
  | 5 => (regs 4).map (fun v => .int v)
  | 6 => (regs 1).map (fun v => .int v)
  | _ => none

/-- The maps of a poll. -/
def FieldSide.pollMaps (f : FieldSide) (i q : Nat) : List MapEntry :=
  f.fieldCfg.maps.filter (fun m => m.source == i && m.key == q)

/-- Counts a response that is discarded (R227). -/
def FieldSide.discardResponse (f : FieldSide) (i : Nat) : FieldSide :=
  f.setSrc i { f.src i with discards := (f.src i).discards + 1 }

/-- The Modbus response to request `n` of a source (R227): discarded and counted when its transaction has ended, when it
is late or when it is malformed; an exception gives BAD. -/
def FieldSide.modbus (f : FieldSide) (i n : Nat) (r : ModbusBody) : FieldSide :=
  match f.sourceEntry i, (f.src i).connected, (f.src i).outstanding with
  | some e, true, some (q, t, k) =>
    if n ≠ k then f.discardResponse i
    else
    let late := match f.fieldCfg.polls[q]? with
      | some p => decide ((p.timeoutMs * 1000000 : Int) ≤ dtDiff f.arrival t)
      | none => true
    let late := late || decide (e.pathMax ≠ 0 ∧ (e.pathMax : Int) < dtDiff f.arrival t)
    let f := f.setSrc i { f.src i with outstanding := none }
    let f := if late then f.discardResponse i else match r with
      | .malformed => f.discardResponse i
      | .exception_ => (f.pollMaps i q).foldl (fun f m => f.update e m.point none 2 none) (f.active i)
      | .data vs => (f.pollMaps i q).foldl (fun f m =>
          match modbusItem m vs with
          | none => f.update e m.point none 2 none
          | some v => let (x, f) := f.convert (f.rec_ m.point).type v; f.update e m.point x 0 none) (f.active i)
    f.sendPoll i
  | some _, true, none => f.discardResponse i
  | _, _, _ => f

/-! ## Batches (R235) -/

/-- One 20-byte POINT_BATCH entry (Table 11.4). -/
def batchEntry (p : Nat) (r : PointRec) : List Byte :=
  leBytes (p + 2 ^ 18 * r.type + 2 ^ 21 * r.cls + 2 ^ 23 * b2n r.received + 2 ^ 24 * r.quality) 4 ++
    leBytes r.value 8 ++ leBytes r.vintage.toNat 4 ++ leBytes r.seq 2 ++ leBytes 0 2

/-- Cells of a batch: up to three entries each (R235, Table 11.2). -/
def batchCells (msg : Nat) (total : Nat) : Nat → Nat → List (List Byte) → List (List Byte)
  | 0, _, _ => []
  | fuel + 1, at_, es =>
    match es with
    | [] => []
    | es =>
      let k := min 3 es.length
      let flags := (if at_ = 0 then 1 else 0) + (if at_ + k = total then 2 else 0) + 4 * k
      mkCell 3 flags msg ((es.take 3).flatten) :: batchCells msg total fuel (at_ + k) (es.drop 3)

/-- Cells wait for free slots of XM9 and are pushed in order. Log entry 169 (DEDUCED). -/
def FieldSide.pushOutbox (f : FieldSide) : Nat → FieldSide
  | 0 => f
  | n + 1 =>
    match f.work.outbox with
    | [] => f
    | c :: rest =>
      if f.xing.canPush 9 then
        (({ f with work := { f.work with outbox := rest } }).sendCell 9 c).pushOutbox n
      else f

/-- `a` goes before `b` in a batch: pending longer, ties in ascending point order. -/
def pendBefore (a b : Nat × PointRec) : Bool :=
  decide (dtDiff a.2.pendAt b.2.pendAt < 0) || (a.2.pendAt == b.2.pendAt && decide (a.1 < b.1))

/-- Inserts into a list in pending order. -/
def pendInsert (x : Nat × PointRec) : List (Nat × PointRec) → List (Nat × PointRec)
  | [] => [x]
  | y :: t => if pendBefore x y then x :: y :: t else y :: pendInsert x t

/-- A batch closes at the whole millisecond `ms`, which ends batch `ms` − 1 (R235). -/
def FieldSide.closeBatch (f : FieldSide) (ms : Nat) : FieldSide :=
  let f := f.setWork { f.work with lastClose := ms }
  let due := f.work.recs.filter (fun x => x.2.pending && decide (dtDiff x.2.pendAt (BitVec.ofNat 64 (ms * 1000000)) < 0))
  if f.xing.state < 2 ∨ due = [] then f
  else
    let sorted := due.foldr pendInsert []
    let cap := 3 * (if f.fieldCfg.batchCells = 0 then 256 else f.fieldCfg.batchCells)
    let go := sorted.take cap
    let left := sorted.length - go.length
    let f := go.foldl (fun f x =>
      f.setRec x.1 { x.2 with pending := false, sent := x.2.value % 2 ^ 32, fwdMs := f.ms16 }) f
    let cells := batchCells ((ms + 255) % 256) go.length go.length 0 (go.map (fun x => batchEntry x.1 x.2))
    let f := f.setWork { f.work with
      carry := (f.work.carry + left) % 2 ^ 32, outbox := f.work.outbox ++ cells }
    f.pushOutbox 17

/-- Every received point becomes pending (R237, R255). -/
def FieldSide.pendAll (f : FieldSide) : FieldSide :=
  f.setWork { f.work with recs := f.work.recs.map (fun x => (x.1, if x.2.received then x.2.pend f.now else x.2)) }

/-! ## The interlock's gate and eligibility (16_twin_repair.md R369, R371) -/

/-- The launch gate is open: the module holds authority. -/
def Interlock.gateOpen (i : Interlock) : Bool := i.out && !i.in_ && i.contention.isNone

/-- A doorbell or watchdog was last rung within `ns`. -/
def within (now : DT) (at_ : Option DT) (ns : Int) : Bool :=
  match at_ with | some t => decide (dtDiff now t < ns) | none => false

/-- The module is eligible for authority (R371). -/
def FieldSide.eligible (f : FieldSide) : Bool :=
  within f.now f.il.bell0 200000 && within f.now f.il.bell4 10000000 && within f.now f.il.watchdog 100000 &&
    f.xing.state == 2 && (!f.act.unqualified || !within f.now f.il.bell3 30000000)

/-! ## Commands (R241 to R247) -/

/-- CMD_ACKs wait for free slots of XM8 and are pushed in order. Log entry 169 (DEDUCED). -/
def FieldSide.pushAcks (f : FieldSide) : Nat → FieldSide
  | 0 => f
  | n + 1 =>
    match f.work.ackBox with
    | [] => f
    | c :: rest =>
      if f.xing.canPush 8 then
        (({ f with work := { f.work with ackBox := rest } }).sendCell 8 c).pushAcks n
      else f

/-- A CMD_ACK (Table 11.4): it waits for a free slot of XM8, so that every request is answered (R246); while the crossing
carries no CMD_ACK its push is rejected (11_crossing.md R252). Log entry 169 (DEDUCED). -/
def FieldSide.ack (f : FieldSide) (req code term target : Nat) (launch : DT) (orig : Nat) : FieldSide :=
  let f := { f with xing := { f.xing with msg := (f.xing.msg + 1) % 256 } }
  let cell := withCrc (oneCell 2 f.xing.msg (leBytes req 4 ++ leBytes code 1 ++ leBytes term 1 ++ leBytes target 2 ++
    leBytes launch.toNat 8 ++ leBytes orig 1))
  if f.xing.state < 2 then f.sendCell 8 cell
  else ({ f with work := { f.work with ackBox := f.work.ackBox ++ [cell] } }).pushAcks 17

/-- The code of a request becomes known: it is remembered, and duplicates that waited for it are answered.
Log entry 207 (DEDUCED). -/
def FieldSide.settle (f : FieldSide) (req code : Nat) : FieldSide :=
  let hist := f.work.history.map (fun x => if x.1 == req && x.2.isNone then (req, some code) else x)
  let waits := f.work.dupWait.filter (fun x => x.1 == req)
  let f := f.setWork { f.work with history := hist, dupWait := f.work.dupWait.filter (fun x => x.1 != req) }
  waits.foldl (fun f x => f.ack x.1 0x11 0 x.2 0 code) f

/-- A refusal: acknowledged, counted, remembered. Log entry 59 (DEDUCED). -/
def FieldSide.refuse (f : FieldSide) (req code term target : Nat) : FieldSide :=
  let f := f.setWork { f.work with refused := (f.work.refused + 1) % 2 ^ 32 }
  (f.ack req code term target 0 0).settle req code

/-- The first guard term that fails, with its code (R241). -/
def FieldSide.guardFail (f : FieldSide) (e : TargetEntry) (action : Nat) : Option (Nat × Nat) :=
  (e.live.find? (fun x => bit x.1.actionMask action && (!f.freshFor x.1 || !f.heldFor e.target x.2 x.1))).map
    (fun x => (if f.freshFor x.1 then 0x0A else 0x0B, x.2))

/-- Launches of a target in [now − ms, now). Log entry 208 (DEDUCED). -/
def FieldSide.launchesIn (f : FieldSide) (target ms : Nat) : Nat :=
  ((tget [] f.work.launches target).filter (fun l =>
    decide (0 < dtDiff f.now l ∧ dtDiff f.now l ≤ (ms * 1000000 : Int)))).length

/-- Commands of a target that are queued for launch. -/
def FieldSide.queuedOf (f : FieldSide) (target : Nat) : Nat :=
  (f.work.waiting.filter (fun q => q.target == target && !q.launched)).length

/-- The rate rules (R243). -/
def FieldSide.rateFail (f : FieldSide) (e : TargetEntry) : Option Nat :=
  if e.minIntervalMs ≠ 0 ∧ (0 < f.launchesIn e.target e.minIntervalMs ∨ 0 < f.queuedOf e.target) then some 0x0C
  else if e.rateCount ≠ 0 ∧ e.rateCount ≤ f.launchesIn e.target e.rateWindowMs + f.queuedOf e.target then some 0x0D
  else if 64 ≤ (tget [] f.work.queues e.port).length then some 0x0E
  else none

/-- issue_f: the issue time on the field side, minus 2,000 ns; without a mapping the request is expired (R241, R265). -/
def FieldSide.issueF (f : FieldSide) (issue : DT) (validity : Nat) : DT :=
  match f.mapping with
  | some (k, j) => fieldDT k j issue - 2000
  | none => f.now - BitVec.ofNat 64 (validity * 1000000)

/-- Queues a command for launch on its port, and on PORT_B with FRER (R243, R244). -/
def FieldSide.enqueue (f : FieldSide) (e : TargetEntry) (q : Queued) : FieldSide :=
  let qs := tput [] f.work.queues e.port (tget [] f.work.queues e.port ++ [⟨q.req, false⟩])
  let qs := if e.frer = 1 then tput [] qs e.portB (tget [] qs e.portB ++ [⟨q.req, true⟩]) else qs
  f.setWork { f.work with queues := qs, waiting := f.work.waiting ++ [q] }

/-- Field Uliska validates a CMD_REQ (R241, R243, R246, R255, R374); a repeat of a request that is remembered changes
nothing of what is remembered, whichever code it is refused with. Log entries 59 (DEDUCED), 207 (DEDUCED). -/
def FieldSide.validate (f : FieldSide) (cell : List Byte) : FieldSide :=
  let target := bits (fieldAt cell 4 2) 0 14
  let action := fieldAt cell 6 1
  let arg := fieldAt cell 8 4
  let issue := dtAt cell 12
  let validity := fieldAt cell 20 2
  let req := fieldAt cell 28 4
  if !crcHolds cell then
    (f.setWork { f.work with refused := (f.work.refused + 1) % 2 ^ 32 }).ack req 0x05 0 (fieldAt cell 4 2) 0 0
  else
    let remember (f : FieldSide) : FieldSide := f.setWork { f.work with history := ((req, none) :: f.work.history).take 1024 }
    let refuse (code term : Nat) := (remember f).refuse req code term target
    let again := f.work.history.any (fun x => x.1 == req)
    let early (code : Nat) : FieldSide :=
      if again then (f.setWork { f.work with refused := (f.work.refused + 1) % 2 ^ 32 }).ack req code 0 target 0 0
      else refuse code 0
    if !f.il.gateOpen || f.il.release.isSome then early 0x07
    else if f.act.split then early 0x06
    else match f.work.history.find? (fun x => x.1 == req) with
    | some (_, some code) =>
      (f.setWork { f.work with refused := (f.work.refused + 1) % 2 ^ 32 }).ack req 0x11 0 target 0 code
    | some (_, none) =>
      f.setWork { f.work with refused := (f.work.refused + 1) % 2 ^ 32, dupWait := f.work.dupWait ++ [(req, target)] }
    | none =>
      match f.targetEntry target with
      | none => refuse 0x05 0
      | some e =>
        if e.enable = 0 ∨ 15 < action ∨ !bit e.allowed action ∨ signed arg 32 < signed e.argMin 32 ∨
            signed e.argMax 32 < signed arg 32 then refuse 0x05 0
        else
          let issueF := f.issueF issue validity
          if 1000000 < dtDiff issueF f.now then refuse 0x09 0
          else if (validity * 1000000 : Int) ≤ dtDiff f.now issueF then refuse 0x08 0
          else match f.guardFail e action with
          | some (code, term) => refuse code term
          | none =>
            match f.rateFail e with
            | some code => refuse code 0
            | none =>
              (remember f).enqueue e ⟨req, target, action, arg, fieldAt cell 24 4, issueF,
                issueF + BitVec.ofNat 64 (min (validity * 1000000) e.launchMax), f.now, cellMsg cell, false, ([], 0)⟩

/-- DateTime ticks of a DT: (DT − UA_OFFSET) ÷ 100, truncated (R245). -/
def FieldSide.ticks (f : FieldSide) (t : DT) : Nat :=
  unsigned (Int.tdiv ((t.toNat : Int) - signed f.fieldCfg.uaOffset 64) 100) 64

/-- The UADP NetworkMessage of a command (R245), in the encoding of IEC 62541-14 (log entry 24).
Log entry 24 (PRESUMED). -/
def FieldSide.uadpCommand (f : FieldSide) (e : TargetEntry) (q : Queued) (launch : DT) : List Byte :=
  leBytes 0xD1 1 ++ leBytes 0x03 1 ++ leBytes e.publisherId 8 ++ leBytes 1 1 ++ leBytes e.dswId 2 ++
    leBytes 0x89 1 ++ leBytes 0x10 1 ++ leBytes (tget 0 f.work.useq e.target) 2 ++ leBytes (f.ticks launch) 8 ++
    leBytes 6 2 ++ leBytes 5 1 ++ leBytes q.target 2 ++ leBytes 3 1 ++ leBytes q.action 1 ++
    leBytes 6 1 ++ leBytes q.argument 4 ++ leBytes 7 1 ++ leBytes q.operator 4 ++ leBytes 7 1 ++ leBytes q.req 4 ++
    leBytes 13 1 ++ leBytes (f.ticks q.issueF) 8

/-- The Modbus request of a command (R245): unit, function, address, value. Log entry 248 (DESIGN CHOICE). -/
def modbusCommand (e : TargetEntry) (q : Queued) : List Byte :=
  let v := if e.mbFunc = 6 then q.argument % 65536 else if q.argument = 0 then 0 else 0xFF00
  modbusAdu (Config.modbusTxn 256 q.req) (e.dswId % 256) e.mbFunc (e.mbAddr + q.action) v

/-- Payload and R-TAG number of a command's frame: of the first copy built at its launch, of the second those of the
first (R244, R245). -/
def FieldSide.commandCopy (f : FieldSide) (e : TargetEntry) (q : Queued) (launch : DT) : List Byte × Nat :=
  if q.launched then q.sent
  else (if e.modbus = 1 then modbusCommand e q else f.uadpCommand e q launch, tget 0 f.work.rtag e.target)

/-- The frame of a command: to DEST_MAC, DEST_IP and DEST_PORT, from PORT's addresses, in the target's VLAN, with an
R-TAG where FRER sends two copies (R222, R244, R245). Log entry 250 (DEDUCED). -/
def FieldSide.commandFrame (f : FieldSide) (port : Nat) (e : TargetEntry) (q : Queued) (launch : DT) : FieldSent :=
  let own := f.portEntry e.port
  let ip := (own.map (·.ipv4)).getD 0
  let c := f.commandCopy e q launch
  ⟨port, e.destMac, (own.map (·.mac)).getD 0, e.pcp, e.vid, if e.frer = 1 then some c.2 else none,
    if e.modbus = 1 then .tcp ip e.destIp e.destPort c.1 else .udp ip e.destIp e.destPort c.1, launch⟩

/-- Removes a copy, or every copy, of a command from the launch queues. -/
def FieldSide.unqueue (f : FieldSide) (req : Nat) (ports : List Nat) : FieldSide :=
  let qs := ports.foldl (fun t p => tput [] t p ((tget [] t p).filter (fun c => c.req != req))) f.work.queues
  let left := (List.range 8).any (fun p => (tget [] qs p).any (fun c => c.req == req))
  f.setWork { f.work with
    queues := qs
    waiting := if left then f.work.waiting else f.work.waiting.filter (fun q => q.req != req) }

/-- The launch time on the host's DT; without a mapping no rule gives it (log entry 1).
Log entry 60 (DESIGN CHOICE). -/
def FieldSide.launchHostDT (f : FieldSide) (t : DT) : DT × FieldSide :=
  match f.mapping with
  | some (k, j) => (hostDT k j t, f)
  | none => let (n, f) := f.free (2 ^ 64); (BitVec.ofNat 64 n, f)

/-- The port is free for a command frame that takes `w` ns and begins now (R223, R244). -/
def FieldSide.mayBegin (f : FieldSide) (e : PortEntry) (w : Nat) : Bool :=
  e.mode != 0 && e.commandFits f.departure.toNat w &&
    (match tget none f.work.busy e.port with | none => true | some b => dtReached f.departure b)

/-- A command frame begins now and holds its port for `w` ns. -/
def FieldSide.beginCommand (f : FieldSide) (x : FieldSent) (w : Nat) : FieldSide :=
  (f.setWork { f.work with busy := tput none f.work.busy x.port (some (f.departure + BitVec.ofNat 64 w)) }).emit x

/-- The oldest command queued on a port whose deadline has not come. Log entry 208 (DEDUCED). -/
def FieldSide.oldestQueued (f : FieldSide) (port : Nat) : Option Queued :=
  (tget [] f.work.queues port).findSome? (fun c =>
    f.work.waiting.find? (fun q => q.req == c.req && decide (dtDiff f.departure q.deadline < 0)))

/-- A command's frame leaves a port at `f.departure`: the first copy launches the command, the second only follows (R244 to
R246). -/
def FieldSide.launchFrame (f : FieldSide) (port : Nat) (e : TargetEntry) (q : Queued) (w : Nat) : FieldSide :=
  let t := f.departure
  let c := f.commandCopy e q t
  let x := f.commandFrame port e q t
  let f := f.beginCommand x w
  let f := f.setWork { f.work with
    waiting := f.work.waiting.map (fun y => if y.req == q.req then { y with launched := true, sent := c } else y)
    segments := if e.modbus = 1 then (q.req, x) :: f.work.segments else f.work.segments }
  let f := f.unqueue q.req [port]
  if q.launched then f
  else
    let (hdt, f) := f.launchHostDT t
    let f := f.setWork { f.work with
      launches := tput [] f.work.launches q.target (t :: tget [] f.work.launches q.target)
      useq := if e.modbus = 1 then f.work.useq
        else tput 0 f.work.useq q.target ((tget 0 f.work.useq q.target + 1) % 65536)
      rtag := if e.frer = 1 then tput 0 f.work.rtag q.target ((tget 0 f.work.rtag q.target + 1) % 65536) else f.work.rtag
      launched := (f.work.launched + 1) % 2 ^ 32 }
    (f.ack q.req 0x00 0 q.target hdt 0).settle q.req 0x00

/-- The gate is closed at a command's launch (R244): the command is dropped for good. -/
def FieldSide.loseCommand (f : FieldSide) (q : Queued) : FieldSide :=
  let t := f.departure
  let f := f.unqueue q.req (List.range 8)
  if q.launched then f.setWork { f.work with copyDrops := f.work.copyDrops + 1 }
  else
    let (hdt, f) := f.launchHostDT t
    (f.ack q.req 0x10 0 q.target hdt 0).settle q.req 0x10

/-- The oldest command queued on a port begins to leave, where its window, its deadline and the port allow it, or finds
the gate closed (R244 to R246). Log entry 208 (DEDUCED). -/
def FieldSide.launch (f : FieldSide) (port : Nat) : FieldSide :=
  match f.oldestQueued port, f.portEntry port with
  | some q, some pe =>
    match f.targetEntry q.target with
    | none => f
    | some e =>
      let x := f.commandFrame port e q f.departure
      let w := pe.takes x.vid x.rtag x.body
      if ¬ (0 ≤ dtDiff f.departure q.validated ∧ f.mayBegin pe w) then f
      else if f.il.gateOpen then f.launchFrame port e q w
      else f.loseCommand q
  | _, _ => f

/-- TCP sends the segment of a Modbus command again, in a later window and through the gate (R245). Log entry 251
(DEDUCED). -/
def FieldSide.relaunch (f : FieldSide) (port req : Nat) : FieldSide :=
  match f.work.segments.find? (fun x => x.1 == req && x.2.port == port), f.portEntry port with
  | some (_, x), some pe =>
    let w := pe.takes x.vid x.rtag x.body
    if f.mayBegin pe w && f.il.gateOpen then f.beginCommand { x with at_ := f.departure } w else f
  | _, _ => f

/-- A queued command reaches its deadline on a port (R244, R246). -/
def FieldSide.deadline (f : FieldSide) (port req : Nat) : FieldSide :=
  match f.work.waiting.find? (fun q => q.req == req) with
  | none => f
  | some q =>
    if dtDiff f.now q.deadline < 0 ∨ !((tget [] f.work.queues port).any (fun c => c.req == req)) then f
    else if q.launched then
      (f.unqueue req [port]).setWork { (f.unqueue req [port]).work with copyDrops := f.work.copyDrops + 1 }
    else ((f.unqueue req (List.range 8)).ack req 0x0F 0 q.target 0 0).settle req 0x0F

/-! ## Activation of a field configuration (R227, R230, R231, R242, R267) -/

/-- The source of a point's map entry. -/
def sourceOfPoint (c : FieldCfg) (p : Nat) : Nat := ((c.maps.find? (fun m => m.point == p)).map (·.source)).getD 0

/-- A point's record under a new POINTS section: kept while its TYPE is unchanged (log entry 25).
Log entry 25 (DEDUCED). -/
def FieldSide.recUnder (f : FieldSide) (c : FieldCfg) (e : PointEntry) : PointRec :=
  let r := f.rec_ e.point
  let r := if r.type = e.type then r else { PointRec.blank with type := e.type }
  { r with deadband := e.deadband, refreshMs := e.refreshMs, source := sourceOfPoint c e.point }

/-- Closes every run of the targets that a new configuration changes (R242). -/
def FieldSide.closeRuns (f : FieldSide) (targets : List TargetEntry) : FieldSide :=
  f.setWork { f.work with runs := f.work.runs.filter (fun x =>
    let t := x.1 / 8
    decide (f.targetEntry t = targets.find? (fun e => e.target == t))) }

/-- The lanes of enabled ports are up once a FIELD configuration has activated, those of disabled ports dormant
(18_module_electrical.md R426, 15_lanes.md R340). -/
def FieldSide.wakePorts (f : FieldSide) : FieldSide :=
  (List.range 8).foldl (fun f p =>
    let l := f.laneOf p
    let v := tget FieldLane.reset f.lanes l
    let up := ((f.portEntry p).map (·.mode)).getD 0 != 0
    let state := if !up then 0 else if v.state = 0 then 3 else v.state
    { f with lanes := tput FieldLane.reset f.lanes l { v with state := state } }) f

/-- The connection of a Modbus target's commands is opened unless another target has opened it (R245). Log entry 251
(DEDUCED). -/
def FieldSide.commandConnection (f : FieldSide) (e : TargetEntry) : FieldSide :=
  if e.enable = 0 ∨ e.modbus = 0 ∨ (e.destIp, e.destPort) ∈ f.work.cmdConns then f
  else (((f.setWork { f.work with cmdConns := (e.destIp, e.destPort) :: f.work.cmdConns }).sendOther e.port e.destMac
    (.connect (((f.portEntry e.port).map (·.ipv4)).getD 0) e.destIp e.destPort))).2

/-- Field content takes effect as a whole: what it has no section of, the configuration has none of (log entry 26).
Polls fall due from E, `epoch`; the connections of sources and of Modbus commands are opened, and groups are reported
(R222, R227, R245). Log entries 25 (DEDUCED), 26 (DEDUCED), 251 (DEDUCED). -/
def FieldSide.activate (f : FieldSide) (c : Option FieldCfg) (p : Option PointsCfg) (t : List TargetEntry) (epoch : DT) :
    FieldSide :=
  let fc := c.getD ⟨0, 0, [], [], [], []⟩
  let f := f.closeRuns t
  let recs := ((p.map (·.points)).getD []).foldl (fun r e => tput PointRec.blank r e.point (f.recUnder fc e)) []
  let f := { f with act := { f.act with field := c, points := p, targets := t } }
  let f := f.setWork { f.work with
    recs := recs
    sources := fc.sources.foldl (fun r e => tput SourceState.fresh r e.source { SourceState.fresh with lastAct := f.now }) []
    polls := (fc.polls.zipIdx).foldl (fun r x => tput ⟨0, 0⟩ r x.2 ⟨epoch, 0⟩) []
    cmdConns := [], segments := [] }
  let f := f.wakePorts
  -- a port that runs gPTP no more is slave no more (12_time.md R280)
  let f := { f with tb := fc.ports.foldl (fun t e => if e.gptp = 1 ∧ e.mode ≠ 0 then t else t.portOff e.port) f.tb }
  let f := fc.sources.foldl (fun f e =>
    if e.enable = 1 ∧ e.modbus = 1 then f.sendConnect e
    else if e.enable = 1 ∧ e.multicast = 1 then
      let f := f.sendReport e.portA e.addr
      if e.frer = 1 then f.sendReport e.portB e.addr else f
    else f) f
  t.foldl FieldSide.commandConnection f

end Sys2Proof.Machine
end

