-- ==== Sys2Proof/Machine/StageMsg.lean ====
section
/-! DEFINITION. The messages of staging and activation: IMAGE_MSG to the members (03_structure_image.md R73,
15_lanes.md R363), FIELD_CONFIG and FW_STAGE to the field side (11_crossing.md R267, R268), refusal of a staged image
(R71, R79) and the identity of the field content (R76). -/

namespace Sys2Proof.Machine

/-- SIM.STATUS.STAGE. Log entry 62 (DEDUCED). -/
def HostSide.stageOf (h : HostSide) : Nat := h.get Reg.SIM_STATUS_STAGE
def HostSide.toStage (h : HostSide) (v : Nat) : HostSide := h.put Reg.SIM_STATUS_STAGE v

/-- The module's own TARGET code, and its twin's. -/
def HostSide.ownTarget (h : HostSide) : Nat := h.get Reg.SYS_STRAPS_TARGET
def twinOf (t : Nat) : Nat := if t < 4 then t + 4 else t - 4

/-- The payload of an IMAGE_MSG (R363). -/
def HostSide.imageMsg (h : HostSide) (id : Nat) (e : DT) (admits : Bool) : List Byte :=
  leBytes id 8 ++ leBytes e.toNat 8 ++ leBytes (if admits then 1 else 2) 1 ++ leBytes h.ownTarget 1 ++ leBytes 0 6

/-- The twin link that carries messages. -/
def HostSide.twinLink (h : HostSide) : Nat := if h.linkUp 4 then 4 else 5

/-- Sends an IMAGE_MSG to the twin. Log entry 33 (DEDUCED). -/
def HostSide.twinVerdict (h : HostSide) (id : Nat) (e : DT) (admits : Bool) : HostSide :=
  h.sendMessage h.twinLink 3 (h.imageMsg id e admits)

/-- Sends an IMAGE_MSG to every other member (R73): over each UP stitch link, and to the twin over a twin link.
Log entry 33 (DEDUCED). -/
def HostSide.sendVerdict (h : HostSide) (members id : Nat) (e : DT) (admits : Bool) : HostSide :=
  let own := h.ownTarget
  let bank := (List.range 8).any (fun t => bit members t && t != own && t / 4 == own / 4)
  let h := if bank then (List.range 4).foldl (fun h k => h.sendMessage k 3 (h.imageMsg id e admits)) h else h
  if bit members (twinOf own) then h.twinVerdict id e admits else h

/-! ## FIELD_CONFIG and FW_STAGE at the host end (R267, R268) -/

/-- MSG values of messages on a channel whose acknowledge or answer host Uliska awaits (R257). -/
def HostSide.awaited (h : HostSide) (c : Nat) : List Nat :=
  match c with
  | 0 => h.uliska.await.map (·.sentMsg)
  | 2 => (h.xing.sending.toList ++ h.xing.fwSend.toList).filterMap (fun v => if v.phase < 3 then some v.msg else none) ++
      h.uliska.arms
  | _ => []

/-- The first MSG from `m` on that is not awaited, among 256 (R257). -/
def freeMsg (used : List Nat) : Nat → Nat → Nat
  | 0, m => m
  | n + 1, m => if used.contains m then freeMsg used n ((m + 1) % 256) else m

/-- MSG of the host end's next message on a channel (R257). -/
def HostSide.nextMsg (h : HostSide) (c : Nat) : HostSide :=
  { h with xing := { h.xing with msg := freeMsg (h.awaited c) 256 ((h.xing.msg + 1) % 256) } }

/-- The payload of BEGIN, END, ARM and CANCEL. -/
def cfgPayload (op id total crc : Nat) (e : DT) : List Byte :=
  leBytes op 1 ++ leBytes 0 3 ++ leBytes id 8 ++ leBytes total 4 ++ leBytes crc 4 ++ leBytes e.toNat 8

/-- The payload of a DATA cell. -/
def dataPayload (off : Nat) (bs : List Byte) : List Byte := leBytes 2 1 ++ leBytes 0 3 ++ leBytes off 4 ++ bs

/-- TYPE of a message in pieces. -/
def pieceType (fw : Bool) : Nat := if fw then 8 else 7

/-- Sends one FIELD_CONFIG or FW_STAGE message on XM2. Log entry 32 (DEDUCED). -/
def HostSide.sendPiece (h : HostSide) (fw : Bool) (payload : List Byte) : HostSide :=
  let h := h.nextMsg 2
  h.sendCell 2 (oneCell (pieceType fw) h.xing.msg payload)

/-- Records what host Uliska sends piece by piece. -/
def HostSide.setSending (h : HostSide) (fw : Bool) (v : Option Sending) : HostSide :=
  { h with xing := if fw then { h.xing with fwSend := v } else { h.xing with sending := v } }

def HostSide.sendingOf (h : HostSide) (fw : Bool) : Option Sending := if fw then h.xing.fwSend else h.xing.sending

/-- BEGIN of a content. One message at a time awaits its acknowledge (log entry 32). Log entry 32 (DEDUCED). -/
def HostSide.beginSending (h : HostSide) (fw : Bool) (id : Nat) (content : List Byte) (deadline : DT) : HostSide :=
  let h := h.sendPiece fw (cfgPayload 1 id content.length (crc32 content).toNat 0)
  h.setSending fw (some ⟨fw, id, content, 0, 0, h.xing.msg, deadline⟩)

/-- The acknowledge of the piece that is awaited: the next DATA cell, END, or the end of the content.
Log entries 29 (DEDUCED), 32 (DEDUCED). -/
def HostSide.pieceAcked (h : HostSide) (fw : Bool) (v : Sending) (code : Nat) : HostSide :=
  if code ≠ 0 then h.setSending fw (some { v with phase := 4 })
  else if v.phase = 2 then h.setSending fw (some { v with phase := 3 })
  else if v.sent < v.content.length then
    let piece := slice v.content v.sent 52
    let h := h.sendPiece fw (dataPayload v.sent piece)
    h.setSending fw (some { v with sent := v.sent + piece.length, phase := 1, msg := h.xing.msg })
  else
    let h := h.sendPiece fw (cfgPayload 3 v.imageId 0 0 0)
    h.setSending fw (some { v with phase := 2, msg := h.xing.msg })

/-- The acknowledge of an ARM or CANCEL just sent is awaited (R257, R267). -/
def HostSide.awaitArm (h : HostSide) : HostSide :=
  { h with uliska := { h.uliska with arms := h.uliska.arms ++ [h.xing.msg] } }

/-- ARM and CANCEL (R267). -/
def HostSide.sendArm (h : HostSide) (id : Nat) (e : DT) : HostSide := (h.sendPiece false (cfgPayload 4 id 0 0 e)).awaitArm
def HostSide.sendCancel (h : HostSide) (id : Nat) : HostSide := (h.sendPiece false (cfgPayload 5 id 0 0 0)).awaitArm

/-! ## Refusal of the staged image (R71, R73, R79) -/

/-- BANK_SEQ of the staged or last active bank image. -/
def HostSide.showBankSeq (h : HostSide) : HostSide :=
  let seq := ((h.stage.staged).bind (fun s => if s.cfg.bankFlag then s.cfg.bank.map (·.bankSeq) else none)).getD h.stage.bankSeq
  h.put Reg.SIM_STATUS_BANK_SEQ (seq % 65536)

/-- The staged image is dropped: its staged pages return, a verified field content is cancelled, and marker frames of it
count for nothing (08_heads.md R204). -/
def HostSide.dropStaged (h : HostSide) : HostSide :=
  let h := match h.stage.staged with
    | some st => if st.held then h.sendCancel st.imageId else h
    | none => h
  let h := h.freePages (·.staged)
  let unmarked := h.display.heads.foldl (fun (t : Table HeadState) p => tput HeadState.idle t p.1 { p.2 with marks := 0 })
    h.display.heads
  let h := { h with display := { h.display with heads := unmarked } }
  (({ h with stage := { h.stage with staged := none } }).showBankSeq).setSending false none

/-- A resynchronisation that a refusal ends (16_twin_repair.md R382). -/
def HostSide.resyncFails (h : HostSide) : HostSide :=
  if h.get Reg.TWN_RESYNC_STATE = 1 then
    (h.put Reg.TWN_RESYNC_STATE 3).log 8 2 0 0 (h.get Reg.SIM_REFUSAL_REASON + 2 ^ 8 * h.get Reg.SIM_REFUSAL_SECTION +
      2 ^ 16 * h.get Reg.SIM_REFUSAL_PEER + 2 ^ 19 * h.get Reg.SIM_REFUSAL_SECTION_NONE)
  else h

/-- STAGE becomes REFUSED with a reason, the section concerned or none, and the member concerned; a refusal message is
sent to `members` (log entry 33: to every UP link while the members are not known). -/
def HostSide.refuseImage (h : HostSide) (reason : Nat) (sec : Option Nat) (peer members id : Nat) (e : DT) : HostSide :=
  let h := h.dropStaged.toStage 6
  let h := (((h.put Reg.SIM_REFUSAL_REASON reason).put Reg.SIM_REFUSAL_SECTION (sec.getD 0)).put
    Reg.SIM_REFUSAL_PEER peer).putB Reg.SIM_REFUSAL_SECTION_NONE sec.isNone
  (h.sendVerdict members id e false).resyncFails

/-- A refusal of the image that is staged and checked. -/
def HostSide.refuseStaged (h : HostSide) (reason peer : Nat) : HostSide :=
  match h.stage.staged with
  | some st => h.refuseImage reason none peer st.members st.imageId st.epoch
  | none => h

/-! ## Identity of the field side (R76) -/

/-- The first field HEALTH after the crossing returns shows another active ID. -/
def HostSide.reconcile (h : HostSide) (fieldActive fieldContent : Nat) : HostSide :=
  if h.uliska.seenHealth then h
  else
    let h := { h with uliska := { h.uliska with seenHealth := true } }
    if fieldActive = h.activeId then h
    else if fieldContent = h.uliska.contentId then h.sendArm h.activeId (h.now + 1000000)
    else (h.put Reg.SIM_STATUS_FIELD_SPLIT 1).log 6 4 0

end Sys2Proof.Machine
end

