-- ==== Sys2Proof/Machine/Cross.lean ====
section
/-! DEFINITION. Meanings of the crossing commands (11_crossing.md): channels, link cells, doorbells, the crossing's
states, HEALTH and the time transfer. -/

namespace Sys2Proof.Machine

/-! ## Channel registers (R249, R252, R253, R256) -/

/-- A non-secure access to a secure channel or doorbell: counted, with no effect (R249). -/
def HostSide.secViol (h : HostSide) (who : Requester) (read : Bool) : HostSide :=
  let h := h.bump Reg.MBX_SEC_VIOL_COUNT
  if read then h.answer (match who.src with | .pcie => .unsupportedRequest | .hcc _ => .busError)
  else h.refuseWrite who

/-- MBX_PUSH (R252): a rejected push ends with a bus error, or is discarded. Log entry 209 (DEDUCED). -/
def execMbxPush (who : Requester) (ch : Fin 80) (s : State) : Out :=
  regCmd s who (fun h =>
    let h := h.answer .none
    if secureChan ch.val && !who.isSecure then h.secViol who false
    else if !hostSends ch.val then h
    else
      let (h, ok) := h.pushStaged ch.val
      if ok then h else h.refuseWrite who)

/-- A pop by the agent of a channel: host Uliska logs a cell that the catalogue does not assign (R248, R250). -/
def HostSide.popBy (h : HostSide) (c : Nat) : HostSide :=
  let (cell, h) := h.popCell c
  match cell with
  | some x => if (c < 16 ∨ (64 ≤ c ∧ c < 72)) ∧ typeAssigned c (cellType x) = false then h.log 7 1 c 0 (cellType x) else h
  | none => h

/-- MBX_POP (R253). -/
def execMbxPop (who : Requester) (ch : Fin 80) (s : State) : Out :=
  regCmd s who (fun h =>
    let h := h.answer .none
    if secureChan ch.val && !who.isSecure then h.secViol who false
    else if !hostReceives ch.val then h
    else h.popBy ch.val)

/-- MBX_ACK (R256). -/
def execMbxAck (who : Requester) (ch : Fin 80) (v : Word) (s : State) : Out :=
  regCmd s who (fun h =>
    let h := h.answer .none
    if secureChan ch.val && !who.isSecure then h.secViol who false
    else if !hostReceives ch.val then h
    else if bit v.toNat 31 then h.writeAck ch.val ⟨bits v.toNat 0 8, bits v.toNat 8 16⟩
    else h)

/-- A read of MBX.ACKQ removes the oldest entry (R256). -/
def HostSide.readAckq (h : HostSide) (c : Nat) : HostSide :=
  match (h.xing.chan c).ackq with
  | [] => h.answer (.data 0)
  | a :: rest => (h.setChan c { h.xing.chan c with ackq := rest }).answer (.data (a.msg + 2 ^ 8 * a.code + 2 ^ 31))

/-- ACKQ_READ (R256). -/
def execAckqRead (who : Requester) (ch : Fin 80) (s : State) : Out :=
  readCmd s who (fun h =>
    if secureChan ch.val && !who.isSecure then h.secViol who true
    else if !hostSends ch.val then h.answer (.data 0)
    else h.readAckq ch.val)

/-! ## Arrival of cells (R253, R255, R259) -/

/-- The replica writer pops each POINT_BATCH cell as it arrives (R236, R250, R254): whole batches wait for
POINT_BATCH_RX. A batch whose end was lost ends at the next FIRST. -/
def HostSide.batchCell (h : HostSide) (cell : List Byte) : HostSide :=
  let h := (h.popCell 9).2
  if cellType cell ≠ 3 then h.log 7 1 9 0 (cellType cell)
  else
    let fl := fieldAt cell 2 1
    let x := h.xing
    let x := if bit fl 0 then { x with batches := x.batches ++ x.batch.toList, batch := some (h.vt, [cell]) }
      else match x.batch with
        | some (v, cs) => { x with batch := some (v, cs ++ [cell]) }
        | none => { x with batch := some (h.vt, [cell]) }
    let x := if bit fl 1 then { x with batches := x.batches ++ x.batch.toList, batch := none } else x
    { h with xing := x }

/-- A cell reaches the host end of a channel. -/
def HostSide.cellArrives (h : HostSide) (c : Nat) (cell : List Byte) : HostSide :=
  let (ch, gap) := (h.xing.chan c).receive cell
  let h := h.setChan c ch
  let h := if gap then h.put (Reg.MBX_RXSTAT_GAP c) 1 else h
  let h := if c = 24 ∨ 72 ≤ c then h.interruptIf Reg.MBX_IRQ_CTRL_RX_IRQ_EN Reg.MBX_IRQ_CTRL_VECTOR else h
  if c = 9 then ({ h with xing := { h.xing with resync := h.xing.resync || gap } }).batchCell cell else h

/-- A damaged cell at the host end: its slot returns, it is counted. Log entry 49 (DEDUCED). -/
def HostSide.cellDamaged (h : HostSide) (c : Nat) : HostSide :=
  (h.setChan c (h.xing.chan c).discard).bump Reg.MBX_XING_COUNTS_CELL_ERR

def FieldSide.cellArrives (f : FieldSide) (c : Nat) (cell : List Byte) : FieldSide :=
  f.setChan c ((f.xing.chan c).receive cell).1

/-- A damaged cell at the field side is discarded. Log entry 49 (DEDUCED). -/
def FieldSide.cellDamaged (f : FieldSide) (c : Nat) : FieldSide :=
  let f := f.setChan c (f.xing.chan c).discard
  { f with xing := { f.xing with cellErr := f.xing.cellErr + 1 } }

/-- The oldest cell in flight on a host mailbox arrives (R259): no cell is lost.
Log entries 48 (DEDUCED), 56 (DEDUCED). -/
def HostSide.mailboxArrival (h : HostSide) (c : Nat) : HostSide :=
  match (h.xing.chan c).flight with
  | [] => h
  | x :: rest => (h.setChan c { h.xing.chan c with flight := rest }).cellArrives c x.cell

/-- A cell from the host arrives at the field side. -/
def State.cellToField (s : State) (c : Nat) (damaged : Bool) : State :=
  match (s.host.xing.chan c).flight with
  | [] => s
  | x :: rest =>
    let h := s.host.setChan c { s.host.xing.chan c with flight := rest }
    let (n, h) := ({ h with xing := h.xing.serve c x.at_ }).free (2 ^ 64)
    let cell := stamp x.cell (departStamp x.at_ h.now n) s.field.now
    { s with host := h, field := if damaged then s.field.cellDamaged c else s.field.cellArrives c cell }

/-- A cell from the field side arrives at the host. -/
def State.cellToHost (s : State) (c : Nat) (damaged : Bool) : State :=
  match (s.field.xing.chan c).flight with
  | [] => s
  | x :: rest =>
    let f := s.field.setChan c { s.field.xing.chan c with flight := rest }
    let (n, f) := ({ f with xing := f.xing.serve c x.at_ }).free (2 ^ 64)
    let cell := stamp x.cell (departStamp x.at_ f.now n) s.host.now
    { s with field := f, host := if damaged then s.host.cellDamaged c else s.host.cellArrives c cell }

/-- CELL_ARRIVAL (R253, R254, R255, R259, R263). -/
def execCellArrival (ch : Fin 80) (damaged : Bool) (s : State) : Out :=
  if 64 ≤ ch.val then hostCmd s (fun h => h.mailboxArrival ch.val)
  else if hostReceives ch.val then
    hostState s (fun s => if s.field.xing.mayArrive ch.val then s.cellToHost ch.val damaged else s)
  else fieldState s (fun s => if s.host.xing.mayArrive ch.val then s.cellToField ch.val damaged else s)

/-! ## Link cells and doorbells (R253, R256, R258, 16_twin_repair.md R370) -/

/-- The host end sends a link cell where a pop, an acknowledge or a doorbell waits. -/
def HostSide.sendLinkCell (h : HostSide) : HostSide :=
  let p := h.xing.linkWaiting h.ringing h.now
  if h.xing.state = 0 ∨ !p.waiting ∨ !h.xing.linkDue h.tb.raw.toNat then h
  else
    let x := h.xing.linkTaken
    let h := { h with xing := { x with link := x.link ++ [p], lastLink := h.tb.raw.toNat + 1 } }
    (h.put Reg.MBX_DB_RING_LO_BITS 0).put Reg.MBX_DB_RING_HI_BITS 0

def FieldSide.sendLinkCell (f : FieldSide) : FieldSide :=
  let p := f.xing.linkWaiting f.xing.ring f.now
  if f.xing.state = 0 ∨ !p.waiting ∨ !f.xing.linkDue f.tb.raw.toNat then f
  else
    let x := f.xing.linkTaken
    { f with xing := { x with link := x.link ++ [p], lastLink := f.tb.raw.toNat + 1, ring := 0 } }

/-- LINK_CELL_SEND (R253). -/
def execLinkCellSend (side : Side) (s : State) : Out :=
  match side with
  | .host => hostCmd s (·.sendLinkCell)
  | .field => fieldCmd s (·.sendLinkCell)

/-- LOG_EXPORT replies are pushed as slots of XM24 become free. Log entry 169 (DEDUCED). -/
def FieldSide.pushExport (f : FieldSide) : Nat → FieldSide
  | 0 => f
  | n + 1 =>
    match f.work.exportBox with
    | [] => f
    | c :: rest =>
      if f.xing.canPush 24 then (({ f with work := { f.work with exportBox := rest } }).sendCell 24 c).pushExport n
      else f

/-- The interlock's doorbells (Table 16.1): 0 to 4 ring it, RELEASE begins a release of the module that asserts
(R374); the others become pending for field Uliska. Log entry 55 (DEDUCED). -/
def FieldSide.bellsArrive (f : FieldSide) (b : Nat) : FieldSide :=
  let at_ (i : Nat) (old : Option DT) : Option DT := if bit b i then some f.now else old
  let il := f.il
  let il := { il with
    bell0 := at_ 0 il.bell0
    bell2 := at_ 2 il.bell2
    bell3 := at_ 3 il.bell3
    bell4 := at_ 4 il.bell4
    release := if bit b 1 && il.out && il.release.isNone then some f.now else il.release
    blocked := il.blocked && !bit b 2 }
  let f := if il.release.isSome && f.il.release.isNone then f.logEvent 4 0 0 else f
  { f with il := il, xing := { f.xing with pend := f.xing.pend ||| (b / 32 * 32) } }

/-- The oldest link cell arrives at the field side; doorbell 5 resets it (18_module_electrical.md R418). -/
def State.linkToField (s : State) : State :=
  match s.host.xing.link with
  | [] => s
  | p :: rest =>
    let s := { s with host := { s.host with xing := { s.host.xing with link := rest } } }
    let f := { s.field with xing := s.field.xing.linkArrives p }
    let f := (((f.bellsArrive (clrBit p.bells 5)).pushAcks 17).pushOutbox 17).pushExport 17
    let s := { s with field := f }
    if bit p.bells 5 then s.softField else s

/-- The oldest link cell arrives at the host. -/
def State.linkToHost (s : State) : State :=
  match s.field.xing.link with
  | [] => s
  | p :: rest =>
    let f := { s.field with xing := { s.field.xing with link := rest } }
    { s with field := f, host := s.host.linkArrives p }

/-- LINK_CELL_ARRIVAL (R253, R256, R258). -/
def execLinkCellArrival (side : Side) (s : State) : Out :=
  match side with
  | .host => hostState s (·.linkToHost)
  | .field => fieldState s (·.linkToField)

/-- DOORBELL_RING (R249, R258): by a host source at MBX.DB_RING, or by field Uliska. -/
def execDoorbellRing (side : Side) (who : Requester) (hi : Bool) (v : Word) (s : State) : Out :=
  match side with
  | .host => regCmd s who (fun h =>
      let h := h.answer .none
      if hi then h.put Reg.MBX_DB_RING_HI_BITS (h.get Reg.MBX_DB_RING_HI_BITS ||| v.toNat)
      else if v.toNat = 0 then h
      else if !who.isSecure then h.secViol who false
      else h.put Reg.MBX_DB_RING_LO_BITS (h.get Reg.MBX_DB_RING_LO_BITS ||| v.toNat))
  | .field => fieldCmd s (fun f =>
      { f with xing := { f.xing with ring := f.xing.ring ||| (if hi then v.toNat * 2 ^ 32 else v.toNat) } })

/-! ## Lock and the crossing's states (R14, R260 to R262) -/

/-- ISOLATION_LOCK_LOST (R14, R262). Log entry 52 (DEDUCED). -/
def execIsolationLockLost (ch : Fin 2) (s : State) : Out := .next (s.held (s.lockLost ch.val))

/-- Field Uliska sends INTERFACE_HELLO (R260). -/
def FieldSide.sendHello (f : FieldSide) : FieldSide :=
  let f := { f with xing := { f.xing with msg := (f.xing.msg + 1) % 256 } }
  f.sendCell 10 (oneCell 6 f.xing.msg (leBytes 1 2 ++ leBytes 1 1 ++ leBytes 0 1 ++ leBytes f.build 4 ++
    leBytes (Config.fieldDie 0) 2 ++ leBytes (Config.fieldDie 1) 1 ++ leBytes 0 1 ++ leBytes f.act.activeId 8))

/-- An isolation channel locks, once both sides' start-up has reached the crossing: each side that is DOWN enters
HELLO. Log entry 53 (DEDUCED). -/
def State.lockGained (s : State) (ch : Nat) : State :=
  if s.locked ch || !s.host.run || !s.field.run || decide (s.host.get Reg.SYS_BOOT_STATUS_STEP < 4) ||
      decide (s.field.boot.step < 6) then s
  else
    let s := s.setLock ch true
    let lost := if ch = 0 then s.host.xing.lost0 else s.host.xing.lost1
    let s := if lost then { s with host := (s.host.setLost ch false).log 1 3 ch } else s
    let s := if s.host.xing.state = 0 then
        { s with host := { s.host.setCrossing 1 with uliska := { s.host.uliska with seenHealth := false } } } else s
    if s.field.xing.state = 0 then { s with field := (s.field.setCrossing 1).sendHello } else s

/-- ISOLATION_LOCK_GAINED (R14, R260). -/
def execIsolationLockGained (ch : Fin 2) (s : State) : Out := .next (s.held (s.lockGained ch.val))

/-- The tested-set list holds the pair of builds (R260, 03_structure_image.md R77, R78). Log entry 66 (DEDUCED). -/
def HostSide.pairTested (h : HostSide) (field : Nat) : Bool :=
  h.uliska.tested.any (fun t => t.hostBuild == h.get Reg.SIM_TUPLE2_HOST_BUILD && t.fieldBuild == field)

/-- INTERFACE_HELLO_RX (R260): the reply names the state that host Uliska enters. -/
def execInterfaceHelloRx (s : State) : Out :=
  hostCmd s (fun h =>
    let (c, h) := h.takeCell 10 6
    match c with
    | none => h
    | some c =>
      if h.xing.state ≠ 1 then h
      else
        let build := fieldAt c 8 4
        let h := h.put Reg.SIM_TUPLE3_FIELD_BUILD build
        let full := h.pairTested build
        let h := h.nextMsg 1
        let h := h.sendCell 1 (oneCell 6 h.xing.msg (leBytes 1 2 ++ leBytes 2 1 ++ leBytes (if full then 1 else 2) 1 ++
          leBytes (h.get Reg.SIM_TUPLE2_HOST_BUILD) 4 ++ leBytes (h.get Reg.SIM_TUPLE1_BOOT_ROM) 2 ++
          leBytes (h.get Reg.SIM_TUPLE0_STEPPING) 1 ++ leBytes 0 1 ++ leBytes h.activeId 8))
        h.setCrossing (if full then 2 else 3))

/-- HELLO_REPLY_RX (R260, 10_field_points_commands.md R237): the field side enters the state named and every received
point becomes pending. -/
def execHelloReplyRx (s : State) : Out :=
  fieldCmd s (fun f =>
    let (c, f) := f.takeCell 1 6
    match c with
    | none => f
    | some c => if f.xing.state ≠ 1 then f else (f.setCrossing (if fieldAt c 7 1 = 1 then 2 else 3)).pendAll)

/-- A side has received no HEALTH for 50 ms. Log entry 53 (DEDUCED). -/
def XEnd.silent (x : XEnd) (now : DT) : Bool := x.state != 0 && decide (50000000 ≤ dtDiff now x.lastHealth)

/-- HEALTH_TIMEOUT (R262). Log entry 53 (DEDUCED). -/
def execHealthTimeout (side : Side) (s : State) : Out :=
  sideState s side (fun s =>
    let silent := match side with
      | .host => s.host.xing.silent s.host.now
      | .field => s.field.xing.silent s.field.now
    if silent then s.crossingDown else s)

/-! ## HEALTH (R266) -/

/-- Host Uliska's HEALTH: RESYNC is reported once. -/
def HostSide.sendHealth (h : HostSide) : HostSide :=
  let h := ({ h with xing := { h.xing with healthSent := some h.now } }).nextMsg 1
  let st := b2n h.tb.syncOk + 2 * b2n h.xing.resync + 4 * h.get Reg.SIM_STATUS_UNQUALIFIED +
    8 * h.get Reg.SIM_STATUS_FIELD_SPLIT
  let (h, ok) := h.pushCell 1 (oneCell 5 h.xing.msg (leBytes h.activeId 8 ++
    leBytes (h.get Reg.SIM_TUPLE2_HOST_BUILD) 4 ++ leBytes st 1))
  if ok then { h with xing := { h.xing with resync := false } } else h

/-- Field Uliska's HEALTH: carry-overs count since the last one. -/
def FieldSide.sendHealth (f : FieldSide) : FieldSide :=
  let f := { f with xing := { f.xing with msg := (f.xing.msg + 1) % 256, healthSent := some f.now } }
  let st := b2n f.il.gateOpen + 2 * b2n f.il.in_ + 4 * b2n f.tb.syncOk + 8 * b2n f.act.split +
    16 * b2n f.act.armed.isSome
  let up := (List.range 8).foldl (fun m p => if f.portUp p then setBit m p else m) 0
  let (f, ok) := f.pushCell 10 (oneCell 5 f.xing.msg (leBytes f.act.activeId 8 ++ leBytes f.build 4 ++ leBytes st 1 ++
    leBytes up 1 ++ leBytes (unsigned f.temp 16) 2 ++ leBytes f.work.carry 4 ++ leBytes f.work.launched 4 ++
    leBytes f.work.refused 4 ++ leBytes f.work.parseDrops 4 ++ leBytes f.act.contentId 8))
  if ok then { f with work := { f.work with carry := 0 } } else f

/-- 10 ms have passed since this end sent its last HEALTH (Table 11.3). -/
def XEnd.healthDue (x : XEnd) (now : DT) : Bool :=
  match x.healthSent with
  | none => true
  | some t => decide (10000000 ≤ dtDiff now t)

/-- HEALTH_SEND (R266): one every 10 ms from each side. -/
def execHealthSend (side : Side) (s : State) : Out :=
  match side with
  | .host => hostCmd s (fun h => if 2 ≤ h.xing.state ∧ h.xing.healthDue h.now then h.sendHealth else h)
  | .field => fieldCmd s (fun f => if 2 ≤ f.xing.state ∧ f.xing.healthDue f.now then f.sendHealth else f)

/-- A field HEALTH at the host (R76, 16_twin_repair.md R391, R393): a release is over where the field side holds no authority.
Log entry 218 (DEDUCED). -/
def HostSide.takeHealth (h : HostSide) (c : List Byte) : HostSide :=
  let st := fieldAt c 16 1
  let h := { h with xing := { h.xing with lastHealth := h.now } }
  let h := (((h.putB Reg.TWN_STATUS_AUTHORITY (bit st 0)).putB Reg.TWN_STATUS_INTLK_IN (bit st 1)).put
    Reg.SYS_TEMP_FIELD (fieldAt c 18 2))
  let h := { h with twin := { h.twin with releasing := h.twin.releasing && bit st 0 } }
  h.reconcile (fieldAt c 4 8) (fieldAt c 36 8)

/-- A host HEALTH at the field side (R76, R78, R255). -/
def FieldSide.takeHealth (f : FieldSide) (c : List Byte) : FieldSide :=
  let st := fieldAt c 16 1
  let f := { f with
    xing := { f.xing with lastHealth := f.now }
    act := { f.act with split := bit st 3, unqualified := bit st 2, hostId := fieldAt c 4 8 } }
  if bit st 1 then f.pendAll else f

/-- HEALTH_RX (R262, R266). -/
def execHealthRx (side : Side) (s : State) : Out :=
  match side with
  | .host => hostCmd s (fun h => match h.takeCell 10 5 with | (some c, h) => h.takeHealth c | (none, h) => h)
  | .field => fieldCmd s (fun f => match f.takeCell 1 5 with | (some c, f) => f.takeHealth c | (none, f) => f)

/-! ## Time transfer (R263, R264) -/

/-- The payload of a TIME_XFER cell; the crossing writes its stamps. -/
def xferPayload (xseq : Nat) (echo : Option (DT × DT)) (sync : Bool) : List Byte :=
  leBytes xseq 4 ++ leBytes 0 16 ++ leBytes ((echo.map (·.1.toNat)).getD 0) 8 ++ leBytes ((echo.map (·.2.toNat)).getD 0) 8 ++
    leBytes (b2n sync) 1

/-- TIME_XFER_SEND (R263): every 2 ms of host DT. -/
def execTimeXferSend (s : State) : Out :=
  hostCmd s (fun h =>
    let x := h.xing.xfer
    let due := match x.lastSent with | none => true | some t => decide (2000000 ≤ dtDiff h.now t)
    if h.xing.state < 2 ∨ !due then h
    else
      let h := h.nextMsg 1
      let n := (x.xseq + 1) % 2 ^ 32
      let h := h.sendCell 1 (oneCell 4 h.xing.msg (xferPayload n x.open_ h.tb.syncOk))
      { h with xing := { h.xing with xfer := { x with xseq := n, lastSent := some h.now, open_ := none } } })

/-- Field Uliska takes a request: the exchange that its echo completes joins the mapping, and the reply echoes the
request's stamps. -/
def FieldSide.answerXfer (f : FieldSide) (c : List Byte) : FieldSide :=
  let n := fieldAt c 4 4
  let x := f.xing.xfer
  let x := match x.open_ with
    | some (t1, t2) =>
      if n = (x.xseq + 1) % 2 ^ 32 ∧ fieldAt c 24 8 ≠ 0 then x.take ⟨t1, t2, dtAt c 24, dtAt c 32⟩ else x
    | none => x
  let x := { x with xseq := n, open_ := some (dtAt c 8, dtAt c 16) }
  let f := { f with xing := { f.xing with xfer := x } }
  f.sendCell 10 (oneCell 4 (cellMsg c) (xferPayload n x.open_ f.tb.syncOk))

/-- TIME_XFER_REQUEST_RX (R263, R264). -/
def execTimeXferRequestRx (s : State) : Out :=
  fieldCmd s (fun f => match f.takeCell 1 4 with | (some c, f) => f.answerXfer c | (none, f) => f)

/-- The host takes a reply: it holds all four stamps. -/
def HostSide.takeXfer (h : HostSide) (c : List Byte) : HostSide :=
  let x := h.xing.xfer
  if fieldAt c 4 4 ≠ x.xseq then h
  else
    let e : Exchange := ⟨dtAt c 24, dtAt c 32, dtAt c 8, dtAt c 16⟩
    ({ h with xing := { h.xing with xfer := { x.take e with open_ := some (e.t3, e.t4) } } }).showMap

/-- TIME_XFER_REPLY_RX (R264). -/
def execTimeXferReplyRx (s : State) : Out :=
  hostCmd s (fun h => match h.takeCell 10 4 with | (some c, h) => h.takeXfer c | (none, h) => h)

/-- MAP_EXPIRY (R264): MAP_VALID follows the mapping's age. -/
def execMapExpiry (s : State) : Out := hostCmd s (·.showMap)

end Sys2Proof.Machine
end

