-- ==== Sys2Proof/Machine/Rtp.lean ====
section
/-! DEFINITION. RTP and RTCP packets as the module reads them (05_ingest_decode.md R108 to R110): headers, header
extensions of RFC 8285, payload formats of RFC 7798 and RFC 6184, sender reports. -/

namespace Sys2Proof.Machine

/-- An RTP packet: header fields, extension elements by identifier, payload without padding. -/
structure Rtp where
  pt      : Nat
  marker  : Bool
  seq     : Nat
  ts      : Nat
  ssrc    : Nat
  exts    : List (Nat × List Byte)
  payload : List Byte
  deriving DecidableEq, Repr

/-- One-byte elements (RFC 8285); `n` bounds the walk. -/
def extOne : Nat → List Byte → List (Nat × List Byte)
  | 0, _ => []
  | _, [] => []
  | n + 1, b :: t =>
    let id := b.toNat / 16
    let len := b.toNat % 16 + 1
    if id = 15 then []
    -- a length with identifier 0 ends the extension
    else if id = 0 then (if len = 1 then extOne n t else [])
    else if t.length < len then []
    else (id, t.take len) :: extOne n (t.drop len)

/-- Two-byte elements. -/
def extTwo : Nat → List Byte → List (Nat × List Byte)
  | 0, _ => []
  | _, [] => []
  | n + 1, b :: t =>
    if b = 0 then extTwo n t
    else match t with
      | [] => []
      | l :: u => if u.length < l.toNat then [] else (b.toNat, u.take l.toNat) :: extTwo n (u.drop l.toNat)

/-- A UDP payload as RTP version 2; none where it is not. -/
def parseRtp (b : List Byte) : Option Rtp :=
  if b.length < 12 then none
  else
    let b0 := fieldBE b 0 1
    let b1 := fieldBE b 1 1
    let cc := bits b0 0 4
    let o := 12 + 4 * cc
    let ext := bit b0 4
    let extLen := if ext then 4 + 4 * fieldBE b (o + 2) 2 else 0
    let head := o + (if ext then 4 else 0)
    let pad := if bit b0 5 then fieldBE b (b.length - 1) 1 else 0
    if bits b0 6 2 ≠ 2 ∨ b.length < head ∨ b.length < o + extLen + pad ∨ (bit b0 5 ∧ pad = 0) then none
    else
      let body := slice b (o + 4) (extLen - 4)
      let profile := fieldBE b o 2
      let exts := if !ext then []
        else if profile = 0xBEDE then extOne body.length body
        else if profile / 16 = 0x100 then extTwo body.length body
        else []
      some ⟨bits b1 0 7, bit b1 7, fieldBE b 2 2, fieldBE b 4 4, fieldBE b 8 4, exts,
        slice b (o + extLen) (b.length - o - extLen - pad)⟩

/-- The extension element of an identifier that is not 0. -/
def Rtp.ext (r : Rtp) (id : Nat) : Option (List Byte) :=
  if id = 0 then none else (r.exts.find? (fun e => e.1 == id)).map (·.2)

/-- RTCP by the packet types that RFC 5761 sets apart. -/
def isRtcp (b : List Byte) : Bool := decide (2 ≤ b.length ∧ 200 ≤ fieldBE b 1 1 ∧ fieldBE b 1 1 ≤ 204)

/-- NTP seconds and fraction in ns. -/
def ntpNs (x : Nat) : Nat := x / 2 ^ 32 * 1000000000 + x % 2 ^ 32 * 1000000000 / 2 ^ 32

/-- The sender reports of a compound packet by SSRC, NTP timestamp and RTP timestamp; `n` bounds the walk. -/
def senderReports : Nat → List Byte → List (Nat × Nat × Nat)
  | 0, _ => []
  | n + 1, b =>
    if b.length < 8 ∨ fieldBE b 0 1 / 64 ≠ 2 then []
    else
      let len := 4 * fieldBE b 2 2 + 4
      let rest := senderReports n (b.drop len)
      if fieldBE b 1 1 = 200 ∧ 28 ≤ len ∧ len ≤ b.length then (fieldBE b 4 4, fieldBE b 8 8, fieldBE b 16 4) :: rest
      else rest

/-! ## Payload formats (R109, R117) -/

/-- An HEVC stream (Table 05.1). Log entry 96 (DEDUCED). -/
def hevc (codec : Nat) : Bool := codec == 1 || codec == 2

/-- A NAL unit that begins an access unit, or the first slice of a picture: by its type and the first byte after its
header. Log entry 96 (DEDUCED). -/
def beginsUnit (isHevc : Bool) (type : Nat) (next : Nat) : Bool :=
  if isHevc then
    decide (type = 32 ∨ type = 33 ∨ type = 34 ∨ type = 35 ∨ type = 39 ∨ type = 40) || (decide (type < 32) && bit next 7)
  else
    decide (type = 6 ∨ type = 7 ∨ type = 8 ∨ type = 9) || (decide (type = 1 ∨ type = 5) && bit next 7)

/-- The NAL units of an aggregation packet: 16-bit sizes and units that fill the payload, without DONL or DOND; none
otherwise. `n` bounds the walk. -/
def aggregated : Nat → List Byte → Option (List (List Byte))
  | _, [] => some []
  | 0, _ => none
  | n + 1, b =>
    let len := fieldBE b 0 2
    if len = 0 ∨ b.length < 2 + len then none
    else (aggregated n (b.drop (2 + len))).map (fun l => (b.drop 2).take len :: l)

/-- How a payload carries NAL units and whether its first one begins an access unit or a picture; none where it is
refused. Log entry 96 (DEDUCED). -/
def payloadKind (isHevc : Bool) (b : List Byte) : Option (Packing × Bool) :=
  if isHevc then
    if b.length < 2 then none
    else
      let t := bits (fieldBE b 0 1) 1 6
      let fu := fieldBE b 2 1
      if t = 48 then
        match aggregated b.length (b.drop 2) with
        | some (u :: _) => some (.whole, beginsUnit true (bits (fieldBE u 0 1) 1 6) (fieldBE u 2 1))
        | _ => none
      else if t = 49 then
        if b.length < 3 then none
        else some (if bit fu 7 then .fuStart else if bit fu 6 then .fuEnd else .fuMiddle,
          bit fu 7 && beginsUnit true (bits fu 0 6) (fieldBE b 3 1))
      else if t < 48 then some (.whole, beginsUnit true t (fieldBE b 2 1))
      else none
  else
    if b.length < 1 then none
    else
      let t := bits (fieldBE b 0 1) 0 5
      let fu := fieldBE b 1 1
      if t = 24 then
        match aggregated b.length (b.drop 1) with
        | some (u :: _) => some (.whole, beginsUnit false (bits (fieldBE u 0 1) 0 5) (fieldBE u 1 1))
        | _ => none
      else if t = 28 then
        if b.length < 2 then none
        else some (if bit fu 7 then .fuStart else if bit fu 6 then .fuEnd else .fuMiddle,
          bit fu 7 && beginsUnit false (bits fu 0 5) (fieldBE b 2 1))
      else if 1 ≤ t ∧ t ≤ 23 then some (.whole, beginsUnit false t (fieldBE b 1 1))
      else none

end Sys2Proof.Machine
end

