-- ==== Sys2Proof/Machine/Pixel.lean ====
section
/-! DEFINITION. The pixel arithmetic of the composition engines (06_composition.md R159 to R161; 02_freshness.md R39,
R41, R46): exact fractions, sampling positions, conversion to RGB 10:10:10, blending, Gingham, corner marks and the
ticker. -/

namespace Sys2Proof.Machine

/-- An exact fraction; `den` is not 0. -/
structure Frac where
  num : Int
  den : Nat
  deriving DecidableEq, Repr

def Frac.ofNat (n : Nat) : Frac := ⟨n, 1⟩
def Frac.add (a b : Frac) : Frac := if a.den = b.den then ⟨a.num + b.num, a.den⟩ else ⟨a.num * b.den + b.num * a.den, a.den * b.den⟩
def Frac.mul (a b : Frac) : Frac := ⟨a.num * b.num, a.den * b.den⟩
def Frac.sub (a b : Frac) : Frac := a.add ⟨-b.num, b.den⟩
/-- The nearest integer, a tie to the larger. -/
def Frac.round (a : Frac) : Int := (2 * a.num + a.den) / (2 * (a.den : Int))

/-- One pixel: alpha and three components, each on the scale of 10 bits; `bad` where a fetch failed. -/
structure Px where
  a   : Frac
  r   : Frac
  g   : Frac
  b   : Frac
  bad : Bool
  deriving DecidableEq, Repr

/-- A packed RGB 10:10:10 colour as a pixel of full alpha. -/
def Px.ofRgb (c : Nat) : Px := ⟨.ofNat 1023, .ofNat (bits c 20 10), .ofNat (bits c 10 10), .ofNat (bits c 0 10), false⟩

/-- Combines components one by one. -/
def Px.map2 (f : Frac → Frac → Frac) (p q : Px) : Px := ⟨f p.a q.a, f p.r q.r, f p.g q.g, f p.b q.b, p.bad || q.bad⟩
def Px.map (f : Frac → Frac) (p : Px) : Px := ⟨f p.a, f p.r, f p.g, f p.b, p.bad⟩

/-! ## Scaling (R159) -/

/-- An axis of a layer: source origin, source extent and destination extent. -/
structure Axis where
  origin : Nat
  src    : Nat
  dst    : Nat
  deriving DecidableEq, Repr

/-- The axis is pre-averaged. -/
def Axis.pre (a : Axis) : Bool := decide (a.dst * 2 < a.src)
/-- The extent after pre-averaging. -/
def Axis.extent (a : Axis) : Nat := if a.pre then a.src / 2 else a.src
/-- STEP, in 16.16 fixed point. -/
def Axis.step (a : Axis) : Nat := a.extent * 65536 / a.dst
/-- Sampling position of destination pixel `i`, clamped, in 16.16 fixed point. -/
def Axis.pos (a : Axis) (i : Nat) : Nat := min ((2 * i + 1) * a.step / 2 - 32768) ((a.extent - 1) * 65536)

/-- Words 9 to 11 of an active descriptor (Table 06.3). -/
def scaleWords (x y : Axis) : List Nat := [x.step % 2 ^ 32, y.step % 2 ^ 32, b2n x.pre + 2 * b2n y.pre]

/-- The box pre-average of up to four pixels, rounded to nearest, ties up. -/
def boxMean (ps : List Px) : Px :=
  match ps with
  | [] => Px.ofRgb 0
  | p :: t =>
    let s := t.foldl (Px.map2 Frac.add) p
    s.map (fun f => ⟨(Frac.mk f.num (f.den * ps.length)).round, 1⟩)

/-- A source grid after pre-averaging: grid point (x, y) counted from the crop origin. Log entry 75 (DEDUCED). -/
def preGrid (ax ay : Axis) (texel : Nat → Nat → Px) (x y : Nat) : Px :=
  let xs := if ax.pre then [ax.origin + 2 * x, ax.origin + 2 * x + 1] else [ax.origin + x]
  let ys := if ay.pre then [ay.origin + 2 * y, ay.origin + 2 * y + 1] else [ay.origin + y]
  match xs, ys with
  | [u], [v] => texel u v
  | _, _ => boxMean (ys.flatMap (fun v => xs.map (fun u => texel u v)))

/-- Bilinear interpolation at destination pixel (i, j); `widen` brings a grid pixel to the scale of 10 bits. -/
def scaled (ax ay : Axis) (texel : Nat → Nat → Px) (widen : Px → Px) (i j : Nat) : Px :=
  let px := ax.pos i
  let py := ay.pos j
  let x0 := px / 65536
  let y0 := py / 65536
  let x1 := min (x0 + 1) (ax.extent - 1)
  let y1 := min (y0 + 1) (ay.extent - 1)
  let fx := px % 65536
  let fy := py % 65536
  let at_ (x y w : Nat) : Px := (widen (preGrid ax ay texel x y)).map (fun f => f.mul ⟨w, 4294967296⟩)
  let parts := [at_ x0 y0 ((65536 - fx) * (65536 - fy))] ++
    (if fx = 0 then [] else [at_ x1 y0 (fx * (65536 - fy))]) ++
    (if fy = 0 then [] else [at_ x0 y1 ((65536 - fx) * fy)]) ++
    (if fx = 0 ∨ fy = 0 then [] else [at_ x1 y1 (fx * fy)])
  match parts with
  | [] => Px.ofRgb 0
  | p :: t => t.foldl (Px.map2 Frac.add) p

/-! ## Conversion (R160) -/

/-- Component expansion of ARGB 8:8:8:8. Log entry 75 (DEDUCED). -/
def expand8 (c : Int) : Int := c * 4 + c / 64

/-- The matrix and range of CSC: 0 BT.709 limited, 1 BT.601 limited, 2 BT.709 full. Y, Cb and Cr on 10 bits. -/
def yuvToRgb (csc : Nat) (p : Px) : Px :=
  let limited := csc != 2
  -- Kr and Kb in units of 1/10000
  let kr : Int := if csc = 1 then 2990 else 2126
  let kb : Int := if csc = 1 then 1140 else 722
  let kg : Int := 10000 - kr - kb
  let y := if limited then (p.r.sub (.ofNat 64)).mul ⟨1023, 876⟩ else p.r
  let pb := (p.g.sub (.ofNat 512)).mul (if limited then ⟨1023, 896⟩ else ⟨1, 1⟩)
  let pr := (p.b.sub (.ofNat 512)).mul (if limited then ⟨1023, 896⟩ else ⟨1, 1⟩)
  let r := y.add (pr.mul ⟨2 * (10000 - kr), 10000⟩)
  let b := y.add (pb.mul ⟨2 * (10000 - kb), 10000⟩)
  let g := (y.sub (pb.mul ⟨2 * (10000 - kb) * kb, (10000 * kg).toNat⟩)).sub
    (pr.mul ⟨2 * (10000 - kr) * kr, (10000 * kg).toNat⟩)
  { p with r := r, g := g, b := b }

/-- A component limited to 0 to 1,023. -/
def Frac.clamp10 (f : Frac) : Frac :=
  if f.num < 0 then .ofNat 0 else if 1023 * (f.den : Int) < f.num then .ofNat 1023 else f

/-- A converted pixel is an RGB 10:10:10 pixel: each component is limited to its range (R160). -/
def Px.clampRgb (p : Px) : Px := { p with r := p.r.clamp10, g := p.g.clamp10, b := p.b.clamp10 }

/-! ## Blending (R161) -/

/-- One layer's contribution `c` over the accumulated value `d`; `alphaMode` and `galpha` of its descriptor.
Log entry 200 (DESIGN CHOICE). -/
def blend (isOpaque : Bool) (alphaMode galpha : Nat) (c d : Px) : Px :=
  let one := Frac.ofNat 1
  let a := c.a.mul ⟨1, 1023⟩
  let g : Frac := ⟨galpha, 1023⟩
  let mix (top bottom : Frac) (x y : Frac) : Frac := (x.mul top).add (y.mul (one.sub bottom))
  let f (top bottom : Frac) : Px :=
    ⟨.ofNat 1023, mix top bottom c.r d.r, mix top bottom c.g d.g, mix top bottom c.b d.b, false⟩
  if isOpaque then { c with a := .ofNat 1023, bad := false }
  else match alphaMode with
  | 0 => f (a.mul g) (a.mul g)
  | 1 => f g (a.mul g)
  | _ => f g g

/-- The 10-bit component that the engine makes of an exact value: the value itself where it is whole, otherwise at most 1 LSB
from it. -/
def finish (f : Frac) : Nat :=
  let f := f.clamp10
  let d : Int := f.den
  if f.num % d = 0 then (f.num / d).toNat
  else
  let lo := max 0 (-((d - f.num) / d))
  let hi := min 1023 ((f.num + d) / d)
  (lo + (Config.blendRound f.num f.den % (hi - lo + 1).toNat : Nat)).toNat

/-- A packed RGB 10:10:10 pixel. -/
def packRgb (p : Px) : Nat := finish p.r * 2 ^ 20 + finish p.g * 2 ^ 10 + finish p.b

/-! ## Gingham, corner marks, ticker (02_freshness.md R38 to R41, R46) -/

/-- Cell size of a head in pixels. -/
def cellSize (code : Nat) : Nat := if code = 0 then 8 else if code = 1 then 16 else 32

/-- A colour A cell. -/
def colourACell (cell x y : Nat) : Bool := (x / cell + y / cell) % 2 == 0

/-- Gingham over a layer's contribution: colour A opaque, colour B blended at its coverage. Answers the contribution
and whether its alpha becomes 1. -/
def gingham (e : GinghamEntry) (cell x y : Nat) (c : Px) : Px × Bool :=
  if colourACell cell x y then (Px.ofRgb e.colourA, true)
  else
    let k : Frac := ⟨(e.coverage + 1 : Nat), 4⟩
    let blend (q l : Frac) : Frac := (q.mul k).add (l.mul ((Frac.ofNat 1).sub k))
    let b := Px.ofRgb e.colourB
    (⟨c.a, blend b.r c.r, blend b.g c.g, blend b.b c.b, c.bad⟩, false)

/-- A pixel of the corner mark of a rectangle clipped to the head. -/
def cornerMark (x0 y0 x1 y1 x y : Nat) : Bool :=
  decide (x0 ≤ x ∧ x < x1 ∧ y0 ≤ y ∧ y < y1 ∧ (x - x0) + (y - y0) < 16)

/-- Pixel (x, y) of the ticker in frame `f`, or none outside it. -/
def ticker (e : HeadEntry) (f x y : Nat) : Option Nat :=
  if e.tickerEn = 0 then none
  else
    let x0 : Int := if e.tickerCorner % 2 = 0 then e.tickerOffX else e.hActive - 32 - e.tickerOffX
    let y0 : Int := if e.tickerCorner / 2 = 0 then e.tickerOffY else e.vActive - 32 - e.tickerOffY
    let dx : Int := x - x0
    let dy : Int := y - y0
    if 0 ≤ dx ∧ dx < 32 ∧ 0 ≤ dy ∧ dy < 32 then
      let g := (f % 256) ^^^ (f % 256 / 2)
      some (if bit g (7 - dx.toNat / 4) then e.tickerOn else e.tickerOff)
    else none

end Sys2Proof.Machine
end

