-- ==== Sys2Proof/Machine/HeadOps.lean ====
section
/-! DEFINITION. Frame timing, latches and tearing-effect reports (08_heads.md R186 to R191, R200 to R204) and the
layers that a latch fixes for its frame (06_composition.md R148, 03_structure_image.md R74). -/

namespace Sys2Proof.Machine

/-! ## Instants (R186) -/

/-- The frame period in units of 2^-24 ns. -/
def HeadEntry.pq (e : HeadEntry) : Nat := e.periodNs * 2 ^ 24 + e.periodFrac

/-- Slices of a frame (R157). -/
def HeadEntry.slices (e : HeadEntry) : Nat := cdiv e.vActive 32

/-- Packets of a frame (R188). -/
def HeadEntry.packets (e : HeadEntry) : Nat := 2 * e.vActive

/-- start(n) with the phase offset `phi`. -/
def HeadTime.start (t : HeadTime) (n : Nat) (phi : Int) : DT :=
  t.epoch + BitVec.ofNat 64 (n * t.entry.pq / 2 ^ 24) + BitVec.ofInt 64 phi

/-- line(n, y), for any integer `y`. -/
def HeadTime.line (t : HeadTime) (n : Nat) (phi y : Int) : DT :=
  t.start n phi + BitVec.ofInt 64 (y * (t.entry.pq : Int) / ((t.entry.vTotal * 2 ^ 24 : Nat) : Int))

/-- pkt(n, k). -/
def HeadTime.pkt (t : HeadTime) (n : Nat) (phi : Int) (k : Nat) : DT :=
  t.start n phi + BitVec.ofNat 64 (k * t.entry.pq / (2 * t.entry.vTotal * 2 ^ 24))

def Plan.start (p : Plan) : DT := p.time.start p.frame p.phi
def Plan.line (p : Plan) (y : Int) : DT := p.time.line p.frame p.phi y
def Plan.pkt (p : Plan) (k : Nat) : DT := p.time.pkt p.frame p.phi k

/-- T_emit of a slice (R33). -/
def Plan.emit (p : Plan) (s : Nat) : DT := p.line (32 * s)

/-- The instant at which composition of a slice is due (R157). -/
def Plan.composeAt (p : Plan) (s : Nat) : DT := p.line (32 * (s : Int) - 64)

/-- Frame number f. -/
def Plan.f (p : Plan) : Nat := p.frame % 2 ^ 32

/-- The first frame of a timing whose start is at or after an instant, with a fixed phase (R187, R275). -/
def HeadTime.firstAt (t : HeadTime) (phi : Int) (at_ : DT) : Nat :=
  let gap := dtDiff at_ (t.start 0 phi)
  if gap ≤ 0 then 0
  else
    let n := (gap.toNat * 2 ^ 24) / t.entry.pq
    if dtReached (t.start n phi) at_ then n else n + 1

/-! ## Heads -/

def HostSide.head (h : HostSide) (k : Nat) : HeadState := tget HeadState.idle h.display.heads k
def HostSide.setHead (h : HostSide) (k : Nat) (v : HeadState) : HostSide :=
  { h with display := { h.display with heads := tput HeadState.idle h.display.heads k v } }

/-- The HEADS entry of a head in the active configuration, where it is enabled. -/
def Cfg.headEntry (c : Cfg) (k : Nat) : Option HeadEntry := c.heads.find? (fun e => e.head == k && e.enable == 1)

/-- A latched frame by its number. -/
def HeadState.plan (v : HeadState) (no : Nat) : Option Plan := v.plans.find? (fun p => p.no == no)

/-- The first latched frame of number `no` or higher. -/
def HeadState.planFrom (v : HeadState) (no : Nat) : Option Plan :=
  (v.plans.reverse).find? (fun p => decide (no ≤ p.no))


/-- Two HEADS entries differ in timing (R203). Log entries 73 (DEDUCED), 85 (DEDUCED). -/
def timingDiffers (a b : HeadEntry) : Bool :=
  (a.hActive, a.vActive, a.hTotal, a.vTotal, a.periodNs, a.periodFrac, a.format, a.enable) !=
    (b.hActive, b.vActive, b.hTotal, b.vTotal, b.periodNs, b.periodFrac, b.format, b.enable)

/-- Two timings are one: their entries do not differ in timing and their epochs are equal. -/
def HeadTime.same (a b : HeadTime) : Bool := a.epoch == b.epoch && !timingDiffers a.entry b.entry

/-- φ of the newest latched frame, kept while the timing stays; 0 under a new timing, and where no frame is latched φ as the
timing began with (R190, R202, 16_twin_repair.md R383). Log entry 85 (DEDUCED). -/
def HeadState.phiOf (v : HeadState) (t : HeadTime) : Int :=
  match v.plans.filter (fun p => decide (v.ended < p.no)) with
  | p :: _ => if timingDiffers p.time.entry t.entry then 0 else p.phi
  | [] => if v.time = some t then v.phi0 else 0

/-- SIM.STATUS.STAGE is COMMITTED, or the image has begun to activate: the staged image will take effect. -/
def HostSide.committed (h : HostSide) : Bool := h.get Reg.SIM_STATUS_STAGE == 5

/-- The switch instant of a head that has not switched: the first frame start of its current timing at or after E, or E
itself for a head that is not enabled (R73). -/
def HostSide.switchAt (h : HostSide) (k : Nat) (e : DT) : DT :=
  let v := h.head k
  match v.firstNo.bind v.plan, v.time with
  -- the first frame of the image is latched
  | some p, _ => p.time.start p.frame p.phi
  | none, none => e
  | none, some t =>
    let phi := v.phiOf t
    t.start (t.firstAt phi e) phi

/-- The head awaits its switch instant under a committed image; while the module resynchronises its heads count as not
enabled (16_twin_repair.md R381). -/
def HostSide.switching (h : HostSide) (k : Nat) : Bool :=
  h.committed && h.stage.switches.contains k && h.get Reg.TWN_RESYNC_STATE != 1

/-- E of the committed image. -/
def HostSide.commitEpoch (h : HostSide) : DT := ((h.stage.staged).map (·.epoch)).getD 0

/-- The timing that the committed image gives a head from its switch instant `sw` on: none where it is disabled
(R73, R203). -/
def HostSide.newTiming (h : HostSide) (k : Nat) (sw : DT) : Option HeadTime :=
  match h.stage.staged with
  | none => (h.head k).time
  | some st =>
    match st.cfg.headEntry k, (h.head k).time with
    | none, _ => none
    | some e, none => some ⟨e, if e.epoch = 0 then sw else BitVec.ofNat 64 e.epoch⟩
    | some e, some t =>
      if timingDiffers e t.entry then some ⟨e, sw⟩
      else some ⟨e, if e.epoch = 0 then t.epoch else BitVec.ofNat 64 e.epoch⟩

/-! ## Layers of a frame -/

/-- The axes of a descriptor. -/
def axisX (d : List Nat) : Axis := ⟨descSrcX d, descSrcW d, descDstW d⟩
def axisY (d : List Nat) : Axis := ⟨descSrcY d, descSrcH d, descDstH d⟩

/-- An accepted or initial descriptor as an active copy: UPDATE 0, words 8 to 11 filled (R144, R148). -/
def activate16 (d : List Nat) (frame : Nat) : List Nat :=
  let w := (List.range 8).map (fun i => if i = 0 then clrBit (descWord d 0) 0 else descWord d i)
  let sc := if descDstW d = 0 ∨ descDstH d = 0 then [0, 0, 0] else scaleWords (axisX d) (axisY d)
  w ++ [frame % 2 ^ 32] ++ sc ++ [0, 0, 0, 0]

/-- The layers of a head in the active configuration. -/
def HostSide.layersOf (h : HostSide) (k : Nat) : List LayerEntry := h.cfg.layers.filter (fun e => e.head == k)

/-- What a frame of a head takes of its layers now. -/
def HostSide.planLayers (h : HostSide) (k : Nat) : List PlanLayer :=
  (h.layersOf k).map (fun e => ⟨e, h.activeDesc e.layer, h.get (Reg.FRS_LAYER_BUDGET_BUDGET e.layer)⟩)

/-- Replaces the entry of a layer in the active configuration, in layer order. -/
def insertLayer (e : LayerEntry) : List LayerEntry → List LayerEntry
  | [] => [e]
  | x :: t => if x.layer < e.layer then x :: insertLayer e t else if x.layer = e.layer then e :: t else e :: x :: t

/-- The layer grants occlusion credit (04_admission.md R91). Log entry 159 (DEDUCED). -/
def LayerEntry.credit (e : LayerEntry) : Bool :=
  let d := e.descriptor
  descEnable d && descOpaque d && e.envDown == 1 && e.envUp == 1 && descSrcW d == descDstW d && descSrcH d == descDstH d &&
    (e.envX0, e.envY0, e.envX1, e.envY1) == (descDstX d, descDstY d, descDstX d + descDstW d, descDstY d + descDstH d)

/-- A layer takes its new image's entry and descriptor at a latch (R143, R74).
Log entries 159 (DEDUCED), 202 (DEDUCED). -/
def HostSide.takeLayer (h : HostSide) (frame : Nat) (e : LayerEntry) : HostSide :=
  let h := { h with cfg := { h.cfg with layers := insertLayer e h.cfg.layers } }
  let h := (List.range 8).foldl (fun h i =>
    h.put (Reg.layerWord e.layer i) (if i = 0 then clrBit (descWord e.descriptor 0) 0 else descWord e.descriptor i)) h
  let h := (h.setArmedDesc e.layer none).setActiveDesc e.layer (activate16 e.descriptor frame)
  let h := (h.put (Reg.FRS_LAYER_BUDGET_BUDGET e.layer) e.budget).put (Reg.CMP_LAYER_STATUS_HEAD e.layer) e.head
  let h := (h.put (Reg.FRS_LAYER_STATE_LIVE_BEARING e.layer) e.liveBearing).putB (Reg.FRS_LAYER_STATE_GINGHAM_EN e.layer)
    (e.liveBearing == 1 || e.ginghamEn == 1)
  h.putB (Reg.CMP_LAYER_STATUS_CREDIT e.layer) e.credit

/-- Layers of the committed image that join head `k` at a latch at instant `l`: those that the head has already or that
no head has, and those that have left their old head by then (R74). Log entry 159 (DEDUCED). -/
def HostSide.joining (h : HostSide) (k : Nat) (first : Bool) (l : DT) : List LayerEntry :=
  let moved := (h.stage.movers.filter (fun m => m.entry.head == k && dtReached l m.left)).map (·.entry)
  match h.stage.staged, first with
  | some st, true =>
    (st.cfg.layers.filter (fun e => e.head == k && st.layersIn.contains e.layer &&
      (match h.layerEntry e.layer with
        | some old => old.head == k
        | none => !h.stage.movers.any (fun m => m.entry.layer == e.layer)))) ++ moved
  | _, _ => moved

/-! ## Latches (R190, R201) -/

/-- The coming latch of a head: the timing, the frame, the instant, φ of the frame before, and whether its frame is the
first of the committed image. -/
structure NextLatch where
  time  : HeadTime
  frame : Nat
  at_   : DT
  prev  : Int
  first : Bool
  deriving DecidableEq, Repr

/-- L(n) of a timing, with φ of frame n − 1. -/
def HeadTime.latch (t : HeadTime) (n : Nat) (prev : Int) : DT :=
  -- start(n - 1) of R186 for n = 0 follows the same formula
  let s : DT := t.epoch + BitVec.ofInt 64 (((n : Int) - 1) * (t.entry.pq : Int) / ((2 ^ 24 : Nat) : Int)) +
    BitVec.ofInt 64 prev
  s + BitVec.ofNat 64 ((t.entry.vTotal - t.entry.latchLines) * t.entry.pq / (t.entry.vTotal * 2 ^ 24))

def HostSide.nextLatch (h : HostSide) (k : Nat) : Option NextLatch :=
  let v := h.head k
  let old : Option NextLatch := v.time.map (fun t =>
    let prev := v.phiOf t
    ⟨t, v.nextFrame, t.latch v.nextFrame prev, prev, false⟩)
  if h.switching k && v.firstNo.isSome then
    (v.coming.or v.time).map (fun t =>
      let prev := v.phiOf t
      ⟨t, v.nextFrame, t.latch v.nextFrame prev, prev, false⟩)
  else if h.switching k then
    let sw := h.switchAt k h.commitEpoch
    let past := match old with
      | none => true
      | some o => dtReached (o.time.start o.frame o.prev) sw
    if past then
      -- the frame that starts at the switch instant belongs to the new image
      (h.newTiming k sw).map (fun t =>
        match v.time with
        | some u => if t.epoch = u.epoch ∧ !timingDiffers t.entry u.entry then
              let prev := v.phiOf u
              ⟨t, v.nextFrame, t.latch v.nextFrame prev, prev, true⟩
            else
              let prev := v.phiOf t
              let n := t.firstAt prev sw
              ⟨t, n, t.latch n prev, prev, true⟩
        | none =>
          let n := t.firstAt 0 sw
          ⟨t, n, t.latch n 0, 0, true⟩)
    else old
  else old

/-- The report that a latch takes: the newest one of an earlier cycle (R201). -/
def HostSide.heldReport (h : HostSide) (k : Nat) : Option Report :=
  let v := h.head k
  match v.report with
  | some r => if r.at_ = h.tb.raw.toNat then v.former else some r
  | none => none

/-- The latched frame is of the timing that the head runs by, so its reports bear on it (R202). -/
def HostSide.sameTiming (h : HostSide) (k : Nat) (t : HeadTime) : Bool :=
  (h.head k).time.any (fun u => !timingDiffers u.entry t.entry)

/-- φ of the frame of a latch, and Δ (R201); the reports of another timing say nothing of it (R202). -/
def HostSide.slew (h : HostSide) (k : Nat) (n : NextLatch) : Int × Int :=
  match h.heldReport k with
  | some r =>
    if h.flag (Reg.HDS_TE_CTRL_TE_EN k) && h.sameTiming k n.time then
      let delta := r.base - (h.get (Reg.HDS_TE_CTRL_TARGET k) : Int) * 1000 - n.prev
      let d : Int := (n.time.entry.periodNs / 1000 : Nat)
      if delta.natAbs ≤ h.get (Reg.HDS_TE_CTRL_DEADBAND k) * 1000 then (n.prev, delta)
      else (n.prev + max (-d) (min d delta), delta)
    else (n.prev, 0)
  | none => (n.prev, 0)

/-- The pending commit of a head reaches its latch, or a later one where a step of OFFSET passed it over (R148, R190,
12_time.md R275). -/
def HostSide.takeCommit (h : HostSide) (k frame : Nat) : HostSide :=
  let v := h.head k
  if v.commit.any (fun f => decide (f ≤ frame)) then
    let h := (h.layersOf k).foldl (fun h e =>
      match h.armedDesc e.layer with
      | some d => (h.setActiveDesc e.layer (activate16 d frame)).setArmedDesc e.layer none
      | none => h) h
    ((h.setHead k { h.head k with commit := none }).put (Reg.HDS_COMMIT_FRAME_FRAME k) frame).put
      (Reg.HDS_STATUS_COMMIT_PENDING k) 0
  else h

/-- The committed image replaces what head `k` shows from its switch instant on: it is a full image, or lists the head or
one of its layers. A head that a partial image leaves alone keeps its pending commit (R74). Log entry 236 (DEDUCED). -/
def HostSide.replaces (h : HostSide) (k : Nat) (joins : List LayerEntry) : Bool :=
  match h.stage.staged with
  | some st => !st.part || st.headsIn.contains k || !joins.isEmpty ||
      (h.layersOf k).any (fun e => st.layersIn.contains e.layer)
  | none => false

/-- A latch of a head: descriptors become active, φ of the frame is decided, and what the frame will be composed from
is fixed (R148, R190, R201). Its leases settle (R151). -/
def HostSide.doLatch (h : HostSide) (k : Nat) (n : NextLatch) : HostSide :=
  let (phi, delta) := h.slew k n
  let joins := h.joining k n.first n.at_
  let h := if n.first && h.replaces k joins then
      -- an old commit not yet latched is discarded (R74)
      let h := (h.layersOf k).foldl (fun h e => h.setArmedDesc e.layer none) h
      (h.setHead k { h.head k with commit := none }).put (Reg.HDS_STATUS_COMMIT_PENDING k) 0
    else h.takeCommit k n.frame
  let h := joins.foldl (fun h e => h.takeLayer n.frame e) h
  let h := { h with stage := { h.stage with
    movers := h.stage.movers.filter (fun m => !joins.any (fun e => e.layer == m.entry.layer)) } }
  -- layers that the new image takes off the head are no part of its first frame
  let gone (l : Nat) : Bool := n.first && (match h.stage.staged with
    | some st => !st.cfg.layers.any (fun e => e.layer == l && e.head == k)
    | none => false)
  let v := h.head k
  -- a frame of a head that has not switched keeps the old image's colours
  let look := match h.stage.staged, v.plans with
    | some st, p :: _ => if n.first then st.cfg.gingham else if h.switching k then p.look else h.cfg.gingham
    | some st, [] => if n.first then st.cfg.gingham else h.cfg.gingham
    | none, _ => h.cfg.gingham
  let plan : Plan := ⟨v.latches + 1, n.time, n.frame, phi, phi - n.prev, h.get (Reg.CMP_HEAD_BG_COLOUR k),
    (h.planLayers k).filter (fun p => !gone p.entry.layer), look, none, 0⟩
  let newTime := n.first && v.time != some n.time
  let h := h.setHead k { v with
    latches := v.latches + 1
    nextFrame := n.frame + 1
    coming := if newTime then some n.time else v.coming
    firstNo := if n.first then some (v.latches + 1) else v.firstNo
    plans := (plan :: v.plans).take 10 }
  let us := max (-32768) (min 32767 (delta / 1000))
  let near := match (h.head k).report with
    | some r => decide (v.started < r.atNo + 8) && decide (delta.natAbs ≤ h.get (Reg.HDS_TE_CTRL_DEADBAND k) * 1000)
    | none => false
  ((h.put (Reg.HDS_TE_STATUS_ERROR k) (unsigned us 16)).putB (Reg.HDS_STATUS_TE_LOCKED k) near).settle

/-! ## Frames (R186, R204) -/

/-- MARK and AUX of a frame whose slice 0 begins composition now: a marker where it is one of the last two of a timing
that an armed or committed image changes (R204). -/
def HostSide.markOf (h : HostSide) (k : Nat) (p : Plan) : Nat × Nat :=
  let stage := h.get Reg.SIM_STATUS_STAGE
  match h.stage.staged with
  | some st =>
    let sw := h.switchAt k st.epoch
    let changes := (h.head k).time.any (fun t => t.same p.time) &&
      (match st.cfg.headEntry k with
        | some e => timingDiffers e p.time.entry
        | none => st.headsIn.contains k || !st.part)
    let last := p.time.firstAt p.phi sw
    let aux := if (st.cfg.headEntry k).isSome then (vtOf sw).toNat else 0
    if changes && (stage == 4 || stage == 5) then
      if p.frame + 1 = last then (1, aux) else if p.frame + 2 = last then (2, aux) else (0, 0)
    else (0, 0)
  | none => (0, 0)

/-- Sets what a latched frame is. -/
def HeadState.setPlan (v : HeadState) (p : Plan) : HeadState :=
  { v with plans := v.plans.map (fun x => if x.no == p.no then p else x) }

/-- Decides MARK of a frame once (R204). -/
def HostSide.decideMark (h : HostSide) (k no : Nat) : HostSide :=
  let v := h.head k
  match v.plan no with
  | some p =>
    if p.mark.isSome then h
    else
      let (m, aux) := h.markOf k p
      h.setHead k { v.setPlan { p with mark := some m, aux := aux } with marks := v.marks + (if m = 0 then 0 else 1) }
  | none => h

/-- A frame starts (R186): HDS.FRAME, MARKER, TE_SLEWING and PHASE follow it. -/
def HostSide.startFrame (h : HostSide) (k : Nat) (p : Plan) : HostSide :=
  let h := h.decideMark k p.no
  let v := h.head k
  let mark := ((v.plan p.no).bind (·.mark)).getD 0
  let h := h.setHead k { v with started := p.no }
  let h := ((h.put (Reg.HDS_FRAME_FRAME k) p.f).putB (Reg.HDS_STATUS_MARKER k) (mark != 0)).putB
    (Reg.HDS_STATUS_TE_SLEWING k) (p.step != 0)
  h.putPair (Reg.HDS_PHASE_LO_PHI k) (Reg.HDS_PHASE_HI_PHI k) (unsigned p.phi 64)

/-- After a step of OFFSET a head continues with the first frame whose start is at or after the stepped DT, never one
already started (12_time.md R275). -/
def HostSide.resyncHead (h : HostSide) (k : Nat) : HostSide :=
  let v := h.head k
  match v.time with
  | none => h
  | some t =>
    let plans := v.plans.filter (fun p => decide (p.no ≤ v.started) || dtReached p.start h.now)
    let first := t.firstAt (v.phiOf t) h.now
    let next := if plans.any (fun p => decide (v.started < p.no)) then v.nextFrame else max v.nextFrame first
    h.setHead k { v with plans := plans, nextFrame := next }

/-- Every head after a step. -/
def HostSide.resyncHeads (h : HostSide) : HostSide :=
  h.display.heads.foldl (fun h p => h.resyncHead p.1) h

/-! ## Tearing-effect reports (R200, R201) -/

/-- A report on a head's lane, accepted or counted in TE_DROPS. Log entry 70 (DEDUCED). -/
def HostSide.teReport (h : HostSide) (k : Nat) (dest : Nat) (b : List Byte) : HostSide :=
  let v := h.head k
  let drop := h.bump (Reg.HDS_COUNTS_TE_DROPS k)
  let mac (lo hi : Fld) : Nat := h.get hi * 2 ^ 32 + h.get lo
  let frame := fieldAt b 4 4
  let scan : DT := BitVec.ofNat 64 (fieldAt b 8 8)
  let ok := h.flag (Reg.HDS_TE_CTRL_TE_EN k) && b.length == 32 && bits (fieldAt b 0 1) 4 4 == 1 &&
    bits (fieldAt b 1 1) 0 6 == k && bit (fieldAt b 2 2) 0 && (crc32c (b.take 28)).toNat == fieldAt b 28 4 &&
    (dest == mac Reg.HDS_TE_DA_LO_ADDR Reg.HDS_TE_DA_HI_ADDR || dest == mac Reg.HDS_SRC_MAC_LO_ADDR Reg.HDS_SRC_MAC_HI_ADDR)
  match v.plan v.started, ok with
  | some now, true =>
    let behind := signed (now.f + 2 ^ 32 - frame) 32
    match v.plans.find? (fun p => p.time.same now.time && p.f == frame && decide (p.no ≤ v.started)) with
    | some p =>
      let off := dtDiff scan p.start
      if 0 ≤ behind ∧ behind ≤ 7 ∧ off.natAbs * 2 ^ 24 < p.time.entry.pq then
        let newer := match v.report with
          | some r => decide (0 ≤ signed (frame + 2 ^ 32 - r.frame) 32)
          | none => true
        let raw := h.tb.raw.toNat
        -- of reports of one cycle the latch of that cycle takes none
        let v := match v.report with
          | some r => if r.at_ = raw then v else { v with former := some r }
          | none => { v with former := none }
        if newer then
          ((h.setHead k { v with report := some ⟨frame, p.phi + off, v.started, raw⟩ }).put (Reg.HDS_TE_STATUS_LAST_FRAME k)
            frame).put (Reg.HDS_TE_STATUS_VALID k) 1
        else
          (h.setHead k { v with report := v.report.map (fun r => { r with atNo := v.started }) }).put
            (Reg.HDS_TE_STATUS_VALID k) 1
      else drop
    | none => drop
  | _, _ => drop

end Sys2Proof.Machine
end

