-- ==== Sys2Proof/Machine/Compose.lean ====
section
/-! DEFINITION. Composition of a slice (06_composition.md R157 to R165; 02_freshness.md R32 to R41): the regions of each
layer with their states, and the pixels. What the engine takes when composition begins it uses for the whole slice;
the model forms the slice's pixels in that instant (log entry 41). -/

namespace Sys2Proof.Machine

/-! ## Sources -/

/-- How the samples of a source are coded: 8-bit or 10-bit RGB, 8-bit or 10-bit YCbCr. -/
inductive SampleKind where
  | rgb8 | rgb10 | yuv8 | yuv10
  deriving DecidableEq, Repr

/-- A layer's source as a slice takes it (R158): its buffer, its tag and margin of R34, the worst state a stitch sender
found, the coding of its samples and its extent. A source that does not exist is mid-grey (R74, R130). -/
structure SliceSource where
  buf    : Option Buf
  tag    : Tag
  margin : Nat
  sent   : Nat
  kind   : SampleKind
  width  : Nat
  height : Nat
  deriving DecidableEq, Repr

def SliceSource.absent : SliceSource := ⟨none, Tag.absent, 0, 0, .rgb10, 1, 1⟩

/-- A stream without a picture: mid-grey as an absent reference is (05_ingest_decode.md R123, R130). -/
def SliceSource.noPicture (kind : SampleKind) : SliceSource := ⟨none, Tag.absent, 0, 0, kind, 1, 1⟩

def HostSide.streamEntry (h : HostSide) (s : Nat) : Option StreamEntry := h.cfg.streams.find? (fun e => e.stream == s)
def HostSide.picture (h : HostSide) (id : Nat) : Option Picture := tget none h.video.pictures id
def HostSide.mimicSurf (h : HostSide) (m : Nat) : Option MimicSurf := tget none h.mimic.surfs m

/-- A codec of 10-bit samples (Table 05.1). -/
def wideCodec (c : Nat) : Bool := c == 2

/-- The source of a layer with a descriptor. -/
def HostSide.sourceOf (h : HostSide) (e : LayerEntry) (d : List Nat) : SliceSource :=
  match e.kind with
  | 0 =>
    match h.streamEntry e.source with
    | some st =>
      let kind (wide : Bool) : SampleKind := if wide then .yuv10 else .yuv8
      match (tget Context.fresh h.video.contexts e.source).current.bind (fun id => (h.picture id).map (fun p => (id, p))) with
      | some (id, p) => ⟨some (.picture id), p.tag, st.syncBound, 0, kind p.wide, p.width, p.height⟩
      | none => .noPicture (kind (wideCodec st.codec))
    | none => .noPicture .yuv10
  | 1 =>
    match h.surface (descSurface d) with
    | some s => ⟨some (.surface (descSurface d)), s.tag, s.syncBound, 0,
        (match s.format with | 1 => .rgb8 | 2 => .rgb10 | 3 => .yuv8 | _ => .yuv10), s.width, s.height⟩
    | none => .absent
  | 2 =>
    match h.mimicSurf e.source with
    | some m => ⟨some (.mimic e.source), Tag.absent, m.entry.syncBound, 0, .rgb8, m.entry.width, m.entry.height⟩
    | none => .absent
  | _ =>
    match (h.region e.source).latest, h.recvEntry e.source with
    | some t, some r => ⟨some (.stitch e.source t.buffer), t.tag, Config.stitchBound e.source, t.state, .rgb10, r.w, r.h⟩
    | _, _ => .absent

/-- A pixel of four equal-scale components. -/
def px4 (a r g b : Nat) (bad : Bool) : Px := ⟨.ofNat a, .ofNat r, .ofNat g, .ofNat b, bad⟩

/-- Mid-grey that a source of a kind shows where it does not exist. -/
def greyOf (k : SampleKind) : Px := match k with
  | .rgb8 => px4 255 128 128 128 false
  | .yuv8 => px4 1023 128 128 128 false
  | _ => px4 1023 512 512 512 false

/-- What alpha 2:10:10:10 maps to (R160). Log entry 75 (DEDUCED). -/
def alpha2 (a : Nat) : Nat := match a with | 0 => 0 | 1 => 341 | 2 => 682 | _ => 1023

/-- The chroma columns and lines that a luma position is interpolated between. -/
def chromaUses (w hgt x y : Nat) : (Nat × Nat) × (Nat × Nat) :=
  let cw := w / 2
  let ch := hgt / 2
  let x0 := min (x / 2) (cw - 1)
  let y0 := min (y / 2) (ch - 1)
  ((x0, if x % 2 = 0 then x0 else min (x / 2 + 1) (cw - 1)),
    (y0, if y % 2 = 0 then y0 - 1 else min (y / 2 + 1) (ch - 1)))

/-- Full-resolution chroma of a 4:2:0 source (R159): co-sited with even luma columns, midway between luma lines. -/
def chromaAt (c : Nat → Nat → Nat) (w hgt x y : Nat) : Frac :=
  let ((x0, x1), (y0, y1)) := chromaUses w hgt x y
  ⟨((3 * c x0 y0 + 3 * c x1 y0 + c x0 y1 + c x1 y1 : Nat) : Int), 8⟩

/-- Some chroma sample that a luma position is interpolated from meets a test. -/
def chromaAny (bad : Nat → Nat → Bool) (w hgt x y : Nat) : Bool :=
  let ((x0, x1), (y0, y1)) := chromaUses w hgt x y
  bad x0 y0 || bad x1 y0 || bad x0 y1 || bad x1 y1

/-- A pixel of a surface at (x, y), in the surface's own units. Log entry 75 (DEDUCED). -/
def HostSide.surfTexel (h : HostSide) (s : Surface) (x y : Nat) : Px :=
  let base := s.page * 65536
  if s.coding = 0 then
    let pitch := pitchOf s.format s.width
    if s.format = 3 then
      let luma := base + y * pitch + x
      let cb (k i j : Nat) : Nat := (h.store.byte (base + pitch * s.height + j * pitch + 2 * i + k)).toNat
      let bad := h.store.poisoned luma || chromaAny (fun i j => h.store.poisoned (base + pitch * s.height + j * pitch + 2 * i))
        s.width s.height x y
      ⟨.ofNat 1023, .ofNat (h.store.byte luma).toNat, chromaAt (cb 0) s.width s.height x y,
        chromaAt (cb 1) s.width s.height x y, bad⟩
    else
      let ca := base + y * pitch + 4 * x
      let w := leNat (h.store.bytes ca 4)
      if s.format = 2 then px4 (alpha2 (bits w 30 2)) (bits w 20 10) (bits w 10 10) (bits w 0 10) (h.store.poisoned ca)
      else px4 (bits w 24 8) (bits w 16 8) (bits w 8 8) (bits w 0 8) (h.store.poisoned ca)
  else
    let tile (tx ty : Nat) : List Nat :=
      let (o, n) := tileSlot (muslinClass s.format) s.coding s.width tx ty
      h.decodeTile s.format s.coding (base + o) n
    let failed (tx ty : Nat) : Bool :=
      let (o, n) := tileSlot (muslinClass s.format) s.coding s.width tx ty
      h.store.anyPoison (base + o) n
    let t := tile (x / 8) (y / 4)
    let bad := failed (x / 8) (y / 4) ||
      (muslinClass s.format != 0 && chromaAny (fun i j => failed (i / 4) (j / 2)) s.width s.height x y)
    let i := y % 4 * 8 + x % 8
    if muslinClass s.format = 0 then
      let c (k : Nat) : Nat := t.getD (4 * i + k) 0
      px4 (if s.format = 2 then alpha2 (c 0) else c 0) (c 1) (c 2) (c 3) bad
    else
      let plane (k i j : Nat) : Nat := (tile (i / 4) (j / 2)).getD (k + j % 2 * 4 + i % 4) 0
      ⟨.ofNat 1023, .ofNat (t.getD i 0), chromaAt (plane 32) s.width s.height x y, chromaAt (plane 40) s.width s.height x y,
        bad⟩

/-- Sample (x, y) of plane `k` of a decoded picture, cropped: of its own content, of the picture that a concealed block was
copied from, or mid-grey (R121, R128, R130). Log entry 40 (DESIGN CHOICE). -/
def Picture.sample (p : Picture) (k x y : Nat) : Nat :=
  let top := if p.wide then 1024 else 256
  let (u, v) := if k = 0 then (x + p.cropL, y + p.cropT) else (x + p.cropL / 2, y + p.cropT / 2)
  let (lx, ly) := if k = 0 then (u, v) else (2 * u, 2 * v)
  let own := match p.patches.find? (fun r => decide (r.x0 ≤ lx ∧ lx < r.x1 ∧ r.y0 ≤ ly ∧ ly < r.y1)) with
    | some r => r.content
    | none => p.content
  match own with
  | some n => Config.pictureSample n k u v % top
  | none => top / 2

/-- A pixel of a decoded picture (log entry 40). Log entries 40 (DESIGN CHOICE), 77 (DESIGN CHOICE). -/
def pictureTexel (p : Picture) (x y : Nat) : Px :=
  let c (k i j : Nat) : Nat := p.sample k i j
  ⟨.ofNat 1023, .ofNat (c 0 x y), chromaAt (c 1) p.width p.height x y, chromaAt (c 2) p.width p.height x y, false⟩

/-- The CA of tile (tx, ty) of a mimic surface. -/
def MimicSurf.tileCa (m : MimicSurf) (tx ty : Nat) : Nat := m.page * 65536 + (tileSlot 0 2 m.entry.width tx ty).1

/-- A pixel of a mimic surface, Muslin-coded at 2:1 (R168). -/
def HostSide.mimicTexel (h : HostSide) (m : MimicSurf) (x y : Nat) : Px :=
  let ca := m.tileCa (x / 8) (y / 4)
  let t := h.decodeTile 1 2 ca 64
  let c (k : Nat) : Nat := t.getD (4 * (y % 4 * 8 + x % 8) + k) 0
  px4 (c 0) (c 1) (c 2) (c 3) (h.store.anyPoison ca 64)

/-- A pixel of a stitch region: RGB 10:10:10, coded at 2:1 as slice rings are (15_lanes.md R359, R360). -/
def HostSide.stitchTexel (h : HostSide) (r b : Nat) (w x y : Nat) : Px :=
  match h.recvEntry r with
  | none => greyOf .rgb10
  | some e =>
    match h.bufferCa r b e with
    | none => greyOf .rgb10
    | some ca =>
      let o := (y / 4 * (w / 8) + x / 8) * 64
      let t := h.decodeTile 2 2 (ca + o) 64
      let c (k : Nat) : Nat := t.getD (4 * (y % 4 * 8 + x % 8) + k) 0
      px4 1023 (c 1) (c 2) (c 3) (h.store.anyPoison (ca + o) 64)

/-- A pixel of a source, clamped to its extent (R159 step 5). -/
def HostSide.texel (h : HostSide) (s : SliceSource) (x y : Nat) : Px :=
  let x := min x (s.width - 1)
  let y := min y (s.height - 1)
  match s.buf with
  | some (.surface sh) => match h.surface sh with
    | some v => h.surfTexel v x y
    | none => greyOf s.kind
  | some (.picture id) => match h.picture id with
    | some p => pictureTexel p x y
    | none => greyOf s.kind
  | some (.mimic m) => match h.mimicSurf m with
    | some v => h.mimicTexel v x y
    | none => greyOf s.kind
  | some (.stitch r b) => h.stitchTexel r b s.width x y
  | none => greyOf s.kind

/-- A grid pixel brought to 10 bits (R160). -/
def widenPx (k : SampleKind) (p : Px) : Px :=
  let e (f : Frac) : Frac := ⟨expand8 f.round, 1⟩
  match k with
  | .rgb8 => ⟨e p.a, e p.r, e p.g, e p.b, p.bad⟩
  | .yuv8 => { p.map (fun f => f.mul (.ofNat 4)) with a := p.a }
  | _ => p

/-- The contribution of a layer at destination pixel (i, j) of its rectangle, before Gingham: sampled, then converted to
RGB; mid-grey where a fetch failed (R159, R160, R163). Log entry 76 (DEDUCED). -/
def HostSide.contribution (h : HostSide) (s : SliceSource) (d : List Nat) (i j : Nat) : Px :=
  let p := scaled (axisX d) (axisY d) (h.texel s) (widenPx s.kind) i j
  if p.bad then px4 1023 512 512 512 true
  else match s.kind with
  | .yuv8 => (yuvToRgb (descCsc d) p).clampRgb
  | .yuv10 => (yuvToRgb (descCsc d) p).clampRgb
  | _ => p

/-! ## Regions -/

/-- A layer's destination rectangle clipped to the head: x0, y0, x1, y1. -/
def PlanLayer.rect (l : PlanLayer) (e : HeadEntry) : Nat × Nat × Nat × Nat :=
  let d := l.words
  (min (descDstX d) e.hActive, min (descDstY d) e.vActive, min (descDstX d + descDstW d) e.hActive,
    min (descDstY d + descDstH d) e.vActive)

/-- The lines of a slice: first and end. -/
def HeadEntry.sliceLines (e : HeadEntry) (s : Nat) : Nat × Nat := (32 * s, min (32 * s + 32) e.vActive)

/-- The enabled layers of a frame from the bottom of the stacking order to the top (R148). -/
def Plan.stack (p : Plan) : List PlanLayer :=
  let below (a b : PlanLayer) : Bool := standsBelow a b
  (p.layers.filter (fun l => descEnable l.words)).foldl (fun t l => insertBy below l t) []
where
  standsBelow (a b : PlanLayer) : Bool :=
    decide (descZ a.words < descZ b.words) || (descZ a.words == descZ b.words && decide (a.entry.layer < b.entry.layer))
  insertBy (lt : PlanLayer → PlanLayer → Bool) (x : PlanLayer) : List PlanLayer → List PlanLayer
    | [] => [x]
    | y :: t => if lt x y then x :: y :: t else y :: insertBy lt x t

/-- An opaque layer covers a span of a slice wholly (R162). -/
def covers (e : HeadEntry) (s k : Nat) (l : PlanLayer) : Bool :=
  let (x0, y0, x1, y1) := l.rect e
  let (a, b) := e.sliceLines s
  descOpaque l.words && decide (x0 ≤ 64 * k ∧ min (64 * k + 64) e.hActive ≤ x1 ∧ y0 ≤ a ∧ b ≤ y1)

/-- The columns of a layer that a slice fetches: its rectangle's columns in spans that no opaque layer above hides.
Log entry 74 (DEDUCED). -/
def fetchedCols (e : HeadEntry) (s : Nat) (above : List PlanLayer) (l : PlanLayer) : List Nat :=
  let (x0, _, x1, _) := l.rect e
  let open_ := (List.range (cdiv e.hActive 64)).filter (fun k => !above.any (covers e s k))
  (open_.flatMap (fun k =>
    let a := max x0 (64 * k)
    (List.range (min x1 (min (64 * k + 64) e.hActive) - a)).map (· + a)))

/-- The lines of a layer in a slice. Log entry 74 (DEDUCED). -/
def sliceRows (e : HeadEntry) (s : Nat) (l : PlanLayer) : List Nat :=
  let (_, y0, _, y1) := l.rect e
  let (a, b) := e.sliceLines s
  (List.range (min y1 b - max y0 a)).map (· + max y0 a)

/-- Source positions, in source pixels, that one destination coordinate uses on an axis. Log entry 74 (DEDUCED). -/
def axisUses (a : Axis) (i : Nat) : List Nat :=
  let p := a.pos i
  let g := p / 65536
  let gs := if p % 65536 = 0 then [g] else [g, min (g + 1) (a.extent - 1)]
  gs.flatMap (fun x => if a.pre then [a.origin + 2 * x, a.origin + 2 * x + 1] else [a.origin + x])

/-- Each element once, in order of first appearance. -/
def distinct (l : List Nat) : List Nat := l.foldl (fun t x => if t.contains x then t else t ++ [x]) []

/-- The cell columns or rows that destination coordinates meet. Log entry 74 (DEDUCED). -/
def cellsMet (a : Axis) (start : Nat) (cs : List Nat) : List Nat :=
  distinct (cs.flatMap (fun c => (axisUses a (c - start)).map (· / 64)))

/-- A cell's tag (07_mimic.md R169, R170). -/
def Cell.tag (c : Cell) (emission : VT) : Tag :=
  if bit c.flags 5 then ⟨emission, 1, false, false, false⟩ else ⟨c.vt, bits c.flags 0 2, bit c.flags 2, bit c.flags 3, bit c.flags 4⟩

/-- Tag of cell `i` of a mimic surface. -/
def MimicSurf.cellTag (m : MimicSurf) (i : Nat) (emission : VT) : Tag := (tget ⟨0, 0x20⟩ m.cells i).tag emission

/-- A layer of a slice as composition takes it. -/
structure Taken where
  layer   : PlanLayer
  source  : SliceSource
  cols    : List Nat
  rows    : List Nat
  /-- Error responses and failed map reads that concern it. -/
  errors  : List FetchError
  regions : List RegionRec
  /-- State by mimic cell index; empty for other kinds. -/
  cells   : Table Nat
  deriving DecidableEq, Repr

/-- A rectangle of failed fetches meets columns and rows. -/
def FetchError.meets (f : FetchError) (cols rows : List Nat) : Bool :=
  cols.any (fun c => decide (f.x0 ≤ c ∧ c < f.x1)) && rows.any (fun r => decide (f.y0 ≤ r ∧ r < f.y1))

/-- A fetch of the layer in the slice, of the source pixels that `pick` takes, touches a poisoned block.
Log entry 76 (DEDUCED). -/
def HostSide.poisonedFetch (h : HostSide) (s : SliceSource) (d : List Nat) (cols rows : List Nat) (x0 y0 : Nat)
    (pick : Nat → Nat → Bool := fun _ _ => true) : Bool :=
  if h.store.poison.isEmpty then false
  else
    let xs := cols.flatMap (fun c => axisUses (axisX d) (c - x0))
    let ys := rows.flatMap (fun r => axisUses (axisY d) (r - y0))
    ys.any (fun y => xs.any (fun x => pick x y && (h.texel s x y).bad))

/-- The CA of the 64-byte block of a cell map that holds cell `i` (R169). -/
def MimicSurf.blockCa (m : MimicSurf) (i : Nat) : Nat := m.mapPage * 65536 + i / 12 * 64

/-- Takes a layer for a slice: its source, its regions and their states (R158, R32 to R36), those of a mimic by cell in
row-major order. `above` are the layers that stand above it. Log entries 41 (DEDUCED), 229 (DESIGN CHOICE). -/
def HostSide.takeSlice (h : HostSide) (p : Plan) (s : Nat) (facts : ComposeFacts) (above : List PlanLayer)
    (l : PlanLayer) : Taken :=
  let e := p.time.entry
  let d := l.words
  let (x0, y0, _, _) := l.rect e
  let src := h.sourceOf l.entry d
  let cols := fetchedCols e s above l
  let rows := sliceRows e s l
  let errs := facts.errors.filter (fun f => f.layer == l.entry.layer && f.meets cols rows)
  let emission := vtOf (p.emit s)
  let sync := h.flag Reg.FRS_SYNC_BOUND_SYNC_OK
  let bound := h.get Reg.FRS_SYNC_BOUND_BOUND
  let frozen := h.get (Reg.FRS_LAYER_STATE_WT_VERDICT l.entry.layer) != 0
  let rec_ (t : Tag) (err : Bool) : RegionRec :=
    ⟨l.entry.layer, worse src.sent (regionState t err frozen sync emission l.budget src.margin bound), t.effective sync, t⟩
  if cols.isEmpty || rows.isEmpty then ⟨l, src, [], [], [], [], []⟩
  else
    let bad := h.poisonedFetch src d cols rows x0 y0
    match l.entry.kind, h.mimicSurf l.entry.source with
    | 2, some m =>
      let w := m.entry.width / 64
      let cx := cellsMet (axisX d) x0 cols
      let cy := cellsMet (axisY d) y0 rows
      let one (x y : Nat) : Nat × RegionRec :=
        let i := y * w + x
        let errCell := facts.mapErrors.contains (l.entry.layer, i) || h.store.poisoned (m.blockCa i) ||
          h.poisonedFetch src d cols rows x0 y0 (fun u v => u / 64 == x && v / 64 == y) || errs.any (fun f =>
          (cellsMet (axisX d) x0 (cols.filter (fun c => decide (f.x0 ≤ c ∧ c < f.x1)))).contains x &&
            (cellsMet (axisY d) y0 (rows.filter (fun r => decide (f.y0 ≤ r ∧ r < f.y1)))).contains y)
        (i, rec_ (m.cellTag i emission) errCell)
      let all := cy.flatMap (fun y => cx.map (fun x => one x y))
      ⟨l, src, cols, rows, errs, all.map (·.2), all.foldl (fun t q => tset t q.1 q.2.state) []⟩
    | _, _ => ⟨l, src, cols, rows, errs, [rec_ src.tag (bad || !errs.isEmpty)], []⟩

/-- The layers of a slice from bottom to top. -/
def HostSide.takeAll (h : HostSide) (p : Plan) (s : Nat) (facts : ComposeFacts) : List PlanLayer → List Taken
  | [] => []
  | l :: above => h.takeSlice p s facts above l :: h.takeAll p s facts above

/-! ## Pixels -/

/-- The state that a pixel of a layer is drawn in: the worst of the cells that it is sampled from, for a mimic. -/
def Taken.stateAt (t : Taken) (w i j : Nat) : Nat :=
  if t.cells.isEmpty then worst (t.regions.map (·.state))
  else
    let xs := (axisUses (axisX t.layer.words) i).map (· / 64)
    let ys := (axisUses (axisY t.layer.words) j).map (· / 64)
    worst (ys.flatMap (fun y => xs.map (fun x => tget 0 t.cells (y * (w / 64) + x))))

/-- One pixel of a slice: the background, then every layer from the bottom to the top (R161). -/
def HostSide.composePixel (h : HostSide) (p : Plan) (ts : List Taken) (x y : Nat) : Nat :=
  let e := p.time.entry
  let px := ts.foldl (fun d t =>
    if t.cols.contains x && t.rows.contains y then
      let i := x - descDstX t.layer.words
      let j := y - descDstY t.layer.words
      let c := h.contribution t.source t.layer.words i j
      let c := if t.errors.any (fun f => decide (f.x0 ≤ x ∧ x < f.x1 ∧ f.y0 ≤ y ∧ y < f.y1)) then px4 1023 512 512 512 true
        else c
      let st := t.stateAt t.source.width i j
      let draw := st != 0 && (t.layer.entry.liveBearing == 1 || h.flag (Reg.FRS_LAYER_STATE_GINGHAM_EN t.layer.entry.layer))
      match p.look.entries[st - 1]?, draw with
      | some g, true =>
        let (c, full) := gingham g (cellSize e.cell) x y c
        blend (full || descOpaque t.layer.words) (descAlphaMode t.layer.words) (descAlpha t.layer.words) c d
      | _, _ => blend (descOpaque t.layer.words) (descAlphaMode t.layer.words) (descAlpha t.layer.words) c d
    else d) (Px.ofRgb p.bg)
  let unproven := ((p.look.entries[3]?).map (·.colourA)).getD 0
  let marked := ts.any (fun t => t.regions.any (fun r => r.state == 4) &&
    (let (x0, y0, x1, y1) := t.layer.rect e; cornerMark x0 y0 x1 y1 x y))
  match ticker e p.f x y with
  | some c => c
  | none => if marked then unproven else packRgb px

/-- Tile (tx, ty) of rows of packed pixels; beyond the last column or line it is filled with copies of it (R164,
13_central_store.md R306). Log entry 78 (DEDUCED). -/
def ringTile (rows : List (List Nat)) (tx ty : Nat) : List Nat :=
  (List.range 32).flatMap (fun i =>
    let r := rows.getD (min (4 * ty + i / 8) (rows.length - 1)) []
    let v := r.getD (min (8 * tx + i % 8) (r.length - 1)) 0
    [0, bits v 20 10, bits v 10 10, bits v 0 10])

/-- The coding pass at 2:1 of a slice ring over rows of packed pixels, in tiles of 8×4 (R164).
Log entry 78 (DEDUCED). -/
def ringPass (rows : List (List Nat)) : List (List Nat) :=
  let hgt := rows.length
  let tile (tx ty : Nat) : List Nat := muslinPass 2 2 (ringTile rows tx ty)
  (List.range hgt).map (fun y =>
    let w := (rows.getD y []).length
    (List.range (cdiv w 8)).flatMap (fun tx =>
      let t := tile tx (y / 4)
      (List.range (min 8 (w - 8 * tx))).map (fun i =>
        let k := 4 * (y % 4 * 8 + i)
        t.getD (k + 1) 0 * 2 ^ 20 + t.getD (k + 2) 0 * 2 ^ 10 + t.getD (k + 3) 0)))

/-- The slice composed from what was taken, as its ring slot decodes. Log entry 41 (DEDUCED). -/
def HostSide.composeSlice (h : HostSide) (engine : Nat) (p : Plan) (s : Nat) (ts : List Taken) : SliceRec :=
  let e := p.time.entry
  let (a, b) := e.sliceLines s
  let rows := (List.range (b - a)).map (fun j => (List.range e.hActive).map (fun x => h.composePixel p ts x (a + j)))
  ⟨p.no, engine, p.f, s, ts.flatMap (·.regions), (ts.filter (fun t => !t.cols.isEmpty && !t.rows.isEmpty)).filterMap (·.source.buf),
    ringPass rows, rows⟩

/-- Error responses of a slice: ENGINE_STATUS.ERR_RESP, and FAULT in the tags of the host surfaces concerned (R142,
R163). How many responses the poisoned blocks of one layer give is open (log entry 1). -/
def HostSide.noteErrors (h : HostSide) (engine : Nat) (ts : List Taken) : HostSide :=
  ts.foldl (fun h t =>
    let (x0, y0, _, _) := (descDstX t.layer.words, descDstY t.layer.words, 0, 0)
    let poisoned := h.poisonedFetch t.source t.layer.words t.cols t.rows x0 y0
    let n := t.errors.foldl (fun n f => n + f.count) 0
    let h := h.bump (Reg.CMP_ENGINE_STATUS_ERR_RESP engine) n
    let h := if poisoned then
        let (v, h) := h.free 65535
        h.bump (Reg.CMP_ENGINE_STATUS_ERR_RESP engine) (v + 1)
      else h
    match t.source.buf with
    | some (.surface sh) => if poisoned || !t.errors.isEmpty then h.faultSurface sh else h
    | _ => h) h

end Sys2Proof.Machine
end

