-- ==== Sys2Proof/Machine/MimicOps.lean ====
section
/-! DEFINITION. The symbol engine (07_mimic.md R168 to R185) and the host replica (10_field_points_commands.md R236). -/

namespace Sys2Proof.Machine

/-! ## The host replica -/

/-- What one read of a point's replica record gives (Table 10.11). -/
structure PointRead where
  value    : Nat
  vintage  : VT
  quality  : Nat
  type     : Nat
  cls      : Nat
  received : Bool
  deriving DecidableEq, Repr

/-- The replica's base in the central store. -/
def HostSide.replicaBase (h : HostSide) : Nat :=
  h.cfg.cst.bar2Base + ((h.cfg.points).map (·.replicaOffset)).getD 0

/-- A record's fields. Log entry 89 (DESIGN CHOICE). -/
def PointRead.ofBytes (b : List Byte) : PointRead :=
  let st := fieldAt b 0x13 1
  ⟨fieldAt b 0 8, BitVec.ofNat 32 (fieldAt b 8 4), fieldAt b 0x12 1, bits st 0 3, bits st 3 2, bit st 5⟩

/-- The record of a point. A poisoned record's bytes are open (log entry 1). Log entry 89 (DESIGN CHOICE). -/
def HostSide.readPoint (h : HostSide) (p : Nat) : PointRead × HostSide :=
  let ca := h.replicaBase + 32 * p
  if h.store.anyPoison ca 32 then
    let (v, h) := h.free (2 ^ 256)
    (.ofBytes (leBytes v 32), h)
  else (.ofBytes (h.store.bytes ca 32), h)

/-- Good quality (Table 10.10). -/
def PointRead.good (r : PointRead) : Bool := r.received && r.quality == 0

/-- The host VT of a field vintage: lifted into the 2^42 ns period nearest to t2_k, mapped, minus 2 units (R236,
11_crossing.md R264). -/
def mappedVintage (k j : Exchange) (v : Nat) : VT :=
  let t := k.t2.toNat
  let x := v * 1024
  let d := signed (x + 2 ^ 42 - t % 2 ^ 42) 42
  vtOf (hostDT k j (k.t2 + BitVec.ofInt 64 d)) - 2

/-- Writes the entry of a POINT_BATCH into the replica; without a mapping it is UNPROVEN with the arrival of the batch's
first cell (11_crossing.md R265). -/
def HostSide.writeEntry (h : HostSide) (arrived : VT) (e : List Byte) : HostSide :=
  let st := fieldAt e 0 4
  let p := bits st 0 18
  let (vt, cls) := match h.mapping with
    | some (k, j) => (mappedVintage k j (fieldAt e 0x0C 4), bits st 21 2)
    | none => (arrived, 2)
  let rec_ := slice e 4 8 ++ leBytes vt.toNat 4 ++ leBytes h.vt.toNat 4 ++ slice e 0x10 2 ++ leBytes (bits st 24 8) 1 ++
    leBytes (bits st 18 3 + 8 * cls + 32 * bits st 23 1) 1 ++ leBytes 0 12
  h.caPut 0xFF (h.replicaBase + 32 * p) rec_

/-- The entries of the cells of a batch. -/
def batchEntries (cells : List (List Byte)) : List (List Byte) :=
  cells.flatMap (fun c => (List.range (bits (fieldAt c 2 1) 2 2)).map (fun i => slice c (4 + 20 * i) 20))

/-! ## Configuration -/

def HostSide.widgets (h : HostSide) : List WidgetEntry := ((h.cfg.mimic).map (·.widgets)).getD []
def HostSide.widget (h : HostSide) (w : Nat) : Option WidgetEntry := h.widgets.find? (fun e => e.widget == w)
def HostSide.widgetState (h : HostSide) (w : Nat) : WidgetState := tget WidgetState.fresh h.mimic.widgets w
def HostSide.setWidget (h : HostSide) (w : Nat) (v : WidgetState) : HostSide :=
  { h with mimic := { h.mimic with widgets := tput WidgetState.fresh h.mimic.widgets w v } }
def HostSide.setMimicSurf (h : HostSide) (m : Nat) (v : Option MimicSurf) : HostSide :=
  { h with mimic := { h.mimic with surfs := tput none h.mimic.surfs m v } }

/-- The enabled widgets bound to a point. -/
def WidgetEntry.live (w : WidgetEntry) : Bool := w.enable == 1 && w.bound == 1

/-- The cells that a widget's box meets, on a surface `sw` cells wide (R168). -/
def WidgetEntry.cells (w : WidgetEntry) (sw : Nat) : List Nat :=
  let x0 := w.x / 64
  let y0 := w.y / 64
  let nx := (w.x + w.w - 1) / 64 + 1 - x0
  let ny := (w.y + w.h - 1) / 64 + 1 - y0
  (List.range ny).flatMap (fun j => (List.range nx).map (fun i => (y0 + j) * sw + x0 + i))

/-- The enabled bound widgets whose boxes meet a cell (R178). -/
def HostSide.cellWidgets (h : HostSide) (m : Nat) (s : MimicSurf) (cell : Nat) : List WidgetEntry :=
  h.widgets.filter (fun w => w.live && w.surface == m && (w.cells (s.entry.width / 64)).contains cell)

/-! ## Probe registers (R184) -/

/-- MIM.WIDGET_STATE and WIDGET_VT. A widget that is disabled or unbound has no tag. -/
def HostSide.showWidget (h : HostSide) : HostSide :=
  let n := h.get Reg.MIM_WIDGET_PROBE_WIDGET
  let w := (h.widget n).getD ⟨0, 0, 0, 0, 0, 0, 0, 0, 0, 0⟩
  let v := h.widgetState n
  let t := if w.live then v.tag else ⟨0, 0, false, false, false⟩
  let h := ((h.put Reg.MIM_WIDGET_STATE_ENTRY (v.last.getD 0)).putB Reg.MIM_WIDGET_STATE_ANCIENT t.ancient).putB
    Reg.MIM_WIDGET_STATE_FAULT t.fault
  let h := ((h.put Reg.MIM_WIDGET_STATE_CLASS t.cls).put Reg.MIM_WIDGET_STATE_ENABLED w.enable).put
    Reg.MIM_WIDGET_STATE_BOUND w.bound
  (h.put Reg.MIM_WIDGET_STATE_SURFACE w.surface).put Reg.MIM_WIDGET_VT_VT t.vt.toNat

/-- The entry of a cell that no list holds is STATIC (R178). -/
def Cell.static : Cell := ⟨0, 0x20⟩

/-- The cells of a surface (R168). -/
def MimicSurf.cellCount (s : MimicSurf) : Nat := s.entry.width / 64 * (s.entry.height / 64)

/-- MIM.CELL_STATE and CELL_VT; a cell that does not exist shows 0. -/
def HostSide.showCell (h : HostSide) : HostSide :=
  let m := h.get Reg.MIM_CELL_PROBE_SURFACE
  let i := h.get Reg.MIM_CELL_PROBE_CELL
  let (c, n) : Cell × Nat := match h.mimicSurf m with
    | some s => if i < s.cellCount then (tget Cell.static s.cells i, (h.cellWidgets m s i).length) else (⟨0, 0⟩, 0)
    | none => (⟨0, 0⟩, 0)
  ((h.put Reg.MIM_CELL_STATE_FLAGS c.flags).put Reg.MIM_CELL_STATE_WIDGETS n).put Reg.MIM_CELL_VT_VT c.vt.toNat

/-- MIM.STATUS and the probes follow the engine. -/
def HostSide.showMimic (h : HostSide) : HostSide :=
  (((h.putB Reg.MIM_STATUS_BUSY h.mimic.busy.isSome).put Reg.MIM_STATUS_QUEUED
    (min 255 h.mimic.queue.length)).showWidget).showCell

/-! ## Drawing (R174 to R178) -/

/-- The first entry from `i` that the value lies in (R174). -/
def matchEntry (v : Nat) : Nat → List StateEntry → Option Nat
  | _, [] => none
  | i, e :: t => if e.valid == 1 && f32Le e.lo v && f32Le v e.hi then some i else matchEntry v (i + 1) t

/-- The state table entry of a widget (R174). Log entry 86 (DEDUCED). -/
def HostSide.selectEntry (h : HostSide) (w : WidgetEntry) (r : PointRead) : Nat :=
  if w.bound = 0 then 1
  else if r.good then
    let t := (((h.cfg.mimic).map (·.tables)).getD []).getD w.table []
    (matchEntry (pointF32 r.type r.value) 1 (t.drop 1)).getD 0
  else 0

/-- A bound widget's tag from the read (R176); FAULT is that of its last drawing. -/
def widgetTag (r : PointRead) (fault : Bool) : Tag :=
  ⟨r.vintage, if r.good then r.cls else 2, !r.received, false, fault⟩

/-- The atlas frame and tint of an entry of a widget. Log entry 86 (DEDUCED). -/
def HostSide.drawingOf (h : HostSide) (w : WidgetEntry) (bg e : Nat) (bad : Option Nat) : Drawing :=
  let se := ((((h.cfg.mimic).map (·.tables)).getD []).getD w.table [])[e]?
  let frame := se.bind (fun s => ((((h.cfg.mimic).map (·.frames)).getD [])[s.frame]?))
  ⟨w.x, w.y, w.w, w.h, bg, frame, se.bind (fun s => if s.tintEn = 1 then some s.tint else none), bad⟩

/-- Components A, R, G, B of one pixel of a drawing (07_mimic.md R175). -/
def HostSide.drawnPixel (h : HostSide) (d : Drawing) (x y : Nat) : List Nat :=
  let bg := [bits d.bg 24 8, bits d.bg 16 8, bits d.bg 8 8, bits d.bg 0 8]
  match d.open_, d.frame with
  | some n, _ => (List.range 4).map (fun i => Config.freeNat (2 * n) / 256 ^ (4 * ((y - d.y) * d.w + (x - d.x)) + i) % 256)
  | none, none => bg
  | none, some f =>
    let dx := x - d.x
    let dy := y - d.y
    if decide (f.w ≤ dx) || decide (f.h ≤ dy) then bg
    else
      match h.cfg.mimic.bind (fun m => h.surface m.atlas) with
      | none => bg
      | some a =>
        let w := leNat (h.store.bytes (a.page * 65536 + (f.y + dy) * pitchOf 1 a.width + 4 * (f.x + dx)) 4)
        let t (i v : Nat) : Nat := match d.tint with
          | some c => (v * bits c (24 - 8 * i) 8 + 127) / 255
          | none => v
        let sa := t 0 (bits w 24 8)
        let colour (i : Nat) : Nat :=
          let s := t i (bits w (24 - 8 * i) 8)
          -- round (s × a + bg × (1 − a)), ties up
          (2 * (s * sa + bg.getD i 0 * (255 - sa)) + 255) / 510
        let alpha := (2 * (255 * sa + bg.getD 0 0 * (255 - sa)) + 255) / 510
        [alpha, colour 1, colour 2, colour 3]

/-- An atlas pixel that a drawing reads is poisoned. -/
def HostSide.atlasPoisoned (h : HostSide) (d : Drawing) : Bool :=
  match d.frame, h.cfg.mimic.bind (fun m => h.surface m.atlas) with
  | some f, some a => (List.range (min f.h d.h)).any (fun dy =>
      h.store.anyPoison (a.page * 65536 + (f.y + dy) * pitchOf 1 a.width + 4 * f.x) (4 * min f.w d.w))
  | _, _ => false

/-- Writes a drawing into its surface, whole tiles coded at 2:1 (R168, R175). -/
def HostSide.drawBox (h : HostSide) (s : MimicSurf) (d : Drawing) : HostSide :=
  (List.range (d.h / 4)).foldl (fun g j => (List.range (d.w / 8)).foldl (fun g i =>
    let tx := d.x / 8 + i
    let ty := d.y / 4 + j
    g.codeTile 1 2 (s.tileCa tx ty) 64 ((List.range 32).flatMap (fun p => h.drawnPixel d (8 * tx + p % 8) (4 * ty + p / 8)))) g) h

/-- The entry of a cell: the R29 combination of its widgets' tags, STATIC where it has none (R178). -/
def HostSide.cellEntry (h : HostSide) (m : Nat) (s : MimicSurf) (cell : Nat) : Cell :=
  match h.cellWidgets m s cell with
  | [] => .static
  | ws =>
    let t := combine (ws.map (fun w => (h.widgetState w.widget).tag))
    ⟨t.vt, t.cls + 4 * b2n t.ancient + 8 * b2n t.concealed + 16 * b2n t.fault⟩

/-- The 64 bytes of block `k` of a cell map (Table 07.1); cells that do not exist are 0. -/
def MimicSurf.block (s : MimicSurf) (k : Nat) : List Byte :=
  let cell (j : Nat) : Cell := if 12 * k + j < s.cellCount then tget Cell.static s.cells (12 * k + j) else ⟨0, 0⟩
  (List.range 12).flatMap (fun j => leBytes (cell j).vt.toNat 4) ++ (List.range 12).flatMap (fun j => leBytes (cell j).flags 1) ++
    leBytes 0 4

/-- A surface takes new entries of its cell map, and the blocks that hold the changed cells are written, each as one 64-byte
write (R169). -/
def HostSide.putMap (h : HostSide) (m : Nat) (s : MimicSurf) (cells : List Nat) : HostSide :=
  (cells.map (· / 12)).eraseDups.foldl (fun h k => h.caPut 0xFF (s.mapPage * 65536 + 64 * k) (s.block k))
    (h.setMimicSurf m (some s))

/-- Recomputes cells of a surface; until its initial drawing completes they stay ANCIENT (R177 step 3, R182). -/
def HostSide.writeCells (h : HostSide) (m : Nat) (cells : List Nat) : HostSide :=
  match h.mimicSurf m with
  | some s =>
    if s.initial then h
    else h.putMap m { s with cells := cells.foldl (fun t i => tput Cell.static t i (h.cellEntry m s i)) s.cells } cells
  | none => h

/-- Counts and logs error responses to writes of the surface or the map (R181). -/
def HostSide.writeErrors (h : HostSide) (n index detail : Nat) : HostSide :=
  if n = 0 then h else (h.bump Reg.MIM_ERRORS_WRITE n).log 4 4 index 0 detail

/-- Writes the cells that a widget's box meets, with `n` error responses; whether a write that is answered with an error lands is open.
Log entry 242 (DESIGN CHOICE). -/
def HostSide.widgetCells (h : HostSide) (w : WidgetEntry) (n : Nat) : HostSide :=
  let (lands, h) := if n = 0 then (1, h) else (h.writeErrors n w.widget w.surface).free 2
  match h.mimicSurf w.surface with
  | some s => if lands = 0 then h else h.writeCells w.surface (w.cells (s.entry.width / 64))
  | none => h

/-- Draws a widget with these errors: its pixels, its tag's FAULT, its counts and events (R175, R181).
Log entry 86 (DEDUCED). -/
def HostSide.drawWidget (h : HostSide) (w : WidgetEntry) (e : Nat) (tag : Tag) (facts : DrawFacts) : HostSide :=
  match h.mimicSurf w.surface with
  | none => h
  | some s =>
    let d := h.drawingOf w s.entry.bgColour e none
    let poisoned := h.atlasPoisoned d
    let atlas := poisoned || facts.atlas != 0
    let bad := atlas || facts.surface != 0
    let (n, h) := if poisoned then h.free 65535 else (0, h)
    let h := h.bump Reg.MIM_ERRORS_ATLAS (facts.atlas + (if poisoned then n + 1 else 0))
    let h := if atlas then h.log 4 3 w.widget 0 w.surface else h
    let h := h.writeErrors facts.surface w.widget w.surface
    let k := h.freeN
    let h := if bad then (h.free 1).2 else h
    let h := h.drawBox s { d with open_ := if bad then some k else none }
    h.setWidget w.widget ⟨some e, if w.bound = 1 then { tag with fault := bad } else WidgetState.fresh.tag⟩

/-! ## Batches (R177, R180) -/

/-- The claims of R85 that a batch touches and whose MAX_REDRAW its pixel work exceeds. Log entry 88 (DEDUCED). -/
def HostSide.overrun (h : HostSide) (b : Busy) : Bool :=
  let touched := (h.widgets.filter (fun w => w.live && b.batch.points.contains w.point)).map (·.surface)
  h.cfg.claims.any (fun c => (c.owner == 0xFF || c.owner == h.ownTarget) && (match c.body with
    | .pointToPixel layer _ _ maxRedraw _ => decide (maxRedraw < b.work) && (match h.layerEntry layer with
      | some e => e.kind == 2 && touched.contains e.source
      | none => false)
    | _ => false))

/-- The end of a batch. Log entry 88 (DEDUCED). -/
def HostSide.endBatch (h : HostSide) (b : Busy) : HostSide :=
  let ns := h.tb.sinceNs b.batch.at_
  let h := { h with mimic := { h.mimic with busy := none, drawing := none } }
  let h := ((h.countWrap Reg.MIM_BATCHES_COUNT).put Reg.MIM_LAT_LAST_NS ns).put Reg.MIM_LAT_MAX_NS
    (max (h.get Reg.MIM_LAT_MAX_NS) (ns % 2 ^ 32))
  if h.overrun b then (h.bump Reg.MIM_OVERRUN_COUNT).log 4 2 0 else h

/-- An enabled widget bound to a point of a batch (R177). -/
def WidgetEntry.inBatch (w : WidgetEntry) (b : Batch) : Bool := w.live && b.points.contains w.point

/-- The page of a widget's surface, 0 where it does not exist. -/
def HostSide.surfPage (h : HostSide) (w : WidgetEntry) : Nat := ((h.mimicSurf w.surface).map (·.page)).getD 0

/-- Step 1 of the next widget of a batch, whose writes then await their acknowledges; a widget that an image has meanwhile
disabled, unbound or bound to another point is passed over (R177). Log entry 257 (DEDUCED). -/
def HostSide.runBatch (h : HostSide) (b : Busy) : List Nat → HostSide
  | [] => h.endBatch b
  | n :: rest =>
    match (h.widget n).filter (fun w => w.inBatch b.batch) with
    | none => h.runBatch b rest
    | some w =>
      let (r, h) := h.readPoint w.point
      let e := h.selectEntry w r
      let v := h.widgetState n
      let draws := decide (v.last ≠ some e) || v.tag.fault
      { h with mimic := { h.mimic with
        busy := some { b with widgets := rest, work := b.work + (if draws then w.w * w.h else 64) }
        drawing := some ⟨n, w, h.surfPage w, e, widgetTag r v.tag.fault, draws⟩ } }

/-- The symbol engine takes the next queued update. Log entry 56 (DEDUCED). -/
def HostSide.startBatch (h : HostSide) : HostSide :=
  match h.mimic.busy, h.mimic.queue with
  | none, b :: rest =>
    let ws := (h.widgets.filter (fun w => w.inBatch b)).map (·.widget)
    let h := { h with mimic := { h.mimic with queue := rest, busy := some ⟨b, ws, 0⟩ } }
    (h.runBatch ⟨b, ws, 0⟩ ws).showMimic
  | _, _ => h

/-- The writes of the widget in process are acknowledged: its cells are written and the batch goes on. A drawing by a record
or into a surface that an image has replaced leaves nothing: the widget is drawn afresh (R182). Log entry 257 (DEDUCED). -/
def HostSide.drawn (h : HostSide) (facts : DrawFacts) : HostSide :=
  match h.mimic.busy, h.mimic.drawing with
  | some b, some d =>
    let h := { h with mimic := { h.mimic with drawing := none } }
    let h := match h.widget d.widget with
      | some w =>
        if w = d.record ∧ h.surfPage w = d.page then
          (if d.draws then h.drawWidget w d.entry d.tag facts
           else h.setWidget d.widget { h.widgetState d.widget with tag := d.tag }).widgetCells w facts.map
        else h
      | none => h
    (h.runBatch b b.widgets).showMimic
  | _, _ => h

/-! ## Initial drawing (R182) -/

/-- Draws one enabled widget of a surface drawn afresh. -/
def HostSide.drawFresh (facts : FreshFacts) (h : HostSide) (w : WidgetEntry) : HostSide :=
  let (r, h) := if w.bound = 1 then h.readPoint w.point else (⟨0, 0, 0, 0, 0, false⟩, h)
  let e := h.selectEntry w r
  let v := h.widgetState w.widget
  let errors := ((facts.widgets.find? (fun p => p.1 == w.widget)).map (·.2)).getD ⟨0, 0, 0⟩
  if w.bound = 0 ∨ v.last ≠ some e ∨ v.tag.fault then h.drawWidget w e (widgetTag r false) errors
  else h.setWidget w.widget { v with tag := widgetTag r false }

/-- The initial drawing of a surface completes; batch work takes precedence. Log entry 87 (DEDUCED). -/
def HostSide.completeDrawing (h : HostSide) (facts : FreshFacts) : HostSide :=
  let m := facts.surface.val
  match h.mimicSurf m with
  | some s =>
    if s.initial && h.mimic.busy.isNone && h.mimic.queue.isEmpty then
      let h := h.writeErrors facts.fill m 0
      let ws := h.widgets.filter (fun w => w.enable == 1 && w.surface == m)
      let h := (ws.filter (fun w => w.bound == 0) ++ ws.filter (fun w => w.bound == 1)).foldl (HostSide.drawFresh facts) h
      let h := match h.mimicSurf m with
        | some s => h.setMimicSurf m (some { s with initial := false })
        | none => h
      let h := h.writeErrors facts.map m 0
      let h := h.writeCells m (List.range s.cellCount)
      ((h.put (Reg.MIM_SURF_STATUS_DRAWN m) 1).log 4 1 m).showMimic
    else h
  | none => h

/-- Scan-out holds on a mimic surface end with its old content: only an unchanged surface keeps its leases (R182). -/
def HostSide.dropMimicHolds (h : HostSide) (m : Nat) : HostSide :=
  (List.range 48).foldl (fun h k =>
    let v := h.head k
    h.setHead k { v with holds := v.holds.filter (fun x => x.buf != .mimic m) }) h

/-- A surface listed in an image begins afresh: every cell ANCIENT and UNPROVEN, and BG_COLOUR (R182 steps 1 and 2).
Log entry 87 (DEDUCED). -/
def HostSide.beginDrawing (h : HostSide) (m page mapPage : Nat) (e : MimicSurface) : HostSide :=
  let s : MimicSurf := ⟨page, mapPage, e, [], true⟩
  let all := List.range s.cellCount
  let h := (h.dropMimicHolds m).putMap m { s with cells := all.foldl (fun t i => tput Cell.static t i ⟨0, 6⟩) [] } all
  let h := h.drawBox s ⟨0, 0, e.width, e.height, e.bgColour, none, none, none⟩
  let h := (h.widgets.filter (fun w => w.surface == m)).foldl (fun h w => h.setWidget w.widget .fresh) h
  h.put (Reg.MIM_SURF_STATUS_DRAWN m) 0

/-! ## The sweep of R30 -/

/-- ANCIENT in the widget tags and the cells that are not static (R30, R170, R176). -/
def HostSide.sweepMimic (h : HostSide) : HostSide :=
  let now := h.vt
  let ws := h.mimic.widgets.foldl (fun t p => tput WidgetState.fresh t p.1 { p.2 with tag := p.2.tag.sweep now }) []
  let cell (c : Cell) : Cell :=
    if bit c.flags 5 then c
    else if 0x40000000 ≤ vtDiff now c.vt then { c with flags := setBit c.flags 2 } else c
  let h := { h with mimic := { h.mimic with widgets := ws } }
  (h.mimic.surfs.foldl (fun h p =>
    match p.2 with
    | some s =>
      let aged := (s.cells.filter (fun q => cell q.2 != q.2)).map (·.1)
      h.putMap p.1 { s with cells := s.cells.foldl (fun t q => tput Cell.static t q.1 (cell q.2)) [] } aged
    | none => h) h).showMimic

end Sys2Proof.Machine
end

