-- ==== Sys2Proof/Machine/WatchOps.lean ====
section
/-! DEFINITION. Watch tiles (02_freshness.md R42 to R45, R50) and the demotion events of R28. -/

namespace Sys2Proof.Machine

/-- The number of the frame that a head now sends, 0 before its first. -/
def HostSide.frameNow (h : HostSide) (k : Nat) : Nat :=
  let v := h.head k
  ((v.plan v.started).map (·.f)).getD 0

/-- What the module keeps for tile `t` of layer `l`. Log entry 95 (DEDUCED). -/
def HostSide.tile (h : HostSide) (l t : Nat) : WatchTile := tget WatchTile.fresh h.fresh.tiles (4 * l + t)

/-- DEC.WT_PROBE.VALID and WT_HASH. -/
def HostSide.showTile (h : HostSide) : HostSide :=
  let w := h.tile (h.get Reg.DEC_WT_PROBE_LAYER) (h.get Reg.DEC_WT_PROBE_TILE)
  (h.putB Reg.DEC_WT_PROBE_VALID w.hash.isSome).put Reg.DEC_WT_HASH_HASH (w.hash.getD 0)

/-- WT_VERDICT and WT_NO_VERDICT of a layer (Table 02.8). -/
def HostSide.showVerdicts (h : HostSide) (l : Nat) : HostSide :=
  let mask (p : WatchTile → Bool) : Nat := (List.range 4).foldl (fun m t => if p (h.tile l t) then setBit m t else m) 0
  (h.put (Reg.FRS_LAYER_STATE_WT_VERDICT l) (mask (fun w => w.verdict || w.adopted.isSome))).put
    (Reg.FRS_LAYER_STATE_WT_NO_VERDICT l) (mask (·.noVerdict))

def HostSide.setTile (h : HostSide) (l t : Nat) (w : WatchTile) : HostSide :=
  (({ h with fresh := { h.fresh with tiles := tput WatchTile.fresh h.fresh.tiles (4 * l + t) w } }).showVerdicts l).showTile

/-- CRC-32C of a tile of a picture (R42): samples in raster order, one byte each or two for 10-bit samples. -/
def tileHash (p : Picture) (w : WatchEntry) : Nat :=
  let px (x y : Nat) : Nat := p.sample 0 x y
  (crc32c ((List.range w.h).flatMap (fun j => (List.range w.w).flatMap (fun i =>
    leBytes (px (w.x + i) (w.y + j)) (if p.wide then 2 else 1))))).toNat

/-- The motion predicate of a bound tile (R43). -/
def WatchEntry.moving (w : WatchEntry) (r : PointRead) : Bool :=
  let v := pointF32 r.type r.value
  if w.predicate = 0 then !f32Eq v 0 else f32Le w.threshold (f32Abs v)

/-- The tile after a picture of this vintage with hash `hash` (R44). A tile that is not bound keeps its hash and run
start. -/
def WatchTile.evaluate (t : WatchTile) (w : WatchEntry) (hash : Nat) (vintage now : VT) (r : PointRead) : WatchTile :=
  if t.hash ≠ some hash then ⟨some hash, vintage, false, false, 0, none⟩
  else if w.bound = 0 then t
  else if !r.good || decide ((w.pointBudget : Int) ≤ vtDiff now r.vintage) then { t with noVerdict := true }
  else
    let t := { t with noVerdict := false }
    if !w.moving r then { t with verdict := false, adopted := none }
    else if (msVt w.freezeMs : Int) ≤ vtDiff vintage t.runStart then
      { t with verdict := true, raisedAt := if t.verdict then t.raisedAt else vintage }
    else t

/-- The head that a layer's items follow: its new one, or its old one where the image drops the layer.
Log entry 157 (DEDUCED). -/
def headFor (a b : Cfg) (l : Nat) : Nat :=
  (((b.layers.find? (fun e => e.layer == l)).or (a.layers.find? (fun e => e.layer == l))).map (·.head)).getD 48

/-- The LAYERS entry that the watch tiles of a layer follow: the old image's until the layer's head switches, although a
latch before that takes the new one (R43, R44). Log entry 235 (DEDUCED). -/
def HostSide.watchLayer (h : HostSide) (l : Nat) : Option LayerEntry :=
  let old := h.committed && (match h.stage.staged with
    | some st => h.stage.switches.contains (headFor h.stage.before st.cfg l)
    | none => false)
  if old then h.stage.before.layers.find? (fun e => e.layer == l) else h.layerEntry l

/-- A tile's evaluation with its events: raised, cleared, then entry to or exit from no verdict (R45).
Log entry 201 (DEDUCED). -/
def HostSide.evaluateTile (h : HostSide) (w : WatchEntry) (p : Picture) : HostSide :=
  let old := h.tile w.layer w.tile
  let (r, h) := if w.bound = 1 then h.readPoint w.point else (⟨0, 0, 0, 0, 0, false⟩, h)
  let new := old.evaluate w (tileHash p w) p.tag.vt h.vt r
  let h := h.setTile w.layer w.tile new
  let head := ((h.watchLayer w.layer).map (·.head)).getD 0
  let ev (code detail : Nat) (h : HostSide) : HostSide :=
    h.frsEvent { code := code, frame := h.frameNow head, layer := w.layer, head := head, tile := w.tile, detail := detail }
  let held (t : WatchTile) : Bool := t.verdict || t.adopted.isSome
  let h := if new.verdict && !old.verdict then ev 2 p.tag.vt.toNat h else h
  let h := if held old && !held new then ev 3 0 h else h
  let h := if new.noVerdict && !old.noVerdict then ev 4 0 h else h
  if old.noVerdict && !new.noVerdict then ev 5 0 h else h

/-- Every tile of a presented picture without concealed blocks that lies wholly inside it (R42, R44). -/
def HostSide.evaluateTiles (h : HostSide) (stream : Nat) (p : Picture) : HostSide :=
  (h.cfg.watch.filter (fun w => decide (w.x + w.w ≤ p.width ∧ w.y + w.h ≤ p.height) && (match h.watchLayer w.layer with
    | some e => e.kind == 0 && e.source == stream
    | none => false))).foldl (fun h w => h.evaluateTile w p) h

end Sys2Proof.Machine
end

