-- ==== Sys2Proof/Machine/IngestOps.lean ====
section
/-! DEFINITION. Video ingest (05_ingest_decode.md R107 to R119): matching, sequence recovery, sync evidence, the jitter
buffer and the release of pictures to the decoder cores. -/

namespace Sys2Proof.Machine

/-! ## Stream state and registers -/

def HostSide.streamState (h : HostSide) (s : Nat) : StreamState := tget StreamState.fresh h.video.streams s
def HostSide.setStreamState (h : HostSide) (s : Nat) (v : StreamState) : HostSide :=
  { h with video := { h.video with streams := tput StreamState.fresh h.video.streams s v } }

/-- A window is open at an instant (R113, 12_time.md R278). -/
def windowOpen (at_ : DT) (w : Option Window) : Bool :=
  match w with
  | some x => dtReached at_ x.start && !dtReached at_ x.stop
  | none => false

/-- A window of `ms` milliseconds that begins at `at_`; where one is open then, evidence was held since that one's start. -/
def windowFrom (at_ : DT) (old : Option Window) (ms : Nat) : Window :=
  ⟨match old with
    | some x => if windowOpen at_ old then x.start else at_
    | none => at_, at_ + BitVec.ofNat 64 (ms * 1000000)⟩

/-- Sync evidence is held, by the entry's SYNC_SRC (R113). -/
def StreamState.evidence (v : StreamState) (e : StreamEntry) (now : DT) : Bool :=
  match e.syncSrc with
  | 1 => windowOpen now v.inband
  | 2 => windowOpen now v.attested
  | _ => false

/-- ING.STATUS, SYNC_ATTEST.VALID and SSRC of a stream at this instant. -/
def HostSide.showStream (h : HostSide) (s : Nat) : HostSide :=
  match h.streamEntry s with
  | none => h
  | some e =>
    let v := h.streamState s
    let now := h.now
    let sr := v.reports.any (fun r => decide (dtDiff now r.arrival ≤ (e.srMaxAge : Int) * 1000000000))
    let frer := match v.tagged with
      | some t => decide (dtDiff now t < 100000000)
      | none => false
    let h := (((h.putB (Reg.ING_STATUS_SSRC_LOCKED s) v.ssrc.isSome).put (Reg.ING_SSRC_SSRC s) (v.ssrc.getD 0)).putB
      (Reg.ING_STATUS_SR_VALID s) sr).putB (Reg.ING_STATUS_SYNC_VALID s) (v.evidence e now)
    (h.putB (Reg.ING_SYNC_ATTEST_VALID s) (windowOpen now v.attested)).putB (Reg.ING_STATUS_FRER_ACTIVE s) frer

/-- A write of ING.TS_OFFSET_HI puts the whole offset in force (R134). -/
def HostSide.writeTsOffset (h : HostSide) (v : Nat) : HostSide :=
  let h := h.put Reg.ING_TS_OFFSET_HI_OFFSET v
  { h with video := { h.video with tsOffset := h.pair Reg.ING_TS_OFFSET_LO_OFFSET Reg.ING_TS_OFFSET_HI_OFFSET } }

/-- The arrival DT at a host port: the present less TIM.PORT_INGRESS (R111, 12_time.md R283). -/
def HostSide.arrivalAt (h : HostSide) (port : Nat) : DT :=
  h.ingressAt port

/-- The mode of a host network port (15_lanes.md LNE.HN_MODE): 0 off. Log entry 194 (DEDUCED). -/
def HostSide.hnMode (h : HostSide) (port : Nat) : Nat :=
  match port with
  | 0 => h.get Reg.LNE_HN_MODE_MODE_0
  | 1 => h.get Reg.LNE_HN_MODE_MODE_1
  | 2 => h.get Reg.LNE_HN_MODE_MODE_2
  | _ => h.get Reg.LNE_HN_MODE_MODE_3

/-! ## Capture time and vintage (R112 to R115) -/

/-- The capture time of a picture by its first packet. -/
def StreamState.capture (v : StreamState) (e : StreamEntry) (offset : Nat) (first : RtpPacket) : Option DT :=
  match first.ntp with
  | some x => some (BitVec.ofNat 64 (ntpNs x + offset))
  | none =>
    let fit := v.reports.filter (fun r => decide (0 ≤ dtDiff first.arrival r.arrival ∧
      dtDiff first.arrival r.arrival ≤ (e.srMaxAge : Int) * 1000000000))
    let newest := fit.foldl (fun (b : Option SenderReport) r => match b with
      | none => some r
      | some q => if 0 ≤ dtDiff r.arrival q.arrival then some r else b) none
    newest.map (fun r =>
      let d := signed (first.ts + 2 ^ 32 - r.rtpTs) 32
      BitVec.ofNat 64 (ntpNs r.ntp + offset) + BitVec.ofInt 64 ((2 * d * 1000000000 + 90000) / 180000))

/-- Arrival less the path bound, in whole VT units (R115, 02_freshness.md R27). -/
def boundedVintage (arrival : DT) (pathMax : Nat) : VT := vtOf arrival - BitVec.ofNat 32 (cdiv pathMax 1024)

/-- The class and vintage of a picture; a demotion from PROVEN and a restoration are logged once (R28). -/
def HostSide.originOf (h : HostSide) (s : Nat) (e : StreamEntry) (first : RtpPacket) : HostSide × Nat × VT :=
  let v := h.streamState s
  let weaker (cls : Nat) : Nat × VT := if cls = 1 then (1, boundedVintage first.arrival e.pathMax) else (2, vtOf first.arrival)
  if e.cls = 0 then
    let valid := match v.capture e h.video.tsOffset first with
      | some t => if first.sync then some t else none
      | none => none
    let was := tget false h.fresh.demoted s
    let h := if was != valid.isNone then
        ({ h with fresh := { h.fresh with demoted := tput false h.fresh.demoted s valid.isNone } }).frsEvent
          { code := 7, detail := s }
      else h
    match valid with
    | some t => (h, 0, vtOf t)
    | none => let (c, t) := weaker (if e.pathMax = 0 then 2 else 1); (h, c, t)
  else let (c, t) := weaker e.cls; (h, c, t)

/-! ## The jitter buffer (R117 to R119) -/

/-- Places a packet in RTP sequence order. Log entries 90 (DEDUCED), 91 (DEDUCED), 213 (DEDUCED). -/
def placePacket (p : RtpPacket) : List RtpPacket → List RtpPacket
  | [] => [p]
  | q :: t => if signed (p.seq + 65536 - q.seq) 16 < 0 then p :: q :: t else q :: placePacket p t

/-- The packets of a picture, in sequence order. -/
def StreamState.pictureOf (v : StreamState) (ts : Nat) : List RtpPacket := v.packets.filter (fun p => p.ts == ts)

/-- Fragmentation units follow one another whole; `open_` says that one is begun. -/
def fusWhole : Bool → List RtpPacket → Bool
  | open_, [] => !open_
  | open_, p :: t => match p.packing with
    | .whole => !open_ && fusWhole false t
    | .fuStart => !open_ && fusWhole true t
    | .fuMiddle => open_ && fusWhole true t
    | .fuEnd => open_ && fusWhole false t

/-- Packets run without a gap. -/
def runsOn : List RtpPacket → Bool
  | p :: q :: t => (p.seq + 1) % 65536 == q.seq && runsOn (q :: t)
  | _ => true

/-- Packets up to the first with the marker bit; none where no packet has it. -/
def upToMarker : List RtpPacket → Option (List RtpPacket)
  | [] => none
  | p :: t => if p.marker then some [p] else (upToMarker t).map (p :: ·)

/-- A picture is complete (R117). -/
def pictureWhole (ps : List RtpPacket) : Bool :=
  match upToMarker ps with
  | some run => runsOn run && fusWhole false run && (match run with | p :: _ => p.begins | [] => false)
  | none => false

/-- The timestamps held, in RTP timestamp order. Log entry 90 (DEDUCED). -/
def StreamState.held (v : StreamState) : List Nat :=
  v.packets.foldl (fun l p => if l.contains p.ts then l else insertTs p.ts l) []
where
  insertTs (x : Nat) : List Nat → List Nat
    | [] => [x]
    | y :: t => if signed (x + 2 ^ 32 - y) 32 < 0 then x :: y :: t else y :: insertTs x t

/-- Runs of packets missing between successive packets. -/
def gapsIn : List RtpPacket → Nat
  | p :: q :: t => b2n ((p.seq + 1) % 65536 != q.seq) + gapsIn (q :: t)
  | _ => 0

/-- NAL units that an incomplete picture's release marks missing: one for each place where something is missing, be it the
beginning, the end, or a run of packets between (R118). Log entry 239 (DEDUCED). -/
def unitsMissing (ps : List RtpPacket) : Nat :=
  if pictureWhole ps then 0
  else max 1 (gapsIn ps + b2n (!(ps.head?.map (·.begins)).getD false) + b2n (upToMarker ps).isNone)

/-- The later of two sequence numbers (R117). -/
def laterSeq (a b : Nat) : Nat := if 0 ≤ signed (b + 65536 - a) 16 then b else a

/-- Sequence numbers missing after the foremost one released, up to the last of a released picture, that are not held:
the gap that holds them is closed by its release, so each counts once (R119). -/
def lostBy (v : StreamState) (ps : List RtpPacket) : Nat :=
  match ps.head?, ps.getLast? with
  | some first, some final =>
    let from_ := v.lastSeq.getD ((first.seq + 65535) % 65536)
    let n := (signed (final.seq + 65536 - from_) 16).toNat
    ((List.range n).filter (fun i => !v.packets.any (fun p => p.seq == (from_ + 1 + i) % 65536))).length
  | _, _ => 0

/-! ## Cores and contexts (R123, R124, R133) -/

def HostSide.core (h : HostSide) (c : Nat) : Core := tget Core.idle h.video.cores c

/-- Sets a core with CORE_STATUS. -/
def HostSide.setCore (h : HostSide) (c : Nat) (v : Core) : HostSide :=
  let h := { h with video := { h.video with cores := tput Core.idle h.video.cores c v } }
  ((h.putB (Reg.DEC_CORE_STATUS_BUSY c) v.current.isSome).put (Reg.DEC_CORE_STATUS_STREAM c)
    ((v.current.map (·.rel.stream)).getD 0)).put (Reg.DEC_CORE_STATUS_QUEUED c) (min 31 v.queue.length)

/-- The core whose queue takes a stream's pictures: the one that serves its context. A faulted core takes none, but for a
core that DC8 takes over: until DC8's next picture boundary its contexts are still there (R133). -/
def HostSide.coreOf (h : HostSide) (s : Nat) : Option Nat :=
  let c := h.get (Reg.DEC_CTX_STATUS_CORE s)
  let awaits := h.video.dc8For == some c && !h.flag (Reg.DEC_CORE_STATUS_FAULTED 8)
  if h.get (Reg.DEC_CTX_STATUS_STATE s) = 0 ∨ (h.flag (Reg.DEC_CORE_STATUS_FAULTED c) ∧ !awaits) then none else some c

/-- Release order: earlier first, then the lower stream number of one cycle (R124). Log entry 92 (DEDUCED). -/
def queueRelease (r : Released) : List Released → List Released
  | [] => [r]
  | q :: t => if r.at_ = q.at_ ∧ r.stream < q.stream then r :: q :: t else q :: queueRelease r t

/-- Releases a picture of a stream (R117 to R119, R123). Log entries 92 (DEDUCED), 239 (DEDUCED). -/
def HostSide.releasePicture (h : HostSide) (s : Nat) (e : StreamEntry) (ts : Nat) : HostSide :=
  let v := h.streamState s
  let ps := v.pictureOf ts
  match ps, ps.getLast? with
  | first :: _, some final =>
    let (h, cls, vt) := h.originOf s e first
    let h := h.bump (Reg.ING_LOSS_LOST s) (lostBy v ps)
    let h := h.setStreamState s { v with
      packets := v.packets.filter (fun p => p.ts != ts)
      lastSeq := some ((v.lastSeq.map (laterSeq · final.seq)).getD final.seq)
      released := (ts :: v.released).take 256 }
    let h := ((h.put (Reg.ING_STATUS_EFF_CLASS s) cls).putB (Reg.ING_STATUS_NTP_EXT s) first.ntp.isSome).put
      (Reg.ING_STATUS_SEQ s) final.seq
    match h.coreOf s with
    | some c =>
      let k := h.core c
      h.setCore c { k with queue := queueRelease ⟨s, ts, vt, cls, unitsMissing ps, h.tb.raw.toNat⟩ k.queue }
    | none => h
  | _, _ => h

/-- Releases the pictures of a list in order. -/
def HostSide.releaseAll (h : HostSide) (s : Nat) (e : StreamEntry) : List Nat → HostSide
  | [] => h
  | ts :: t => (h.releasePicture s e ts).releaseAll s e t

/-- The prefix of a list up to its last element that satisfies `p`. -/
def upToLast (p : Nat → Bool) : List Nat → List Nat
  | [] => []
  | x :: t => if p x || t.any p then x :: upToLast p t else []

/-- Pictures whose JB_HOLD window has ended are released, older ones before them (R118). -/
def HostSide.expireHolds (h : HostSide) (s : Nat) (e : StreamEntry) (at_ : DT) : HostSide :=
  let v := h.streamState s
  h.releaseAll s e (upToLast (fun ts => match v.pictureOf ts with
    | p :: _ => dtReached at_ (p.arrival + BitVec.ofNat 64 (e.jbHold * 1000000))
    | [] => false) v.held)

/-- Complete pictures are released, and before each the incomplete ones that precede it (R117, R118). -/
def HostSide.releaseWhole (h : HostSide) (s : Nat) (e : StreamEntry) : HostSide :=
  let v := h.streamState s
  h.releaseAll s e (upToLast (fun ts => pictureWhole (v.pictureOf ts)) v.held)

/-! ## Arrival of a frame (R107 to R119) -/

/-- The group MAC address of a multicast destination. -/
def groupMac (v6 : Bool) (addr : Nat) : Nat :=
  if v6 then 0x333300000000 + addr % 2 ^ 32 else 0x01005E000000 + addr % 2 ^ 23

/-- A frame is addressed to a stream on a port, at its UDP port plus `plus`. -/
def StreamEntry.matches_ (e : StreamEntry) (port plus : Nat) (f : NetFrame) : Bool :=
  e.enable == 1 && (e.portA == port || (e.frer == 1 && e.portB == port)) && (e.ipv6 == 1) == f.v6 && !f.fragmented &&
    e.addr == f.addr.toNat && f.udpPort.map (·.toNat) == some (e.udpPort + plus) &&
    ((e.multicast == 1 && f.mac.toNat == groupMac f.v6 e.addr) || f.mac.toNat == Config.hostMac port)

/-- The stream of a frame (R107); RTCP is taken on the next UDP port as well (R108). -/
def HostSide.matchStream (h : HostSide) (port : Nat) (f : NetFrame) : Option StreamEntry :=
  match h.cfg.streams.find? (fun e => e.matches_ port 0 f) with
  | some e => some e
  | none => if isRtcp f.payload then h.cfg.streams.find? (fun e => e.matches_ port 1 f) else none

/-- A sender report of the stream's SSRC is kept (R110, R112); reports too old for any entry are dropped.
Log entry 94 (DEDUCED). -/
def HostSide.takeRtcp (h : HostSide) (e : StreamEntry) (arrival : DT) (b : List Byte) : HostSide :=
  let s := e.stream
  let v := h.streamState s
  let news := (senderReports b.length b).filter (fun r => v.ssrc == some r.1)
  let old := v.reports.filter (fun r => decide (dtDiff arrival r.arrival ≤ 12000000000))
  h.setStreamState s { v with reports := old ++ news.map (fun r => ⟨arrival, r.2.1, r.2.2⟩) }

/-- In-band evidence after a clock-status element (R113). -/
def HostSide.clockElement (h : HostSide) (e : StreamEntry) (arrival : DT) (old : Option Window)
    (x : Option (List Byte)) : Option Window :=
  match x with
  | some b =>
    if b.length ≠ 4 then old
    else if !bit (fieldBE b 0 1) 7 then none
    else if fieldBE b 1 3 = h.tb.gm % 2 ^ 24 then some (windowFrom arrival old e.syncHold)
    else old
  | none => old

/-- An RTP packet of a stream. Log entries 91 (DEDUCED), 213 (DEDUCED). -/
def HostSide.takeRtp (h : HostSide) (e : StreamEntry) (arrival : DT) (b : List Byte) : HostSide :=
  let s := e.stream
  let reject := h.bump (Reg.ING_REJECT_COUNT s)
  match parseRtp b with
  | none => reject
  | some r =>
    let v := h.streamState s
    match payloadKind (hevc e.codec) r.payload with
    | none => reject
    | some (packing, begins) =>
      if r.pt ≠ e.pt ∨ (v.ssrc.isSome ∧ v.ssrc ≠ some r.ssrc) then reject
      else
        let v := { v with ssrc := some r.ssrc, inband := h.clockElement e arrival v.inband (r.ext e.extIdClk) }
        let h := ((h.setStreamState s v).countWrap (Reg.ING_RX_PKTS_COUNT s)).put (Reg.ING_LAST_ARRIVAL_VT s)
          (vtOf arrival).toNat
        let h := h.expireHolds s e arrival
        let v := h.streamState s
        let late := v.released.contains r.ts || (match v.lastSeq with
          | some n => decide (signed (r.seq + 65536 - n) 16 ≤ 0)
          | none => false)
        if late then h.bump (Reg.ING_DROPS_LATE s)
        else if v.packets.any (fun p => p.seq == r.seq) then h
        else if e.jbBytes < v.packets.foldl (fun n p => n + p.size) 0 + b.length then h.bump (Reg.ING_DROPS_OVERFLOW s)
        else
          let ntp := match r.ext e.extIdNtp with
            | some x => if x.length = 8 then some (beNat x) else none
            | none => none
          let p : RtpPacket := ⟨r.seq, r.ts, r.marker, arrival, b.length, begins, packing, ntp, v.evidence e arrival⟩
          (h.setStreamState s { v with packets := placePacket p v.packets }).releaseWhole s e

/-- A frame arrives on a host network port (R107, R108, R116).
Log entries 67 (DEDUCED), 90 (DEDUCED), 93 (DEDUCED). -/
def HostSide.ingest (h : HostSide) (port : Nat) (f : NetFrame) : HostSide :=
  if h.hnMode port = 0 ∨ h.hnMode port = 3 then h
  else match h.matchStream port f with
  | none => h.bump (Reg.ING_UNMATCHED_COUNT port)
  | some e =>
    let s := e.stream
    let arrival := h.arrivalAt port
    let take (h : HostSide) : HostSide :=
      if isRtcp f.payload then h.takeRtcp e arrival f.payload else h.takeRtp e arrival f.payload
    let h := if e.frer = 1 then
        match f.rtag with
        | none => h.bump (Reg.ING_REJECT_COUNT s)
        | some n =>
          let v := h.streamState s
          let (r, pass) := v.frer.step n.toNat arrival
          let d := signed (n.toNat + 65536 - v.frer.seq) 16
          let h := h.setStreamState s { v with frer := r, tagged := some arrival }
          if pass then take h
          else if decide (-32 < d ∧ d ≤ 0) then h.bump (Reg.ING_LOSS_DUP_ELIM s) else h
      else take h
    h.showStream s

end Sys2Proof.Machine
end

