-- ==== Sys2Proof/Machine/DecodeOps.lean ====
section
/-! DEFINITION. Decoding (05_ingest_decode.md R121 to R135): contexts, tokens, absent references, taint, presentation,
core faults and the takeover by DC8. What a bitstream says comes with the commands. -/

namespace Sys2Proof.Machine

def HostSide.context (h : HostSide) (s : Nat) : Context := tget Context.fresh h.video.contexts s
def HostSide.setContext (h : HostSide) (s : Nat) (v : Context) : HostSide :=
  { h with video := { h.video with contexts := tput Context.fresh h.video.contexts s v } }
def HostSide.setPicture (h : HostSide) (id : Nat) (v : Option Picture) : HostSide :=
  { h with video := { h.video with pictures := tput none h.video.pictures id v } }

/-- The pictures of a stream with their identities. -/
def HostSide.picturesOf (h : HostSide) (s : Nat) : List (Nat × Picture) :=
  h.video.pictures.filterMap (fun p => match p.2 with
    | some x => if x.stream = s then some (p.1, x) else none
    | none => none)

/-- Tokens held by a context (R132). -/
def HostSide.tokensHeld (h : HostSide) (s : Nat) : Nat := ((h.picturesOf s).filter (·.2.token)).length

/-- DEC.CTX_TOKENS, and the tag of the current picture in CTX_STATUS. -/
def HostSide.showContext (h : HostSide) (s : Nat) : HostSide :=
  let pool := h.get (Reg.DEC_CTX_TOKENS_POOL s)
  let held := h.tokensHeld s
  let v := h.context s
  let t := ((v.current.bind h.picture).map (·.tag)).getD Tag.absent
  let h := (h.put (Reg.DEC_CTX_TOKENS_HELD s) held).put (Reg.DEC_CTX_TOKENS_FREE s) (pool - held)
  let h := ((h.putB (Reg.DEC_CTX_STATUS_CUR_ANCIENT s) t.ancient).putB (Reg.DEC_CTX_STATUS_CUR_CONCEALED s) t.concealed).putB
    (Reg.DEC_CTX_STATUS_CUR_FAULT s) t.fault
  (h.put (Reg.DEC_CTX_STATUS_CUR_CLASS s) t.cls).put (Reg.DEC_CTX_STATUS_TAINT_RUN s) (min 255 v.run)

/-- A decoder event (R135). Log entry 98 (DEDUCED). -/
def HostSide.decoderEvent (h : HostSide) (s code : Nat) : HostSide :=
  (h.log 2 code s).put (Reg.DEC_CTX_STATUS_LAST_EVENT s) code

/-- A picture boundary of a context: pictures out of the DPB and not leased return their tokens; those that are not
current either are gone (R132); one that a layer leases again holds a token again (01_architecture.md Table 01.11). After a
miscount a token stays consumed (01_architecture.md R24). Log entries 99 (DEDUCED), 256 (DESIGN CHOICE). -/
def HostSide.pictureBoundary (h : HostSide) (s : Nat) : HostSide :=
  let cur := (h.context s).current
  if h.stuck 3 s then h
  else (h.picturesOf s).foldl (fun h p =>
    if !p.2.inDpb && h.leaseCount (.picture p.1) == 0 then
      h.setPicture p.1 (if cur = some p.1 then some { p.2 with token := false } else none)
    else if p.2.token then h
    else h.setPicture p.1 (some { p.2 with token := true })) h

/-- The picture in the DPB of a stream with a picture order count: the newest. -/
def HostSide.inDpb (h : HostSide) (s : Nat) (poc : Int) : Option Nat :=
  (((h.picturesOf s).filter (fun p => p.2.inDpb && p.2.poc == poc)).getLast?).map (·.1)

/-- An absent reference is created (R130). -/
def HostSide.createAbsent (h : HostSide) (e : StreamEntry) (wide : Bool) (poc : Int) : HostSide :=
  let id := h.video.nextPic
  let h := h.setPicture id (some ⟨e.stream, Tag.absent, e.maxW, e.maxH, 0, 0, wide, none, [], true, poc, false, true, true⟩)
  let h := { h with video := { h.video with nextPic := id + 1 } }
  (h.bump (Reg.DEC_CTX_ERR_ABSENT e.stream)).decoderEvent e.stream 3

/-! ## Parameter sets (R121, R122, R131) -/

/-- Size of the cropped picture. -/
def ParamFacts.width (q : ParamFacts) : Nat := q.codedW - q.cropL - q.cropR
def ParamFacts.height (q : ParamFacts) : Nat := q.codedH - q.cropT - q.cropB

/-- MaxDpbMbs of an AVC level (ITU-T H.264 Table A-1). Log entry 240 (PRESUMED). -/
def maxDpbMbs (level : Nat) : Nat :=
  if level ≤ 10 then 396 else if level ≤ 11 then 900 else if level ≤ 20 then 2376 else if level ≤ 21 then 4752
  else if level ≤ 30 then 8100 else if level ≤ 31 then 18000 else if level ≤ 32 then 20480 else if level ≤ 41 then 32768
  else if level ≤ 42 then 34816 else if level ≤ 50 then 110400 else 184320

/-- MaxDpbFrames of a level for a frame size (ITU-T H.264 A.3.1). Log entry 240 (PRESUMED). -/
def ParamFacts.maxDpbFrames (q : ParamFacts) (level : Nat) : Nat :=
  min 16 (maxDpbMbs level / max 1 (cdiv q.codedW 16 * cdiv q.codedH 16))

/-- A stream's DPB need (R131). Log entry 240 (PRESUMED). -/
def ParamFacts.need (q : ParamFacts) (e : StreamEntry) : Nat :=
  match q.maxDec with
  | some n => n + 1
  | none => (if hevc e.codec then 0 else q.maxDpbFrames e.level) + 1

/-- The profile lies within CODEC: Main 10 holds Main, and each AVC profile of the table holds those before it.
Log entry 240 (PRESUMED). -/
def profileFits (codec profile : Nat) : Bool :=
  if hevc codec then decide (1 ≤ profile ∧ profile ≤ codec) else decide (3 ≤ profile ∧ profile ≤ codec)

/-- The parameter sets lie outside the stream's envelope: they require a refused feature or exceed CODEC, LEVEL, MAX_W,
MAX_H or the tokens (R122, R131). Log entry 240 (PRESUMED). -/
def ParamFacts.outside (q : ParamFacts) (e : StreamEntry) : Bool :=
  !profileFits e.codec q.profile || q.highTier || q.chroma != 1 || (hevc e.codec && q.fieldSeq) ||
    (!hevc e.codec && (!q.frameMbsOnly || q.fmoAso)) || decide (e.level < q.level) || decide (e.maxW < q.width) ||
    decide (e.maxH < q.height) || decide (e.tokens < q.need e + 2)

/-- Starts a picture that decodes: its DPB, its absent references and its token (R125, R130, R132). -/
def HostSide.beginPicture (h : HostSide) (c : Nat) (k : Core) (rel : Released) (e : StreamEntry) (f : PictureFacts)
    (q : ParamFacts) : HostSide :=
  let s := e.stream
  let refs : List Int := if f.irap then [] else f.refs
  let missing := refs.eraseDups.filter (fun p => (h.inDpb s p).isNone)
  if e.tokens < h.tokensHeld s + 1 + missing.length then (h.setCore c { k with current := none }).decoderEvent s 7
  else
    let first := h.get (Reg.DEC_CTX_STATUS_STATE s) != 2
    let v := h.context s
    let kept (p : Picture) : Bool := refs.contains p.poc || f.keep.contains p.poc
    let h := (h.picturesOf s).foldl (fun h p =>
      if p.2.inDpb && !kept p.2 then h.setPicture p.1 (some { p.2 with inDpb := false }) else h) h
    let h := missing.foldl (fun h p => h.createAbsent e (q.profile == 2) p) h
    let v := { v with
      sequence := if f.irap || !missing.isEmpty then v.sequence + 1 else v.sequence
      skipRasl := if f.irap then first && f.cra else v.skipRasl }
    let id := h.video.nextPic
    let h := h.setPicture id (some ⟨s, Tag.absent, q.width, q.height, q.cropL, q.cropT, q.profile == 2, none, [], false, f.poc, false, false, true⟩)
    let h := { h with video := { h.video with nextPic := id + 1 } }
    let h := (h.setContext s v).put (Reg.DEC_CTX_STATUS_STATE s) 2
    h.setCore c { k with current := some ⟨rel, id, h.now, f.irap, first, f.reference, refs.filterMap (h.inDpb s), q⟩ }

/-- The contexts that a core serves. Log entry 97 (DEDUCED). -/
def HostSide.contextsOf (h : HostSide) (c : Nat) : List Nat :=
  (h.cfg.streams.filter (fun e => h.get (Reg.DEC_CTX_STATUS_STATE e.stream) != 0 &&
    h.get (Reg.DEC_CTX_STATUS_CORE e.stream) == c)).map (·.stream)

/-- A core's ACTIVE: it serves contexts. -/
def HostSide.showCores (h : HostSide) : HostSide :=
  (List.range 9).foldl (fun h c => h.putB (Reg.DEC_CORE_STATUS_ACTIVE c)
    (!h.flag (Reg.DEC_CORE_STATUS_FAULTED c) && !(h.contextsOf c).isEmpty)) h

/-- At a picture boundary DC8 takes over the contexts of the core that it replaces, with the pictures that wait: each
resumes in WAIT_IRAP (R133, 16_twin_repair.md R387). Log entry 97 (DEDUCED). -/
def HostSide.takeContexts (h : HostSide) : HostSide :=
  match h.video.dc8For with
  | some c =>
    if h.flag (Reg.DEC_CORE_STATUS_FAULTED 8) then h
    else
      let h := (h.contextsOf c).foldl (fun h s => (h.put (Reg.DEC_CTX_STATUS_STATE s) 1).put (Reg.DEC_CTX_STATUS_CORE s) 8) h
      let waiting := (h.core c).queue
      (h.setCore c Core.idle).setCore 8 { h.core 8 with queue := waiting.foldl (fun q r => queueRelease r q) (h.core 8).queue }
  | none => h

/-- A core starts its oldest queued picture (R122 to R124, R127, R131). A picture of a context that an image has moved to
another core is passed over. Log entries 98 (DEDUCED), 99 (DEDUCED), 232 (DESIGN CHOICE). -/
def HostSide.decodeStart (h : HostSide) (c : Nat) (f : PictureFacts) : HostSide :=
  let h := if c = 8 ∧ (h.core 8).current.isNone then h.takeContexts.showCores else h
  let k := h.core c
  match k.current, k.queue, h.flag (Reg.DEC_CORE_STATUS_FAULTED c) with
  | none, rel :: rest, false =>
    let s := rel.stream
    let k := { k with queue := rest }
    let h := h.setCore c k
    match h.streamEntry s with
    | none => h
    | some e =>
      if h.coreOf s ≠ some c then h
      else
        let h := h.pictureBoundary s
        let state := h.get (Reg.DEC_CTX_STATUS_STATE s)
        let skip := (state != 2 && !f.irap) || (f.rasl && (h.context s).skipRasl)
        let h := if skip then h
          else match f.params with
            | none => (((h.bump (Reg.DEC_CTX_ERR_SYNTAX s)).bump (Reg.DEC_CTX_ERR_PARAM s)).put
                (Reg.DEC_CTX_STATUS_STATE s) 1).decoderEvent s 2
            | some q =>
              if q.outside e then
                ((h.bump (Reg.DEC_CTX_ERR_ENVELOPE s)).put (Reg.DEC_CTX_STATUS_STATE s) 3).decoderEvent s 4
              else h.beginPicture c k rel e f q
        h.showContext s
  | _, _, _ => h

/-! ## Syntax errors and concealment (R126 to R128) -/

/-- What the slices of a picture leave: the blocks decoded, the blocks of damaged or discarded slices with entry 0 of their
reference list 0, the syntax errors, and whether the last independent slice segment was damaged, with its entry 0. -/
structure SliceWalk where
  decoded : List Nat
  lost    : List (Nat × Option Int)
  errors  : Nat
  damaged : Bool
  ref0    : Option Int
  deriving DecidableEq, Repr

/-- One slice: what follows a syntax error in it is discarded, and so are the dependent slice segments after a damaged
one; a slice address out of range or decoded before is such an error itself. Log entry 214 (DEDUCED). -/
def SliceWalk.step (total : Nat) (w : SliceWalk) (s : SliceFacts) : SliceWalk :=
  let ref0 := if s.dependent then w.ref0 else s.ref0
  let gone (bs : List Nat) : List (Nat × Option Int) := bs.map (fun b => (b, ref0))
  if s.dependent && w.damaged then { w with lost := w.lost ++ gone s.blocks }
  else
    let badStart := match s.blocks with
      | b :: _ => decide (total ≤ b) || w.decoded.contains b
      | [] => true
    if badStart then { w with errors := w.errors + 1, damaged := true, ref0 := ref0 }
    else match s.error with
      | some n =>
        ⟨w.decoded ++ s.blocks.take n, w.lost ++ gone (s.blocks.drop n), w.errors + 1, true, ref0⟩
      | none => ⟨w.decoded ++ s.blocks, w.lost, w.errors, false, ref0⟩

/-- Blocks of a picture by its parameter sets: columns and rows of coding tree units or macroblocks. -/
def ParamFacts.cols (q : ParamFacts) : Nat := cdiv q.codedW q.block
def ParamFacts.total (q : ParamFacts) : Nat := q.cols * cdiv q.codedH q.block

/-- The slices of a picture in order. -/
def ParamFacts.walk (q : ParamFacts) (slices : List SliceFacts) : SliceWalk :=
  slices.foldl (SliceWalk.step q.total) ⟨[], [], 0, false, none⟩

/-- Blocks left undecoded, each with the picture that it is copied from, none for mid-grey (R128). -/
def HostSide.concealed (h : HostSide) (d : Decoding) (prev : Option Nat) (w : SliceWalk) : List (Nat × Option Nat) :=
  let inStore (id : Nat) : Bool := (h.picture id).any (·.inDpb)
  let before := prev.filter (fun id => inStore id && !d.irap)
  ((List.range d.params.total).filter (fun b => !w.decoded.contains b)).map (fun b =>
    (b, (((w.lost.find? (fun x => x.1 == b)).bind (·.2)).bind (h.inDpb d.rel.stream)).or before))

/-- The samples of a concealed block: those of the co-located block of the picture copied. -/
def HostSide.patchesOf (h : HostSide) (q : ParamFacts) (x : Nat × Option Nat) : List Patch :=
  let x0 := x.1 % q.cols * q.block
  let y0 := x.1 / q.cols * q.block
  let cut (p : Patch) : Patch := ⟨max x0 p.x0, max y0 p.y0, min (x0 + q.block) p.x1, min (y0 + q.block) p.y1, p.content⟩
  let whole (c : Option Nat) : Patch := ⟨x0, y0, x0 + q.block, y0 + q.block, c⟩
  match x.2.bind h.picture with
  | some p => ((p.patches.map cut).filter (fun r => decide (r.x0 < r.x1 ∧ r.y0 < r.y1))) ++ [whole p.content]
  | none => [whole none]

/-- The picture of a core completes within its time (R125 to R129, R133; 02_freshness.md R29, R44).
Log entry 214 (DEDUCED). -/
def HostSide.endPicture (h : HostSide) (c : Nat) (k : Core) (d : Decoding) (f : DecodedFacts) : HostSide :=
    let s := d.rel.stream
    let h := h.setCore c { k with current := none }
    match h.streamEntry s, h.picture d.id with
    | some e, some p =>
      let v := h.context s
      let refs := d.refs.filterMap h.picture
      let w := d.params.walk f.slices
      let blocks := h.concealed d v.prev w
      let errors := d.rel.missing + f.badNals + w.errors
      let tainted := !blocks.isEmpty || (!d.irap && refs.any (·.tainted))
      let run := if tainted then v.run + 1 else 0
      let beyond := decide (e.concealLimit < run)
      let h := h.bump (Reg.DEC_CTX_ERR_SYNTAX s) errors
      let h := if errors ≠ 0 then h.decoderEvent s 1 else h
      let h := if f.memError then h.decoderEvent s 9 else h
      let h := if run = e.concealLimit + 1 then h.decoderEvent s 5 else h
      let h := if d.first then h.decoderEvent s 6 else h
      let origin : Tag := ⟨d.rel.vintage, d.rel.cls, false, beyond, f.memError⟩
      let copied := ((blocks.filterMap (·.2)).eraseDups.filterMap h.picture).map (·.tag)
      let tag := combine (origin :: refs.map (·.tag) ++ copied)
      let p := { p with
        tag := tag
        content := some f.content
        patches := blocks.flatMap (h.patchesOf d.params)
        tainted := tainted
        inDpb := d.keep }
      let presented := match v.current.bind h.picture with
        | some q => v.curSeq != v.sequence || !decide (p.poc < q.poc)
        | none => true
      let h := h.setPicture d.id (some p)
      let v := { v with run := run, prev := some d.id }
      let h := if presented then
          ((h.setContext s { v with current := some d.id, curSeq := v.sequence }).countWrap (Reg.DEC_CTX_PICS_COUNT s))
        else h.setContext s v
      let h := if presented && blocks.isEmpty then h.evaluateTiles s p else h
      h.showContext s
    | _, _ => h

/-! ## Core faults (R133, 16_twin_repair.md R387) -/

/-- RPR.STATUS of the spare core. -/
def HostSide.showSpareCore (h : HostSide) : HostSide :=
  (h.putB Reg.RPR_STATUS_DC_SPARE_OK (!h.flag (Reg.DEC_CORE_STATUS_FAULTED 8))).put Reg.RPR_STATUS_DC_REPLACES
    (h.video.dc8For.getD 15)

/-- A core is marked faulted: its picture in progress is abandoned. Where DC8 can take over, it does so at its next picture
boundary; otherwise the core's waiting pictures are discarded (R133). Log entry 97 (DEDUCED). -/
def HostSide.markCore (h : HostSide) (c : Nat) : HostSide :=
  if h.flag (Reg.DEC_CORE_STATUS_FAULTED c) then h
  else
    let k := h.core c
    let mine := h.contextsOf c
    let h := h.put (Reg.DEC_CORE_STATUS_FAULTED c) 1
    let h := mine.foldl (fun h s => h.decoderEvent s 8) h
    let take := c != 8 && h.twinBody.autoDecoder == 1 && !h.flag (Reg.DEC_CORE_STATUS_FAULTED 8) && h.video.dc8For.isNone
    let h := if take then
        { (h.setCore c { k with current := none }) with video := { (h.setCore c { k with current := none }).video with
          dc8For := some c } }
      else h.setCore c Core.idle
    let h := match c, h.video.dc8For with
      | 8, some x => h.setCore x Core.idle
      | _, _ => h
    h.showCores.showSpareCore

/-- A core has not completed its picture within 100 ms (R133). -/
def HostSide.decodeTimeout (h : HostSide) (c : Nat) : HostSide :=
  match (h.core c).current with
  | some d => if 100000000 ≤ dtDiff h.now d.start then h.markCore c else h
  | none => h

/-- The picture of a core completes; one that took 100 ms or more marks the core faulted (R133). -/
def HostSide.pictureComplete (h : HostSide) (c : Nat) (f : DecodedFacts) : HostSide :=
  match (h.core c).current with
  | none => h
  | some d => if 100000000 ≤ dtDiff h.now d.start then h.markCore c else h.endPicture c (h.core c) d f

/-- ANCIENT in the tags of decoded pictures (02_freshness.md R30). -/
def HostSide.sweepPictures (h : HostSide) : HostSide :=
  let now := h.vt
  let sweep (v : Option Picture) : Option Picture := v.map (fun x => { x with tag := x.tag.sweep now })
  let pics : Table (Option Picture) := h.video.pictures.foldl (fun t p => tput none t p.1 (sweep p.2)) []
  let h := { h with video := { h.video with pictures := pics } }
  h.cfg.streams.foldl (fun h e => h.showContext e.stream) h

end Sys2Proof.Machine
end

