-- ==== Sys2Proof/Machine/SliceOps.lean ====
section
/-! DEFINITION. The way of a slice (06_composition.md R150, R157, R164; 08_heads.md R192 to R199; 02_freshness.md R47,
R52): composition, handover, the fault pattern, packets, summaries and the end of scan-out holds; and engine faults
(16_twin_repair.md R385, R386). -/

namespace Sys2Proof.Machine

/-! ## Engines (R385, R386) -/

/-- The engine whose tables a head's slices are composed from now. -/
def HostSide.engineOf (h : HostSide) (k : Nat) (e : HeadEntry) : Nat :=
  if h.display.ce8Heads.contains k then 8 else e.engine

/-- CMP.ENGINE_STATUS.HEADS and ACTIVE: how many heads each engine serves. Log entry 212 (DEDUCED). -/
def HostSide.showEngines (h : HostSide) : HostSide :=
  (List.range 9).foldl (fun h g =>
    let n := ((List.range 48).filter (fun k => match (h.head k).time with
      | some t => h.engineOf k t.entry == g
      | none => false)).length
    (h.put (Reg.CMP_ENGINE_STATUS_HEADS g) n).putB (Reg.CMP_ENGINE_STATUS_ACTIVE g) (n != 0)) h

/-- RPR.STATUS of the spare engine. Log entry 84 (DEDUCED). -/
def HostSide.showSpareEngine (h : HostSide) : HostSide :=
  (((h.putB Reg.RPR_STATUS_CE_SPARE_OK (!h.flag (Reg.CMP_ENGINE_STATUS_FAULTED 8))).put Reg.RPR_STATUS_CE_REPLACES
    (h.display.ce8For.getD 15)).putB (Reg.CMP_ENGINE_STATUS_SPARE 8)
      (h.display.ce8For.isNone && !h.flag (Reg.CMP_ENGINE_STATUS_FAULTED 8)))

/-- An engine is marked faulted; CE8 takes it over where AUTO_ENGINE is 1 and CE8 is free and sound (R385, R386).
Log entries 84 (DEDUCED), 212 (DEDUCED). -/
def HostSide.markEngine (h : HostSide) (g : Nat) : HostSide :=
  if h.flag (Reg.CMP_ENGINE_STATUS_FAULTED g) then h
  else
    let h := h.put (Reg.CMP_ENGINE_STATUS_FAULTED g) 1
    let take := g != 8 && h.twinBody.autoEngine == 1 && !h.flag (Reg.CMP_ENGINE_STATUS_FAULTED 8) && h.display.ce8For.isNone
    let h := if take then { h with display := { h.display with ce8For := some g } } else h
    h.showSpareEngine

/-- At the beginning of a frame's slice 0, CE8 takes over a head of the engine that it replaces (R386).
Log entry 212 (DEDUCED). -/
def HostSide.takeOver (h : HostSide) (k : Nat) (e : HeadEntry) : HostSide :=
  if h.display.ce8For = some e.engine ∧ !h.display.ce8Heads.contains k then
    ({ h with display := { h.display with ce8Heads := k :: h.display.ce8Heads } }).showEngines
  else h

/-! ## Composition (R157, R158, R150) -/

/-- The latched frame that slice `s` belongs to when it begins composition next, and whether every slice passed over is
past its T_emit. -/
def HostSide.nextSlice (h : HostSide) (k s : Nat) : Option (Plan × Bool) :=
  let v := h.head k
  let cur := v.planFrom v.compNo
  match cur with
  | none => none
  | some p =>
    let pos := if p.no = v.compNo then v.compSlice else 0
    let late (q : Plan) (i : Nat) : Bool := dtReached h.now (q.emit i)
    if pos ≤ s then
      if s < p.time.entry.slices then some (p, s == pos || late p (s - 1)) else none
    else
      match v.planFrom (p.no + 1) with
      | some q =>
        if s < q.time.entry.slices then
          some (q, if s = 0 then pos == p.time.entry.slices || late p (p.time.entry.slices - 1) else late q (s - 1))
        else none
      | none => none

/-- The T_emit of the slice of a head that is due for composition and has not begun, where there is one. -/
def HostSide.dueEmit (h : HostSide) (k : Nat) : Option DT :=
  let v := h.head k
  match v.planFrom v.compNo with
  | none => none
  | some p =>
    let pos := if p.no = v.compNo then v.compSlice else 0
    let (q, s) := if pos < p.time.entry.slices then (some p, pos) else (v.planFrom (p.no + 1), 0)
    match q with
    | some q => if dtReached h.now (q.composeAt s) && !dtReached h.now (q.emit s) then some (q.emit s) else none
    | none => none

/-- No other head of the engine has a due slice of earlier T_emit, the lower head number first when two are equal
(R157). -/
def HostSide.firstInOrder (h : HostSide) (k : Nat) (emit : DT) (engine : Nat) : Bool :=
  (List.range 48).all (fun j =>
    j == k || (match (h.head j).time with
      | some t => h.engineOf j t.entry != engine
      | none => true) ||
      (match h.dueEmit j with
        | some e => decide (0 < dtDiff e emit) || (dtDiff e emit == 0 && decide (k < j))
        | none => true))

/-- Adds or extends the scan-out holds of a slice (R150). -/
def addHolds (no s : Nat) (hs : List Hold) (bufs : List Buf) : List Hold :=
  bufs.foldl (fun hs b =>
    if hs.any (fun x => x.no == no && x.buf == b) then
      hs.map (fun x => if x.no == no && x.buf == b then { x with last := s } else x)
    else ⟨no, b, s⟩ :: hs) hs

/-- A slice that has not begun composition would read the buffer. -/
def HostSide.wouldRead (h : HostSide) (p : Plan) (s : Nat) (b : Buf) : Bool :=
  let rec go : List PlanLayer → Bool
    | [] => false
    | l :: above =>
      ((h.sourceOf l.entry l.words).buf == some b && !(fetchedCols p.time.entry s above l).isEmpty &&
        !(sliceRows p.time.entry s l).isEmpty) || go above
  go p.stack

/-- Ends the holds of slices that have left: a hold stays while a composed slice that reads the buffer has not left, or
a slice still to be composed would read it (R150). -/
def HostSide.dropHolds (h : HostSide) (k : Nat) : HostSide :=
  let v := h.head k
  let stays (x : Hold) : Bool :=
    if x.no < v.doneNo then false
    else if v.doneNo < x.no then true
    else decide (v.doneSlice ≤ x.last) ||
      (match v.plan x.no with
        | some p => (List.range p.time.entry.slices).any (fun s =>
            (decide (v.compNo < x.no) || (v.compNo == x.no && decide (v.compSlice ≤ s))) && h.wouldRead p s x.buf)
        | none => false)
  (h.setHead k { v with holds := v.holds.filter stays }).settle

/-- The slices that an engine composes for a head begin to fill their staging slots, which need to be free (R198). -/
def HeadState.fill (v : HeadState) (engine : Nat) : Option HeadState :=
  let mine := v.composing.filter (fun r => r.engine == engine)
  if mine.isEmpty then some v
  else if v.filling.length + mine.length + v.handed.length ≤ 2 then
    some { v with composing := v.composing.filter (fun r => r.engine != engine), filling := v.filling ++ mine }
  else none

/-- The engine finishes its previous slice: it blends it into a staging slot of its head. Log entry 237 (DEDUCED). -/
def HostSide.finishSlices (h : HostSide) (engine : Nat) : Option HostSide :=
  (List.range 48).foldl (fun o j => o.bind (fun h => ((h.head j).fill engine).map (fun v => h.setHead j v))) (some h)

/-- The slot of a slice in its head's ring. -/
def ringSlotOf (p : Plan) (s : Nat) : Nat := (p.frame * p.time.entry.slices + s) % 16

/-- Composition of slice `s` of a head begins, once the engine has finished its previous slice (R157, R158); the trailer of
its ring slot is marked invalid (R164). Log entries 41 (DEDUCED), 237 (DEDUCED). -/
def HostSide.composeStart (h : HostSide) (k s : Nat) (facts : ComposeFacts) : HostSide :=
  match h.nextSlice k s with
  | none => h
  | some (p, inOrder) =>
    let h1 := if s = 0 then h.takeOver k p.time.entry else h
    let engine := h1.engineOf k p.time.entry
    if !inOrder || !dtReached h.now (p.composeAt s) || dtReached h.now (p.emit s) ||
        h1.flag (Reg.CMP_ENGINE_STATUS_FAULTED engine) || !h1.firstInOrder k (p.emit s) engine then h
    else match h1.finishSlices engine with
    | none => h
    | some h1 =>
      let h := if s = 0 then h1.decideMark k p.no else h1
      let h := h.writeTrailer k p.time.entry.hActive (ringSlotOf p s) none
      let ts := h.takeAll p s facts p.stack
      let r := h.composeSlice engine p s ts
      let v := h.head k
      let h := h.setHead k { v with
        compNo := p.no
        compSlice := s + 1
        composing := v.composing ++ [r]
        holds := addHolds p.no s v.holds r.bufs }
      (h.noteErrors engine ts).dropHolds k

/-! ## Handover and the slice ring (R164, R198) -/

/-- Worst state and presence mask of regions (R47). -/
def regionsWorst (rs : List RegionRec) : Nat := worst (rs.map (·.state))
def regionsMask (rs : List RegionRec) : Nat := rs.foldl (fun m r => setBit m r.state) 0

/-- A slice counts as missed. -/
def HeadState.isMissed (v : HeadState) (no s : Nat) : Bool := v.missed.contains (no, s)

/-- A finished slice is written to its slot of the ring: the pixels, then the trailer (R164). -/
def HostSide.writeSlot (h : HostSide) (k : Nat) (p : Plan) (r : SliceRec) : HostSide :=
  let w := p.time.entry.hActive
  let slot := ringSlotOf p r.slice
  let h := match h.ringCa k w slot with
    | none => h
    | some ca => (List.range (cdiv r.drawn.length 4)).foldl (fun h ty => (List.range (cdiv w 8)).foldl (fun h tx =>
        h.codeTile 2 2 (ringTileCa w ca tx ty) 64 (ringTile r.drawn tx ty)) h) h
  h.writeTrailer k w slot (some ⟨r.frame, r.slice, regionsWorst r.regions, regionsMask r.regions,
    combine (r.regions.map (·.tag))⟩)

/-- A head without its oldest slice that is not handed over, and that slice. -/
def HeadState.oldest (v : HeadState) : Option (SliceRec × HeadState) :=
  match v.filling, v.composing with
  | r :: rest, _ => some (r, { v with filling := rest })
  | [], r :: rest => some (r, { v with composing := rest })
  | [], [] => none

/-- The oldest slice of a head that is not handed over is written to its ring and handed over, from its staging slot; after
its deadline it is discarded and the slot falls free (R164, R198, R199). -/
def HostSide.handover (h : HostSide) (k : Nat) : HostSide :=
  let v := h.head k
  match v.oldest with
  | none => h
  | some (r, rest) =>
    match v.plan r.no with
    | none => h.setHead k rest
    | some p =>
      if v.isMissed r.no r.slice || decide (-16 < dtDiff h.now (p.emit r.slice)) then h.setHead k rest
      else if 2 ≤ rest.filling.length + rest.handed.length then h
      else (h.writeSlot k p r).setHead k { rest with handed := rest.handed ++ [r] }

/-- Two slices of heads of an engine have missed within one frame period of one of those heads (R385). -/
def HostSide.engineMisses (h : HostSide) (engine : Nat) : Bool :=
  let mine := (List.range 48).filter (fun k => match (h.head k).time with
    | some t => h.engineOf k t.entry == engine
    | none => false)
  let all := mine.flatMap (fun k => (h.head k).missAt)
  let period := mine.foldl (fun m k => match (h.head k).time with
    | some t => max m t.entry.periodNs
    | none => m) 0
  decide (2 ≤ (all.filter (fun t => decide (dtDiff h.now t < (period : Int)))).length)

/-- A slice is not handed over in time: it is sent as the fault pattern (R199). -/
def HostSide.missSlice (h : HostSide) (k : Nat) (p : Plan) (s : Nat) : HostSide :=
  let v := h.head k
  if v.isMissed p.no s || v.handed.any (fun r => r.no == p.no && r.slice == s) then h
  else
    let h := h.setHead k { v with missed := ((p.no, s) :: v.missed).take 256, missAt := (h.now :: v.missAt).take 2 }
    let h := (h.bump (Reg.HDS_COUNTS_FAULT_SLICES k)).put (Reg.HDS_STATUS_FAULT_SEEN k) 1
    let h := if v.faultLogged = p.no then h
      else (h.setHead k { h.head k with faultLogged := p.no }).log 5 2 k p.f
    let g := h.engineOf k p.time.entry
    if h.engineMisses g then h.markEngine g else h

/-- The deadline of a slice's handover passes (R198, R199). -/
def HostSide.deadlineMiss (h : HostSide) (k frame s : Nat) : HostSide :=
  match (h.head k).plans.find? (fun p => p.f == frame % 2 ^ 32 && decide ((h.head k).doneNo ≤ p.no)) with
  | some p =>
    if s < p.time.entry.slices && decide (-16 < dtDiff h.now (p.emit s)) then h.missSlice k p s else h
  | none => h

/-! ## Summaries (R47, R52, R199) -/

/-- The regions that a fault-pattern slice counts: one of state FAULT for every enabled layer whose rectangle meets its
lines (R199). -/
def faultRegions (p : Plan) (s : Nat) : List Nat :=
  (p.layers.filter (fun l => descEnable l.words && !(sliceRows p.time.entry s l).isEmpty &&
    (let (x0, _, x1, _) := l.rect p.time.entry; decide (x0 < x1)))).map (·.entry.layer)

/-- Adds a slice to its frame's summary: states present, the layers' states, the class of their last region. -/
def FrameAcc.add (a : FrameAcc) (w : Nat) (regions : List (Nat × Nat)) (classes : List (Nat × Nat)) (states : List Nat) :
    FrameAcc :=
  { a with
    states := a.states ++ states
    nonlive := a.nonlive + b2n (w != 0)
    layers := regions.foldl (fun t x => tset t x.1 ((tget [] t x.1) ++ [x.2])) a.layers
    classes := classes.foldl (fun t x => tset t x.1 x.2) a.classes }

/-- The sticky bits of a slice's states (Table 02.7). -/
def HostSide.stick (h : HostSide) (k : Nat) (states : List Nat) : HostSide :=
  let one (h : HostSide) (c : Nat) (f : Fld) : HostSide := if states.contains c then h.put f 1 else h
  one (one (one (one (one h 1 (Reg.FRS_HEAD_STICKY_SEEN_STALE k)) 2 (Reg.FRS_HEAD_STICKY_SEEN_FROZEN k)) 3
    (Reg.FRS_HEAD_STICKY_SEEN_CONCEALED k)) 4 (Reg.FRS_HEAD_STICKY_SEEN_UNPROVEN k)) 5 (Reg.FRS_HEAD_STICKY_SEEN_FAULT k)

/-- The summary of a frame is written, with its layers' states; a layer whose WORST has changed logs event 0x01 (R52,
R54). -/
def HostSide.summarise (h : HostSide) (k : Nat) (p : Plan) (a : FrameAcc) : HostSide :=
  let h := (((h.put (Reg.FRS_HEAD_SUMMARY_WORST k) (worst a.states)).put (Reg.FRS_HEAD_SUMMARY_PRESENT k)
    (a.states.foldl setBit 0)).put (Reg.FRS_HEAD_SUMMARY_NONLIVE_SLICES k) a.nonlive).put
      (Reg.FRS_HEAD_SUMMARY_FRAME_LSB k) p.f
  (h.layersOf k).foldl (fun h e =>
    let l := e.layer
    let sts := tget [] a.layers l
    let old := h.get (Reg.FRS_LAYER_STATE_WORST l)
    let new := worst sts
    let h := (h.put (Reg.FRS_LAYER_STATE_WORST l) new).putB (Reg.FRS_LAYER_STATE_VISIBLE l) (!sts.isEmpty)
    let h := match tget 4 a.classes l with
      | 4 => h
      | c => if c < 3 then h.put (Reg.FRS_LAYER_STATE_CLASS l) c else h
    if old = new then h else h.frsEvent { code := 1, frame := p.f, layer := l, head := k, oldState := old, newState := new })
    h

/-- The scheduled emission time of a slice: its freshness is reported, and after the last slice the frame's (R52). -/
def HostSide.emitSlice (h : HostSide) (k : Nat) (p : Plan) (s : Nat) : HostSide :=
  let h := if (h.head k).handed.any (fun r => r.no == p.no && r.slice == s) then h else h.missSlice k p s
  let a := tget FrameAcc.empty h.fresh.acc k
  let a := if s = 0 ∨ a.frame ≠ p.f then { FrameAcc.empty with frame := p.f } else a
  let (a, sts) := match (h.head k).handed.find? (fun r => r.no == p.no && r.slice == s) with
    | some r =>
      let sts := r.regions.map (·.state)
      (a.add (worst sts) (r.regions.map (fun x => (x.layer, x.state))) (r.regions.map (fun x => (x.layer, x.cls))) sts, sts)
    | none =>
      let ls := faultRegions p s
      -- class code 3 stands for a last region in a fault-pattern slice
      (a.add 5 (ls.map (fun l => (l, 5))) (ls.map (fun l => (l, 3))) [5], [5])
  let h := { h with fresh := { h.fresh with acc := tset h.fresh.acc k a } }
  let h := h.stick k sts
  if s + 1 = p.time.entry.slices then h.summarise k p a else h

/-! ## Packets (R192 to R197) -/

/-- Payload bytes of packed RGB 10:10:10 pixels (R195). -/
def payloadOf (format : Nat) (px : List Nat) : List Byte :=
  if format = 1 then
    let c8 (c : Nat) : Byte := BitVec.ofNat 8 (min 255 ((c + 2) / 4))
    px.flatMap (fun v => [c8 (bits v 20 10), c8 (bits v 10 10), c8 (bits v 0 10)])
  else pack px
where
  /-- Four pixels of 30 bits make 15 bytes, from bit 7 downward. -/
  pack : List Nat → List Byte
    | a :: b :: c :: d :: t =>
      beBytes (((bits a 0 30 * 2 ^ 30 + bits b 0 30) * 2 ^ 30 + bits c 0 30) * 2 ^ 30 + bits d 0 30) 15 ++ pack t
    | _ => []

/-- A pixel of the fault pattern: the check of FAULT at full coverage, with the ticker over it (R199). -/
def faultPixel (p : Plan) (x y : Nat) : Nat :=
  let e := p.time.entry
  match ticker e p.f x y with
  | some c => c
  | none =>
    match p.look.entries[4]? with
    | some g => if colourACell (cellSize e.cell) x y then g.colourA else g.colourB
    | none => 0

/-- The head-slice header (Table 08.4). -/
def sliceHeader (k : Nat) (p : Plan) (fault : Bool) (w mask pkt : Nat) (payload : List Byte) : List Byte :=
  let e := p.time.entry
  let line := pkt / 2
  let half := pkt % 2
  let mark := p.mark.getD 0
  let aux := if mark = 0 then (vtOf (p.emit (line / 32))).toNat else p.aux
  [BitVec.ofNat 8 0x10, BitVec.ofNat 8 (e.format * 128 + b2n fault * 64 + k)] ++
    beBytes (w * 2 ^ 13 + mask * 2 ^ 7 + b2n (pkt + 1 == e.packets) * 64 + half * 32 + mark * 8) 2 ++
    beBytes p.f 4 ++ beBytes line 2 ++ beBytes (line / 32) 1 ++ beBytes (p.f % 256) 1 ++
    beBytes (half * (e.hActive / 2)) 2 ++ beBytes (e.hActive / 2) 2 ++ beBytes e.hActive 2 ++ beBytes e.vActive 2 ++
    beBytes (vtOf p.time.epoch).toNat 4 ++ beBytes aux 4 ++ beBytes (crc32c payload).toNat 4

/-- An Ethernet frame with its FCS: the CRC-32 of IEEE 802.3 over the frame, its low byte first on the wire.
Log entry 245 (PRESUMED). -/
def withFcs (b : List Byte) : List Byte := b ++ leBytes (crc32 b).toNat 4

/-- Packet `pkt` of a frame (Table 08.3). -/
def HostSide.packetBytes (h : HostSide) (k : Nat) (p : Plan) (pkt : Nat) : List Byte :=
  let e := p.time.entry
  let line := pkt / 2
  let x0 := pkt % 2 * (e.hActive / 2)
  let cols := (List.range (e.hActive / 2)).map (· + x0)
  let (fault, w, mask, px) := match (h.head k).handed.find? (fun r => r.no == p.no && r.slice == line / 32) with
    | some r => (false, regionsWorst r.regions, regionsMask r.regions,
        slicePart (r.pixels.getD (line % 32) []) x0 (e.hActive / 2))
    | none => (true, 5, 32, cols.map (fun x => faultPixel p x line))
  let payload := payloadOf e.format px
  let src := h.get Reg.HDS_SRC_MAC_HI_ADDR * 2 ^ 32 + h.get Reg.HDS_SRC_MAC_LO_ADDR
  withFcs (beBytes e.destMac 6 ++ beBytes src 6 ++ beBytes 0x8100 2 ++ beBytes (e.pcp * 2 ^ 13 + e.vid) 2 ++ beBytes 0xF1C1 2 ++
    beBytes 0 2 ++ beBytes ((p.frame * 2 * e.vActive + pkt) % 65536) 2 ++ beBytes 0x88B5 2 ++
    sliceHeader k p fault w mask pkt payload ++ payload)
where
  slicePart (r : List Nat) (o n : Nat) : List Nat := (r.drop o).take n

/-- The head's next packet begins to leave, at its instant or at most one block time of 2.56 ns before it; a packet whose
instant has passed begins no more (R196), by the corrected egress time of its preamble (12_time.md R283). The first packet of a first marker frame logs event 0x3 (R207).
Log entry 243 (DESIGN CHOICE). -/
def HostSide.emitPacket (h : HostSide) (k : Nat) : HostSide :=
  let v := h.head k
  match v.planFrom v.emitNo with
  | none => h
  | some p =>
    let pkt := if p.no = v.emitNo then v.emitPkt else 0
    let off := dtDiff (h.egressAt (k + 4)) (p.pkt pkt)
    if off < -2 then h
    else
      let h := if pkt % 64 = 0 then h.emitSlice k p (pkt / 64) else h
      let h := if 0 < off then h
        else
          let h := if pkt = 0 ∧ p.mark = some 2 then h.log 5 3 k p.f else h
          (h.send (.headFrame k (h.packetBytes k p pkt))).countWrap (Reg.HDS_PKTS_COUNT k)
      let last := pkt + 1 == p.time.entry.packets
      h.setHead k { h.head k with emitNo := if last then p.no + 1 else p.no, emitPkt := if last then 0 else pkt + 1 }

/-- The last packet of a slice has left: its staging slot falls free and the frame's holds follow (R150, R198). -/
def HostSide.emitComplete (h : HostSide) (k : Nat) : HostSide :=
  let v := h.head k
  match v.planFrom v.doneNo with
  | none => h
  | some p =>
    let s := if p.no = v.doneNo then v.doneSlice else 0
    let e := p.time.entry
    let last := s + 1 == e.slices
    let sent := decide (p.no < v.emitNo) || (v.emitNo == p.no && decide (min (64 * (s + 1)) e.packets ≤ v.emitPkt))
    if !sent then h
    else
      let h := h.setHead k { v with
        handed := v.handed.filter (fun r => !(r.no == p.no && r.slice == s))
        doneNo := if last then p.no + 1 else p.no
        doneSlice := if last then 0 else s + 1 }
      h.dropHolds k

end Sys2Proof.Machine
end

