-- ==== Sys2Proof/Machine/EncodeOps.lean ====
section
/-! DEFINITION. Encoding (09_encode.md R208 to R220): reading the slice ring, input buffers, the cores' queues, the bit
ceiling, rate control and output. The coded NAL units come with the command. -/

namespace Sys2Proof.Machine

/-! ## Readers of a slice ring (06_composition.md R164, R165) -/

/-- A reader takes slice `s` of a latched frame; a slot that does not hold it is lost to the reader and counted. -/
def HostSide.readSlot (h : HostSide) (k : Nat) (p : Plan) (s : Nat) : Option RingSlot × HostSide :=
  match tget none h.display.rings (16 * k + ringSlotOf p s) with
  | some r => if r.frame = p.f ∧ r.slice = s then (some r, h) else (none, h.bump (Reg.CMP_FANOUT_OVERRUN k))
  | none => (none, h.bump (Reg.CMP_FANOUT_OVERRUN k))

/-- The lines of packed pixels that a slice's ring slot holds. -/
def HostSide.slotRows (h : HostSide) (k : Nat) (p : Plan) (s : Nat) : List (List Nat) :=
  let (a, b) := p.time.entry.sliceLines s
  match h.ringCa k p.time.entry.hActive (ringSlotOf p s) with
  | some ca => h.ringRows ca p.time.entry.hActive (b - a)
  | none => []

/-! ## Contexts and cores -/

def HostSide.encEntry (h : HostSide) (x : Nat) : Option EncodeEntry :=
  h.cfg.encode.find? (fun e => e.context == x && e.enable == 1)
def HostSide.encCtx (h : HostSide) (x : Nat) : EncCtx := tget EncCtx.idle h.encode.ctxs x
def HostSide.encCore (h : HostSide) (c : Nat) : EncCore := tget EncCore.idle h.encode.cores c

/-- Sets a context with GO_PENDING and QP of CTX_STATUS. -/
def HostSide.setEncCtx (h : HostSide) (x : Nat) (v : EncCtx) : HostSide :=
  let h := { h with encode := { h.encode with ctxs := tput EncCtx.idle h.encode.ctxs x v } }
  (h.putB (Reg.ENC_CTX_STATUS_GO_PENDING x) v.accepted.isSome).put (Reg.ENC_CTX_STATUS_QP x) v.applied.qp

/-- Sets a core with CORE_STATUS. -/
def HostSide.setEncCore (h : HostSide) (c : Nat) (v : EncCore) : HostSide :=
  let h := { h with encode := { h.encode with cores := tput EncCore.idle h.encode.cores c v } }
  ((h.putB (Reg.ENC_CORE_STATUS_BUSY c) v.current.isSome).put (Reg.ENC_CORE_STATUS_CTX c)
    ((v.current.map (·.input.ctx)).getD 0)).put (Reg.ENC_CORE_STATUS_QUEUED c) (min 31 v.queue.length)

/-- The rectangle of a context's picture on its head: x, y, width, height (R209). -/
def HostSide.encRect (h : HostSide) (e : EncodeEntry) : Nat × Nat × Nat × Nat :=
  if e.layerSrc = 1 then
    match h.layerEntry e.layer with
    | some l => (l.envX0, l.envY0, l.envX1 - l.envX0, l.envY1 - l.envY0)
    | none => (0, 0, 0, 0)
  else match h.cfg.headEntry e.head with
    | some k => (0, 0, k.hActive, k.vActive)
    | none => (0, 0, 0, 0)

/-! ## Input buffers (R210) -/

/-- Exact luma, Cb and Cr of an RGB 10:10:10 pixel by the BT.709 limited-range matrix, times 1023 × 10000 for luma and
1023 × 10000 × 18556 or 15748 for chroma. Log entry 101 (DEDUCED). -/
def yuvOf (c : Nat) : Frac × Frac × Frac :=
  let r : Int := bits c 20 10
  let g : Int := bits c 10 10
  let b : Int := bits c 0 10
  let y : Int := 2126 * r + 7152 * g + 722 * b
  (⟨64 * 10230000 + 876 * y, 10230000⟩, ⟨512 * 1023 * 18556 + 896 * (10000 * b - y), 1023 * 18556⟩,
    ⟨512 * 1023 * 15748 + 896 * (10000 * r - y), 1023 * 15748⟩)

/-- A sample as the profile holds it. Log entry 101 (DEDUCED). -/
def encSample (main10 : Bool) (f : Frac) : Nat :=
  let v := (f.clamp10).round.toNat
  if main10 then v else min 255 ((v + 2) / 4)

/-- The Muslin tiles of an input buffer: 32 luma, 8 Cb and 8 Cr samples each, at 2:1, in raster order. -/
def inputTiles (main10 : Bool) (w hgt : Nat) (lines : List (List Nat)) : List (List Nat) :=
  let px (x y : Nat) : Frac × Frac × Frac := yuvOf ((lines.getD (min y (hgt - 1)) []).getD (min x (w - 1)) 0)
  let mean (p : Frac × Frac × Frac → Frac) (x y : Nat) : Frac :=
    let s := ((p (px (2 * x) (2 * y))).add (p (px (2 * x + 1) (2 * y)))).add
      ((p (px (2 * x) (2 * y + 1))).add (p (px (2 * x + 1) (2 * y + 1))))
    ⟨s.num, s.den * 4⟩
  let tile (tx ty : Nat) : List Nat :=
    muslinPass (if main10 then 4 else 3) 2
      ((List.range 32).map (fun i => encSample main10 (px (8 * tx + i % 8) (4 * ty + i / 8)).1) ++
       (List.range 8).map (fun i => encSample main10 (mean (·.2.1) (4 * tx + i % 4) (2 * ty + i / 4))) ++
       (List.range 8).map (fun i => encSample main10 (mean (·.2.2) (4 * tx + i % 4) (2 * ty + i / 4))))
  (List.range (cdiv hgt 4)).flatMap (fun ty => (List.range (cdiv w 8)).map (fun tx => tile tx ty))

/-- Order of completion, the lower context first in one cycle (R211). Log entry 100 (DEDUCED). -/
def queueFrame (f : EncFrame) : List EncFrame → List EncFrame
  | [] => [f]
  | q :: t => if f.at_ = q.at_ ∧ f.ctx < q.ctx then f :: q :: t else q :: queueFrame f t

/-- A frame's input is complete. -/
def HostSide.inputComplete (h : HostSide) (x : Nat) (e : EncodeEntry) (i : EncInput) : HostSide :=
  let (x0, y0, w, hgt) := h.encRect e
  let lines := ((i.lines.drop y0).take hgt).map (fun r => (r.drop x0).take w)
  let f : EncFrame := ⟨x, i.frame, i.start, combine i.tags, i.worst, inputTiles (e.main10 == 1) w hgt lines, h.tb.raw.toNat⟩
  let c := h.encCore e.core
  (h.setEncCtx x { h.encCtx x with reading := none }).setEncCore e.core { c with queue := queueFrame f c.queue }

/-- Reads a slice into a frame in reading; a lost slice loses the frame. -/
def HostSide.readInto (h : HostSide) (x : Nat) (e : EncodeEntry) (p : Plan) (i : EncInput) : HostSide :=
  let (slot, h) := h.readSlot e.head p i.next
  let v := h.encCtx x
  match slot with
  | none => (h.setEncCtx x { v with reading := none, buffers := v.buffers - 1 }).bump (Reg.ENC_COUNTS_INPUT_LOST x)
  | some r =>
    let i := { i with
      next := i.next + 1
      tags := i.tags ++ [r.tag]
      worst := worse i.worst r.worst
      lines := i.lines ++ h.slotRows e.head p r.slice }
    if i.next = p.time.entry.slices then h.inputComplete x e i else h.setEncCtx x { v with reading := some i }

/-- A context reads a slice of its head's ring (R210): slice 0 of a frame that it codes takes an input buffer.
Log entry 100 (DEDUCED). -/
def HostSide.encRead (h : HostSide) (x s : Nat) : HostSide :=
  match h.encEntry x with
  | none => h
  | some e =>
    if h.flag (Reg.ENC_CORE_STATUS_FAULTED e.core) ∨ (h.head e.head).time.isNone then h
    else
      let v := h.encCtx x
      let hd := h.head e.head
      match v.reading with
      | some i => if s = i.next then (match hd.plan i.no with
          | some p => h.readInto x e p i
          | none => (h.setEncCtx x { v with reading := none, buffers := v.buffers - 1 }).bump (Reg.ENC_COUNTS_INPUT_LOST x)) else h
      | none =>
        match hd.plan hd.started with
        | some p =>
          if s = 0 ∧ p.frame % e.div = 0 ∧ v.last < p.no then
            let v := { v with last := p.no }
            if v.buffers < 3 then
              let h := h.setEncCtx x { v with buffers := v.buffers + 1 }
              h.readInto x e p ⟨p.f, p.start, p.no, 0, [], 0, []⟩
            else (h.setEncCtx x v).bump (Reg.ENC_COUNTS_INPUT_SKIP x)
          else h
        | none => h

/-! ## Rate control (R213, R214, R216, R217) -/

/-- CTU rows and CTUs of a row. -/
def ctuGrid (w hgt : Nat) : Nat × Nat := (cdiv hgt 64, cdiv w 64)

/-- FLOOR (R213). -/
def encFloor (w hgt : Nat) : Nat := let (r, c) := ctuGrid w hgt; 2048 + r * (256 + c * 96)

/-- A GO write (R216). -/
def HostSide.submitSet (h : HostSide) (x : Nat) (idr : Bool) : HostSide :=
  match h.encEntry x with
  | none => h.put (Reg.ENC_CTX_STATUS_RC_REFUSED x) 1
  | some e =>
    let (_, _, w, hgt) := h.encRect e
    let qp := h.get (Reg.ENC_RC_CTRL_QP x)
    let ceil := h.get (Reg.ENC_RC_CEIL_BITS x)
    let target := h.get (Reg.ENC_RC_TARGET_BITS x)
    if e.qpMin ≤ qp ∧ qp ≤ e.qpMax ∧ encFloor w hgt ≤ ceil ∧ ceil ≤ e.maxFrameBits ∧ target ≤ ceil then
      let v := h.encCtx x
      let raw := h.tb.raw.toNat
      let earlier := match v.accepted with
        | some (a, at_) => if at_ = raw then v.earlier else some a
        | none => v.earlier
      h.setEncCtx x { v with accepted := some (⟨qp, ceil, target, idr⟩, raw), earlier := earlier }
    else h.put (Reg.ENC_CTX_STATUS_RC_REFUSED x) 1

/-- The set that a frame started now applies, and the sets that await the next one: the newest accepted set of an earlier
cycle, else the applied one (R216). -/
def EncCtx.nextSet (v : EncCtx) (raw : Nat) : RcSet × EncCtx :=
  let same := { v.applied with idr := false }
  match v.accepted with
  | some (a, at_) =>
    if at_ = raw then
      let set := v.earlier.getD same
      (set, { v with applied := set, earlier := none })
    else (a, { v with applied := a, accepted := none, earlier := none })
  | none => (same, { v with applied := same })

/-- A core starts its oldest frame: the newest accepted set applies, unless its GO came in this cycle (R211, R212,
R216). -/
def HostSide.encStart (h : HostSide) (c : Nat) : HostSide :=
  let k := h.encCore c
  match k.current, k.queue with
  | none, f :: rest =>
    match h.encEntry f.ctx with
    | none => h.setEncCore c { k with queue := rest }
    | some e =>
      let v := h.encCtx f.ctx
      let (set, next) := v.nextSet h.tb.raw.toNat
      let idr := set.idr || v.dropped || (match v.sinceIdr with
        | some n => decide (e.gopLen ≤ n)
        | none => true)
      (h.setEncCtx f.ctx next).setEncCore c ⟨rest, some ⟨f, idr, set⟩⟩
  | _, _ => h

/-- The state of R214 within a frame: bits used, the row of the tail once it has begun, and by row, newest first, its QP
and the bits used at its end. -/
structure BitRun where
  used : Nat
  tail : Option Nat
  qps  : List Nat
  ends : List Nat
  deriving DecidableEq, Repr

/-- The CTUs of row `r` from CTU `j` (R214): `reserve` is what the later rows must keep. -/
def runCtus (ceil m cols reserve r : Nat) : Nat → List (Nat × Nat) → BitRun → BitRun
  | _, [], b => b
  | j, (c, low) :: t, b =>
    let b := match b.tail with
      | some _ => { b with used := b.used + low }
      | none =>
        if b.used + c + (cols - j - 1) * m + reserve ≤ ceil then { b with used := b.used + c }
        else { b with used := b.used + low, tail := some r }
    runCtus ceil m cols reserve r (j + 1) t b

/-- QP of a row that starts with `used` bits (R217). Log entry 102 (DEDUCED). -/
def rowQp (adapt : Bool) (set : RcSet) (rows r used : Nat) : Nat :=
  let p := set.target / rows
  if adapt ∧ 1 ≤ r ∧ p ≠ 0 ∧ r * p < used then min 51 (set.qp + min 6 (4 * (used - r * p) / p)) else set.qp

/-- The rows of a frame from row `r`. Log entry 102 (DEDUCED). -/
def runRows (adapt : Bool) (set : RcSet) (m rows cols : Nat) : Nat → List EncRow → BitRun → BitRun
  | _, [], b => b
  | r, x :: t, b =>
    let b := { b with qps := rowQp adapt set rows r b.used :: b.qps, used := b.used + x.overhead }
    let b := runCtus set.ceil m cols ((rows - r - 1) * (256 + cols * m)) r 0 x.ctus b
    runRows adapt set m rows cols (r + 1) t { b with ends := b.used :: b.ends }

/-- The bytes of a NAL unit without its emulation prevention bytes; `zeros` counts the zero bytes just passed.
Log entry 247 (PRESUMED). -/
def unescape : Nat → List Byte → List Byte
  | _, [] => []
  | zeros, b :: t =>
    if 2 ≤ zeros ∧ b = 3 then unescape 0 t else b :: unescape (if b = 0 then zeros + 1 else 0) t

/-- Type of a NAL unit of HEVC. Log entry 247 (PRESUMED). -/
def nalType (b : List Byte) : Nat := bits (beNat (b.take 1)) 1 6

/-- Parameter sets of R212: VPS, SPS and PPS, the SPS of the context's profile, Main tier and general_level_idc 153; the rest of
their content is the encoder's. Log entry 247 (PRESUMED). -/
def paramSetsOk (main10 : Bool) (ps : List (List Byte)) : Bool :=
  ps.map nalType == [32, 33, 34] &&
    (let sps := (unescape 0 ((ps.getD 1 []).drop 2)).map (·.toNat)
     bits (sps.getD 1 0) 0 5 == (if main10 then 2 else 1) && !bit (sps.getD 1 0) 5 && sps.getD 12 0 == 153)

/-- A slice of a frame: its type, and the flag of the first slice of a picture in the first row alone.
Log entry 247 (PRESUMED). -/
def sliceNalOk (idr : Bool) (r : Nat) (b : List Byte) : Bool :=
  (if idr then nalType b == 19 || nalType b == 20 else decide (nalType b ≤ 1)) &&
    bit ((b.getD 2 0).toNat) 7 == (r == 0)

/-- The bits of a frame (R213, R214): those of its parameter sets, then its rows. -/
def EncodeFacts.run (f : EncodeFacts) (adapt : Bool) (set : RcSet) (idr : Bool) (rows cols : Nat) : BitRun :=
  let params := if idr then (f.nals.take 3).foldl (fun n b => n + 8 * b.length) 0 else 0
  runRows adapt set (if idr then 96 else 16) rows cols 0 f.rows ⟨params, none, [], []⟩

/-- What an encoder can answer for a frame of `rows` rows of `cols` CTUs: the minimum costs that R213 guarantees, parameter sets
before every IDR picture and one slice for each row (R212), whose NAL units have the bits that R214 counts, within CEIL.
Log entries 14 (DESIGN CHOICE), 247 (PRESUMED). -/
def EncodeFacts.sound (f : EncodeFacts) (main10 : Bool) (b : BitRun) (ceil : Nat) (idr : Bool) (rows cols : Nat) : Bool :=
  let m := if idr then 96 else 16
  let ps := if idr then f.nals.take 3 else []
  let slices := if idr then f.nals.drop 3 else f.nals
  let params : Nat := ps.foldl (fun (n : Nat) (b : List Byte) => n + 8 * b.length) 0
  f.rows.length == rows && slices.length == rows && decide (params ≤ 2048) && (!idr || paramSetsOk main10 ps) &&
    f.rows.all (fun r => decide (r.overhead ≤ 256) && r.ctus.length == cols && r.ctus.all (fun c => decide (c.2 ≤ m))) &&
    (slices.zipIdx).all (fun x => sliceNalOk idr x.2 x.1) &&
    slices.map (fun n => 8 * n.length) == (b.ends.reverse.zip (params :: b.ends.reverse)).map (fun x => x.1 - x.2) &&
    decide (b.used ≤ ceil)

/-! ## Output (R218, R219) -/

/-- RTP packets of a frame: `seq`, then marker, extension and payload of each. Log entry 105 (DESIGN CHOICE). -/
def rtpPackets (e : EncodeEntry) (ts : Nat) : Nat → List (Bool × List Byte × List Byte) → List (List Byte)
  | _, [] => []
  | seq, (marker, ext, payload) :: t =>
    (beBytes (0x80 + (if ext.isEmpty then 0 else 0x10)) 1 ++ beBytes (128 * b2n marker + e.pt) 1 ++ beBytes seq 2 ++
      beBytes ts 4 ++ beBytes e.ssrc 4 ++ ext ++ payload) :: rtpPackets e ts ((seq + 1) % 65536) t

/-- The fragments of a NAL unit too long for one packet (RFC 7798 type 49); `n` bounds the walk. -/
def fragments (size : Nat) (hdr : Nat) : Nat → Bool → List Byte → List (List Byte)
  | 0, _, _ => []
  | n + 1, first, b =>
    let part := b.take size
    let rest := b.drop size
    let type := bits hdr 9 6
    let fuHdr := (hdr - hdr / 512 % 64 * 512) + 49 * 512
    (beBytes fuHdr 2 ++ beBytes (128 * b2n first + 64 * b2n rest.isEmpty + type) 1 ++ part) ::
      (if rest.isEmpty then [] else fragments size hdr n false rest)

/-- The RFC 6051 element of a DT less TS_OFFSET, as a header extension: the least fraction that reads back to the same
ns. Log entry 106 (DEDUCED). -/
def ntpExt (id : Nat) (t : Nat) : List Byte :=
  let x := t % 2 ^ 64
  beBytes 0xBEDE 2 ++ beBytes 3 2 ++ beBytes (16 * id + 7) 1 ++ beBytes (x / 1000000000) 4 ++
    beBytes (cdiv (x % 1000000000 * 2 ^ 32) 1000000000) 4 ++ [0, 0, 0]

/-- Payloads of a frame's packets. The first packet's room leaves space for the extension. Log entry 103 (DEDUCED). -/
def framePayloads (room : Nat) (ext : Nat) (nals : List (List Byte)) : List (List Byte) :=
  (nals.zipIdx).flatMap (fun x =>
    let room := room - (if x.2 = 0 then ext else 0)
    if x.1.length ≤ room then [x.1]
    else fragments (room - 3) (beNat (x.1.take 2)) x.1.length true (x.1.drop 2))

/-- Sends a frame over RTP. Log entry 105 (DESIGN CHOICE). -/
def HostSide.sendRtp (h : HostSide) (e : EncodeEntry) (f : EncFrame) (ts : Nat) (nals : List (List Byte)) : HostSide :=
  let v := h.encCtx f.ctx
  let ext := if e.extIdNtp = 0 then [] else
    ntpExt e.extIdNtp (f.start - BitVec.ofNat 64 h.video.tsOffset).toNat
  let room := e.mtu - (if e.ipv6 = 1 then 40 else 20) - 8 - 12
  let ps := framePayloads room ext.length nals
  let packets := rtpPackets e ts v.rtpSeq ((ps.zipIdx).map (fun x =>
    (x.2 + 1 == ps.length, if x.2 = 0 then ext else [], x.1)))
  let h := packets.foldl (fun h b => h.send (.rtp e.port e.addr e.udpPort b)) h
  h.setEncCtx f.ctx { v with rtpSeq := (v.rtpSeq + ps.length) % 65536 }

/-- The Annex B byte stream; which of the start codes other than the first are long is open (log entry 1).
Log entry 105 (DESIGN CHOICE). -/
def annexB (choice : Nat) (nals : List (List Byte)) : List Byte :=
  (nals.zipIdx).flatMap (fun x =>
    let type := bits (beNat (x.1.take 1)) 1 6
    (if x.2 = 0 ∨ (32 ≤ type ∧ type ≤ 34) ∨ bit choice x.2 then [0, 0, 0, 1] else [0, 0, 1]) ++ x.1)

/-- The frame record of Table 09.2. Log entry 104 (DEDUCED). -/
def frameRecord (len frame flags ts : Nat) (vt : VT) (tailRow : Nat) : List Byte :=
  leBytes len 4 ++ leBytes frame 4 ++ leBytes vt.toNat 4 ++ leBytes flags 4 ++ leBytes ts 4 ++ leBytes tailRow 2 ++
    leBytes 0 10

/-- Where a record of `total` bytes goes in a ring and the offset after it; none where it does not fit (R219). -/
def ringPlace (ring wr rd total : Nat) : Option (Nat × Nat) :=
  let used := (wr + ring - rd % ring) % ring
  if wr + total ≤ ring then (if used + total < ring then some (wr, (wr + total) % ring) else none)
  else if used + (ring - wr) + total < ring then some (0, total) else none

/-- Writes a frame into the context's ring; answers whether it fitted. -/
def HostSide.writeRing (h : HostSide) (e : EncodeEntry) (f : EncFrame) (tag : Tag) (idr : Bool) (tail : Option Nat)
    (ts : Nat) (nals : List (List Byte)) : HostSide × Bool :=
  let x := f.ctx
  let (choice, h) := h.free (2 ^ nals.length)
  let stream := annexB choice nals
  let pad := cdiv stream.length 32 * 32
  let flags := b2n idr + 2 * b2n tail.isSome + 4 * b2n tag.ancient + 8 * b2n tag.concealed + 16 * b2n tag.fault +
    32 * tag.cls + 128 * f.worst
  let bytes := frameRecord stream.length f.frame flags ts tag.vt (tail.getD 0xFFFF) ++ stream ++
    List.replicate (pad - stream.length) 0
  let wr := h.get (Reg.ENC_OUT_WR_OFFSET x)
  let base := h.cfg.cst.bar2Base + e.ringOffset
  match ringPlace e.ringBytes wr (h.get (Reg.ENC_OUT_RD_OFFSET x)) (32 + pad) with
  | none => (h.bump (Reg.ENC_COUNTS_OUT_DROP x), false)
  | some (at_, next) =>
    let h := if at_ = wr then h else h.caPut 0xFF (base + wr) (frameRecord 0 0 (2 ^ 31) 0 0 0)
    ((h.caPut 0xFF (base + at_) bytes).put (Reg.ENC_OUT_WR_OFFSET x) next, true)

/-- A context's DONE bit, with its interrupt where it rises. Log entries 103 (DEDUCED), 104 (DEDUCED). -/
def HostSide.encDone (h : HostSide) (x : Nat) : HostSide :=
  if bit (h.get Reg.ENC_DONE_CTX) x then h
  else (h.setBitOf Reg.ENC_DONE_CTX x).interruptIf Reg.ENC_IRQ_CTRL_DONE_IRQ_EN Reg.ENC_IRQ_CTRL_VECTOR

/-- The frame of a core is coded and sent or written (R213 to R220); what R212 to R214 rule out is no result of the
encoder. -/
def HostSide.encFinish (h : HostSide) (c : Nat) (facts : EncodeFacts) : HostSide :=
  let k := h.encCore c
  match k.current with
  | none => h
  | some d =>
    let x := d.input.ctx
    match h.encEntry x with
    | none => h.setEncCore c { k with current := none }
    | some e =>
      let (_, _, w, hgt) := h.encRect e
      let (rows, cols) := ctuGrid w hgt
      let bytes := facts.nals.foldl (fun n b => n + b.length) 0
      let b := facts.run (e.rowAdapt == 1) d.set d.idr rows cols
      if !facts.sound (e.main10 == 1) b d.set.ceil d.idr rows cols then h
      else
        let v := h.encCtx x
        let tag := if b.tail.isSome && !d.idr then combine [d.input.tag, v.refTag] else d.input.tag
        let ts := d.input.start.toNat * 9 / 100000 % 2 ^ 32
        let h := h.setEncCore c { k with current := none }
        let (h, out) := if e.outPcie = 1 then h.writeRing e d.input tag d.idr b.tail ts facts.nals
          else (h.sendRtp e d.input ts facts.nals, true)
        let v := h.encCtx x
        let seq := (v.seq + 1) % 256
        let h := h.setEncCtx x { v with
          buffers := v.buffers - 1
          sinceIdr := some (if d.idr then 1 else (v.sinceIdr.getD 0) + 1)
          dropped := !out
          refTag := tag
          seq := seq }
        let h := if b.tail.isSome then h.bump (Reg.ENC_COUNTS_TAILS x) else h
        let h := (h.put (Reg.ENC_LAST_BITS_BITS x) bytes).put (Reg.ENC_LAST_BITS_SEQ x) seq
        let h := ((h.putB (Reg.ENC_LAST_INFO_IDR x) d.idr).putB (Reg.ENC_LAST_INFO_BUDGET_TAIL x) b.tail.isSome).put
          (Reg.ENC_LAST_INFO_TAIL_ROW x) (min 63 (b.tail.getD 0))
        let h := ((h.put (Reg.ENC_LAST_INFO_MEAN_QP x) (b.qps.foldl (· + ·) 0 / max 1 b.qps.length)).put
          (Reg.ENC_LAST_INFO_FRAME_LSB x) d.input.frame).put (Reg.ENC_LAST_INFO_SEQ x) seq
        h.encDone x

/-- A core fails its self-check: its contexts stop (R220). -/
def HostSide.markEncoder (h : HostSide) (c : Nat) : HostSide :=
  let h := (h.put (Reg.ENC_CORE_STATUS_FAULTED c) 1).setEncCore c EncCore.idle
  (h.cfg.encode.filter (fun e => e.enable == 1 && e.core == c)).foldl (fun h e =>
    h.setEncCtx e.context { h.encCtx e.context with reading := none, buffers := 0 }) h

end Sys2Proof.Machine
end

