-- ==== Sys2Proof/Machine/Encoding.lean ====
section
/-! DEFINITION. Meanings of the commands of the encoders (09_encode.md), and of the self-check of decoder and encoder
cores. -/

namespace Sys2Proof.Machine

/-- ENC_SLICE_READ (R210). -/
def execEncSliceRead (ctx : Fin 16) (slice : Fin 128) (s : State) : Out :=
  hostCmd s (fun h => h.encRead ctx.val slice.val)

/-- ENCODE_FRAME_START (R211, R212, R216). -/
def execEncodeFrameStart (core : Fin 2) (s : State) : Out := hostCmd s (fun h => h.encStart core.val)

/-- ENCODE_FRAME_DONE (R213 to R220). -/
def execEncodeFrameDone (core : Fin 2) (facts : EncodeFacts) (s : State) : Out :=
  hostCmd s (fun h => h.encFinish core.val facts)

/-- RC_SUBMIT (R216). -/
def execRcSubmit (who : Requester) (ctx : Fin 16) (s : State) : Out :=
  regCmd s who (fun h => (h.answer .none).submitSet ctx.val false)

/-- RC_SUBMIT_IDR (R216). -/
def execRcSubmitIdr (who : Requester) (ctx : Fin 16) (s : State) : Out :=
  regCmd s who (fun h => (h.answer .none).submitSet ctx.val true)

/-- CORE_SELFTEST_FAULT (05_ingest_decode.md R133, R220). -/
def execCoreSelftestFault (encoder : Bool) (core : Fin 9) (s : State) : Out :=
  hostCmd s (fun h =>
    if encoder then (if core.val < 2 then h.markEncoder core.val else h) else h.markCore core.val)

end Sys2Proof.Machine
end

