-- ==== Sys2Proof/Machine/Deflate.lean ====
section
/-! DEFINITION. Decoding of DEFLATE streams and of their framings (17_data_engines.md R397 to R401, RFC 1950 to
RFC 1952; 03_structure_image.md R59). -/

namespace Sys2Proof.Machine

/-- The bits of a byte string, least significant first. -/
def bitsOf : List Byte → List Bool
  | [] => []
  | b :: t => (List.range 8).map b.getLsbD ++ bitsOf t

/-- A number of `n` bits, least significant first. -/
def takeBits : Nat → List Bool → Option (Nat × List Bool)
  | 0, bs => some (0, bs)
  | _ + 1, [] => none
  | n + 1, b :: bs => (takeBits n bs).map (fun r => (b2n b + 2 * r.1, r.2))

/-- Why a decoder stops. -/
inductive Inf where
  | done | need | bad
  deriving DecidableEq, Repr

/-- Symbols of a code in canonical order: by length, then by number. -/
def canonical (lens : List Nat) : List Nat :=
  (List.range 15).flatMap (fun l => (List.range lens.length).filter (fun s => lens[s]? == some (l + 1)))

/-- Codes of length `l`. -/
def countLen (lens : List Nat) (l : Nat) : Nat := (lens.filter (· == l)).length

/-- Decodes one symbol of a canonical code, from length `l` on. -/
def decodeSym (lens syms : List Nat) : Nat → Nat → Nat → Nat → Nat → List Bool → Option (Nat × List Bool) × Inf
  | 0, _, _, _, _, _ => (none, .bad)
  | _ + 1, _, _, _, _, [] => (none, .need)
  | n + 1, l, code, first, index, b :: bs =>
    let code := code + b2n b
    let c := countLen lens l
    if code < first + c then
      match syms[index + (code - first)]? with
      | some s => (some (s, bs), .done)
      | none => (none, .bad)
    else decodeSym lens syms n (l + 1) (2 * code) (2 * (first + c)) (index + c) bs

/-- What the lengths of a code leave unused of 2^15. -/
def kraft (lens : List Nat) : Int :=
  lens.foldl (fun (a : Int) l => if l = 0 then a else a - (2 ^ (15 - l) : Nat)) (2 ^ 15 : Nat)

/-- A code is complete; a distance code may also be empty or hold one code of one bit (RFC 1951). -/
def codeOk (lens : List Nat) (dist : Bool) : Bool :=
  kraft lens == 0 || (dist && (lens.all (· == 0) || (lens.filter (· != 0)) == [1]))

/-- A decoder of one code. -/
structure Code where
  lens : List Nat
  syms : List Nat

def Code.of (lens : List Nat) : Code := ⟨lens, canonical lens⟩
def Code.next (c : Code) (bs : List Bool) : Option (Nat × List Bool) × Inf := decodeSym c.lens c.syms 15 1 0 0 0 bs

/-- Base and extra bits of a length symbol. -/
def lengthCode (s : Nat) : Option (Nat × Nat) :=
  if 257 ≤ s ∧ s ≤ 264 then some (s - 254, 0)
  else if 265 ≤ s ∧ s ≤ 284 then
    let e := (s - 261) / 4
    some (3 + (4 + (s - 261) % 4) * 2 ^ e, e)
  else if s = 285 then some (258, 0) else none

/-- Base and extra bits of a distance symbol. -/
def distCode (s : Nat) : Option (Nat × Nat) :=
  if s < 4 then some (s + 1, 0)
  else if s < 30 then let e := (s - 2) / 2; some (1 + (2 + s % 2) * 2 ^ e, e) else none

/-- Copies `n` bytes from distance `d`; the output is held newest first. -/
def copyBack (d : Nat) : Nat → List Byte → List Byte
  | 0, out => out
  | n + 1, out => copyBack d n (out.getD (d - 1) 0 :: out)

/-- The symbols of one block. -/
def inflateSyms (lit dist : Code) : Nat → List Bool → List Byte → Inf × List Bool × List Byte
  | 0, bs, out => (.bad, bs, out)
  | n + 1, bs, out =>
    match lit.next bs with
    | (none, i) => (i, bs, out)
    | (some (s, bs'), _) =>
      if s < 256 then inflateSyms lit dist n bs' (BitVec.ofNat 8 s :: out)
      else if s = 256 then (.done, bs', out)
      else
        match lengthCode s with
        | none => (.bad, bs, out)
        | some (base, e) =>
          match takeBits e bs' with
          | none => (.need, bs, out)
          | some (x, bs1) =>
            match dist.next bs1 with
            | (none, i) => (i, bs, out)
            | (some (ds, bs2), _) =>
              match distCode ds with
              | none => (.bad, bs, out)
              | some (db, de) =>
                match takeBits de bs2 with
                | none => (.need, bs, out)
                | some (y, bs3) =>
                  if out.length < db + y then (.bad, bs, out)
                  else inflateSyms lit dist n bs3 (copyBack (db + y) (base + x) out)

/-- The fixed codes. -/
def fixedLit : Code :=
  Code.of (List.replicate 144 8 ++ List.replicate 112 9 ++ List.replicate 24 7 ++ List.replicate 8 8)
def fixedDist : Code := Code.of (List.replicate 32 5)

/-- The order of the code-length code. -/
def clOrder : List Nat := [16, 17, 18, 0, 8, 7, 9, 6, 10, 5, 11, 4, 12, 3, 13, 2, 14, 1, 15]

/-- `n` numbers of 3 bits. -/
def takeLens : Nat → List Bool → Option (List Nat × List Bool)
  | 0, bs => some ([], bs)
  | n + 1, bs => (takeBits 3 bs).bind (fun r => (takeLens n r.2).map (fun t => (r.1 :: t.1, t.2)))

/-- The code lengths of a dynamic block, `total` in all; held newest first. -/
def readLens (cl : Code) (total : Nat) : Nat → List Bool → List Nat → Option (List Nat × List Bool) × Inf
  | 0, _, _ => (none, .bad)
  | n + 1, bs, acc =>
    if total < acc.length then (none, .bad)
    else if acc.length = total then (some (acc.reverse, bs), .done)
    else
      match cl.next bs with
      | (none, i) => (none, i)
      | (some (s, bs'), _) =>
        let rep (k base v : Nat) : Option (List Nat × List Bool) :=
          (takeBits k bs').map (fun r => (List.replicate (base + r.1) v ++ acc, r.2))
        if s < 16 then readLens cl total n bs' (s :: acc)
        else
          let r := if s = 16 then (if acc.isEmpty then none else rep 2 3 (acc.headD 0))
            else if s = 17 then rep 3 3 0 else rep 7 11 0
          match r with
          | some (acc', bs'') => readLens cl total n bs'' acc'
          | none => (none, if s = 16 ∧ acc.isEmpty then .bad else .need)

/-- The two codes of a dynamic block. -/
def dynamicCodes (bs : List Bool) : Option (Code × Code × List Bool) × Inf :=
  match takeBits 14 bs with
  | none => (none, .need)
  | some (v, bs1) =>
    let hlit := v % 32 + 257
    let hdist := v / 32 % 32 + 1
    let hclen := v / 1024 + 4
    match takeLens hclen bs1 with
    | none => (none, .need)
    | some (ls, bs2) =>
      let cl := (List.range 19).map (fun s => ls.getD (clOrder.findIdx (· == s)) 0)
      if !codeOk cl false then (none, .bad)
      else
        match readLens (Code.of cl) (hlit + hdist) (hlit + hdist + 1) bs2 [] with
        | (none, i) => (none, i)
        | (some (all, bs3), _) =>
          if codeOk (all.take hlit) false && codeOk (all.drop hlit) true then
            (some (Code.of (all.take hlit), Code.of (all.drop hlit), bs3), .done)
          else (none, .bad)

/-- Drops bits to a byte boundary. -/
def toByte (bs : List Bool) : List Bool := bs.drop (bs.length % 8)

/-- The bytes of a stored block that stand in the input. -/
def takeStored : Nat → List Bool → List Byte → Inf × List Bool × List Byte
  | 0, bs, out => (.done, bs, out)
  | n + 1, bs, out =>
    match takeBits 8 bs with
    | none => (.need, bs, out)
    | some (v, bs') => takeStored n bs' (BitVec.ofNat 8 v :: out)

/-- The blocks of a raw DEFLATE stream (R400), of the block types `types` and of at most `cap` bytes each where a cap
stands: how it ended, the bits left and the output, newest first. -/
def inflateBlocks (types : List Nat) (cap : Option Nat) : Nat → List Bool → List Byte → Inf × List Bool × List Byte
  | 0, bs, out => (.bad, bs, out)
  | n + 1, bs, out =>
    match takeBits 3 bs with
    | none => (.need, bs, out)
    | some (hd, bs1) =>
      if !types.contains (hd / 2) then (.bad, bs, out) else
      let r : Inf × List Bool × List Byte := match hd / 2 with
        | 0 =>
          (match takeBits 32 (toByte bs1) with
            | none => (.need, bs, out)
            | some (v, bs2) =>
              if v % 65536 + v / 65536 = 65535 then takeStored (v % 65536) bs2 out else (.bad, bs, out))
        | 1 => inflateSyms fixedLit fixedDist (bs1.length + 1) bs1 out
        | 2 =>
          (match dynamicCodes bs1 with
            | (some (l, d, bs2), _) => inflateSyms l d (bs2.length + 1) bs2 out
            | (none, i) => (i, bs, out))
        | _ => (.bad, bs, out)
      match r with
      | (.done, bs', out') =>
        if (cap.map (fun c => decide (c < out'.length - out.length))).getD false then (.bad, bs', out')
        else if hd % 2 = 1 then (.done, bs', out') else inflateBlocks types cap n bs' out'
      | other => other

/-- Adler-32 (RFC 1950). -/
def adler32 (bs : List Byte) : Nat :=
  let r := bs.foldl (fun (p : Nat × Nat) b => let a := (p.1 + b.toNat) % 65521; (a, (p.2 + a) % 65521)) (1, 0)
  r.2 * 65536 + r.1

/-- The framing header at the start of a stream (R400): how long it is; `check`: FHCRC fails after so many bytes. -/
inductive Head where
  | at_ (n : Nat)
  | need | bad
  | check (n : Nat)
  deriving DecidableEq, Repr

/-- The length of a string that ends with 0, the 0 included. -/
def zLen (bs : List Byte) : Option Nat :=
  let n := (bs.takeWhile (· != 0)).length
  if n < bs.length then some (n + 1) else none

/-- A zlib header. -/
def zlibHead (bs : List Byte) : Head :=
  if bs.length < 2 then .need
  else
    let cmf := fieldAt bs 0 1
    let flg := fieldAt bs 1 1
    if cmf % 16 = 8 ∧ cmf / 16 ≤ 7 ∧ !bit flg 5 ∧ (cmf * 256 + flg) % 31 = 0 then .at_ 2 else .bad

/-- A gzip header: FEXTRA, FNAME and FCOMMENT are skipped, FHCRC is checked. -/
def gzipHead (bs : List Byte) : Head :=
  let short (k : Nat) (ok : Bool) : Option Head := if bs.length < k then none else if ok then none else some .bad
  match short 1 (fieldAt bs 0 1 == 0x1F), short 2 (fieldAt bs 1 1 == 0x8B), short 3 (fieldAt bs 2 1 == 8),
      short 4 (decide (fieldAt bs 3 1 < 32)) with
  | none, none, none, none =>
    if bs.length < 10 then .need
    else
      let flg := fieldAt bs 3 1
      let extra : Option Nat :=
        if bit flg 2 then (if bs.length < 12 then none else some (12 + fieldAt bs 10 2)) else some 10
      let str (on : Bool) (p : Option Nat) : Option Nat :=
        if on then p.bind (fun n => (zLen (bs.drop n)).map (· + n)) else p
      match str (bit flg 4) (str (bit flg 3) extra) with
      | none => .need
      | some n =>
        if bs.length < n then .need
        else if bit flg 1 then
          (if bs.length < n + 2 then .need
           else if (crc32 (bs.take n)).toNat % 65536 = fieldAt bs n 2 then .at_ (n + 2) else .check (n + 2))
        else .at_ n
  | _, _, _, _ => .bad

/-- Framing 0 raw, 1 zlib, 2 gzip: the header. -/
def headOf (framing : Nat) (bs : List Byte) : Head :=
  match framing with
  | 0 => .at_ 0
  | 1 => zlibHead bs
  | _ => gzipHead bs

/-- How the decoding of a stream stands, given every byte fed to it (R400 to R402). -/
inductive Stop where
  /-- The stream has ended; `used` of its bytes were read. -/
  | ended (used : Nat)
  | short
  | format
  | checkFail (used : Nat)
  deriving DecidableEq, Repr

/-- The check value of a framing over bytes: Adler-32, CRC-32, 0 for raw. -/
def checkOf (framing : Nat) (bs : List Byte) : Nat :=
  match framing with
  | 0 => 0
  | 1 => adler32 bs
  | _ => (crc32 bs).toNat

/-- Decodes what has been fed of a stream: how it stands and the output so far. -/
def inflateStream (framing : Nat) (fed : List Byte) : Stop × List Byte :=
  match headOf framing fed with
  | .need => (.short, [])
  | .bad => (.format, [])
  | .check n => (.checkFail n, [])
  | .at_ n =>
    let bs := bitsOf (fed.drop n)
    let (i, rest, rout) := inflateBlocks [0, 1, 2] none (bs.length + 1) bs []
    let out := rout.reverse
    match i with
    | .need => (.short, out)
    | .bad => (.format, out)
    | .done =>
      let used := fed.length - rest.length / 8
      let tl := fed.drop used
      match framing with
      | 0 => (.ended used, out)
      | 1 =>
        if tl.length < 4 then (.short, out)
        else if fieldBE tl 0 4 = adler32 out then (.ended (used + 4), out) else (.checkFail (used + 4), out)
      | _ =>
        if tl.length < 8 then (.short, out)
        else if fieldAt tl 0 4 = (crc32 out).toNat ∧ fieldAt tl 4 4 = out.length % 2 ^ 32 then (.ended (used + 8), out)
        else (.checkFail (used + 8), out)

/-- R59: a whole zlib stream of one body, with the exact output length and nothing left over. -/
def inflateWhole (fed : List Byte) (plain : Nat) : Option (List Byte) :=
  match inflateStream 1 fed with
  | (.ended used, out) => if used = fed.length ∧ out.length = plain then some out else none
  | _ => none

end Sys2Proof.Machine
end

