-- ==== Sys2Proof/Machine/EngineOps.lean ====
section
/-! DEFINITION. Operations of the Calico engines and the CRC units (17_data_engines.md). -/

namespace Sys2Proof.Machine

/-! ## Pacing (R396) -/

/-- What the active image's reservations of KIND 0x01 grant to MP43 to MP45, in MB/s. -/
def Cfg.paceLimit (c : Cfg) : Nat :=
  c.claims.foldl (fun n (x : Claim) => match x.body with
    | .reservation 1 _ amount => n + amount
    | _ => n) 0 / 1000000

/-- PACE of Calico engine 0 or 1, or of the scan engine, 2. -/
def paceReg (u : Nat) : Fld := if u < 2 then Reg.DFL_PACE_MBPS u else Reg.CRC_PACE_MBPS

/-- The PACE_REFUSED bit of a unit. -/
def paceRefusedReg (u : Nat) : Fld := if u < 2 then Reg.DFL_STATUS_PACE_REFUSED u else Reg.CRC_PACE_PACE_REFUSED

/-- The sum of the three PACE values were unit `u` to have `v`. Log entry 112 (DEDUCED). -/
def HostSide.paceSum (h : HostSide) (u v : Nat) : Nat :=
  (List.range 3).foldl (fun n k => n + (if k = u then v else h.get (paceReg k))) 0

/-- A PACE write (R396). -/
def HostSide.writePace (h : HostSide) (u v : Nat) : HostSide :=
  let rate := if u < 2 then 4000 else 8000
  let ok := decide (v ≤ rate) && (h.cfg.imageId == 0 || decide (h.paceSum u v ≤ h.cfg.paceLimit))
  if ok then h.put (paceReg u) v else h.put (paceRefusedReg u) 1

/-- At an activation, PACE values that the new image no longer covers become 0, in unit order.
Log entry 112 (DEDUCED). -/
def HostSide.coverPaces (h : HostSide) : HostSide :=
  (List.range 3).foldl (fun h u =>
    let sum := (List.range (u + 1)).foldl (fun n k => n + h.get (paceReg k)) 0
    if sum ≤ h.cfg.paceLimit then h else h.put (paceReg u) 0) h

/-! ## Accesses of the units (R394) -/

/-- A unit may read a range: the MPU allows it, it lies below 38.5 GiB and none of it is poisoned.
Log entries 38 (DEDUCED), 111 (DESIGN CHOICE). -/
def HostSide.unitReads (h : HostSide) (port ca len : Nat) : Bool :=
  len == 0 || (h.mpuAllows port true false false (0x1000000000 + ca) len && decide (ca + len ≤ caEnd) &&
    !h.store.anyPoison ca len)

/-- A unit may write bytes at a CA. Log entry 38 (DEDUCED). -/
def HostSide.unitWrites (h : HostSide) (port ca : Nat) (bs : List Byte) : Bool :=
  bs.isEmpty || (h.mpuAllows port true false true (0x1000000000 + ca) bs.length && decide (ca + bs.length ≤ caEnd) &&
    (h.caWrite port ca bs).2)

/-- The refusal of the access that ended a job is counted and recorded: the MPU's, or the controller's (13_central_store.md
R292). Where the burst that met the first forbidden line began is open (log entry 1).
Log entry 111 (DESIGN CHOICE). -/
def HostSide.unitFault (h : HostSide) (port : Nat) (write : Bool) (ca len : Nat) : HostSide :=
  let ta := 0x1000000000 + ca
  match (linesOf ta len).find? (fun l => !h.lineAllowed port true false write l) with
  | some l =>
    let (k, h) := h.free 16
    let first := max (ta / 64) (l - k)
    h.mpuFault port true false write (first * 64) ((l - first + 1) * 64)
  | none => if len ≠ 0 ∧ caEnd < ca + len then h.bump Reg.CST_DECODE_ERR_COUNT else h

/-! ## Calico engines (R397 to R403) -/

def HostSide.engine (h : HostSide) (e : Nat) : DflEngine := tget DflEngine.idle h.dfl e
def HostSide.setEngine (h : HostSide) (e : Nat) (v : DflEngine) : HostSide :=
  { h with dfl := tput DflEngine.idle h.dfl e v }

/-- A write to engine 1 is accepted from secure contexts only (R394). -/
def HostSide.engineWrite (h : HostSide) (who : Requester) (e : Nat) (f : HostSide → HostSide) : HostSide :=
  if e = 1 && !who.isSecure then (h.bump Reg.DFL_SEC_VIOL_COUNT).refuseWrite who else f (h.answer .none)

/-- A command is ignored (R403). Log entry 113 (DEDUCED). -/
def HostSide.dflIgnore (h : HostSide) (e : Nat) : HostSide := h.put (Reg.DFL_STATUS_IGNORED e) 1

/-- START (R397, R403). Log entries 108 (DEDUCED), 113 (DEDUCED). -/
def HostSide.dflStart (h : HostSide) (e fin : Nat) : HostSide :=
  if h.flag (Reg.DFL_STATUS_BUSY e) then h.dflIgnore e
  else
    let g : DflEngine := { DflEngine.idle with
      op := h.get (Reg.DFL_MODE_OP e)
      framing := h.get (Reg.DFL_MODE_FRAMING e)
      dynamic := h.flag (Reg.DFL_MODE_DYNAMIC e)
      level := h.get (Reg.DFL_MODE_LEVEL e)
      fin := fin }
    ((h.setEngine e g).put (Reg.DFL_STATUS_STREAM e) 1).put (Reg.DFL_STATUS_BUSY e) 1

/-- CONTINUE (R402, R403). -/
def HostSide.dflContinue (h : HostSide) (e fin : Nat) : HostSide :=
  if h.flag (Reg.DFL_STATUS_BUSY e) || !h.flag (Reg.DFL_STATUS_STREAM e) then h.dflIgnore e
  else (h.setEngine e { h.engine e with fin := fin }).put (Reg.DFL_STATUS_BUSY e) 1

/-- The framing header that compression writes (R397). -/
def framingHeader (framing : Nat) : List Byte :=
  match framing with
  | 1 => [0x78, 0x9C]
  | 2 => [0x1F, 0x8B, 0x08, 0x00, 0, 0, 0, 0, 0x00, 0xFF]
  | _ => []

/-- The trailer that compression writes over the whole input (R397). -/
def framingTrailer (framing : Nat) (input : List Byte) : List Byte :=
  match framing with
  | 1 => beBytes (adler32 input) 4
  | 2 => leBytes (crc32 input).toNat 4 ++ leBytes input.length 4
  | _ => []

/-- Block types that compression writes under its settings (R397, R399). Log entry 108 (DEDUCED). -/
def DflEngine.types (g : DflEngine) : List Nat := if g.level = 0 then [0] else if g.dynamic then [0, 2] else [0, 1]

/-- How coded output stands against the input it came from: it is no output of the stream; it is part of one; the input
so far is coded and the output ends with the empty stored block of SYNC; the stream is complete with its trailer. -/
inductive Coding where
  | wrong | part | synced | finished
  deriving DecidableEq, Repr

/-- Judges coded output: its header, its blocks since the history was last cleared, its trailer (R397, R398). -/
def DflEngine.judge (g : DflEngine) (fed out : List Byte) : Coding :=
  let hd := framingHeader g.framing
  let start := if g.cutOut = 0 then hd.length else g.cutOut
  let bs := bitsOf (out.drop start)
  let (i, rest, rout) := inflateBlocks g.types (some 65535) (bs.length + 1) bs []
  let got := rout.reverse
  let want := fed.drop g.cutIn
  if out.take hd.length != hd.take out.length || !got.isPrefixOf want then .wrong
  else match i with
  | .bad => .wrong
  | .need => if got = want ∧ rest = [] ∧ out.drop (out.length - 4) = [0, 0, 0xFF, 0xFF] then .synced else .part
  | .done =>
    let tl := out.drop (out.length - rest.length / 8)
    let trailer := framingTrailer g.framing fed
    if got ≠ want ∨ !tl.isPrefixOf trailer then .wrong else if tl = trailer then .finished else .part

/-- The bound of R399 on the output of the job, of which `n` more input bytes stand. Log entry 109 (DEDUCED). -/
def DflEngine.bound (g : DflEngine) (n : Nat) : Nat :=
  let m := g.fed.length - g.jobIn + n
  let frame := (if g.jobOut = 0 then (framingHeader g.framing).length else 0) +
    (if g.fin = 3 then (framingTrailer g.framing []).length else 0)
  m + 5 * max 1 (cdiv m 65535) + frame

/-- How a job stops: its RESULT, the input bytes consumed, the bytes written and the stream after it; none: no job
stops so. -/
structure JobStop where
  result : Nat
  taken  : Nat
  wrote  : List Byte
  next   : DflEngine
  deriving DecidableEq, Repr

/-- A compression job of `slen` source bytes `src` with `dlen` bytes of space. Log entry 109 (DEDUCED). -/
def DflEngine.compressStop (g : DflEngine) (src : List Byte) (slen dlen : Nat) (f : JobFacts) : Option JobStop :=
  let fed := g.fed ++ src.take f.taken
  let out := g.out ++ f.coded
  let c := g.judge fed out
  let all := f.taken == slen
  let complete := all && (match g.fin with
    | 0 => c != .wrong
    | 3 => c == .finished
    | _ => c == .synced)
  let fits := decide (f.taken ≤ slen ∧ f.coded.length ≤ dlen ∧ out.length - g.jobOut ≤ g.bound slen)
  let next : DflEngine := { g with fed := fed, out := out }
  if c = .wrong ∨ !fits then none
  else if complete then
    let next : DflEngine := { next with jobOut := out.length, jobIn := fed.length }
    let next : DflEngine := if g.fin = 2 then { next with cutOut := out.length, cutIn := fed.length } else next
    some ⟨if g.fin = 3 then 2 else 1, f.taken, f.coded, next⟩
  else if f.coded.length = dlen then some ⟨3, f.taken, f.coded, next⟩ else none

/-- A decompression job. Input that an engine consumes before a full output space or a format error stops it is open
where R402 gives no count: the facts name it. Log entries 65 (PRESUMED), 109 (DEDUCED), 151 (PRESUMED). -/
def DflEngine.expandStop (g : DflEngine) (src : List Byte) (slen dlen : Nat) (f : JobFacts) : Option JobStop :=
  let (stop, plain) := inflateStream g.framing (g.fed ++ src)
  let part := inflateStream g.framing (g.fed ++ src.take f.taken)
  let avail := plain.length - g.given
  let stopAt (result taken : Nat) : Option JobStop :=
    let w := (plain.drop g.given).take dlen
    some ⟨result, taken, w, { g with fed := g.fed ++ src.take taken, given := g.given + w.length }⟩
  let beyond := match part.1 with
    | .ended used => decide (used < g.fed.length + f.taken)
    | .checkFail used => decide (used < g.fed.length + f.taken)
    | _ => false
  if dlen < avail then
    if f.taken ≤ slen ∧ g.given + dlen ≤ part.2.length ∧ !beyond then stopAt 3 f.taken else none
  else match stop with
  | .ended used => stopAt 2 (used - g.fed.length)
  | .short => stopAt 4 slen
  | .checkFail used => stopAt 5 (used - g.fed.length)
  | .format => if f.taken ≤ slen ∧ part.1 = .format then stopAt 6 f.taken else none

/-- What a job had done when a memory error ended it. -/
def DflEngine.errorStop (g : DflEngine) (src : List Byte) (slen dlen : Nat) (f : JobFacts) : Option JobStop :=
  if slen < f.taken then none
  else if g.op = 0 then
    if g.judge (g.fed ++ src.take f.taken) (g.out ++ f.coded) = .wrong ∨ dlen < f.coded.length then none
    else some ⟨7, f.taken, f.coded, { g with fed := g.fed ++ src.take f.taken, out := g.out ++ f.coded }⟩
  else
    let plain := (inflateStream g.framing (g.fed ++ src.take f.taken)).2
    let w := (plain.drop g.given).take (min f.wrote dlen)
    some ⟨7, f.taken, w, { g with fed := g.fed ++ src.take f.taken, given := g.given + w.length }⟩

/-- The check value that DFL.CHECK shows: over the input in compression, over the output delivered in decompression. -/
def DflEngine.check (g : DflEngine) : Nat :=
  if g.op = 0 then checkOf g.framing g.fed
  else checkOf g.framing ((inflateStream g.framing g.fed).2.take g.given)

/-- Sets a DONE bit, with the interrupt where it rises. -/
def HostSide.raiseDone (h : HostSide) (done en vec : Fld) (i : Nat) : HostSide :=
  if bit (h.get done) i then h else (h.setBitOf done i).interruptIf en vec

/-- A job stops (R402): the counts, the advanced addresses and lengths, the check value and the result.
Log entry 110 (DEDUCED). -/
def HostSide.dflStop (h : HostSide) (e : Nat) (j : JobStop) : HostSide :=
  let src := h.pair (Reg.DFL_SRC_LO_ADDR e) (Reg.DFL_SRC_HI_ADDR e)
  let dst := h.pair (Reg.DFL_DST_LO_ADDR e) (Reg.DFL_DST_HI_ADDR e)
  let h := h.caPut (43 + e) dst j.wrote
  let n := j.wrote.length
  let h := ((h.put (Reg.DFL_IN_DONE_BYTES e) j.taken).put (Reg.DFL_OUT_DONE_BYTES e) n).put (Reg.DFL_CHECK_VALUE e) j.next.check
  let h := (h.putPair (Reg.DFL_SRC_LO_ADDR e) (Reg.DFL_SRC_HI_ADDR e) (src + j.taken)).putPair (Reg.DFL_DST_LO_ADDR e)
    (Reg.DFL_DST_HI_ADDR e) (dst + n)
  let h := (h.put (Reg.DFL_SRC_LEN_BYTES e) (h.get (Reg.DFL_SRC_LEN_BYTES e) - j.taken)).put (Reg.DFL_DST_LEN_BYTES e)
    (h.get (Reg.DFL_DST_LEN_BYTES e) - n)
  let opened := j.result == 1 || j.result == 3 || j.result == 4
  let h := ((h.put (Reg.DFL_STATUS_RESULT e) j.result).put (Reg.DFL_STATUS_BUSY e) 0).putB (Reg.DFL_STATUS_STREAM e) opened
  let h := h.setEngine e (if opened then j.next else DflEngine.idle)
  h.raiseDone Reg.DFL_DONE_ENGINE Reg.DFL_IRQ_CTRL_DONE_IRQ_EN Reg.DFL_IRQ_CTRL_VECTOR e

/-- The stop that a running job makes by these facts (R402), and the state with the faults that ended it.
Log entry 65 (PRESUMED). -/
def HostSide.dflJobStop (h : HostSide) (e : Nat) (f : JobFacts) : HostSide :=
  if !h.flag (Reg.DFL_STATUS_BUSY e) || h.get (Reg.DFL_PACE_MBPS e) == 0 then h
  else
    let port := 43 + e
    let srcCa := h.pair (Reg.DFL_SRC_LO_ADDR e) (Reg.DFL_SRC_HI_ADDR e)
    let dstCa := h.pair (Reg.DFL_DST_LO_ADDR e) (Reg.DFL_DST_HI_ADDR e)
    let slen := h.get (Reg.DFL_SRC_LEN_BYTES e)
    let dlen := h.get (Reg.DFL_DST_LEN_BYTES e)
    let src := h.store.bytes srcCa slen
    let g := h.engine e
    let stop := if f.memError then g.errorStop src slen dlen f
      else if g.op = 0 then g.compressStop src slen dlen f else g.expandStop src slen dlen f
    match stop with
    | none => h
    | some j =>
      if !h.unitReads port srcCa j.taken || !h.unitWrites port dstCa j.wrote then h
      else
        let h' := h.dflStop e j
        if !f.memError then h'
        else if !h.unitReads port srcCa slen then h'.unitFault port false srcCa slen
        else h'.unitFault port true dstCa dlen

/-- ABORT (R403). What the job had consumed and written is open (log entry 1).
Log entries 110 (DEDUCED), 111 (DESIGN CHOICE). -/
def HostSide.dflAbort (h : HostSide) (e : Nat) : HostSide :=
  if !h.flag (Reg.DFL_STATUS_BUSY e) then (h.put (Reg.DFL_STATUS_STREAM e) 0).setEngine e DflEngine.idle
  else
    let g := h.engine e
    let slen := h.get (Reg.DFL_SRC_LEN_BYTES e)
    let dlen := h.get (Reg.DFL_DST_LEN_BYTES e)
    let (taken, h) := h.free (slen + 1)
    let src := h.store.bytes (h.pair (Reg.DFL_SRC_LO_ADDR e) (Reg.DFL_SRC_HI_ADDR e)) taken
    let fed := g.fed ++ src
    let plain := (inflateStream g.framing fed).2.drop g.given
    let most := if g.op = 0 then min dlen (g.bound taken) else min dlen plain.length
    let (n, h) := h.free (most + 1)
    let (bs, h) := if g.op = 0 then h.freeBytes n else (plain.take n, h)
    h.dflStop e ⟨8, taken, bs, { g with fed := fed, out := g.out ++ bs, given := g.given + n }⟩

/-! ## CRC units (R404, R405) -/

/-- The low `w` bits of `v` in reverse order. -/
def reflect (v : Nat) : Nat → Nat
  | 0 => 0
  | w + 1 => v % 2 * 2 ^ w + reflect (v / 2) w

/-- One bit of a CRC register of width `w`, most significant first. -/
def crcStep (w poly reg : Nat) (b : Bool) : Nat :=
  let r := reg * 2 % 2 ^ w
  if bit reg (w - 1) != b then r ^^^ poly else r

/-- One byte of a CRC: least significant bit first where REFIN is 1. -/
def crcFeed (w poly : Nat) (refin : Bool) (reg : Nat) (b : Byte) : Nat :=
  (List.range 8).foldl (fun r i => crcStep w poly r (b.getLsbD (if refin then i else 7 - i))) reg

/-- The CRC of the parameterised model (R404). Log entry 151 (PRESUMED). -/
def crcModel (w poly init xorout : Nat) (refin refout : Bool) (bs : List Byte) : Nat :=
  let reg := bs.foldl (crcFeed w poly refin) init
  (if refout then reflect reg w else reg) ^^^ xorout

/-- Parameters that a START accepts. -/
def HostSide.crcParamsOk (h : HostSide) (u : Nat) : Bool :=
  let w := h.get (Reg.CRC_CTRL_WIDTH u)
  decide (8 ≤ w ∧ w ≤ 64 ∧ h.pair (Reg.CRC_POLY_LO_VALUE u) (Reg.CRC_POLY_HI_VALUE u) < 2 ^ w ∧
    h.pair (Reg.CRC_INIT_LO_VALUE u) (Reg.CRC_INIT_HI_VALUE u) < 2 ^ w ∧
    h.pair (Reg.CRC_XOROUT_LO_VALUE u) (Reg.CRC_XOROUT_HI_VALUE u) < 2 ^ w)

/-- WIDTH, REFIN and REFOUT of a write of CRC.CTRL while the unit is idle (R405). -/
def HostSide.crcFields (h : HostSide) (u v : Nat) : HostSide :=
  if h.flag (Reg.CRC_STATUS_BUSY u) then h
  else ((h.put (Reg.CRC_CTRL_WIDTH u) (bits v 0 7)).putB (Reg.CRC_CTRL_REFIN u) (bit v 7)).putB (Reg.CRC_CTRL_REFOUT u)
    (bit v 8)

/-- START (R404, R405). -/
def HostSide.crcStart (h : HostSide) (u : Nat) : HostSide :=
  if h.flag (Reg.CRC_STATUS_BUSY u) || !h.crcParamsOk u then h.put (Reg.CRC_STATUS_IGNORED u) 1
  else h.put (Reg.CRC_STATUS_BUSY u) 1

/-- A unit stops with a RESULT code and a value. -/
def HostSide.crcStop (h : HostSide) (u result value : Nat) : HostSide :=
  ((((h.put (Reg.CRC_STATUS_RESULT u) result).put (Reg.CRC_STATUS_BUSY u) 0).putPair (Reg.CRC_RESULT_LO_VALUE u)
    (Reg.CRC_RESULT_HI_VALUE u) value)).raiseDone Reg.CRC_DONE_UNIT Reg.CRC_IRQ_CTRL_DONE_IRQ_EN Reg.CRC_IRQ_CTRL_VECTOR u

/-- ABORT (R403, R405); what RESULT then holds is not said: it keeps its value. Log entry 110 (DEDUCED). -/
def HostSide.crcAbort (h : HostSide) (u : Nat) : HostSide :=
  if h.flag (Reg.CRC_STATUS_BUSY u) then
    h.crcStop u 3 (h.pair (Reg.CRC_RESULT_LO_VALUE u) (Reg.CRC_RESULT_HI_VALUE u))
  else h

/-- A write of CRC.CTRL: fields, then ABORT or START; both at once are ignored (R403, R405). -/
def HostSide.crcCtrl (h : HostSide) (u v : Nat) : HostSide :=
  let h := h.crcFields u v
  match bit v 31, bit v 30 with
  | true, true => h.put (Reg.CRC_STATUS_IGNORED u) 1
  | true, false => h.crcStart u
  | false, true => h.crcAbort u
  | false, false => h

/-- A job completes (R404, R405). -/
def HostSide.crcDone (h : HostSide) (u : Nat) (memError : Bool) : HostSide :=
  if !h.flag (Reg.CRC_STATUS_BUSY u) || h.get Reg.CRC_PACE_MBPS == 0 then h
  else
    let ca := h.pair (Reg.CRC_ADDR_LO_VALUE u) (Reg.CRC_ADDR_HI_VALUE u)
    let n := h.get (Reg.CRC_LEN_BYTES u)
    if memError then (h.crcStop u 2 0).unitFault 45 false ca n
    else if !h.unitReads 45 ca n then h
    else h.crcStop u 1 (crcModel (h.get (Reg.CRC_CTRL_WIDTH u)) (h.pair (Reg.CRC_POLY_LO_VALUE u) (Reg.CRC_POLY_HI_VALUE u))
      (h.pair (Reg.CRC_INIT_LO_VALUE u) (Reg.CRC_INIT_HI_VALUE u))
      (h.pair (Reg.CRC_XOROUT_LO_VALUE u) (Reg.CRC_XOROUT_HI_VALUE u)) (h.flag (Reg.CRC_CTRL_REFIN u))
      (h.flag (Reg.CRC_CTRL_REFOUT u)) (h.store.bytes ca n))

end Sys2Proof.Machine
end

