-- ==== Sys2Proof/Machine/Engines.lean ====
section
/-! DEFINITION. Meanings of the commands of the Calico engines and the CRC units (17_data_engines.md R394 to R405). -/

namespace Sys2Proof.Machine

/-- DFL_START (R394, R397, R403). -/
def execDflStart (who : Requester) (engine : Fin 2) (fin : Fin 4) (s : State) : Out :=
  regCmd s who (fun h => h.engineWrite who engine.val (fun h => h.dflStart engine.val fin.val))

/-- DFL_CONTINUE (R394, R402, R403). -/
def execDflContinue (who : Requester) (engine : Fin 2) (fin : Fin 4) (s : State) : Out :=
  regCmd s who (fun h => h.engineWrite who engine.val (fun h => h.dflContinue engine.val fin.val))

/-- DFL_ABORT (R394, R403). -/
def execDflAbort (who : Requester) (engine : Fin 2) (s : State) : Out :=
  regCmd s who (fun h => h.engineWrite who engine.val (fun h => h.dflAbort engine.val))

/-- DFL_JOB_STOP (R396 to R402). -/
def execDflJobStop (engine : Fin 2) (facts : JobFacts) (s : State) : Out :=
  hostCmd s (fun h => h.dflJobStop engine.val facts)

/-- PACE_WRITE (R394, R396): CRC.PACE also holds PACE_REFUSED, which a 1 clears. -/
def execPaceWrite (who : Requester) (unit : Fin 3) (v : Word) (s : State) : Out :=
  regCmd s who (fun h =>
    h.engineWrite who unit.val (fun h =>
      if unit.val = 2 then
        (onlyIf (bit v.toNat 14) (fun h : HostSide => h.put Reg.CRC_PACE_PACE_REFUSED 0) h).writePace 2 (bits v.toNat 0 14)
      else h.writePace unit.val (bits v.toNat 0 13)))

/-- CRC_START (R404, R405). -/
def execCrcStart (who : Requester) (unit : Fin 8) (v : Word) (s : State) : Out :=
  regCmd s who (fun h => (h.answer .none).crcCtrl unit.val (setBit v.toNat 31))

/-- CRC_ABORT (R403, R405). -/
def execCrcAbort (who : Requester) (unit : Fin 8) (s : State) : Out :=
  regCmd s who (fun h => (h.answer .none).crcAbort unit.val)

/-- CRC_JOB_DONE (R396, R404, R405). -/
def execCrcJobDone (unit : Fin 8) (memError : Bool) (s : State) : Out := hostCmd s (fun h => h.crcDone unit.val memError)

end Sys2Proof.Machine
end

