-- ==== Sys2Proof/Machine/FieldCmd.lean ====
section
/-! DEFINITION. Meanings of the field-side commands: protocols, points and commands
(10_field_points_commands.md), and host Uliska's part of a command (R238, R246). -/

namespace Sys2Proof.Machine

/-- UADP_MESSAGE (R225, R226, R228, R232, R233, R242). -/
def execUadpMessage (port : Fin 8) (msg : UadpMessage) (s : State) : Out := fieldCmd s (fun f => f.uadp port.val msg)

/-- ARP_REQUEST (R222): a request for the port's address is answered, every other is discarded. -/
def execArpRequest (port : Fin 8) (target : BitVec 32) (sender : BitVec 32) (senderMac : BitVec 48) (s : State) : Out :=
  fieldCmd s (fun f =>
    match f.portEntry port.val with
    | some e =>
      if e.mode ≠ 0 ∧ e.ipv4 = target.toNat then
        (f.sendOther port.val senderMac.toNat (.arp e.ipv4 sender.toNat senderMac.toNat)).2
      else f
    | none => f)

/-! ## Modbus (R227) -/

/-- A poll entry falls due: queued in order of due time, or skipped while its previous request stands.
Log entry 68 (DEDUCED). -/
def FieldSide.pollDue (f : FieldSide) (q : Nat) : FieldSide :=
  match f.fieldCfg.polls[q]? with
  | none => f
  | some p =>
    let st := tget ⟨0, 0⟩ f.work.polls q
    if dtDiff f.now st.due < 0 ∨ ((f.sourceEntry p.source).map (fun e => e.enable == 1 && e.modbus == 1)) ≠ some true then f
    else
      let src := f.src p.source
      let stands := src.queue.contains q || (src.outstanding.map (·.1)) == some q
      let st := { st with due := st.due + BitVec.ofNat 64 (p.periodMs * 1000000), skipped := st.skipped + b2n stands }
      let f := f.setWork { f.work with polls := tput ⟨0, 0⟩ f.work.polls q st }
      if stands then f else (f.setSrc p.source { src with queue := src.queue ++ [q] }).sendPoll p.source

/-- MODBUS_POLL_DUE (R227, R223). -/
def execModbusPollDue (poll : Fin 1024) (s : State) : Out := fieldCmd s (fun f => f.pollDue poll.val)

/-- MODBUS_RESPONSE (R227, R228, R232, R233). -/
def execModbusResponse (source : Fin 256) (resp : ModbusResponse) (s : State) : Out :=
  fieldCmd s (fun f => f.modbus source.val resp.request resp.body)

/-- MODBUS_TIMEOUT (R227): the transaction ends. -/
def execModbusTimeout (poll : Fin 1024) (s : State) : Out :=
  fieldCmd s (fun f =>
    match f.fieldCfg.polls[poll.val]? with
    | none => f
    | some p =>
      match (f.src p.source).outstanding with
      | some (q, t, _) =>
        if q = poll.val ∧ (p.timeoutMs * 1000000 : Int) ≤ dtDiff f.now t then
          (f.setSrc p.source { f.src p.source with outstanding := none }).sendPoll p.source
        else f
      | none => f)

/-- The connection of an enabled Modbus source: open, or to be tried again after 1 s. -/
def FieldSide.connection (f : FieldSide) (i : Nat) (up : Bool) : FieldSide :=
  if up then (f.setSrc i { f.src i with connected := true, retryAt := none }).sendPoll i
  else f.setSrc i { f.src i with connected := false, outstanding := none, retryAt := some (f.now + 1000000000) }

/-- MODBUS_RECONNECT (R227). -/
def execModbusReconnect (source : Fin 256) (connected : Bool) (s : State) : Out :=
  fieldCmd s (fun f =>
    let st := f.src source.val
    let due := match st.retryAt with | none => true | some t => dtReached f.now t
    if ((f.sourceEntry source.val).map (fun e => e.enable == 1 && e.modbus == 1)) == some true && !st.connected && due
    then (match st.retryAt, f.sourceEntry source.val with
      | some _, some e => f.sendConnect e
      | _, _ => f).connection source.val connected
    else f)

/-- MODBUS_CONNECTION_FAILURE (R227). -/
def execModbusConnectionFailure (source : Fin 256) (s : State) : Out :=
  fieldCmd s (fun f => if (f.src source.val).connected then f.connection source.val false else f)

/-! ## Points (R229, R234, R235) -/

/-- SOURCE_SILENCE (R229, R242): every point mapped to the source takes quality NOT_CONNECTED. -/
def execSourceSilence (source : Fin 256) (s : State) : Out :=
  fieldCmd s (fun f =>
    match f.sourceEntry source.val with
    | some e =>
      if e.enable = 1 ∧ e.silenceMs ≠ 0 ∧ (e.silenceMs * 1000000 : Int) ≤ dtDiff f.now (f.src source.val).lastAct then
        (f.fieldCfg.maps.filter (fun m => m.source == source.val)).foldl (fun f m => f.requality m.point 3) f
      else f
    | none => f)

/-- POINT_SWEEP (R234, R242). -/
def execPointSweep (s : State) : Out :=
  fieldCmd s (fun f =>
    (f.work.recs.map (·.1)).foldl (fun f p =>
      let r := f.rec_ p
      if r.received && decide (0x40000000 ≤ vtDiff f.vt r.vintage) then
        (f.setRec p ({ r with quality := 4 }.pend f.now)).runsOf p
      else f) f)

/-- BATCH_CLOSE (R235): at each whole millisecond of field DT. -/
def execBatchClose (s : State) : Out :=
  fieldCmd s (fun f => let ms := f.now.toNat / 1000000; if f.work.lastClose ≠ ms then f.closeBatch ms else f)

/-! ## Commands at the field side (R241 to R246) -/

/-- CMD_REQ_RX (R241 to R243, R246, 11_crossing.md R261): in LIMITED the request is discarded. -/
def execCmdReqRx (s : State) : Out :=
  fieldCmd s (fun f =>
    match f.takeCell 0 1 with
    | (some c, f) => if f.xing.state = 3 then f else f.validate c
    | (none, f) => f)

/-- GUARD_RUN_EXPIRY (R242): the age of a term's point reaches MA and its run closes. -/
def execGuardRunExpiry (target : Fin 16384) (term : Fin 8) (s : State) : Out :=
  fieldCmd s (fun f =>
    match (f.targetEntry target.val).bind (fun e => e.live.find? (fun x => x.2 == term.val)) with
    | some (t, _) =>
      if (msVt t.maxAgeMs : Int) ≤ vtDiff f.vt (f.rec_ t.point).vintage then f.setRun target.val term.val none else f
    | none => f)

/-- COMMAND_LAUNCH (R223, R244 to R246). Log entry 251 (DEDUCED). -/
def execCommandLaunch (at_ : LaunchAt) (s : State) : Out :=
  fieldCmd s (fun f => match at_.again with
    | none => f.launch at_.port.val
    | some req => f.relaunch at_.port.val req.toNat)

/-- COMMAND_DEADLINE (R244, R246). -/
def execCommandDeadline (port : Fin 8) (req : BitVec 32) (s : State) : Out :=
  fieldCmd s (fun f => f.deadline port.val req.toNat)

/-! ## Commands at the host side (R238, R246, 11_crossing.md R255, R259, R261, R271) -/

/-- CONSOLE_AUTH allows a request (11_crossing.md R271). -/
def HostSide.authorised (h : HostSide) (cell : List Byte) : Bool :=
  let target := bits (fieldAt cell 4 2) 0 14
  let action := fieldAt cell 6 1
  h.cfg.console.any (fun e => e.enable == 1 && e.console == fieldAt cell 22 2 &&
    (e.anyOperator == 1 || e.operator == fieldAt cell 24 4) &&
    decide (e.targetFirst ≤ target ∧ target < e.targetFirst + e.targetCount) && decide (action < 16) && bit e.actions action)

/-- Host Uliska takes the oldest request on HM0: answered at once, or forwarded on XM0 and awaited.
Log entries 66 (DEDUCED), 205 (DEDUCED). -/
def HostSide.request (h : HostSide) : HostSide :=
  match (h.xing.chan 64).slots.head? with
  | none => h
  | some c =>
    let forward := cellType c == 1 && h.authorised c && h.xing.state == 2
    if forward && !h.xing.canPush 0 then h
    else
      match h.takeCell 64 1 with
      | (none, h) => h
      | (some c, h) =>
        let answer (code : Nat) : HostSide := h.writeAck 64 ⟨cellMsg c, code⟩
        if !h.authorised c then answer 1
        else if h.xing.state = 3 then answer 2
        else if h.xing.state ≠ 2 then answer 3
        else
          let h := h.nextMsg 0
          let h := h.sendCell 0 (withCrc (oneCell 1 h.xing.msg (slice c 4 28)))
          { h with uliska := { h.uliska with await := h.uliska.await ++
            [⟨fieldAt c 28 4, cellMsg c, h.xing.msg, dtAt c 12 + BitVec.ofNat 64 (fieldAt c 20 2 * 1000000 + 10000000)⟩] } }

/-- CMD_REQUEST (R238). -/
def execCmdRequest (s : State) : Out := hostCmd s (·.request)

/-- The oldest request with an identity, and the list without it. -/
def takeAwait (req : Nat) : List Await → Option Await × List Await
  | [] => (none, [])
  | a :: t => if a.req = req then (some a, t) else let (x, r) := takeAwait req t; (x, a :: r)

/-- CMD_NO_ACK (R238): no CMD_ACK by the request's limit. -/
def execCmdNoAck (req : BitVec 32) (s : State) : Out :=
  hostCmd s (fun h =>
    match takeAwait req.toNat h.uliska.await with
    | (some a, rest) =>
      if dtReached h.now a.deadline then
        ({ h with uliska := { h.uliska with await := rest } }).writeAck 64 ⟨a.msg, 4⟩
      else h
    | (none, _) => h)

/-- A CMD_ACK at host Uliska: discarded when its CRC fails, logged when nobody awaits it, or else answered on HM0 and
copied to HM8. -/
def HostSide.commandAck (h : HostSide) (c : List Byte) : HostSide :=
  if !crcHolds c then h
  else
    let req := fieldAt c 4 4
    let code := fieldAt c 8 1
    match takeAwait req h.uliska.await with
    | (some a, rest) =>
      (({ h with uliska := { h.uliska with await := rest } }).writeAck 64 ⟨a.msg, code⟩).sendCell 72 c
    | (none, _) => h.log 7 2 req 0 code

/-- CMD_ACK_RX (R246, 11_crossing.md R255, R259). -/
def execCmdAckRx (s : State) : Out :=
  hostCmd s (fun h => match h.takeCell 8 2 with | (some c, h) => h.commandAck c | (none, h) => h)

end Sys2Proof.Machine
end

