-- ==== Sys2Proof/Machine/BootOps.lean ====
section
/-! DEFINITION. The start-up of the two sides (18_module_electrical.md R422 to R427), SRAM row repair (16_twin_repair.md
R389) and the firmware operations (R421). -/

namespace Sys2Proof.Machine

/-! ## SRAM rows (R389) -/

/-- Spare rows used in an array. -/
def rowsUsed (rows : List (Nat × Nat)) (array : Nat) : Nat := (rows.filter (fun p => p.1 == array)).length

/-- A row is redirected to a spare row of its array; none where no spare is left. Log entry 120 (DEDUCED). -/
def redirectRow (rows : List (Nat × Nat)) (array row : Nat) : Option (List (Nat × Nat)) :=
  if rows.contains (array, row) then some rows
  else if rowsUsed rows array < 8 then some ((array, row) :: rows) else none

/-- Fewest spare rows left in any array. -/
def minSpares (rows : List (Nat × Nat)) : Nat := rows.foldl (fun m p => min m (8 - rowsUsed rows p.1)) 8

/-- A repair on the host side, shown in RPR.SRAM; without a spare row nothing is repaired. Log entry 120 (DEDUCED). -/
def HostSide.repairRow (h : HostSide) (array row : Nat) : HostSide :=
  match redirectRow h.repaired array row with
  | some rows =>
    if rows = h.repaired then h
    else (({ h with repaired := rows }).countWrap Reg.RPR_SRAM_REPAIRS).put Reg.RPR_SRAM_MIN_SPARES (minSpares rows)
  | none => h

/-- A row of a field SRAM is redirected to a spare row (R389). Log entry 120 (DEDUCED). -/
def FieldSide.repairRow (f : FieldSide) (array row : Nat) : FieldSide :=
  match redirectRow f.repaired array row with
  | some rows => { f with repaired := rows }
  | none => f

/-! ## Host start-up (R422 to R425) -/

/-- The side enters a start-up step: ELAPSED counts 10 ms from reset and saturates. Log entry 117 (DEDUCED). -/
def HostSide.enterStep (h : HostSide) (n : Nat) : HostSide :=
  let raw := h.tb.raw.toNat
  let boot : BootState := { h.boot with stepEntry := raw }
  let boot : BootState := if n = 2 then { boot with romEntry := raw } else boot
  (({ h with boot := boot }).put Reg.SYS_BOOT_STATUS_STEP n).put Reg.SYS_BOOT_STATUS_ELAPSED (min 4095 (raw / 4000000))

/-- The current step fails with a REASON and stays. Log entry 44 (DEDUCED). -/
def HostSide.failStep (h : HostSide) (reason : Nat) : HostSide :=
  (h.put Reg.SYS_BOOT_STATUS_FAILED 1).put Reg.SYS_BOOT_STATUS_REASON reason

/-- The step that R422 runs now, none where it has failed. Log entry 122 (DESIGN CHOICE). -/
def HostSide.bootStep (h : HostSide) : Option Nat :=
  if h.flag Reg.SYS_BOOT_STATUS_FAILED then none else some (h.get Reg.SYS_BOOT_STATUS_STEP)

/-- Self-test faults that spares cover (R423): at most one composition engine, one decoder core, and SRAM rows within
their spare count. -/
def coverable (rows : List (Nat × Nat)) (faults : List UnitFault) : Bool :=
  let engines := (faults.filter (fun f => match f with | .engine _ => true | _ => false)).length
  let decoders := (faults.filter (fun f => match f with | .decoder _ => true | _ => false)).length
  let rows' := faults.foldl (fun r f => match f with
    | .sramRow a n => r.bind (fun r => redirectRow r a n)
    | _ => r) (some rows)
  decide (engines ≤ 1 ∧ decoders ≤ 1) && rows'.isSome && faults.all (fun f => match f with | .other => false | _ => true)

/-- A unit that self-test found faulted is marked, a row repaired. -/
def HostSide.markUnit (h : HostSide) (f : UnitFault) : HostSide :=
  match f with
  | .engine e => h.markEngine e.val
  | .decoder c => h.markCore c.val
  | .sramRow a r => h.repairRow a r
  | .other => h

/-- Every lane of a list has its codes in the findings. -/
def calCovers (cal : List LaneCal) (ls : List Nat) : Bool := ls.all (fun l => cal.any (fun c => c.lane == l))

/-- Steps 1 to 8 end with these findings. -/
def HostSide.earlyStepDone (h : HostSide) (p : SidePhys) (n : Nat) (w : StepWork) : HostSide :=
  let pcie := [52, 53, 54, 55]
  let others := (List.range 96).filter (fun l => !pcie.contains l)
  match n with
  | 1 => h.enterStep 2
  | 2 =>
    if !w.ok then h.failStep 1
    else if !calCovers w.cal pcie then h
    else
      let h := (h.put Reg.LNE_ZREF_CODE w.zref.toNat).put Reg.LNE_ZREF_DONE 1
      ((w.cal.filter (fun c => pcie.contains c.lane)).foldl (fun h c => h.calibrate c) h).wakeCalibrated.enterStep 3
  | 3 =>
    match p.chooseBank with
    | none => h.failStep 2
    | some (i, fallback) =>
      let b := p.bank i
      let h := ((h.put Reg.SYS_BOOT_STATUS_HOST_BANK i).putB Reg.SYS_BOOT_STATUS_FALLBACK fallback).put
        Reg.SIM_TUPLE2_HOST_BUILD b.build
      ({ h with uliska := { h.uliska with tested := if b.testedValid then b.tested else [] } }).enterStep 4
  | 4 => (h.put Reg.TRT_CTRL_REMAP 1).enterStep 5
  | 5 =>
    if !w.ok || !coverable h.repaired w.faults then h.failStep 3
    else (w.faults.foldl (fun h f => h.markUnit f) h).enterStep 6
  | 6 =>
    if !w.ok || !calCovers w.cal others then h
    else ((w.cal.filter (fun c => others.contains c.lane)).foldl (fun h c => h.calibrate c) h).wakeCalibrated.enterStep 7
  | 7 =>
    let (h, ok) := h.initialTraining (w.failedChannels.map (·.val))
    if ok then (h.trainedAll.enterStep 8).enableLinks else h.failStep 5
  | 8 => if h.tb.syncOk then h.enterStep 9 else h
  | _ => h

/-- An image stands between the end of its verification and its activation, or has activated. -/
def HostSide.imageUnderWay (h : HostSide) : Bool := (decide (2 ≤ h.stageOf ∧ h.stageOf ≤ 5)) || h.cfg.imageId != 0

/-- Step 12 (R416, R423): the two straps are compared where the field side can be asked, and ELIGIBLE set unless they
differ. Log entry 166 (DEDUCED). -/
def HostSide.join (h : HostSide) (fieldRole : Option Bool) : HostSide :=
  let differ := (fieldRole.map (fun r => r != h.flag Reg.SYS_STRAPS_ROLE)).getD false
  if differ then (h.put Reg.SYS_STRAPS_ROLE_MISMATCH 1).log 1 4 0
  else h.put Reg.TWN_CTRL_ELIGIBLE 1

/-- Steps 9 to 12 end: with each image of a resynchronisation steps 9 to 11 run again (R425).
Log entries 45 (DEDUCED), 117 (DEDUCED), 122 (DESIGN CHOICE). -/
def HostSide.lateStepDone (h : HostSide) (fieldRole : Option Bool) (n : Nat) : HostSide :=
  match n with
  | 9 => if h.imageUnderWay then h.enterStep 0xA else h
  | 0xA => if decide (3 ≤ h.stageOf ∧ h.stageOf ≤ 5) || h.cfg.imageId != 0 then h.enterStep 0xB else h
  | 0xB =>
    if h.cfg.imageId = 0 then h
    else if h.get Reg.TWN_RESYNC_STATE = 1 then h.enterStep 9 else h.enterStep 0xC
  | 0xC => (h.join fieldRole).enterStep 0xF
  | _ => h

/-- A refusal at steps 9 to 11 starts step 9 again (Table 18.5). Log entries 45 (DEDUCED), 155 (DEDUCED). -/
def HostSide.restartStaging (h : HostSide) : HostSide :=
  let n := h.get Reg.SYS_BOOT_STATUS_STEP
  if 9 ≤ n ∧ n ≤ 0xB then h.enterStep 9 else h

/-- Bounds of the steps that a timeout ends, in ns (Table 18.5). -/
def stepBound (n banks : Nat) : Nat :=
  match n with
  | 1 => 1000000
  | 2 => 20000000
  | 3 => 500000000 * banks
  | 4 => 1000000
  | 5 => 400000000
  | 6 => 40000000
  | 7 => 120000000
  | 8 => 10000000000
  | _ => 100000000

/-- Step `n` has exceeded its bound, which counts from its entry, of step 6 from the entry of step 2 (Table 18.5). -/
def HostSide.stepLate (h : HostSide) (p : SidePhys) (n : Nat) : Bool :=
  let banks := if (p.bank p.preferred).verifies then 1 else 2
  let entry := if n = 6 then h.boot.romEntry else h.boot.stepEntry
  (decide (1 ≤ n ∧ n ≤ 8) || n == 0xC) && decide (stepBound n banks < h.tb.sinceNs entry)

/-- The current step exceeds its bound: step 9 begins with NO_SYNC after step 8, every other step fails with TIMEOUT. The
bounds of steps 9 to 11 act through their refusals. Log entry 44 (DEDUCED). -/
def HostSide.stepTimeout (h : HostSide) (p : SidePhys) : HostSide :=
  match h.bootStep with
  | none => h
  | some n =>
    if !h.stepLate p n then h
    else if n = 8 then (h.put Reg.SYS_BOOT_STATUS_NO_SYNC 1).enterStep 9
    else h.failStep 4

/-! ## Field start-up (R426) -/

/-- The field side halts and asserts FIELD_FAULT_N. -/
def FieldSide.halt (f : FieldSide) : FieldSide := { f with boot := { f.boot with failed := true }, faultPin := true }

def FieldSide.enterStep (f : FieldSide) (n : Nat) : FieldSide := { f with boot := ⟨n, false, f.tb.raw.toNat⟩ }

/-- A field lane's codes (15_lanes.md R342). -/
def FieldSide.calibrate (f : FieldSide) (c : LaneCal) : FieldSide :=
  let l := tget FieldLane.reset f.lanes (c.lane - 96)
  { f with lanes := tput FieldLane.reset f.lanes (c.lane - 96) { l with term := c.term, offset := c.offset } }

/-- The current step F1 to F6 ends with these findings. -/
def FieldSide.stepDone (f : FieldSide) (p : SidePhys) (w : StepWork) : FieldSide :=
  if f.boot.failed then f
  else
    let fls := (List.range 10).map (· + 96)
    match f.boot.step with
    | 1 => f.enterStep 2
    | 2 => if w.ok then ({ f with zref := w.zref.toNat }).enterStep 3 else f.halt
    | 3 =>
      match p.chooseBank with
      | none => f.halt
      | some (i, fallback) => ({ f with bank := i, fallback := fallback, build := (p.bank i).build }).enterStep 4
    | 4 =>
      let rows := w.faults.foldl (fun r x => match x with
        | .sramRow a n => r.bind (fun r => redirectRow r a n)
        | _ => none) (some f.repaired)
      match w.ok, rows with
      | true, some rows => ({ f with repaired := rows }).enterStep 5
      | _, _ => f.halt
    | 5 =>
      if !w.ok then f.halt
      else if !calCovers w.cal fls then f
      else ((w.cal.filter (fun c => fls.contains c.lane)).foldl (fun f c => f.calibrate c) f).enterStep 6
    | 6 => f.enterStep 7
    | _ => f

/-! ## Firmware operations (R421) -/

/-- FW_STATUS of a failed operation. Log entry 118 (DEDUCED). -/
def HostSide.fwFails (h : HostSide) (code : Nat) : HostSide :=
  ({ h with fwOp := none }).put Reg.SYS_FW_STATUS_STATE 3 |>.put Reg.SYS_FW_STATUS_CODE code

/-- FW_STATUS of a completed operation. -/
def HostSide.fwDone (h : HostSide) (mib : Nat) : HostSide :=
  ((({ h with fwOp := none }).put Reg.SYS_FW_STATUS_STATE 2).put Reg.SYS_FW_STATUS_CODE 0).put Reg.SYS_FW_STATUS_PROGRESS mib

/-- A GO write of SYS.FW_CTRL with an OP: 1 WRITE_HOST, 2 WRITE_FIELD, 3 SELECT_HOST; OP none starts nothing.
Log entry 118 (DEDUCED). -/
def HostSide.fwGo (h : HostSide) (op : Nat) : HostSide :=
  if h.get Reg.SYS_FW_STATUS_STATE = 1 then h.put Reg.SYS_FW_STATUS_IGNORED 1
  else if op = 0 then h
  else
    let len := h.get Reg.SYS_FW_LEN_BYTES
    let addr := h.pair Reg.SYS_FW_ADDR_LO_CA Reg.SYS_FW_ADDR_HI_CA
    let h := ((h.put Reg.SYS_FW_STATUS_CODE 0).put Reg.SYS_FW_STATUS_PROGRESS 0)
    if (op = 1 ∧ 128 * 1048576 < len) ∨ (op = 2 ∧ 24 * 1048576 < len) then h.fwFails 2
    else if op = 2 ∧ h.xing.state < 2 then h.fwFails 5
    else
      let h := ({ h with fwOp := some ⟨op, addr, len⟩ }).put Reg.SYS_FW_STATUS_STATE 1
      if op = 2 then
        h.beginSending true 0 (h.store.bytes addr len) (h.now + BitVec.ofNat 64 (1000000000 + cdiv len 1048576 * 40000000))
      else h

/-- A bank after a write of it (R420, R421; 11_crossing.md R268): the firmware written, and the boot record where it
verified. -/
def SidePhys.written (p : SidePhys) (i : Nat) (image : List Byte) (v : FwFindings) : SidePhys :=
  let b := p.bank i
  let good := v.flashOk && v.verifies
  let p := p.setBank i { b with
    image := some image
    verifies := good
    build := v.build.toNat
    tested := v.tested
    testedValid := v.testedValid }
  if good then p.select i else p

/-- The operation in progress ends. Log entry 119 (DEDUCED). -/
def State.fwComplete (s : State) (v : FwFindings) : State :=
  match s.host.fwOp with
  | none => s
  | some o =>
    let i := 1 - s.host.get Reg.SYS_BOOT_STATUS_HOST_BANK
    let p := s.phys.hostPhys
    let mib := o.len / 1048576
    if o.op = 1 then
      let s := { s with phys := { s.phys with hostPhys := p.written i (s.host.store.bytes o.addr o.len) v } }
      let h := s.host
      { s with host :=
          if !v.flashOk then
            let (n, h) := h.free (mib + 1)
            (h.put Reg.SYS_FW_STATUS_PROGRESS n).fwFails 3
          else if !v.verifies then (h.put Reg.SYS_FW_STATUS_PROGRESS mib).fwFails 1
          else h.fwDone mib }
    else if o.op = 2 then
      match s.host.xing.fwSend with
      | some x =>
        if x.phase = 3 then { s with host := (s.host.fwDone mib).setSending true none }
        else if x.phase = 4 then
          { s with host := (((s.host.put Reg.SYS_FW_STATUS_PROGRESS (x.sent / 1048576)).fwFails 4).setSending true none) }
        else if s.host.xing.state < 2 then
          { s with host := (((s.host.put Reg.SYS_FW_STATUS_PROGRESS (x.sent / 1048576)).fwFails 5).setSending true none) }
        else s
      | none => s
    else if (p.bank i).verifies then
      { s with host := s.host.fwDone 0, phys := { s.phys with hostPhys := p.select i } }
    else { s with host := s.host.fwFails 6 }

end Sys2Proof.Machine
end

