-- ==== Sys2Proof/Machine/CommitOps.lean ====
section
/-! DEFINITION. Commits (06_composition.md R145 to R147; 08_heads.md R190, R191; 03_structure_image.md R74). -/

namespace Sys2Proof.Machine

/-- A layer's pending descriptor: words 0 to 7 of the register table. -/
def HostSide.pendingDesc (h : HostSide) (l : Nat) : List Nat := (List.range 8).map (fun i => h.get (Reg.layerWord l i))

/-- The extent of a layer's source (R146). -/
def HostSide.sourceExtent (h : HostSide) (e : LayerEntry) (d : List Nat) : Nat × Nat :=
  match e.kind with
  | 0 => ((h.cfg.streams.find? (fun s => s.stream == e.source)).map (fun s => (s.maxW, s.maxH))).getD (0, 0)
  | 1 => ((h.surface (descSurface d)).map (fun s => (s.width, s.height))).getD (0, 0)
  | 2 => ((h.cfg.mimic.bind (fun m => m.surfaces.find? (fun s => s.surface == e.source))).map
      (fun s => (s.width, s.height))).getD (0, 0)
  | _ => ((h.cfg.stitch.bind (fun s => s.recvs.find? (fun r => r.region == e.source))).map (fun r => (r.w, r.h))).getD (0, 0)

/-- FORMAT and CODING of the surface that a layer's entry names. -/
def HostSide.entryFormat (h : HostSide) (e : LayerEntry) : Nat × Nat :=
  ((h.cfg.surfaces.find? (fun s => s.handle == e.source)).map (fun s => (s.format, s.coding))).getD (0, 0)

/-- The source is 4:2:0. -/
def HostSide.source420 (h : HostSide) (e : LayerEntry) : Bool :=
  e.kind == 0 || (e.kind == 1 && ((h.entryFormat e).1 == 3 || (h.entryFormat e).1 == 4))

/-- Layer `a` with descriptor `da` stands above layer `b` with `db` (R148). -/
def standsAbove (a : Nat) (da : List Nat) (b : Nat) (db : List Nat) : Bool :=
  decide (descZ db < descZ da) || (descZ da == descZ db && decide (b < a))

/-- R147 forbids the change of layer `e` to descriptor `d`. -/
def HostSide.creditForbids (h : HostSide) (e : LayerEntry) (d : List Nat) : Bool :=
  let a := h.activeDesc e.layer
  let credit (l : Nat) : Bool := h.flag (Reg.CMP_LAYER_STATUS_CREDIT l)
  let fixed := (descEnable a, descOpaque a, descZ a, descWord a 3, descWord a 4, descWord a 5) !=
    (descEnable d, descOpaque d, descZ d, descWord d 3, descWord d 4, descWord d 5)
  (credit e.layer && fixed) ||
    (h.layersOf e.head).any (fun c => c.layer != e.layer && credit c.layer &&
      standsAbove c.layer (h.activeDesc c.layer) e.layer a && standsAbove e.layer d c.layer (h.activeDesc c.layer))

/-- One axis of check 0x6. -/
def scaleBad (e : LayerEntry) (src dst : Nat) : Bool :=
  src == 0 || dst == 0 || decide (dst * e.envDown < src) || decide (src * e.envUp < dst)

/-- The checks of a taken layer in the order of Table 06.4; 0 for none failed. Log entry 72 (DEDUCED). -/
def HostSide.commitCheck (h : HostSide) (imagePending : Bool) (e : LayerEntry) (d : List Nat) : Nat :=
  let x1 := descDstX d + descDstW d
  let y1 := descDstY d + descDstH d
  let st := h.surfState (descSurface d)
  let (w, ht) := h.sourceExtent e d
  let odd (n : Nat) : Bool := n % 2 == 1
  if imagePending then 1
  else if e.kind != 1 && descSurface d != 0 then 2
  else if h.creditForbids e d then 3
  else if !descEnable d then 0
  else if decide (descDstX d < e.envX0) || decide (descDstY d < e.envY0) || decide (e.envX1 < x1) ||
      decide (e.envY1 < y1) then 4
  else if decide (e.envSrcW < descSrcW d) || decide (e.envSrcH < descSrcH d) then 5
  else if scaleBad e (descSrcW d) (descDstW d) || scaleBad e (descSrcH d) (descDstH d) then 6
  else if e.kind == 1 && (st == 0 || st == 3) then 7
  else if e.kind == 1 && ((h.surface (descSurface d)).map (fun s => (s.format, s.coding))) != some (h.entryFormat e) then 8
  else if decide (w < descSrcX d + descSrcW d) || decide (ht < descSrcY d + descSrcH d) ||
      (h.source420 e && (odd (descSrcX d) || odd (descSrcY d) || odd (descSrcW d) || odd (descSrcH d))) ||
      ((axisX d).pre && odd (descSrcW d)) || ((axisY d).pre && odd (descSrcH d)) then 9
  else 0

/-- The committed image changes the head or the layer, and its last switch instant has not passed (R74).
Log entry 72 (DEDUCED). -/
def HostSide.imagePending (h : HostSide) (k l : Nat) : Bool :=
  h.committed && (h.stage.chHeads.contains k || h.stage.chLayers.contains l)

/-- A taken layer is checked: refused and logged, or armed (R146). -/
def HostSide.commitLayer (h : HostSide) (k : Nat) (e : LayerEntry) : HostSide :=
  let d := h.pendingDesc e.layer
  let h := h.put (Reg.layerWord e.layer 0) (clrBit (descWord d 0) 0)
  let code := h.commitCheck (h.imagePending k e.layer) e d
  if code = 0 then h.setArmedDesc e.layer (some d)
  else ((h.put (Reg.CMP_LAYER_STATUS_REFUSE e.layer) code).put (Reg.CMP_LAYER_STATUS_REFUSED e.layer) 1).log 3 code e.layer

/-- The frame of the first latch that follows a commit write: a latch of the same cycle does not (R190). -/
def HostSide.followingLatch (h : HostSide) (k : Nat) : Nat :=
  match h.nextLatch k with
  | some n => if dtReached h.now n.at_ then n.frame + 1 else n.frame
  | none => (h.head k).nextFrame

/-- A commit of a head (R145, R190, R191). Log entry 72 (DEDUCED). -/
def HostSide.commitHead (h : HostSide) (k : Nat) (target : Option Nat) : HostSide :=
  if !h.flag (Reg.HDS_STATUS_ENABLED k) then h
  else
    let taken := (h.layersOf k).filter (fun e => bit (h.get (Reg.layerWord e.layer 0)) 0)
    let sel := Buf.surface (h.get Reg.CST_CWIN_CTRL_HANDLE)
    -- a commit that raises the selected surface's count from 0 closes its open tiles first (R311)
    let raises := h.leaseCount sel == 0 && taken.any (fun e =>
      let d := h.pendingDesc e.layer
      h.commitCheck (h.imagePending k e.layer) e d == 0 && h.bufOf e d == some sel)
    let h := if raises then h.closeAll else h
    let h := if taken.any (fun e => h.imagePending k e.layer) then h.log 6 1 k else h
    let h := taken.foldl (fun h e => h.commitLayer k e) h
    if h.committed && h.stage.chHeads.contains k then h.settle
    else
    let m := h.followingLatch k
    let d : Int := match target with
      | none => 0
      | some t => signed (t + 256 - m % 256) 8
    let late := decide (d < 0)
    let frame := if late then m else m + d.toNat
    let v := h.head k
    let h := if v.commit.isSome then h.put (Reg.HDS_STATUS_COMMIT_MERGED k) 1 else h
    let h := (h.setHead k { h.head k with commit := some frame }).put (Reg.HDS_STATUS_COMMIT_PENDING k) 1
    let h := if late then
        ((h.put (Reg.HDS_STATUS_COMMIT_LATE k) 1).bump (Reg.HDS_COUNTS_LATE_COMMITS k)).log 5 1 k (frame % 2 ^ 32)
      else h
    h.settle

end Sys2Proof.Machine
end

