-- ==== Sys2Proof/Machine/CfgRead.lean ====
section
/-! DEFINITION. Reading the entries of a structure image from their bytes: one reader per body table, with the test
that every reserved bit is 0 (03_structure_image.md, Container: little-endian fields, network addresses in wire
order). -/

namespace Sys2Proof.Machine

/-- Bits outside the masks given per byte are 0. -/
def reservedZero (b : List Byte) (masks : List Nat) : Bool :=
  (b.zip masks).all (fun p => p.1.toNat &&& (255 - p.2) == 0)

/-- Sixteen little-endian words. -/
def readWords (b : List Byte) : Nat → List Nat
  | 0 => []
  | n + 1 => fieldAt b 0 4 :: readWords (b.drop 4) n

/-- Splits into pieces of `sz` bytes. -/
def pieces (sz : Nat) (b : List Byte) : Nat → List (List Byte)
  | 0 => []
  | n + 1 => b.take sz :: pieces sz (b.drop sz) n

/-- Reads one HEADS entry (03_structure_image.md Table 03.5). -/
def HeadEntry.parse (b : List Byte) : HeadEntry where
  head := fieldAt b 0 1
  enable := bits (fieldAt b 1 1) 0 1
  tickerEn := bits (fieldAt b 1 1) 1 1
  tickerCorner := bits (fieldAt b 1 1) 2 2
  cell := bits (fieldAt b 1 1) 4 2
  format := bits (fieldAt b 1 1) 6 1
  hActive := fieldAt b 2 2
  vActive := fieldAt b 4 2
  hTotal := fieldAt b 6 2
  vTotal := fieldAt b 8 2
  latchLines := fieldAt b 10 2
  periodNs := fieldAt b 12 4
  periodFrac := bits (fieldAt b 16 4) 0 24
  epoch := fieldAt b 24 8
  tickerOffX := fieldAt b 32 1
  tickerOffY := fieldAt b 33 1
  lane := fieldAt b 34 1
  engine := fieldAt b 35 1
  tickerOn := bits (fieldAt b 36 4) 0 30
  tickerOff := bits (fieldAt b 40 4) 0 30
  maxLayers := fieldAt b 44 1
  destMac := fieldBE b 48 6
  pcp := bits (fieldAt b 54 2) 13 3
  vid := bits (fieldAt b 54 2) 0 12
  streamHandle := fieldAt b 56 2

/-- Every reserved bit of one HEADS entry (03_structure_image.md Table 03.5) is 0. -/
def HeadEntry.reservedOk (b : List Byte) : Bool :=
  b.length == 64 && reservedZero b ([255, 127] ++ List.replicate 17 255 ++ [0, 0, 0, 0, 0] ++ List.replicate 15 255 ++ [63, 255, 255, 255, 63, 255, 0, 0, 0] ++ List.replicate 7 255 ++ [239, 255, 255, 0, 0, 0, 0, 0, 0])

/-- Reads one GINGHAM entry (Table 03.6). -/
def GinghamEntry.parse (b : List Byte) : GinghamEntry where
  colourA := bits (fieldAt b 0 4) 0 30
  colourB := bits (fieldAt b 4 4) 0 30
  coverage := bits (fieldAt b 4 4) 30 2

/-- Every reserved bit of one GINGHAM entry (Table 03.6) is 0. -/
def GinghamEntry.reservedOk (b : List Byte) : Bool :=
  b.length == 8 && reservedZero b ([255, 255, 255, 63, 255, 255, 255, 255])

/-- Reads one LAYERS entry (Table 03.7); the 64-byte initial descriptor is kept as its 16 words. -/
def LayerEntry.parse (b : List Byte) : LayerEntry where
  layer := bits (fieldAt b 0 2) 0 10
  head := fieldAt b 2 1
  liveBearing := bits (fieldAt b 3 1) 0 1
  ginghamEn := bits (fieldAt b 3 1) 1 1
  kind := bits (fieldAt b 3 1) 2 2
  source := fieldAt b 4 2
  budget := bits (fieldAt b 8 4) 0 26
  envX0 := fieldAt b 12 2
  envY0 := fieldAt b 14 2
  envX1 := fieldAt b 16 2
  envY1 := fieldAt b 18 2
  envSrcW := fieldAt b 20 2
  envSrcH := fieldAt b 22 2
  envDown := fieldAt b 24 1
  envUp := fieldAt b 25 1
  descriptor := readWords (slice b 32 64) 16

/-- Every reserved bit of one LAYERS entry (Table 03.7); the 64-byte initial descriptor is kept as its 16 words is 0. -/
def LayerEntry.reservedOk (b : List Byte) : Bool :=
  b.length == 96 && reservedZero b ([255, 3, 255, 15, 255, 255, 0, 0, 255, 255, 255, 3] ++ List.replicate 14 255 ++ [0, 0, 0, 0, 0, 0] ++ List.replicate 64 255)

/-- Reads one WATCH entry (Table 03.10). -/
def WatchEntry.parse (b : List Byte) : WatchEntry where
  layer := bits (fieldAt b 0 2) 0 10
  tile := fieldAt b 2 1
  bound := bits (fieldAt b 3 1) 0 1
  predicate := bits (fieldAt b 3 1) 1 1
  x := fieldAt b 4 2
  y := fieldAt b 6 2
  w := fieldAt b 8 2
  h := fieldAt b 10 2
  point := bits (fieldAt b 12 4) 0 18
  threshold := fieldAt b 16 4
  pointBudget := bits (fieldAt b 20 4) 0 26
  freezeMs := fieldAt b 24 2

/-- Every reserved bit of one WATCH entry (Table 03.10) is 0. -/
def WatchEntry.reservedOk (b : List Byte) : Bool :=
  b.length == 32 && reservedZero b ([255, 3, 255, 3] ++ List.replicate 10 255 ++ [3, 0] ++ List.replicate 7 255 ++ [3, 255, 255, 0, 0, 0, 0, 0, 0])

/-- Reads one STREAMS entry (05_ingest_decode.md Table 05.1). -/
def StreamEntry.parse (b : List Byte) : StreamEntry where
  stream := bits (fieldAt b 0 1) 0 7
  enable := bits (fieldAt b 1 1) 0 1
  cls := bits (fieldAt b 1 1) 1 2
  syncSrc := bits (fieldAt b 1 1) 3 2
  frer := bits (fieldAt b 1 1) 5 1
  ipv6 := bits (fieldAt b 1 1) 6 1
  multicast := bits (fieldAt b 1 1) 7 1
  codec := fieldAt b 2 1
  level := fieldAt b 3 1
  portA := bits (fieldAt b 4 1) 0 2
  portB := bits (fieldAt b 4 1) 2 2
  pt := fieldAt b 5 1
  udpPort := fieldAt b 6 2
  addr := fieldBE b 8 16
  ssrc := fieldAt b 24 4
  maxW := fieldAt b 28 2
  maxH := fieldAt b 30 2
  minPeriodUs := fieldAt b 32 4
  maxPeriodUs := fieldAt b 36 4
  bitrate := fieldAt b 40 4
  jbBytes := fieldAt b 44 4
  syncBound := bits (fieldAt b 48 4) 0 26
  pathMax := fieldAt b 52 4
  extIdNtp := fieldAt b 56 1
  extIdClk := fieldAt b 57 1
  srMaxAge := fieldAt b 58 1
  concealLimit := fieldAt b 59 1
  syncHold := fieldAt b 60 2
  jbHold := fieldAt b 62 1
  tokens := fieldAt b 63 1

/-- Every reserved bit of one STREAMS entry (05_ingest_decode.md Table 05.1) is 0. -/
def StreamEntry.reservedOk (b : List Byte) : Bool :=
  b.length == 64 && reservedZero b ([127, 255, 255, 255, 15] ++ List.replicate 46 255 ++ [3] ++ List.replicate 12 255)

/-- Reads one SURFACES entry (06_composition.md Table 06.2). -/
def SurfaceEntry.parse (b : List Byte) : SurfaceEntry where
  handle := bits (fieldAt b 0 2) 0 12
  format := fieldAt b 2 1
  coding := bits (fieldAt b 3 1) 0 2
  cls := bits (fieldAt b 3 1) 2 2
  fill := bits (fieldAt b 3 1) 4 1
  width := fieldAt b 4 2
  height := fieldAt b 6 2
  fillColour := bits (fieldAt b 8 4) 0 30
  syncBound := bits (fieldAt b 12 4) 0 26

/-- Every reserved bit of one SURFACES entry (06_composition.md Table 06.2) is 0. -/
def SurfaceEntry.reservedOk (b : List Byte) : Bool :=
  b.length == 32 && reservedZero b ([255, 15, 255, 31] ++ List.replicate 7 255 ++ [63, 255, 255, 255, 3] ++ List.replicate 16 0)

/-- Reads one mimic surface entry (07_mimic.md Table 07.3). -/
def MimicSurface.parse (b : List Byte) : MimicSurface where
  surface := bits (fieldAt b 0 1) 0 6
  width := fieldAt b 2 2
  height := fieldAt b 4 2
  bgColour := fieldAt b 8 4
  syncBound := bits (fieldAt b 12 4) 0 26

/-- Every reserved bit of one mimic surface entry (07_mimic.md Table 07.3) is 0. -/
def MimicSurface.reservedOk (b : List Byte) : Bool :=
  b.length == 16 && reservedZero b ([63, 0, 255, 255, 255, 255, 0, 0] ++ List.replicate 7 255 ++ [3])

/-- Reads one atlas frame entry (Table 07.4). -/
def FrameEntry.parse (b : List Byte) : FrameEntry where
  x := fieldAt b 0 2
  y := fieldAt b 2 2
  w := fieldAt b 4 2
  h := fieldAt b 6 2

/-- Every reserved bit of one atlas frame entry (Table 07.4) is 0. -/
def FrameEntry.reservedOk (b : List Byte) : Bool :=
  b.length == 8 && reservedZero b (List.replicate 8 255)

/-- Reads one state table entry (Table 07.5). -/
def StateEntry.parse (b : List Byte) : StateEntry where
  lo := fieldAt b 0 4
  hi := fieldAt b 4 4
  frame := fieldAt b 8 2
  tintEn := bits (fieldAt b 10 1) 0 1
  valid := bits (fieldAt b 10 1) 1 1
  tint := fieldAt b 12 4

/-- Every reserved bit of one state table entry (Table 07.5) is 0. -/
def StateEntry.reservedOk (b : List Byte) : Bool :=
  b.length == 16 && reservedZero b (List.replicate 10 255 ++ [3, 0, 255, 255, 255, 255])

/-- Reads one widget record (Table 07.6). -/
def WidgetEntry.parse (b : List Byte) : WidgetEntry where
  widget := fieldAt b 0 2
  surface := bits (fieldAt b 2 1) 0 6
  enable := bits (fieldAt b 3 1) 0 1
  bound := bits (fieldAt b 3 1) 1 1
  point := bits (fieldAt b 4 4) 0 18
  table := fieldAt b 8 2
  x := fieldAt b 12 2
  y := fieldAt b 14 2
  w := fieldAt b 16 2
  h := fieldAt b 18 2

/-- Every reserved bit of one widget record (Table 07.6) is 0. -/
def WidgetEntry.reservedOk (b : List Byte) : Bool :=
  b.length == 32 && reservedZero b ([255, 255, 63, 3, 255, 255, 3, 0, 255, 255, 0, 0] ++ List.replicate 8 255 ++ List.replicate 12 0)

/-- Reads one ENCODE entry (09_encode.md Table 09.1). -/
def EncodeEntry.parse (b : List Byte) : EncodeEntry where
  context := bits (fieldAt b 0 1) 0 4
  enable := bits (fieldAt b 1 1) 0 1
  main10 := bits (fieldAt b 1 1) 1 1
  layerSrc := bits (fieldAt b 1 1) 2 1
  outPcie := bits (fieldAt b 1 1) 3 1
  rowAdapt := bits (fieldAt b 1 1) 4 1
  ipv6 := bits (fieldAt b 1 1) 5 1
  head := fieldAt b 2 1
  core := fieldAt b 3 1
  layer := bits (fieldAt b 4 2) 0 10
  div := fieldAt b 6 1
  qpMin := fieldAt b 7 1
  qpMax := fieldAt b 8 1
  port := bits (fieldAt b 9 1) 0 2
  gopLen := fieldAt b 10 2
  maxFrameBits := fieldAt b 12 4
  addr := fieldBE b 16 16
  ringOffset := fieldAt b 16 8
  ringBytes := fieldAt b 24 4
  ssrc := fieldAt b 32 4
  udpPort := fieldAt b 36 2
  pt := fieldAt b 38 1
  extIdNtp := fieldAt b 39 1
  mtu := fieldAt b 40 2

/-- Every reserved bit of one ENCODE entry (09_encode.md Table 09.1) is 0. -/
def EncodeEntry.reservedOk (b : List Byte) : Bool :=
  b.length == 64 && reservedZero b ([15, 63, 255, 255, 255, 3, 255, 255, 255, 3] ++ List.replicate 32 255 ++ List.replicate 22 0)

/-- Reads one FIELD port entry (10_field_points_commands.md Table 10.2). -/
def PortEntry.parse (b : List Byte) : PortEntry where
  port := bits (fieldAt b 0 1) 0 3
  mode := fieldAt b 1 1
  gptp := bits (fieldAt b 2 1) 0 1
  mac := fieldBE b 4 6
  pcp := bits (fieldAt b 10 2) 13 3
  vid := bits (fieldAt b 10 2) 0 12
  ipv4 := fieldBE b 12 4
  cycleNs := fieldAt b 16 4
  winOpenNs := fieldAt b 20 4
  winLenNs := fieldAt b 24 4

/-- Every reserved bit of one FIELD port entry (10_field_points_commands.md Table 10.2) is 0. -/
def PortEntry.reservedOk (b : List Byte) : Bool :=
  b.length == 32 && reservedZero b ([7, 255, 1, 0] ++ List.replicate 7 255 ++ [239] ++ List.replicate 16 255 ++ [0, 0, 0, 0])

/-- Reads one FIELD source entry (Table 10.3). -/
def SourceEntry.parse (b : List Byte) : SourceEntry where
  source := fieldAt b 0 1
  enable := bits (fieldAt b 1 1) 0 1
  modbus := bits (fieldAt b 1 1) 1 1
  cls := bits (fieldAt b 1 1) 2 2
  frer := bits (fieldAt b 1 1) 4 1
  multicast := bits (fieldAt b 1 1) 5 1
  portA := bits (fieldAt b 2 1) 0 3
  portB := bits (fieldAt b 2 1) 3 3
  unitId := fieldAt b 3 1
  addr := fieldBE b 4 4
  mac := fieldBE b 8 6
  l4Port := fieldAt b 14 2
  publisherId := fieldAt b 16 8
  pathMax := fieldAt b 24 4
  silenceMs := fieldAt b 28 2
  syncBoundUs := fieldAt b 30 2

/-- Every reserved bit of one FIELD source entry (Table 10.3) is 0. -/
def SourceEntry.reservedOk (b : List Byte) : Bool :=
  b.length == 32 && reservedZero b ([255, 63, 63] ++ List.replicate 29 255)

/-- Reads one FIELD poll entry (Table 10.6). -/
def PollEntry.parse (b : List Byte) : PollEntry where
  source := fieldAt b 0 1
  function := fieldAt b 1 1
  start := fieldAt b 2 2
  quantity := fieldAt b 4 2
  periodMs := fieldAt b 6 2
  timeoutMs := fieldAt b 8 2

/-- Every reserved bit of one FIELD poll entry (Table 10.6) is 0. -/
def PollEntry.reservedOk (b : List Byte) : Bool :=
  b.length == 16 && reservedZero b (List.replicate 10 255 ++ [0, 0, 0, 0, 0, 0])

/-- Reads one FIELD map entry (Table 10.7). -/
def MapEntry.parse (b : List Byte) : MapEntry where
  point := bits (fieldAt b 0 4) 0 18
  item := bits (fieldAt b 0 4) 18 12
  key := fieldAt b 4 2
  source := fieldAt b 6 1
  decode := bits (fieldAt b 7 1) 0 3
  wordSwap := bits (fieldAt b 7 1) 3 1

/-- Every reserved bit of one FIELD map entry (Table 10.7) is 0. -/
def MapEntry.reservedOk (b : List Byte) : Bool :=
  b.length == 8 && reservedZero b ([255, 255, 255, 63, 255, 255, 255, 15])

/-- Reads one POINTS entry (Table 10.8). -/
def PointEntry.parse (b : List Byte) : PointEntry where
  point := bits (fieldAt b 0 4) 0 18
  type := fieldAt b 4 1
  refreshMs := fieldAt b 6 2
  deadband := fieldAt b 8 4

/-- Every reserved bit of one POINTS entry (Table 10.8) is 0. -/
def PointEntry.reservedOk (b : List Byte) : Bool :=
  b.length == 16 && reservedZero b ([255, 255, 3, 0, 255, 0, 255, 255, 255, 255, 255, 255, 0, 0, 0, 0])

/-- Reads one guard term (Table 10.13). -/
def GuardTerm.parse (b : List Byte) : GuardTerm where
  point := bits (fieldAt b 0 4) 0 18
  op := bits (fieldAt b 0 4) 18 4
  operand := fieldAt b 4 4
  actionMask := fieldAt b 8 2
  dwellMs := fieldAt b 10 2
  maxAgeMs := fieldAt b 12 2

/-- Every reserved bit of one guard term (Table 10.13) is 0. -/
def GuardTerm.reservedOk (b : List Byte) : Bool :=
  b.length == 16 && reservedZero b ([255, 255, 63, 0] ++ List.replicate 10 255 ++ [0, 0])

/-- Reads one command target entry (Table 10.12). -/
def TargetEntry.parse (b : List Byte) : TargetEntry where
  target := bits (fieldAt b 0 2) 0 14
  enable := bits (fieldAt b 2 1) 0 1
  modbus := bits (fieldAt b 2 1) 1 1
  frer := bits (fieldAt b 2 1) 2 1
  port := bits (fieldAt b 3 1) 0 3
  portB := bits (fieldAt b 3 1) 3 3
  launchMax := fieldAt b 4 4
  allowed := fieldAt b 8 2
  minIntervalMs := fieldAt b 10 2
  rateCount := fieldAt b 12 2
  rateWindowMs := fieldAt b 14 2
  argMin := fieldAt b 16 4
  argMax := fieldAt b 20 4
  termCount := fieldAt b 24 1
  terms := (pieces 16 (slice b 32 128) 8).map GuardTerm.parse
  destMac := fieldBE b 160 6
  pcp := bits (fieldAt b 166 2) 13 3
  vid := bits (fieldAt b 166 2) 0 12
  destIp := fieldBE b 168 4
  destPort := fieldAt b 172 2
  dswId := fieldAt b 174 2
  publisherId := fieldAt b 176 8
  mbAddr := fieldAt b 184 2
  mbFunc := fieldAt b 186 1
  run := fieldAt b 224 32

/-- Every reserved bit of one command target entry (Table 10.12) is 0. -/
def TargetEntry.reservedOk (b : List Byte) : Bool :=
  b.length == 256 && reservedZero b ([255, 63, 7, 63] ++ List.replicate 21 255 ++ List.replicate 7 0 ++ [255, 255, 63, 0] ++ List.replicate 10 255 ++ [0, 0, 255, 255, 63, 0] ++ List.replicate 10 255 ++ [0, 0, 255, 255, 63, 0] ++ List.replicate 10 255 ++ [0, 0, 255, 255, 63, 0] ++ List.replicate 10 255 ++ [0, 0, 255, 255, 63, 0] ++ List.replicate 10 255 ++ [0, 0, 255, 255, 63, 0] ++ List.replicate 10 255 ++ [0, 0, 255, 255, 63, 0] ++ List.replicate 10 255 ++ [0, 0, 255, 255, 63, 0] ++ List.replicate 10 255 ++ [0, 0] ++ List.replicate 7 255 ++ [239] ++ List.replicate 19 255 ++ List.replicate 37 0 ++ List.replicate 32 255)

/-- Reads one CONSOLE_AUTH entry (11_crossing.md Table 11.7). -/
def ConsoleEntry.parse (b : List Byte) : ConsoleEntry where
  console := fieldAt b 0 2
  enable := bits (fieldAt b 2 1) 0 1
  anyOperator := bits (fieldAt b 2 1) 1 1
  operator := fieldAt b 4 4
  targetFirst := bits (fieldAt b 8 2) 0 14
  targetCount := fieldAt b 10 2
  actions := fieldAt b 12 2

/-- Every reserved bit of one CONSOLE_AUTH entry (11_crossing.md Table 11.7) is 0. -/
def ConsoleEntry.reservedOk (b : List Byte) : Bool :=
  b.length == 16 && reservedZero b ([255, 255, 3, 0, 255, 255, 255, 255, 255, 63, 255, 255, 255, 255, 0, 0])

/-- Reads one STITCH link entry (15_lanes.md Table 15.5). -/
def LinkEntry.parse (b : List Byte) : LinkEntry where
  link := fieldAt b 0 1
  enable := bits (fieldAt b 1 1) 0 1
  ilm2400 := bits (fieldAt b 1 1) 1 1
  wired := bits (fieldAt b 2 1) 0 4

/-- Every reserved bit of one STITCH link entry (15_lanes.md Table 15.5) is 0. -/
def LinkEntry.reservedOk (b : List Byte) : Bool :=
  b.length == 8 && reservedZero b ([255, 3, 15, 0, 0, 0, 0, 0])

/-- Reads one STITCH send entry (Table 15.5). -/
def SendEntry.parse (b : List Byte) : SendEntry where
  region := fieldAt b 0 1
  link := fieldAt b 1 1
  head := fieldAt b 2 1
  x := fieldAt b 4 2
  y := fieldAt b 6 2
  w := fieldAt b 8 2
  h := fieldAt b 10 2

/-- Every reserved bit of one STITCH send entry (Table 15.5) is 0. -/
def SendEntry.reservedOk (b : List Byte) : Bool :=
  b.length == 16 && reservedZero b ([255, 255, 255, 0] ++ List.replicate 8 255 ++ [0, 0, 0, 0])

/-- Reads one STITCH receive entry (Table 15.5). -/
def RecvEntry.parse (b : List Byte) : RecvEntry where
  region := fieldAt b 0 1
  link := fieldAt b 1 1
  w := fieldAt b 4 2
  h := fieldAt b 6 2

/-- Every reserved bit of one STITCH receive entry (Table 15.5) is 0. -/
def RecvEntry.reservedOk (b : List Byte) : Bool :=
  b.length == 16 && reservedZero b ([255, 255, 0, 0, 255, 255, 255, 255] ++ List.replicate 8 0)

/-- Reads one TWIN body (16_twin_repair.md Table 16.5). -/
def TwinBody.parse (b : List Byte) : TwinBody where
  role := fieldAt b 0 1
  autoEngine := bits (fieldAt b 1 1) 0 1
  autoDecoder := bits (fieldAt b 1 1) 1 1
  autoRetire := bits (fieldAt b 1 1) 2 1
  spareWarm := bits (fieldAt b 1 1) 3 1
  ceLimit := fieldAt b 2 2

/-- Every reserved bit of one TWIN body (16_twin_repair.md Table 16.5) is 0. -/
def TwinBody.reservedOk (b : List Byte) : Bool :=
  b.length == 16 && reservedZero b ([255, 15, 255, 255] ++ List.replicate 12 0)

/-- Reads one LOG body (03_structure_image.md Table 03.18). -/
def LogBody.parse (b : List Byte) : LogBody where
  frsRing := fieldAt b 0 8
  modRing := fieldAt b 8 8
  modCount := fieldAt b 16 4

/-- Every reserved bit of one LOG body (03_structure_image.md Table 03.18) is 0. -/
def LogBody.reservedOk (b : List Byte) : Bool :=
  b.length == 32 && reservedZero b (List.replicate 20 255 ++ List.replicate 12 0)

/-- Reads one CST_MAP body (13_central_store.md Table 13.3). -/
def CstMap.parse (b : List Byte) : CstMap where
  grainLog2 := fieldAt b 0 1
  hashEn := bits (fieldAt b 1 1) 0 1
  rhWide := bits (fieldAt b 1 1) 1 1
  rhThreshold := fieldAt b 2 2
  srEn := bits (fieldAt b 4 2) 0 12
  srIdleUs := fieldAt b 8 4
  bar2Base := fieldAt b 16 8

/-- Every reserved bit of one CST_MAP body (13_central_store.md Table 13.3) is 0. -/
def CstMap.reservedOk (b : List Byte) : Bool :=
  b.length == 32 && reservedZero b ([255, 3, 255, 255, 255, 15, 0, 0, 255, 255, 255, 255, 0, 0, 0, 0] ++ List.replicate 8 255 ++ List.replicate 8 0)

/-- Reads one BANK body (03_structure_image.md Table 03.9). -/
def BankBody.parse (b : List Byte) : BankBody where
  members := fieldAt b 0 1
  bankSeq := fieldAt b 4 4

/-- Every reserved bit of one BANK body (03_structure_image.md Table 03.9) is 0. -/
def BankBody.reservedOk (b : List Byte) : Bool :=
  b.length == 8 && reservedZero b ([255, 0, 0, 0, 255, 255, 255, 255])

/-- Reads one MPU region table entry (14_tartan_protection.md Table 14.5). -/
def RegionEntry.parse (b : List Byte) : RegionEntry where
  start := fieldAt b 0 4
  stop := fieldAt b 4 4
  en := bits (fieldAt b 8 4) 0 1
  ur := bits (fieldAt b 8 4) 1 1
  uw := bits (fieldAt b 8 4) 2 1
  pr := bits (fieldAt b 8 4) 3 1
  pw := bits (fieldAt b 8 4) 4 1
  sec := bits (fieldAt b 8 4) 5 1

/-- Every reserved bit of one MPU region table entry (14_tartan_protection.md Table 14.5) is 0. -/
def RegionEntry.reservedOk (b : List Byte) : Bool :=
  b.length == 16 && reservedZero b (List.replicate 8 255 ++ [63] ++ List.replicate 7 0)

end Sys2Proof.Machine
end

