-- ==== Sys2Proof/Machine/Crypto.lean ====
section
/-! DEFINITION. The cryptography of the signature block (03_structure_image.md R60): SHA-384 (FIPS 180-4) and ECDSA on
curve P-384 (FIPS 186-4), which the rule names and does not repeat. -/

namespace Sys2Proof.Machine

/-! ## SHA-384 -/

/-- The largest `r` with r^k ≤ target that agrees with `r` above its low `n` bits. -/
def rootFrom (k target : Nat) : Nat → Nat → Nat
  | 0, r => r
  | n + 1, r => rootFrom k target n (if (r + 2 ^ n) ^ k ≤ target then r + 2 ^ n else r)

/-- The first 64 bits of the fractional part of the k-th root of `p`. -/
def rootFraction (k p : Nat) : BitVec 64 := BitVec.ofNat 64 (rootFrom k (p * 2 ^ (64 * k)) 68 0)

/-- The 80 primes below 410: no number from 2 to 20 divides one but itself. -/
def smallPrimes : List Nat :=
  (List.range 410).filter (fun p => decide (2 ≤ p) && (List.range 19).all (fun d => p == d + 2 || p % (d + 2) != 0))

/-- The round constants: cube roots of the first 80 primes (FIPS 180-4). -/
def shaK : List (BitVec 64) := smallPrimes.map (rootFraction 3)

/-- The initial hash value of SHA-384: square roots of the ninth to sixteenth primes (FIPS 180-4). -/
def shaInit : List (BitVec 64) := ((smallPrimes.drop 8).take 8).map (rootFraction 2)

/-- The words of a message block. -/
def shaWords (b : List Byte) : Nat → List (BitVec 64)
  | 0 => []
  | n + 1 => BitVec.ofNat 64 (fieldBE b 0 8) :: shaWords (b.drop 8) n

/-- The next word of the message schedule, from the sixteen before it, newest first. -/
def shaNext (w : List (BitVec 64)) : BitVec 64 :=
  let g (i : Nat) : BitVec 64 := w.getD (i - 1) 0
  let s0 (x : BitVec 64) : BitVec 64 := x.rotateRight 1 ^^^ x.rotateRight 8 ^^^ (x >>> 7)
  let s1 (x : BitVec 64) : BitVec 64 := x.rotateRight 19 ^^^ x.rotateRight 61 ^^^ (x >>> 6)
  s1 (g 2) + g 7 + s0 (g 15) + g 16

/-- The schedule of 80 words, from its first sixteen, newest first. -/
def shaSchedule (w : List (BitVec 64)) : Nat → List (BitVec 64)
  | 0 => w
  | n + 1 => shaSchedule (shaNext (w.take 16) :: w) n

/-- One round on the eight working variables. -/
def shaRound (v : List (BitVec 64)) (k w : BitVec 64) : List (BitVec 64) :=
  match v with
  | [a, b, c, d, e, f, g, h] =>
    let t1 := h + (e.rotateRight 14 ^^^ e.rotateRight 18 ^^^ e.rotateRight 41) + ((e &&& f) ^^^ (~~~e &&& g)) + k + w
    let t2 := (a.rotateRight 28 ^^^ a.rotateRight 34 ^^^ a.rotateRight 39) + ((a &&& b) ^^^ (a &&& c) ^^^ (b &&& c))
    [t1 + t2, a, b, c, d + t1, e, f, g]
  | _ => v

/-- One block of 128 bytes. -/
def shaBlock (h : List (BitVec 64)) (b : List Byte) : List (BitVec 64) :=
  let w := (shaSchedule (shaWords b 16).reverse 64).reverse
  let v := (shaK.zip w).foldl (fun v p => shaRound v p.1 p.2) h
  (h.zip v).map (fun p => p.1 + p.2)

/-- Every block of a padded message. -/
def shaBlocks (h : List (BitVec 64)) (b : List Byte) : Nat → List (BitVec 64)
  | 0 => h
  | n + 1 => shaBlocks (shaBlock h (b.take 128)) (b.drop 128) n

/-- The SHA-384 digest as a number, most significant byte first. -/
def sha384 (b : List Byte) : Nat :=
  let zeros := (239 - b.length % 128) % 128
  let m := b ++ [0x80] ++ List.replicate zeros 0 ++ beBytes (8 * b.length) 16
  ((shaBlocks shaInit m (m.length / 128)).take 6).foldl (fun a w => a * 2 ^ 64 + w.toNat) 0

/-! ## ECDSA on P-384 -/

/-- The prime of the field and the order of the base point. -/
def p384P : Nat := 0xfffffffffffffffffffffffffffffffffffffffffffffffffffffffffffffffeffffffff0000000000000000ffffffff
def p384N : Nat := 0xffffffffffffffffffffffffffffffffffffffffffffffffc7634d81f4372ddf581a0db248b0a77aecec196accc52973

/-- The coefficient b of the curve. -/
def p384B : Nat := 0xb3312fa7e23ee7e4988e056be3f82d19181d9c6efe8141120314088f5013875ac656398d8a2ed19d2a85c8edd3ec2aef

/-- A point in projective coordinates of weight 2 and 3; z = 0 is the point at infinity. -/
structure EcPoint where
  x : Nat
  y : Nat
  z : Nat
  deriving DecidableEq, Repr

/-- The base point. -/
def p384G : EcPoint :=
  ⟨0xaa87ca22be8b05378eb1c71ef320ad746e1d3b628ba79b9859f741e082542a385502f25dbf55296c3a545e3872760ab7,
   0x3617de4a96262c6f5d9e98bf9292dc29f8f41dbd289a147ce9da3113b5f0b8c00a60b1ce1d7e819d7a431d7c90ea0e5f, 1⟩

/-- b to the power e modulo m; the last argument bounds the bits of e. -/
def powMod (m b e : Nat) : Nat → Nat
  | 0 => 1 % m
  | k + 1 => if e = 0 then 1 % m else
    let r := powMod m (b * b % m) (e / 2) k
    if e % 2 = 1 then r * b % m else r

/-- The inverse modulo a prime, by Fermat. -/
def invMod (m a : Nat) : Nat := powMod m a (m - 2) 384

/-- a − b in the field. -/
def fsub (a b : Nat) : Nat := (a + p384P - b % p384P) % p384P

/-- Doubling. -/
def ecDouble (p : EcPoint) : EcPoint :=
  let yy := p.y * p.y % p384P
  let s := 4 * p.x * yy % p384P
  let zz := p.z * p.z % p384P
  let m := 3 * (fsub p.x zz) * (p.x + zz) % p384P
  let x := fsub (m * m % p384P) (2 * s)
  ⟨x, fsub (m * fsub s x % p384P) (8 * yy * yy), 2 * p.y * p.z % p384P⟩

/-- Addition. -/
def ecAdd (p q : EcPoint) : EcPoint :=
  if p.z = 0 then q else if q.z = 0 then p
  else
    let z1 := p.z * p.z % p384P
    let z2 := q.z * q.z % p384P
    let u1 := p.x * z2 % p384P
    let u2 := q.x * z1 % p384P
    let s1 := p.y * z2 * q.z % p384P
    let s2 := q.y * z1 * p.z % p384P
    if u1 = u2 then (if s1 = s2 then ecDouble p else ⟨1, 1, 0⟩)
    else
      let h := fsub u2 u1
      let r := fsub s2 s1
      let hh := h * h % p384P
      let hhh := h * hh % p384P
      let v := u1 * hh % p384P
      let x := fsub (fsub (r * r % p384P) hhh) (2 * v)
      ⟨x, fsub (r * fsub v x % p384P) (s1 * hhh), h * p.z * q.z % p384P⟩

/-- k times a point; the last argument bounds the bits of k. -/
def ecMul (p : EcPoint) (k : Nat) : Nat → EcPoint
  | 0 => ⟨1, 1, 0⟩
  | n + 1 => if k = 0 then ⟨1, 1, 0⟩ else
    let r := ecMul (ecDouble p) (k / 2) n
    if k % 2 = 1 then ecAdd r p else r

/-- A public key names a point of the curve other than infinity. -/
def onCurve (x y : Nat) : Bool :=
  decide (x < p384P ∧ y < p384P) && (y * y % p384P == (x * x * x + (p384P - 3) * x + p384B) % p384P)

/-- ECDSA verification of a digest of 384 bits. -/
def ecdsaVerify (x y digest r s : Nat) : Bool :=
  onCurve x y && decide (0 < r ∧ r < p384N ∧ 0 < s ∧ s < p384N) &&
    (let w := invMod p384N s
     let p := ecAdd (ecMul p384G (digest * w % p384N) 384) (ecMul ⟨x, y, 1⟩ (r * w % p384N) 384)
     p.z != 0 && (let zi := invMod p384P p.z; p.x * zi % p384P * zi % p384P % p384N == r))

end Sys2Proof.Machine
end

