-- ==== Sys2Proof/Machine/Container.lean ====
section
/-! DEFINITION. The container of a structure image (03_structure_image.md R55 to R60) and steps 2 to 5 of R71. -/

namespace Sys2Proof.Machine

/-- A refusal of Table 03.12: its reason, and the section concerned or none. -/
structure Refuse where
  reason : Nat
  sec    : Option Nat
  deriving DecidableEq, Repr

/-- A check that fails with a reason unless its condition holds. -/
def need (ok : Bool) (reason : Nat) (sec : Option Nat) : Option Refuse := if ok then none else some ⟨reason, sec⟩

/-- The first failure of a list of checks. Log entry 127 (DEDUCED). -/
def firstFail {α : Type} (l : List α) (f : α → Option Refuse) : Option Refuse := l.findSome? f

/-! ## Header (R56) -/

/-- The header's fields that later steps use. -/
structure Header where
  part    : Bool
  bank    : Bool
  twill   : Bool
  count   : Nat
  total   : Nat
  imageId : Nat
  base    : Nat
  tuple   : Tuple
  deriving DecidableEq, Repr

def Header.parse (b : List Byte) : Header where
  part := fieldAt b 8 1 == 2
  bank := bit (fieldAt b 9 1) 0
  twill := bit (fieldAt b 9 1) 1
  count := fieldAt b 10 2
  total := fieldAt b 12 4
  imageId := fieldAt b 16 8
  base := fieldAt b 24 8
  tuple := ⟨fieldAt b 32 1, fieldAt b 34 2, fieldAt b 36 2, fieldAt b 40 4, fieldAt b 44 4⟩

/-- Every field of the header but TOTAL_LEN and the tuple (R71 step 2). -/
def headerOk (b : List Byte) : Bool :=
  let h := Header.parse b
  fieldAt b 0 4 == 0x49534C49 && fieldAt b 4 2 == 64 && fieldAt b 6 2 == 1 && (fieldAt b 8 1 == 1 || fieldAt b 8 1 == 2) &&
    bits (fieldAt b 9 1) 2 6 == 0 && decide (1 ≤ h.count ∧ h.count ≤ 256) && h.imageId != 0 && h.tuple.schema != 0 &&
    ((h.base == 0) == !h.part) && fieldAt b 33 1 == 0 && fieldAt b 38 2 == 0 && allZero (slice b 48 12) &&
    (crc32 (b.take 60)).toNat == fieldAt b 60 4

/-- Step 2 (R71). -/
def checkHeader (img : List Byte) (len : Nat) : Option Refuse :=
  (need (decide (320 ≤ len)) 2 none).or <|
  (need (headerOk (img.take 64)) 1 none).or <|
  let t := (Header.parse img).total
  need (t == len && decide (320 ≤ t ∧ t ≤ 64 * 2 ^ 20) && t % 8 == 0) 2 none

/-! ## Signature block (R60) -/

/-- SHA-384 of a public key. Log entries 19 (DESIGN CHOICE), 151 (PRESUMED). -/
def keyDigest (x y : Nat) : Nat := sha384 (beBytes x 48 ++ beBytes y 48)

/-- Step 3 (R71, R60): ALGO, reserved bytes, key, signature. Log entry 151 (PRESUMED). -/
def HostSide.checkSignature (h : HostSide) (img : List Byte) (total : Nat) : Option Refuse :=
  let b := slice img (total - 256) 256
  let slot := fieldAt b 2 1
  let x := fieldBE b 4 48
  let y := fieldBE b 0x34 48
  (need (fieldAt b 0 2 == 1) 6 none).or <|
  (need (fieldAt b 3 1 == 0 && allZero (slice b 0xC4 60)) 4 none).or <|
  (need (decide (slot < 8) && bit (h.get Reg.SIM_KEY_STATUS_ENROLLED) slot && !bit (h.get Reg.SIM_KEY_STATUS_REVOKED) slot &&
    keyDigest x y == Config.keyDigest slot) 7 none).or <|
  need (ecdsaVerify x y (sha384 (img.take (total - 256))) (fieldBE b 0x64 48) (fieldBE b 0x94 48)) 6 none

/-! ## Tuple (R77) -/

/-- The running tuple with the image's SCHEMA. -/
def HostSide.running (h : HostSide) (schema : Nat) : Tuple :=
  ⟨h.get Reg.SIM_TUPLE0_STEPPING, schema, h.get Reg.SIM_TUPLE1_BOOT_ROM, h.get Reg.SIM_TUPLE2_HOST_BUILD,
    h.get Reg.SIM_TUPLE3_FIELD_BUILD⟩

/-- Each nonzero field of the header's tuple equals the running value; SCHEMA is the image's own. -/
def tupleMatches (t run : Tuple) : Bool :=
  let eq (a b : Nat) : Bool := a == 0 || a == b
  eq t.stepping run.stepping && eq t.bootRom run.bootRom && eq t.hostBuild run.hostBuild && eq t.fieldBuild run.fieldBuild

/-- Step 4 (R71): `forced` is an override (R78). Log entry 134 (DEDUCED). -/
def HostSide.checkTuple (h : HostSide) (t : Tuple) (forced : Bool) : Option Refuse :=
  let run := h.running t.schema
  (need (tupleMatches t run) 8 none).or <| need (forced || h.uliska.tested.contains run) 9 none

/-! ## Sections (R58, R59) -/

/-- A section that has passed step 5: its index, type, FLAGS, TARGET and plain body; an annotation keeps its stored
body. Log entry 128 (DEDUCED). -/
structure Section where
  index  : Nat
  type   : Nat
  flags  : Nat
  target : Nat
  body   : List Byte
  deriving DecidableEq, Repr

/-- Types 0x8000 to 0xFFFF (R61). -/
def Section.annotation (s : Section) : Bool := decide (0x8000 ≤ s.type)

/-- Types of Table 03.4. -/
def knownType (t : Nat) : Bool := decide (1 ≤ t ∧ t ≤ 0x16)

/-- Step 5 for the sections from `i` on; `b` is what is left of the image before the signature block, `left` how many
sections follow. -/
def readSections (i : Nat) (b : List Byte) : Nat → Refuse ⊕ List Section
  | 0 => if b.isEmpty then .inr [] else .inl ⟨2, some (i - 1)⟩
  | left + 1 =>
    let bad (r : Nat) : Refuse ⊕ List Section := .inl ⟨r, some i⟩
    let type := fieldAt b 0 2
    let flags := fieldAt b 2 1
    let stored := fieldAt b 4 4
    let plain := fieldAt b 8 4
    let n := cdiv stored 8 * 8
    if b.length < 16 + n then bad 2
    -- the last section ends where the signature block begins
    else if left = 0 ∧ b.length ≠ 16 + n then bad 2
    else if !allZero (slice b (16 + stored) (n - stored)) then bad 4
    else if plain = 0 ∨ 32 * 2 ^ 20 < plain ∨ (!bit flags 0 && plain != stored) then bad 2
    else
      let body := slice b 16 stored
      if (crc32 body).toNat ≠ fieldAt b 12 4 then bad 3
      else
        let rest := b.drop (16 + n)
        let go (p : List Byte) : Refuse ⊕ List Section :=
          match readSections (i + 1) rest left with
          | .inl e => .inl e
          | .inr l => .inr (⟨i, type, flags, fieldAt b 3 1, p⟩ :: l)
        if knownType type && bit flags 0 then
          match inflateWhole body plain with
          | some p => go p
          | none => bad 5
        else go body

end Sys2Proof.Machine
end

