-- ==== Sys2Proof/Machine/SchemaOps.lean ====
section
/-! DEFINITION. The bodies of a structure image's sections with their entry rules: step 6a of R71
(03_structure_image.md R61 to R69 and the rules of the chapters that define the bodies). -/

namespace Sys2Proof.Machine

/-- The SCOPE body (Table 03.11). -/
structure Scope where
  kind   : Nat
  head   : Nat
  layers : List Nat
  deriving DecidableEq, Repr

/-- A section's body as read. -/
inductive Body where
  | bank (b : BankBody)
  | claims (l : List Claim)
  | heads (l : List HeadEntry)
  | gingham (g : GinghamCfg)
  | streams (l : List StreamEntry)
  | layers (l : List LayerEntry)
  | watch (l : List WatchEntry)
  | surfaces (l : List SurfaceEntry)
  | engineMap (dec head : List Nat)
  | cst (c : CstMap)
  | tartan (t : TartanCfg)
  | mpu (l : List RegionEntry)
  | mimic (m : MimicCfg)
  | encode (l : List EncodeEntry)
  | field (f : FieldCfg)
  | points (p : PointsCfg)
  | commands (l : List TargetEntry)
  | console (l : List ConsoleEntry)
  | twin (t : TwinBody)
  | stitch (s : StitchCfg)
  | scope (s : Scope)
  | log (l : LogBody)
  | annotation
  deriving DecidableEq, Repr

/-! ## Arrays -/

/-- Fixed-size entries that fill a body, each meeting its rule. Log entry 128 (DEDUCED). -/
def entries {α : Type} (sz : Nat) (parse : List Byte → α) (reserved : List Byte → Bool) (ok : α → Bool)
    (b : List Byte) : Option (List α) :=
  let ps := pieces sz b (b.length / sz)
  if b.length % sz == 0 && ps.all (fun p => reserved p && ok (parse p)) then some (ps.map parse) else none

/-- Numbers in strictly ascending order. -/
def ascending : List Nat → Bool
  | a :: b :: t => decide (a < b) && ascending (b :: t)
  | _ => true

/-- No number twice. -/
def allDistinct : List Nat → Bool
  | [] => true
  | a :: t => !t.contains a && allDistinct t

/-- Entries in ascending order of a key. -/
def sorted {α : Type} (key : α → Nat) (l : Option (List α)) : Option (List α) :=
  l.bind (fun l => if ascending (l.map key) then some l else none)

/-- Entries each with a key of its own. -/
def unique {α : Type} (key : α → Nat) (l : Option (List α)) : Option (List α) :=
  l.bind (fun l => if allDistinct (l.map key) then some l else none)

/-- `v` lies from `lo` to `hi`. -/
def within_ (lo v hi : Nat) : Bool := decide (lo ≤ v ∧ v ≤ hi)

/-! ## Display sections -/

/-- Table 08.1, all rows but the lane charge (08_heads.md R188). -/
def HeadEntry.timingOk (e : HeadEntry) : Bool :=
  let bpp := if e.format = 0 then 30 else 24
  within_ 640 e.hActive 4096 && e.hActive % 8 == 0 && within_ 480 e.vActive 2304 && within_ e.hActive e.hTotal 8191 &&
    within_ (e.vActive + 8) e.vTotal 4095 && within_ 8333333 e.periodNs 41708333 && within_ 70 e.latchLines 1023 &&
    decide (e.latchLines < e.vTotal) &&
    decide (((e.hActive * bpp + 1280) * 2 + 6400) * e.vTotal * 2 ^ 25 ≤ 100 * e.pq)

def HeadEntry.ok (e : HeadEntry) : Bool :=
  decide (e.head ≤ 47) && e.cell != 3 && within_ 1 e.maxLayers 64 && (e.enable == 0 || e.timingOk)

/-- The GINGHAM body (R64) with the colour rule of 02_freshness.md R38. Log entry 129 (DEDUCED). -/
def ginghamOf (b : List Byte) : Option GinghamCfg :=
  match entries 8 GinghamEntry.parse GinghamEntry.reservedOk (fun e => e.colourA != e.colourB) (b.take 40) with
  | some l =>
    let pairs := l.map (fun e => e.colourA * 2 ^ 30 + e.colourB)
    if b.length == 48 && allDistinct pairs && bits (fieldAt b 40 4) 26 6 == 0 && allZero (slice b 44 4) then
      some ⟨l, bits (fieldAt b 40 4) 0 26⟩ else none
  | none => none

/-- A LAYERS entry's initial descriptor (06_composition.md R144, Table 06.3). Log entry 129 (DEDUCED). -/
def descriptorOk (kind : Nat) (d : List Nat) : Bool :=
  descAlphaMode d != 3 && descCsc d != 3 && bits (descWord d 0) 7 1 == 0 && bits (descWord d 0) 26 6 == 0 &&
    bits (descWord d 1) 12 20 == 0 && (kind == 1 || descSurface d == 0) && descSrcW d != 0 && descSrcH d != 0 &&
    descDstW d != 0 && descDstH d != 0 && descWord d 7 == 0 && (d.drop 8).all (· == 0)

/-- The entry rules of a LAYERS entry. Log entry 129 (DEDUCED). -/
def LayerEntry.ok (e : LayerEntry) : Bool :=
  decide (e.head ≤ 47) && e.budget != 0 && descriptorOk e.kind e.descriptor

def WatchEntry.ok (e : WatchEntry) : Bool :=
  decide (e.tile ≤ 3) && e.x % 16 == 0 && e.y % 16 == 0 && e.w % 16 == 0 && e.h % 16 == 0 && within_ 16 e.w 256 &&
    within_ 16 e.h 256 && within_ 100 e.freezeMs 60000

/-- A SURFACES entry (06_composition.md R137, R138, Table 06.2). Log entry 129 (DEDUCED). -/
def SurfaceEntry.ok (e : SurfaceEntry) : Bool :=
  within_ 1 e.format 4 && e.cls != 3 && within_ 16 e.width 8192 && within_ 16 e.height 8192 &&
    (e.format != 4 || e.coding != 0) && (decide (e.format < 3) || (e.width % 2 == 0 && e.height % 2 == 0)) &&
    (e.coding == 0 || (e.width % 8 == 0 && e.height % 4 == 0))

/-- The ENGINE_MAP body (Table 06.5). -/
def engineMapOf (b : List Byte) : Option (List Nat × List Nat) :=
  if b.length == 192 && allZero (b.drop 176) then some ((b.take 128).map (·.toNat), (slice b 128 48).map (·.toNat)) else none

/-! ## Video and encoding -/

/-- A STREAMS entry (05_ingest_decode.md R120, Table 05.1). -/
def StreamEntry.ok (e : StreamEntry) : Bool :=
  e.cls != 3 && e.syncSrc != 3 && within_ 1 e.codec 5 && within_ 1 e.level (if e.codec ≤ 2 then 153 else 51) &&
    within_ 96 e.pt 127 && e.udpPort != 0 && (e.ipv6 == 1 || decide (e.addr < 2 ^ 32)) && within_ 64 e.maxW 4096 &&
    within_ 64 e.maxH 2304 && decide (e.maxW * e.maxH ≤ 8912896) && decide (16666 ≤ e.minPeriodUs) &&
    decide (e.maxPeriodUs ≤ 1000000) && e.jbBytes % 65536 == 0 && decide (2 * e.bitrate * 125 ≤ e.jbBytes) &&
    decide (e.extIdNtp ≤ 14) && decide (e.extIdClk ≤ 14) && within_ 1 e.srMaxAge 10 && within_ 100 e.syncHold 10000 &&
    within_ 1 e.jbHold 250 && within_ 3 e.tokens 16 && (e.cls != 0 || e.syncSrc != 0) && (e.cls != 1 || e.pathMax != 0)

/-- An ENCODE entry's own ranges (09_encode.md Table 09.1). -/
def EncodeEntry.ok (e : EncodeEntry) : Bool :=
  decide (e.head ≤ 47) && decide (e.core ≤ 1) && within_ 1 e.div 8 && decide (e.qpMax ≤ 51) && decide (e.qpMin ≤ e.qpMax) &&
    within_ 1 e.gopLen 1024 && e.udpPort != 0 && within_ 96 e.pt 127 && decide (e.extIdNtp ≤ 14) && within_ 576 e.mtu 9000 &&
    (if e.outPcie = 1 then
      e.ringOffset % 65536 == 0 && e.ringBytes % 65536 == 0 && decide (2 * e.maxFrameBits ≤ e.ringBytes * 8) &&
        decide (e.ringOffset + e.ringBytes ≤ 0xE0000000)
    else e.ipv6 == 1 || decide (e.addr < 2 ^ 32))

/-! ## Central store, Tartan and logs -/

def CstMap.ok (c : CstMap) : Bool :=
  within_ 8 c.grainLog2 16 && within_ 512 c.rhThreshold 8192 && within_ 1 c.srIdleUs 10000 && c.bar2Base % 65536 == 0 &&
    decide (c.bar2Base + 0xE0000000 ≤ caEnd)

/-- The TARTAN body (14_tartan_protection.md R334, Table 14.4). -/
def tartanOf (b : List Byte) : Option TartanCfg :=
  let n := b.map (·.toNat)
  let qos := n.take 47
  let urgent := (n.drop 0x30).take 17
  let prio := n.drop 0x50
  if b.length == 896 && qos.all (· < 16) && n.getD 47 0 == 0 && urgent.all (· ≤ 16) && ((n.drop 0x41).take 15).all (· == 0) &&
      prio.all (· < 8) && (List.range 17).all (fun t => prio.getD (48 * t + 47) 0 == 0) then some ⟨qos, urgent, prio⟩ else none

/-- The LOG body's own ranges (R81). -/
def LogBody.ok (l : LogBody) : Bool :=
  l.frsRing % 65536 == 0 && l.modRing % 65536 == 0 && [1024, 2048, 4096, 8192, 16384, 32768, 65536].contains l.modCount

/-! ## Mimic (07_mimic.md R168, R171, R173) -/

/-- Two rectangles share a pixel. -/
def boxesMeet (a b : WidgetEntry) : Bool :=
  decide (a.x < b.x + b.w ∧ b.x < a.x + a.w ∧ a.y < b.y + b.h ∧ b.y < a.y + a.h)

/-- No two enabled boxes of a surface meet where one of them is bound. -/
def boxesApart : List WidgetEntry → Bool
  | [] => true
  | a :: t => t.all (fun b => !(a.surface == b.surface && (a.bound == 1 || b.bound == 1) && boxesMeet a b)) && boxesApart t

/-- Cells of a surface that a box meets. -/
def cellsOf (w : WidgetEntry) : List (Nat × Nat × Nat) :=
  (List.range ((w.x + w.w - 1) / 64 - w.x / 64 + 1)).flatMap (fun i =>
    (List.range ((w.y + w.h - 1) / 64 - w.y / 64 + 1)).map (fun j => (w.surface, w.x / 64 + i, w.y / 64 + j)))

/-- At most 32 of the widgets meet one cell. -/
def cellsSparse (ws : List WidgetEntry) : Bool :=
  ws.all (fun w => (cellsOf w).all (fun c => decide ((ws.filter (fun v => v.surface == c.1 &&
    decide (v.x < 64 * c.2.1 + 64 ∧ 64 * c.2.1 < v.x + v.w ∧ v.y < 64 * c.2.2 + 64 ∧ 64 * c.2.2 < v.y + v.h))).length ≤ 32)))

/-- The widgets of a set of surfaces meet R173 as far as they lie within one section. -/
def widgetsOk (surfaces : List MimicSurface) (frames tables : Nat) (tabs : List (List StateEntry)) (ws : List WidgetEntry) :
    Bool :=
  let on := ws.filter (fun w => w.enable == 1)
  ws.all (fun w => match surfaces.find? (fun s => s.surface == w.surface) with
    | some s => decide (w.table < tables) && decide (w.x + w.w ≤ s.width) && decide (w.y + w.h ≤ s.height)
    | none => false) && tabs.all (fun t => t.all (fun e => decide (e.frame < frames))) && boxesApart on && cellsSparse on

def MimicSurface.ok (s : MimicSurface) : Bool :=
  within_ 64 s.width 8192 && within_ 64 s.height 8192 && s.width % 64 == 0 && s.height % 64 == 0

def FrameEntry.ok (f : FrameEntry) : Bool := within_ 1 f.w 512 && within_ 1 f.h 512

def WidgetEntry.ok (w : WidgetEntry) : Bool :=
  w.x % 8 == 0 && w.y % 4 == 0 && w.w % 8 == 0 && w.h % 4 == 0 && within_ 8 w.w 512 && within_ 4 w.h 512

/-- State tables of sixteen entries; entry 0 of each is valid. -/
def tablesOf (b : List Byte) (n : Nat) : Option (List (List StateEntry)) :=
  let ps := (pieces 256 b n).map (fun t => entries 16 StateEntry.parse StateEntry.reservedOk (fun _ => true) t)
  if ps.all (fun t => match t with
    | some (e :: _) => e.valid == 1
    | _ => false) then some (ps.map (fun t => t.getD [])) else none

/-- The MIMIC body (R171). The widgets of a partial image are judged once its tables are known. -/
def mimicOf (part : Bool) (b : List Byte) : Option MimicCfg :=
  let ns := fieldAt b 2 1
  let nf := fieldAt b 4 4
  let nt := fieldAt b 8 2
  let nw := fieldAt b 12 4
  let at1 := 32 + 16 * ns
  let at2 := at1 + 8 * nf
  let at3 := at2 + 256 * nt
  if !(decide (32 ≤ b.length) && bits (fieldAt b 0 2) 12 4 == 0 && fieldAt b 3 1 == 0 && fieldAt b 10 2 == 0 &&
      allZero (slice b 16 16) && decide (ns ≤ 64 ∧ nf ≤ 65536 ∧ nt ≤ 4096 ∧ nw ≤ 65536) &&
      b.length == at3 + 32 * nw) then none
  else
    match sorted MimicSurface.surface (entries 16 MimicSurface.parse MimicSurface.reservedOk MimicSurface.ok (slice b 32 (16 * ns))),
        entries 8 FrameEntry.parse FrameEntry.reservedOk FrameEntry.ok (slice b at1 (8 * nf)), tablesOf (b.drop at2) nt,
        sorted WidgetEntry.widget (entries 32 WidgetEntry.parse WidgetEntry.reservedOk WidgetEntry.ok (slice b at3 (32 * nw))) with
    | some ss, some fs, some ts, some ws =>
      if part || widgetsOk ss nf nt ts ws then some ⟨bits (fieldAt b 0 2) 0 12, ss, fs, ts, ws⟩ else none
    | _, _, _, _ => none

/-! ## Field sections -/

/-- A port entry (10_field_points_commands.md R223, Table 10.2). -/
def PortEntry.ok (p : PortEntry) : Bool :=
  let least := match p.mode with | 0 => 0 | 1 => 12304 | 2 => 4922 | _ => 1231
  decide (p.mode ≤ 3) && within_ 31250 p.cycleNs 10000000 && decide (p.winOpenNs + p.winLenNs ≤ p.cycleNs) &&
    decide (least ≤ p.winLenNs)

/-- A source entry (R224, R227, Table 10.3). -/
def SourceEntry.ok (e : SourceEntry) : Bool :=
  e.cls != 3 && (e.silenceMs == 0 || within_ 10 e.silenceMs 60000) && (e.cls != 0 || e.modbus == 0) &&
    (e.cls != 1 || e.pathMax != 0)

/-- The entry rules of a poll entry. Log entry 130 (DEDUCED). -/
def PollEntry.ok (e : PollEntry) : Bool :=
  within_ 1 e.function 4 && within_ 1 e.quantity (if e.function ≤ 2 then 2000 else 125) && within_ 10 e.periodMs 60000 &&
    within_ 5 e.timeoutMs e.periodMs

/-- The FIELD body (R221, R228). Log entry 130 (DEDUCED). -/
def fieldOf (b : List Byte) : Option FieldCfg :=
  let ns := fieldAt b 0 2
  let np := fieldAt b 2 2
  let nm := fieldAt b 4 4
  let at2 := 288 + 32 * ns
  let at3 := at2 + 16 * np
  if !(decide (288 ≤ b.length ∧ ns ≤ 256 ∧ np ≤ 1024 ∧ nm ≤ 262144) && allZero (slice b 17 15) && b.length == at3 + 8 * nm) then
    none
  else
    match entries 32 PortEntry.parse PortEntry.reservedOk PortEntry.ok (slice b 32 256),
        unique SourceEntry.source (entries 32 SourceEntry.parse SourceEntry.reservedOk SourceEntry.ok (slice b 288 (32 * ns))),
        entries 16 PollEntry.parse PollEntry.reservedOk PollEntry.ok (slice b at2 (16 * np)),
        unique MapEntry.point (entries 8 MapEntry.parse MapEntry.reservedOk (fun m => m.decode != 7) (b.drop at3)) with
    | some ports, some sources, some polls, some maps =>
      let modbus (s : Nat) : Bool := sources.any (fun e => e.source == s && e.modbus == 1)
      if ports.map (·.port) == List.range 8 && polls.all (fun p => modbus p.source) &&
          maps.all (fun m => modbus m.source || (m.decode == 0 && m.wordSwap == 0)) then
        some ⟨fieldAt b 8 8, fieldAt b 16 1, ports, sources, polls, maps⟩
      else none
    | _, _, _, _ => none

/-- The POINTS body (R230, Table 10.8). -/
def pointsOf (b : List Byte) : Option PointsCfg :=
  let n := fieldAt b 8 4
  let off := fieldAt b 0 8
  if decide (16 ≤ b.length ∧ n ≤ 262144) && b.length == 16 + 16 * n && fieldAt b 12 4 == 0 && off % 65536 == 0 &&
      decide (off + 262144 * 32 ≤ 0xE0000000) then
    (sorted PointEntry.point (entries 16 PointEntry.parse PointEntry.reservedOk
      (fun p => decide (p.type ≤ 5 ∧ p.refreshMs ≤ 60000)) (b.drop 16))).map (fun l => ⟨off, l⟩)
  else none

/-- A guard term in use (R240). -/
def GuardTerm.ok (t : GuardTerm) : Bool := decide (t.op ≤ 7 ∧ t.dwellMs ≤ 60000) && within_ 1 t.maxAgeMs 60000

/-- A target entry (R239, Table 10.12). Log entry 130 (DEDUCED). -/
def TargetEntry.ok (e : TargetEntry) : Bool :=
  within_ 1000 e.launchMax 1000000000 && decide (e.minIntervalMs ≤ 60000 ∧ e.rateCount ≤ 255 ∧ e.termCount ≤ 8) &&
    within_ 1 e.rateWindowMs 60000 && e.run == 0 && (e.modbus == 0 || e.mbFunc == 5 || e.mbFunc == 6) &&
    (e.terms.take e.termCount).all GuardTerm.ok && (e.terms.drop e.termCount).all (· == ⟨0, 0, 0, 0, 0, 0⟩)

/-- A 16-byte header whose first 4 bytes count the entries that follow, the others being 0. -/
def counted {α : Type} (most sz : Nat) (f : List Byte → Option (List α)) (b : List Byte) : Option (List α) :=
  let n := fieldAt b 0 4
  if decide (16 ≤ b.length ∧ n ≤ most) && b.length == 16 + sz * n && allZero (slice b 4 12) then f (b.drop 16) else none

/-- The COMMANDS body (R239). -/
def commandsOf : List Byte → Option (List TargetEntry) :=
  counted 16384 256 (fun b => sorted TargetEntry.target (entries 256 TargetEntry.parse TargetEntry.reservedOk TargetEntry.ok b))

/-- The CONSOLE_AUTH body (11_crossing.md R271). -/
def consoleOf : List Byte → Option (List ConsoleEntry) :=
  counted 4096 16 (entries 16 ConsoleEntry.parse ConsoleEntry.reservedOk (fun e =>
    within_ 1 e.targetCount 16384 && decide (e.targetFirst + e.targetCount ≤ 16384)))

/-! ## Links and claims -/

def SendEntry.ok (e : SendEntry) : Bool :=
  decide (e.link ≤ 3 ∧ e.head ≤ 47) && e.x % 8 == 0 && e.y % 4 == 0 && within_ 24 e.w 4096 && e.w % 24 == 0 &&
    within_ 4 e.h 2304 && e.h % 4 == 0

def RecvEntry.ok (e : RecvEntry) : Bool :=
  decide (e.link ≤ 3) && within_ 24 e.w 4096 && e.w % 24 == 0 && within_ 4 e.h 2304 && e.h % 4 == 0

/-- The STITCH body (15_lanes.md R358). -/
def stitchOf (b : List Byte) : Option StitchCfg :=
  let ns := fieldAt b 0 2
  let nr := fieldAt b 2 2
  if !(decide (ns ≤ 64 ∧ nr ≤ 256) && b.length == 48 + 16 * ns + 16 * nr && allZero (slice b 4 12)) then none
  else
    match entries 8 LinkEntry.parse LinkEntry.reservedOk (fun _ => true) (slice b 16 32),
        entries 16 SendEntry.parse SendEntry.reservedOk SendEntry.ok (slice b 48 (16 * ns)),
        unique RecvEntry.region (entries 16 RecvEntry.parse RecvEntry.reservedOk RecvEntry.ok (b.drop (48 + 16 * ns))) with
    | some ls, some ss, some rs =>
      if ls.map (·.link) == List.range 4 && allDistinct (ss.map (fun s => s.link * 256 + s.region)) &&
          ls.all (fun l => l.ilm2400 == 0 || l.link == 3) then some ⟨ls, ss, rs⟩ else none
    | _, _, _ => none

/-- LEN of a claim type (04_admission.md Table 04.1). -/
def claimLen : Nat → Nat
  | 0 => 12
  | 3 => 28
  | 5 => 32
  | _ => 24

/-- A claim record's body, with its field ranges and reserved bytes (R85). -/
def claimBody (b : List Byte) : Option ClaimBody :=
  let layer (o : Nat) : Option Nat := if fieldAt b o 2 < 1024 then some (fieldAt b o 2) else none
  let vt (o : Nat) : Option Nat := if fieldAt b o 4 < 2 ^ 26 then some (fieldAt b o 4) else none
  let when_ (ok : Bool) (x : ClaimBody) : Option ClaimBody := if ok then some x else none
  match fieldAt b 0 1 with
  | 0 => some .deletion
  | 1 => when_ (fieldAt b 0x0D 1 == 0) (.reservation (fieldAt b 0x0C 1) (fieldAt b 0x0E 2) (fieldAt b 0x10 8))
  | 2 => match layer 0x0E, vt 0x14 with
    | some l, some d => when_ (decide (fieldAt b 0x0C 2 ≤ 127)) (.capture (fieldAt b 0x0C 2) l (fieldAt b 0x10 4) d)
    | _, _ => none
  | 3 => match layer 0x0C, vt 0x18 with
    | some l, some d => when_ (within_ 1 (fieldAt b 0x0E 2) 256)
        (.pointToPixel l (fieldAt b 0x0E 2) (fieldAt b 0x10 4) (fieldAt b 0x14 4) d)
    | _, _ => none
  | 4 => when_ (within_ 1 (fieldAt b 0x0E 2) 16384 && decide (fieldAt b 0x10 1 ≤ 7) && allZero (slice b 0x11 3))
      (.command (fieldAt b 0x0C 2) (fieldAt b 0x0E 2) (fieldAt b 0x10 1) (fieldAt b 0x14 4))
  | 5 => match layer 0x18, vt 0x1C with
    | some l, some d => when_ (decide (fieldAt b 0x10 1 ≤ 3) && fieldAt b 0x11 1 == 0 && fieldAt b 0x1A 2 == 0)
        (.stitch (fieldAt b 0x0C 4) (fieldAt b 0x10 1) (fieldAt b 0x12 2) (fieldAt b 0x14 4) l d)
    | _, _ => none
  | 6 => match layer 0x0C, vt 0x14 with
    | some l, some d => when_ (fieldAt b 0x0E 2 == 0) (.budget l (fieldAt b 0x10 4) d)
    | _, _ => none
  | _ => none

/-- The records of a CLAIMS body (R66): `n` bounds their number. -/
def claimsFrom (part : Bool) : Nat → List Byte → Option (List Claim)
  | 0, b => if b.isEmpty then some [] else none
  | n + 1, b =>
    if b.isEmpty then some []
    else
      let len := fieldAt b 2 2
      let owner := fieldAt b 1 1
      let flags := fieldAt b 8 4
      if !(decide (12 ≤ b.length ∧ len ≤ b.length) && len == claimLen (fieldAt b 0 1) && (part || fieldAt b 0 1 != 0) &&
          (decide (owner ≤ 7) || owner == 255) && fieldAt b 4 4 != 0 && decide (flags ≤ 1)) then none
      else
        match claimBody (b.take len), claimsFrom part n (b.drop len) with
        | some c, some l => some (⟨owner, fieldAt b 4 4, flags == 1, c⟩ :: l)
        | _, _ => none

/-- The SCOPE body (Table 03.11); KIND 0x01 takes COUNT 0. Log entries 133 (DEDUCED), 231 (DESIGN CHOICE). -/
def scopeOf (b : List Byte) : Option Scope :=
  let kind := fieldAt b 0 1
  let n := fieldAt b 2 2
  let ls := (pieces 2 (b.drop 4) n).map leNat
  if !(decide (4 ≤ b.length) && b.length == 4 + 2 * n) then none
  else if kind = 1 then (if n = 0 ∧ fieldAt b 1 1 ≤ 47 then some ⟨1, fieldAt b 1 1, []⟩ else none)
  else if kind = 2 then
    (if fieldAt b 1 1 == 0 && within_ 1 n 64 && ascending ls && ls.all (· < 1024) then some ⟨2, 0, ls⟩ else none)
  else none

/-- The single entry of a body. -/
def single {α : Type} (parse : List Byte → α) (reserved : List Byte → Bool) (ok : α → Bool) (b : List Byte) : Option α :=
  if reserved b && ok (parse b) then some (parse b) else none

/-- Types that a full and a partial image may hold (Table 03.4). Log entry 128 (DEDUCED). -/
def typeAllowed (part : Bool) (t : Nat) : Bool :=
  if part then [0x02, 0x03, 0x05, 0x06, 0x07, 0x08, 0x0D, 0x0E, 0x15].contains t
  else knownType t && t != 0x15

/-- Step 6a for one section (R71): its type, its FLAGS and its body. `shared`: the image is a bank or Twill image;
`ownRole`: the TWIN_ROLE strap where the section is for this module. Log entry 128 (DEDUCED). -/
def bodyOf (part shared : Bool) (ownRole : Option Nat) (s : Section) : Option Body :=
  let b := s.body
  if s.annotation then some .annotation
  else if !typeAllowed part s.type || decide (2 ≤ s.flags) then none
  else match s.type with
  | 0x01 => (single BankBody.parse BankBody.reservedOk (fun _ => true) b).map .bank
  | 0x02 => if shared && s.target != 255 then none
    else (unique Claim.id (claimsFrom part (b.length / 12 + 1) b)).map .claims
  | 0x03 => (sorted HeadEntry.head (entries 64 HeadEntry.parse HeadEntry.reservedOk HeadEntry.ok b)).map .heads
  | 0x04 => (ginghamOf b).map .gingham
  | 0x05 => (sorted StreamEntry.stream (entries 64 StreamEntry.parse StreamEntry.reservedOk StreamEntry.ok b)).map .streams
  | 0x06 => (unique LayerEntry.layer (entries 96 LayerEntry.parse LayerEntry.reservedOk LayerEntry.ok b)).map .layers
  | 0x07 => (unique (fun w => w.layer * 4 + w.tile)
      (entries 32 WatchEntry.parse WatchEntry.reservedOk WatchEntry.ok b)).map .watch
  | 0x08 => (sorted SurfaceEntry.handle (entries 32 SurfaceEntry.parse SurfaceEntry.reservedOk SurfaceEntry.ok b)).map
      .surfaces
  | 0x09 => (engineMapOf b).map (fun p => .engineMap p.1 p.2)
  | 0x0A => (single CstMap.parse CstMap.reservedOk CstMap.ok b).map .cst
  | 0x0B => (tartanOf b).map .tartan
  | 0x0C => if b.length = 24064 then (entries 16 RegionEntry.parse RegionEntry.reservedOk (fun _ => true) b).map .mpu else none
  | 0x0D => (mimicOf part b).map .mimic
  | 0x0E => (sorted EncodeEntry.context (entries 64 EncodeEntry.parse EncodeEntry.reservedOk EncodeEntry.ok b)).map .encode
  | 0x0F => (fieldOf b).map .field
  | 0x10 => (pointsOf b).map .points
  | 0x11 => (commandsOf b).map .commands
  | 0x12 => (consoleOf b).map .console
  | 0x13 => (single TwinBody.parse TwinBody.reservedOk (fun t => decide (t.role ≤ 1) && within_ 16 t.ceLimit 4096 &&
      (ownRole.isNone || ownRole == some t.role)) b).map .twin
  | 0x14 => (stitchOf b).map .stitch
  | 0x15 => (scopeOf b).map .scope
  | 0x16 => (single LogBody.parse LogBody.reservedOk LogBody.ok b).map .log
  | _ => none

end Sys2Proof.Machine
end

