-- ==== Sys2Proof/Machine/ImageCheck.lean ====
section
/-! DEFINITION. Steps 6b to 7 of R71: the configuration that a staged image gives, the rules between its sections and
with the active configuration, its targets, its page reservations and the scope of a partial image
(03_structure_image.md R61 to R69; 06_composition.md R140). -/

namespace Sys2Proof.Machine

/-- A section with its body as read. -/
structure Piece where
  sec  : Section
  body : Body
  deriving DecidableEq, Repr

/-- What steps 2 to 6a leave: the header, every section, and this module's TARGET code. -/
structure Parsed where
  hdr    : Header
  pieces : List Piece
  own    : Nat
  deriving DecidableEq, Repr

/-- The bodies for a module: those of TARGET 0xFF or its own. -/
def Parsed.bodiesFor (p : Parsed) (target : Nat) : List Body :=
  (p.pieces.filter (fun s => s.sec.target == 255 || s.sec.target == target)).map (·.body)

/-- The body of one kind for this module. -/
def Parsed.get {α : Type} (p : Parsed) (f : Body → Option α) : Option α := (p.bodiesFor p.own).findSome? f

def Body.headsOf : Body → Option (List HeadEntry) | .heads l => some l | _ => none
def Body.layersOf : Body → Option (List LayerEntry) | .layers l => some l | _ => none
def Body.claimsOf : Body → Option (List Claim) | .claims l => some l | _ => none
def Body.streamsOf : Body → Option (List StreamEntry) | .streams l => some l | _ => none
def Body.watchOf : Body → Option (List WatchEntry) | .watch l => some l | _ => none
def Body.surfacesOf : Body → Option (List SurfaceEntry) | .surfaces l => some l | _ => none
def Body.encodeOf : Body → Option (List EncodeEntry) | .encode l => some l | _ => none
def Body.mimicOf : Body → Option MimicCfg | .mimic m => some m | _ => none
def Body.fieldOf : Body → Option FieldCfg | .field f => some f | _ => none
def Body.pointsOf : Body → Option PointsCfg | .points p => some p | _ => none
def Body.commandsOf : Body → Option (List TargetEntry) | .commands l => some l | _ => none
def Body.consoleOf : Body → Option (List ConsoleEntry) | .console l => some l | _ => none
def Body.twinOf : Body → Option TwinBody | .twin t => some t | _ => none
def Body.stitchOf : Body → Option StitchCfg | .stitch s => some s | _ => none
def Body.scopeOf : Body → Option Scope | .scope s => some s | _ => none
def Body.logOf : Body → Option LogBody | .log l => some l | _ => none
def Body.bankOf : Body → Option BankBody | .bank b => some b | _ => none
def Body.cstOf : Body → Option CstMap | .cst c => some c | _ => none
def Body.tartanOf : Body → Option TartanCfg | .tartan t => some t | _ => none
def Body.mpuOf : Body → Option (List RegionEntry) | .mpu l => some l | _ => none
def Body.ginghamOf : Body → Option GinghamCfg | .gingham g => some g | _ => none
def Body.engineMapOf : Body → Option (List Nat × List Nat) | .engineMap d h => some (d, h) | _ => none

/-! ## The configuration that results -/

/-- Puts an entry in its place by key, replacing one of the same key. -/
def putBy {α : Type} (key : α → Nat) (e : α) : List α → List α
  | [] => [e]
  | x :: t => if key x < key e then x :: putBy key e t else if key x = key e then e :: t else e :: x :: t

/-- Replaces and adds entries by key. -/
def overlay {α : Type} (key : α → Nat) (old new : List α) : List α := new.foldl (fun l e => putBy key e l) old

/-- Field content for this module is present (R71 step 8). -/
def Parsed.hasContent (p : Parsed) : Bool :=
  (p.get Body.fieldOf).isSome || (p.get Body.pointsOf).isSome || (p.get Body.commandsOf).isSome

/-- The configuration of a full image. An image without field content leaves the active field configuration in place
(11_crossing.md R267). -/
def Parsed.full (p : Parsed) (active : Cfg) : Cfg :=
  let em := (p.get Body.engineMapOf).getD ([], [])
  let keep := !p.hasContent
  { Cfg.blank with
    imageId := p.hdr.imageId
    schema := p.hdr.tuple.schema
    bankFlag := p.hdr.bank
    twill := p.hdr.twill
    bank := p.get Body.bankOf
    claims := (p.get Body.claimsOf).getD []
    heads := (p.get Body.headsOf).getD []
    gingham := (p.get Body.ginghamOf).getD ⟨[], 0⟩
    streams := (p.get Body.streamsOf).getD []
    layers := overlay LayerEntry.layer [] ((p.get Body.layersOf).getD [])
    watch := (p.get Body.watchOf).getD []
    surfaces := (p.get Body.surfacesOf).getD []
    decCore := em.1
    headEngine := em.2
    cst := (p.get Body.cstOf).getD ⟨0, 0, 0, 0, 0, 0, 0⟩
    tartan := (p.get Body.tartanOf).getD ⟨[], [], []⟩
    mpu := (p.get Body.mpuOf).getD []
    mimic := p.get Body.mimicOf
    encode := (p.get Body.encodeOf).getD []
    field := if keep then active.field else p.get Body.fieldOf
    points := if keep then active.points else p.get Body.pointsOf
    commands := if keep then active.commands else (p.get Body.commandsOf).getD []
    console := (p.get Body.consoleOf).getD []
    twin := p.get Body.twinOf
    stitch := p.get Body.stitchOf
    log := (p.get Body.logOf).getD ⟨0, 0, 0⟩ }

/-- Claim records after a partial image: replaced, deleted and added by CLAIM_ID (R69). Log entry 156 (DEDUCED). -/
def mergeClaims (old new : List Claim) : List Claim :=
  let kept := old.filterMap (fun c => match new.find? (fun n => n.id == c.id) with
    | some n => if n.body = .deletion then none else some n
    | none => some c)
  kept ++ new.filter (fun n => n.body != .deletion && !old.any (fun c => c.id == n.id))

/-- A partial image's mimic entries replace the widgets of the surfaces that it lists (07_mimic.md R173). -/
def mergeMimic (old new : MimicCfg) : MimicCfg :=
  let listed (s : Nat) : Bool := new.surfaces.any (fun x => x.surface == s)
  { old with
    surfaces := overlay MimicSurface.surface old.surfaces new.surfaces
    widgets := overlay WidgetEntry.widget (old.widgets.filter (fun w => !listed w.surface)) new.widgets }

/-- The configuration after a partial image: every item that it does not mention keeps its active configuration
(R69). Log entries 134 (DEDUCED), 156 (DEDUCED). -/
def Parsed.partial_ (p : Parsed) (active : Cfg) : Cfg :=
  let heads := (p.get Body.headsOf).getD []
  { active with
    imageId := p.hdr.imageId
    schema := p.hdr.tuple.schema
    claims := mergeClaims active.claims ((p.get Body.claimsOf).getD [])
    heads := overlay HeadEntry.head active.heads heads
    headEngine := heads.foldl (fun l e => l.set e.head (if e.enable = 1 then e.engine else 255)) active.headEngine
    streams := overlay StreamEntry.stream active.streams ((p.get Body.streamsOf).getD [])
    layers := overlay LayerEntry.layer active.layers ((p.get Body.layersOf).getD [])
    watch := overlay (fun w => w.layer * 4 + w.tile) active.watch ((p.get Body.watchOf).getD [])
    surfaces := overlay SurfaceEntry.handle active.surfaces ((p.get Body.surfacesOf).getD [])
    encode := overlay EncodeEntry.context active.encode ((p.get Body.encodeOf).getD [])
    mimic := match active.mimic, p.get Body.mimicOf with
      | some a, some n => some (mergeMimic a n)
      | a, _ => a }

/-- The layer that a freshness claim covers. -/
def ClaimBody.layer? : ClaimBody → Option Nat
  | .capture _ l _ _ => some l
  | .pointToPixel l _ _ _ _ => some l
  | .stitch _ _ _ _ l _ => some l
  | .budget l _ _ => some l
  | _ => none

/-- The slot that a stitch link of this module meets (01_architecture.md R20); SL3 meets none. -/
def peerOf (own k : Nat) : Option Nat := if k < 3 then some (own / 4 * 4 + (own % 4 + k + 1) % 4) else none

/-- The sending head of a stitch claim (15_lanes.md Table 15.5): HEAD of the send entry, in the STITCH section of the link's
peer, that sends the claim's region to this module. Log entry 255 (DEDUCED). -/
def Parsed.senderOf (p : Parsed) (c : Claim) : Option Sender :=
  match c.body with
  | .stitch _ link region _ _ _ =>
    (peerOf p.own link).bind (fun t =>
      let bs := p.bodiesFor t
      (bs.findSome? Body.stitchOf).bind (fun s =>
        (s.sends.find? (fun e => e.region == region && peerOf t e.link == some p.own)).bind (fun e =>
          ((bs.findSome? Body.headsOf).bind (fun hs => hs.find? (fun k => k.head == e.head))).map (fun k =>
            ⟨c.id, t, e.head, k.pq⟩))))
  | _ => none

/-- A sending head whose module's HEADS section a partial image carries takes its new period. -/
def Parsed.resend (p : Parsed) (o : Sender) : Sender :=
  match ((p.bodiesFor o.target).findSome? Body.headsOf).bind (fun hs => hs.find? (fun k => k.head == o.head)) with
  | some k => { o with period := k.pq }
  | none => o

/-- The resulting configuration, with the sending heads that the image tells. -/
def Parsed.result (p : Parsed) (active : Cfg) : Cfg :=
  let c := if p.hdr.part then p.partial_ active else p.full active
  if p.hdr.part then { c with senders := active.senders.map p.resend } else { c with senders := c.claims.filterMap p.senderOf }

/-! ## Members (R67) -/

/-- Members of the image as a mask of TARGET codes. Log entry 134 (DEDUCED). -/
def Parsed.members (p : Parsed) (active : Cfg) : Nat :=
  if p.hdr.bank then
    ((if p.hdr.part then active.bank else p.get Body.bankOf).map (·.members)).getD 0
  else if p.hdr.twill then 2 ^ p.own + 2 ^ (if p.own < 4 then p.own + 4 else p.own - 4)
  else 2 ^ p.own

/-! ## Step 6b -/

/-- The line rate of a host network port in kbit/s (15_lanes.md Table 15.1); that of a port that is off is open.
Log entry 148 (DESIGN CHOICE). -/
def HostSide.portRate (h : HostSide) (port : Nat) : Nat :=
  match h.hnMode port with
  | 1 => 25781250
  | 2 => 10312500
  | _ => Config.portRate port

/-- The picture size of an encode context under a configuration (09_encode.md R209). -/
def Cfg.encSize (c : Cfg) (e : EncodeEntry) : Option (Nat × Nat) :=
  if e.layerSrc = 1 then
    (c.layers.find? (fun l => l.layer == e.layer && l.head == e.head)).map (fun l => (l.envX1 - l.envX0, l.envY1 - l.envY0))
  else (c.heads.find? (fun x => x.head == e.head)).map (fun x => (x.hActive, x.vActive))

/-- The geometry limits of R209 and the floor of R213; a context that is not enabled may tap a head or layer that does not
exist. -/
def Cfg.encOk (c : Cfg) (e : EncodeEntry) : Bool :=
  match c.encSize e with
  | some (w, ht) => w % 2 == 0 && ht % 2 == 0 && (e.enable == 0 || (w != 0 && ht != 0)) && decide (w ≤ 4096) &&
      decide (ht ≤ 2304) && decide (w * ht ≤ 8912896) && decide (encFloor w ht ≤ e.maxFrameBits)
  | none => e.enable == 0

/-- Sum of MAX_FRAME_BITS × f ÷ DIV over the RTP contexts of a port, at most 0.2 of its line rate (R209).
Log entry 140 (DEDUCED). -/
def HostSide.encPortOk (h : HostSide) (c : Cfg) (port : Nat) : Bool :=
  let sum := c.encode.foldl (fun (s : Frac) e =>
    match c.headEntry e.head with
    | some k => if e.enable = 1 ∧ e.outPcie = 0 ∧ e.port = port ∧ k.pq ≠ 0 then
        s.add ⟨e.maxFrameBits * 1000000000 * 2 ^ 24, k.pq * e.div⟩ else s
    | none => s) (Frac.ofNat 0)
  decide (5 * sum.num ≤ ((h.portRate port * 1000 * sum.den : Nat) : Int))

/-- Every encode context of the resulting configuration meets R209. -/
def HostSide.encodersOk (h : HostSide) (c : Cfg) : Bool := c.encode.all c.encOk && (List.range 4).all (h.encPortOk c)

/-- A section of heads or layers in an image without an ENCODE section leaves the contexts within R209. -/
def HostSide.encodersKept (h : HostSide) (p : Parsed) (c : Cfg) : Bool := (p.get Body.encodeOf).isSome || h.encodersOk c

/-- FORMAT and CODING of a surface that is allocated once an image is active: listed in its SURFACES section or, for a
partial image, allocated now (R65). -/
def HostSide.allocatedAs (h : HostSide) (p : Parsed) (sh : Nat) : Option (Nat × Nat) :=
  match ((p.get Body.surfacesOf).getD []).find? (fun s => s.handle == sh) with
  | some s => some (s.format, s.coding)
  | none => if p.hdr.part then (h.surface sh).map (fun s => (s.format, s.coding)) else none

/-- The reference of a layer's SOURCE holds (R65). -/
def HostSide.sourceOk (h : HostSide) (p : Parsed) (c : Cfg) (e : LayerEntry) : Bool :=
  match e.kind with
  | 0 => c.streams.any (fun s => s.stream == e.source)
  | 1 => (match h.allocatedAs p e.source with
    | some s => !descEnable e.descriptor || h.allocatedAs p (descSurface e.descriptor) == some s
    | none => false)
  | 2 => (c.mimic.map (fun m => m.surfaces.any (fun s => s.surface == e.source))).getD false
  | _ => (c.stitch.map (fun s => s.recvs.any (fun r => r.region == e.source))).getD false

/-- No head has more than 64 layers (01_architecture.md R18). Log entry 238 (DEDUCED). -/
def Cfg.layerCounts (c : Cfg) : Bool :=
  (List.range 48).all (fun k => decide ((c.layers.filter (fun e => e.head == k)).length ≤ 64))

/-- A watch tile lies within the largest picture of its layer's stream (R68). -/
def Cfg.watchOk (c : Cfg) (w : WatchEntry) : Bool :=
  match c.layers.find? (fun l => l.layer == w.layer && l.kind == 0) with
  | some l => (match c.streams.find? (fun s => s.stream == l.source) with
    | some s => decide (w.x + w.w ≤ s.maxW ∧ w.y + w.h ≤ s.maxH)
    | none => false)
  | none => false

/-- A surface of FORMAT 0x01 and CODING 0 that holds every frame of the atlas (R172, R173). -/
def MimicCfg.fitsAtlas (m : MimicCfg) (s : SurfaceEntry) : Bool :=
  s.format == 1 && s.coding == 0 && m.frames.all (fun f => decide (f.x + f.w ≤ s.width ∧ f.y + f.h ≤ s.height))

/-- The atlas meets R172: listed, allocated in the active configuration, of FORMAT 0x01 and CODING 0, and every frame
inside it (R173). -/
def HostSide.atlasOk (h : HostSide) (c : Cfg) (m : MimicCfg) : Bool :=
  match c.surfaces.find? (fun s => s.handle == m.atlas), h.surface m.atlas with
  | some s, some _ => m.fitsAtlas s
  | _, _ => false

/-- A partial image's MIMIC body fits the active one (R173). -/
def mimicPartOk (active : Option MimicCfg) (m : MimicCfg) : Bool :=
  match active with
  | some a => m.atlas == a.atlas && m.frames.isEmpty && m.tables.isEmpty &&
      widgetsOk m.surfaces a.frames.length a.tables.length [] m.widgets &&
      a.widgets.all (fun w => m.surfaces.any (fun s => s.surface == w.surface) || !m.widgets.any (fun v => v.widget == w.widget))
  | none => false

/-- The rings lie in the BAR2 window and do not meet (R81). -/
def LogBody.ringsOk (l : LogBody) (base : Nat) : Bool :=
  let top := base + 0xE0000000
  decide (base ≤ l.frsRing ∧ l.frsRing + 65536 ≤ top ∧ base ≤ l.modRing ∧ l.modRing + 32 * l.modCount ≤ top) &&
    !rangesMeet l.frsRing 65536 l.modRing (32 * l.modCount)

/-- The links and sends of a STITCH body fit the members and heads (15_lanes.md R358). -/
def stitchFits (c : Cfg) (own members : Nat) (s : StitchCfg) : Bool :=
  s.links.all (fun l => l.enable == 0 || ((peerOf own l.link).map (bit members)).getD true) &&
    s.sends.all (fun e => match c.heads.find? (fun k => k.head == e.head) with
      | some k => decide (e.x + e.w ≤ k.hActive ∧ e.y + e.h ≤ k.vActive)
      | none => false)

/-- Rules of step 6b for one of this module's sections, `c` being the configuration that results.
Log entry 131 (DEDUCED). -/
def HostSide.crossOk (h : HostSide) (p : Parsed) (c : Cfg) (b : Body) : Bool :=
  let active := h.cfg
  let part := p.hdr.part
  match b with
  | .heads l =>
    (part || l.any (fun e => e.head == 0 && e.enable == 1)) &&
      l.all (fun e => match active.headEntry e.head with
        | some o => !timingDiffers e o || e.epoch == 0
        | none => true) &&
      (!part || l.all (fun e => (active.heads.find? (fun o => o.head == e.head)).all (fun o => o.engine == e.engine))) &&
      h.encodersKept p c
  | .engineMap _ he => (List.range 48).all (fun k => he.getD k 0 == ((c.headEntry k).map (·.engine)).getD 255)
  | .cst m => active.imageId == 0 || (m.grainLog2 == active.cst.grainLog2 && m.hashEn == active.cst.hashEn)
  | .layers l => l.all (fun e => h.sourceOk p c e) && c.layerCounts && h.encodersKept p c &&
      c.watch.all (fun w => !l.any (fun e => e.layer == w.layer) || c.watchOk w || ((p.get Body.watchOf).getD []).contains w)
  | .streams l => c.watch.all (fun w => c.watchOk w || ((p.get Body.watchOf).getD []).contains w ||
      !c.layers.any (fun e => e.layer == w.layer && e.kind == 0 && l.any (fun s => s.stream == e.source)))
  | .watch l => l.all (fun w => c.watchOk w)
  | .surfaces l => l.all (fun e => match h.surface e.handle with
    | some s => !part && s.format == e.format && s.coding == e.coding && s.width == e.width && s.height == e.height &&
        s.cls == e.cls
    | none => true)
  | .mimic m => if part then mimicPartOk active.mimic m else h.atlasOk c m
  | .encode _ => h.encodersOk c
  | .field f => f.maps.all (fun m => (c.points.map (fun q => q.points.any (fun x => x.point == m.point))).getD false)
  | .stitch s => stitchFits c p.own (p.members active) s
  | .log l => l.ringsOk c.cst.bar2Base
  | .scope s =>
    let hs := s.layers.map (fun l => (c.layers.find? (fun e => e.layer == l)).map (·.head))
    hs.all (·.isSome) && hs.all (· == hs.headD none)
  | _ => true

/-- Rules of step 6b for a section of another member `p.own`, whose part of a full image `c` is: the references between its
entries. Its active configuration, its surfaces and its line rates are not this module's to know.
Log entry 234 (DEDUCED). -/
def HostSide.crossOther (h : HostSide) (p : Parsed) (c : Cfg) (members : Nat) (b : Body) : Bool :=
  p.hdr.part ||
    (match b with
    | .heads l => l.any (fun e => e.head == 0 && e.enable == 1)
    | .engineMap _ he => (List.range 48).all (fun k => he.getD k 0 == ((c.headEntry k).map (·.engine)).getD 255)
    | .layers l => l.all (fun e => h.sourceOk p c e) && c.layerCounts
    | .watch l => l.all (fun w => c.watchOk w)
    | .mimic m => (match c.surfaces.find? (fun s => s.handle == m.atlas) with
      | some s => m.fitsAtlas s
      | none => false)
    | .encode l => l.all (fun e => c.encOk e)
    | .field f => f.maps.all (fun m => (c.points.map (fun q => q.points.any (fun x => x.point == m.point))).getD false)
    | .stitch s => stitchFits c p.own members s
    | .log l => l.ringsOk c.cst.bar2Base
    | _ => true)

/-- Section `s` repeats the type of an earlier one for its TARGET, or for 0xFF beside a particular module (R61). -/
def Parsed.repeats (p : Parsed) (s : Section) : Bool :=
  p.pieces.any (fun e => e.sec.index < s.index && e.sec.type == s.type && !s.annotation &&
    (e.sec.target == s.target || e.sec.target == 255 || s.target == 255))

/-- Types that this module's part must hold (Table 03.4). Log entry 127 (DEDUCED). -/
def Parsed.required (p : Parsed) : List Nat :=
  if p.hdr.part then [0x15]
  else [0x02, 0x03, 0x04, 0x09, 0x0A, 0x0B, 0x0C, 0x16] ++ (if p.hdr.bank then [0x01] else []) ++
    (if p.hdr.twill then [0x13] else [])

/-- The image as another of its members reads it. -/
def Parsed.as (p : Parsed) (t : Nat) : Parsed := { p with own := t }

/-- The members whose parts step 6b judges: this module, and the other members of the image. Log entry 234 (DEDUCED). -/
def Parsed.judged (p : Parsed) (active : Cfg) : List Nat :=
  p.own :: (List.range 8).filter (fun t => t != p.own && bit (p.members active) t)

/-- Step 6b. Log entries 131 (DEDUCED), 137 (DEDUCED), 140 (DEDUCED), 234 (DEDUCED). -/
def HostSide.checkCross (h : HostSide) (p : Parsed) (c : Cfg) : Option Refuse :=
  let forOne (t : Nat) (s : Section) : Bool := s.target == 255 || s.target == t
  let members := p.members h.cfg
  let others := ((p.judged h.cfg).drop 1).map (fun t => (t, (p.as t).full Cfg.blank))
  (need (!p.hdr.part || (p.hdr.bank == h.cfg.bankFlag && p.hdr.twill == h.cfg.twill)) 0x0A none).or <|
  (need ((p.judged h.cfg).all (fun m => (p.hdr.part && m != p.own) ||
    (p.as m).required.all (fun t => p.pieces.any (fun s => s.sec.type == t && forOne m s.sec)))) 0x0A none).or <|
  firstFail p.pieces (fun s =>
    need (!p.repeats s.sec && (!forOne p.own s.sec || h.crossOk p c s.body) &&
      others.all (fun o => !forOne o.1 s.sec || h.crossOther (p.as o.1) o.2 members s.body)) 0x0A (some s.sec.index))

/-! ## Step 6c -/

/-- The rules of step 6 that name other sections and targets. Log entry 127 (DEDUCED). -/
def HostSide.checkTargets (h : HostSide) (p : Parsed) : Option Refuse :=
  let members := p.members h.cfg
  firstFail p.pieces (fun s =>
    let t := s.sec.target
    need (s.sec.annotation ||
      ((t == 255 || (decide (t ≤ 7) && bit members t)) &&
        (match s.body with
          | .bank b => !(t == 255 || t == p.own) || bit b.members p.own
          | _ => true))) 0x0B (some s.sec.index))

/-! ## Step 6d: page reservations (R140) -/

/-- Puts a run in ascending order. -/
def insertRun (r : Nat × Nat) : List (Nat × Nat) → List (Nat × Nat)
  | [] => [r]
  | x :: t => if r.1 ≤ x.1 then r :: x :: t else x :: insertRun r t

/-- Free spans from `at_` to before `hi` between ascending runs. Log entry 136 (DESIGN CHOICE). -/
def freeSpans (hi : Nat) : Nat → List (Nat × Nat) → List (Nat × Nat)
  | at_, [] => if at_ < hi then [(at_, hi - at_)] else []
  | at_, (f, n) :: t =>
    let rest := freeSpans hi (max at_ (f + n)) t
    if at_ < min f hi then (at_, min f hi - at_) :: rest else rest

/-- The first page of the `j`-th place for `n` pages among free spans. Log entry 136 (DESIGN CHOICE). -/
def placeIn (n : Nat) : Nat → List (Nat × Nat) → Option Nat
  | _, [] => none
  | j, (f, len) :: t => if j < len + 1 - n then some (f + j) else placeIn n (j - (len + 1 - n)) t

/-- A place for `n` pages from page `lo` to before `hi`, none of them used or in `keep`. Which one is the module's choice
(log entry 1). Log entry 136 (DESIGN CHOICE). -/
def HostSide.findPlace (h : HostSide) (lo hi n : Nat) (keep : List (Nat × Nat)) : Option Nat × HostSide :=
  let runs := (h.store.pages.map (fun r => (r.first, r.count)) ++ keep).foldl (fun l r => insertRun r l) []
  let spans := freeSpans hi lo runs
  let places := spans.foldl (fun a s => a + (s.2 + 1 - n)) 0
  if places = 0 then (none, h)
  else
    let (j, h) := h.free places
    (placeIn n j spans, h)

/-- Reserves `n` pages for an owner of the staged image, wherever the module chooses.
Log entry 136 (DESIGN CHOICE). -/
def HostSide.reserveAny (h : HostSide) (owner : PageOwner) (lo hi n : Nat) (keep : List (Nat × Nat)) : Option HostSide :=
  match h.findPlace lo hi n keep with
  | (some f, h) => some (h.reservePages ⟨f, n, owner, true⟩)
  | (none, _) => none

/-- Reserves the pages of a place that the image names; a ring or replica left in its place keeps its pages; one
that stays at its base with another size meets its own pages and is refused. Log entries 135 (DEDUCED), 230 (DESIGN CHOICE). -/
def HostSide.reserveAt (h : HostSide) (owner : PageOwner) (first n : Nat) : Option HostSide :=
  if h.store.pages.contains ⟨first, n, owner, false⟩ then some h
  else if h.store.pageUsed first n then none
  else some (h.reservePages ⟨first, n, owner, true⟩)

/-- Page runs of the rings and the replica that the image names: the module places nothing there.
Log entry 135 (DEDUCED). -/
def Cfg.named (c : Cfg) : List (Nat × Nat) :=
  [(c.log.frsRing / 65536, 1), (c.log.modRing / 65536, cdiv (32 * c.log.modCount) 65536)] ++
    (match c.points with
      | some q => [((c.cst.bar2Base + q.replicaOffset) / 65536, 128)]
      | none => [])

/-- Bytes of a mimic surface and of its cell map (07_mimic.md R168, R169). -/
def mimicBytes (s : MimicSurface) : Nat := surfaceBytes 1 2 s.width s.height
def mapBytes (s : MimicSurface) : Nat := cdiv (s.width / 64 * (s.height / 64)) 12 * 64

/-- The entries of a state table and their frames that a surface's widgets use are told by its whole configuration
(07_mimic.md R182). -/
def MimicCfg.partOf (m : MimicCfg) (s : Nat) : Option MimicSurface × List WidgetEntry :=
  (m.surfaces.find? (fun e => e.surface == s), m.widgets.filter (fun w => w.surface == s))

/-- A mimic surface keeps its content, map and leases at activation (R182). Log entry 138 (DEDUCED). -/
def keepsMimic (old new : Option MimicCfg) (s : Nat) : Bool :=
  match old, new with
  | some a, some b => (b.surfaces.any (fun e => e.surface == s)) && a.partOf s == b.partOf s && a.frames == b.frames &&
      a.atlas == b.atlas && (b.partOf s).2.all (fun w => a.tables.getD w.table [] == b.tables.getD w.table [])
  | _, _ => false

/-- A receive entry unchanged from the active image keeps its buffers. Log entry 138 (DEDUCED). -/
def keepsRegion (old : Option StitchCfg) (e : RecvEntry) : Bool := (old.map (fun s => s.recvs.contains e)).getD false

/-- Runs a reservation over a list, all or nothing. -/
def reserveAll {α : Type} (f : HostSide → α → Option HostSide) : List α → HostSide → Option HostSide
  | [], h => some h
  | a :: t, h => (f h a).bind (reserveAll f t)

/-- The reservations of one section; the slice ring of an enabled head is placed with them unless it has one of its width
(06_composition.md R164). Log entries 137 (DEDUCED), 241 (DESIGN CHOICE). -/
def HostSide.reserveFor (h : HostSide) (c : Cfg) (b : Body) : Option HostSide :=
  let lo := c.cst.bar2Base / 65536
  let hi := lo + 0xE0000000 / 65536
  match b with
  | .heads l => reserveAll (fun (h : HostSide) (e : HeadEntry) =>
      if e.enable = 0 ∨ (h.ringRun e.head e.hActive).isSome then some h
      else h.reserveAny (.ring e.head e.hActive) 0 630784 (ringPages e.hActive) c.named) l h
  | .surfaces l => reserveAll (fun (h : HostSide) (e : SurfaceEntry) =>
      let n := cdiv (surfaceBytes e.format e.coding e.width e.height) 65536
      match h.surface e.handle with
      | some s => if lo ≤ s.page ∧ s.page + n ≤ hi then some h else none
      | none => h.reserveAny (.surface e.handle) lo hi n c.named) l h
  | .mimic m => reserveAll (fun (h : HostSide) (e : MimicSurface) =>
      if keepsMimic h.cfg.mimic c.mimic e.surface then some h
      else (h.reserveAny (.mimicSurface e.surface) 0 630784 (cdiv (mimicBytes e) 65536) c.named).bind (fun h =>
        h.reserveAny (.cellMap e.surface) 0 630784 (cdiv (mapBytes e) 65536) c.named)) m.surfaces h
  | .log l => (h.reserveAt .freshRing (l.frsRing / 65536) 1).bind (fun h =>
      h.reserveAt .moduleRing (l.modRing / 65536) (cdiv (32 * l.modCount) 65536))
  | .points q => h.reserveAt .replica ((c.cst.bar2Base + q.replicaOffset) / 65536) 128
  | .stitch s => reserveAll (fun (h : HostSide) (e : RecvEntry) =>
      if keepsRegion h.cfg.stitch e then some h
      else h.reserveAny (.stitch e.region) 0 630784 (cdiv (3 * (e.w * e.h * 2)) 65536) c.named) s.recvs h
  | _ => some h

/-- Step 6d, in section order. Log entries 73 (DEDUCED), 135 (DEDUCED), 138 (DEDUCED), 141 (DEDUCED). -/
def HostSide.reserve (h : HostSide) (p : Parsed) (c : Cfg) : List Piece → HostSide ⊕ Refuse
  | [] => .inl h
  | s :: t =>
    if s.sec.target == 255 || s.sec.target == p.own then
      match h.reserveFor c s.body with
      | some h => h.reserve p c t
      | none => .inr ⟨0x0A, some s.sec.index⟩
    else h.reserve p c t

/-! ## Step 7: scope of a partial image (R69) -/

/-- A layer lies in scope. Log entry 139 (DEDUCED). -/
def inScope (active c : Cfg) (s : Scope) (l : Nat) : Bool :=
  if s.kind = 2 then s.layers.contains l
  else (c.layers.find? (fun e => e.layer == l)).all (fun e => e.head == s.head) &&
    (active.layers.find? (fun e => e.layer == l)).all (fun e => e.head == s.head) &&
    (c.layers.any (fun e => e.layer == l) || active.layers.any (fun e => e.layer == l))

/-- Every layer that a test picks lies in scope. -/
def onlyScope (active c : Cfg) (s : Scope) (uses : LayerEntry → Bool) : Bool :=
  (c.layers ++ active.layers).all (fun e => !uses e || inScope active c s e.layer)

/-- The items that a claim involves lie in scope. A reservation involves no layer; command targets are never in scope.
Log entry 139 (DEDUCED). -/
def claimInScope (active c : Cfg) (s : Scope) : ClaimBody → Bool
  | .capture stream layer _ _ => inScope active c s layer &&
      onlyScope active c s (fun e => e.kind == 0 && e.source == stream)
  | .pointToPixel layer _ _ _ _ => inScope active c s layer
  | .stitch _ _ _ _ layer _ => inScope active c s layer
  | .budget layer _ _ => inScope active c s layer
  | .command _ _ _ _ => false
  | _ => true

/-- The entries of one section lie in scope; a mimic surface must be used by some layer (07_mimic.md R173).
Log entry 139 (DEDUCED). -/
def scopeOk (active c : Cfg) (own : Nat) (s : Scope) : Body → Bool
  | .heads l => l.all (fun e => s.kind == 1 && e.head == s.head)
  | .layers l => l.all (fun e => inScope active c s e.layer)
  | .watch l => l.all (fun e => inScope active c s e.layer)
  | .surfaces l => l.all (fun e => onlyScope active c s (fun x => x.kind == 1 &&
      (x.source == e.handle || descSurface x.descriptor == e.handle)))
  | .streams l => l.all (fun e => onlyScope active c s (fun x => x.kind == 0 && x.source == e.stream))
  | .mimic m => m.surfaces.all (fun e =>
      let uses (x : LayerEntry) : Bool := x.kind == 2 && x.source == e.surface
      onlyScope active c s uses && (c.layers ++ active.layers).any uses)
  | .encode l => (l ++ active.encode.filter (fun o => l.any (fun e => e.context == o.context))).all (fun e =>
      if e.layerSrc = 1 then inScope active c s e.layer else s.kind == 1 && e.head == s.head)
  | .claims l => l.all (fun k => !(k.owner == 255 || k.owner == own) ||
      (match k.body with
        | .deletion => ((active.claims.find? (fun o => o.id == k.id)).map (fun o => claimInScope active c s o.body)).getD true
        | b => claimInScope active c s b))
  | _ => true

/-- Step 7. Log entry 133 (DEDUCED). -/
def HostSide.checkScope (h : HostSide) (p : Parsed) (c : Cfg) : Option Refuse :=
  if !p.hdr.part then none
  else (need (p.hdr.base == h.activeId) 0x0C none).or <|
    match p.get Body.scopeOf with
    | none => none
    | some s => firstFail p.pieces (fun x =>
        need (!(x.sec.target == 255 || x.sec.target == p.own) || scopeOk h.cfg c p.own s x.body) 0x0D (some x.sec.index))

end Sys2Proof.Machine
end

