-- ==== Sys2Proof/Machine/Buckram.lean ====
section
/-! DEFINITION. Buckram admission: the checks of 04_admission.md R83 to R106 in the order of Table 04.7, every comparison
exact. -/

namespace Sys2Proof.Machine

/-! ## Exact rates -/

/-- A rate or a time as an exact quotient. Log entry 149 (DEDUCED). -/
structure Rate where
  num : Nat
  den : Nat
  deriving DecidableEq, Repr

def Rate.ofNat (n : Nat) : Rate := ⟨n, 1⟩
def Rate.zero : Rate := ⟨0, 1⟩

def Rate.add (a b : Rate) : Rate :=
  if a.den = b.den then ⟨a.num + b.num, a.den⟩
  else
    let n := a.num * b.den + b.num * a.den
    let d := a.den * b.den
    ⟨n / Nat.gcd n d, d / Nat.gcd n d⟩

def Rate.scale (a : Rate) (n d : Nat) : Rate := ⟨a.num * n, a.den * d⟩

def Rate.sum (l : List Rate) : Rate := l.foldl Rate.add Rate.zero

/-- At most `n`. -/
def Rate.le (a : Rate) (n : Nat) : Bool := decide (a.num ≤ n * a.den)

/-- Rounded up to whole units of `unit` (R105). -/
def Rate.up (a : Rate) (unit : Nat) : Nat := cdiv a.num (a.den * unit)

/-! ## Outcomes -/

/-- A rejection: the code of Table 04.7, ELEMENT (none where the image gives the claim no ordinal, log entry 150), AUX,
DETAIL and LIMIT. -/
structure Reject where
  code    : Nat
  element : Option Nat
  detail  : Nat := 0
  limit   : Nat := 0
  aux     : Nat := 0
  deriving DecidableEq, Repr

/-- What a run has computed: loads, and the bounds of claims by ordinal. -/
structure Found where
  loads  : List (Fld × Nat)
  bounds : List (Nat × Nat)
  deriving DecidableEq, Repr

/-- A stage of the run: what it finds, and the first failure. -/
abbrev Stage_ := Found × Option Reject

def Stage_.pass : Stage_ := (⟨[], []⟩, none)

/-- A check of one element. -/
def check (ok : Bool) (r : Reject) : Stage_ := (⟨[], []⟩, if ok then none else some r)

/-- A check of one element with its load. -/
def load (f : Fld) (v : Nat) (s : Stage_) : Stage_ := (⟨(f, v) :: s.1.loads, s.1.bounds⟩, s.2)

/-- Runs a stage and, where it passes, the next one. -/
def andThen (a : Stage_) (b : Unit → Stage_) : Stage_ :=
  match a.2 with
  | some r => (a.1, some r)
  | none => let n := b (); (⟨a.1.loads ++ n.1.loads, a.1.bounds ++ n.1.bounds⟩, n.2)

/-- A stage over elements in order, stopping at the first failure. -/
def overAll {α : Type} (f : α → Stage_) : List α → Stage_
  | [] => .pass
  | a :: t => andThen (f a) (fun _ => overAll f t)

/-! ## What a run looks at -/

/-- A claim that this run proves: its ordinal in the CLAIMS section of the image, none for a claim that a partial image
does not carry and that names an item in its scope (R103). -/
structure Due where
  ordinal : Option Nat
  claim   : Claim
  deriving DecidableEq, Repr

/-- The configuration judged and its surroundings. -/
structure Ask where
  cfg    : Cfg
  /-- The claims active before. -/
  before : List Claim
  due    : List Due
  own    : Nat
  /-- Line rates of the host network ports in kbit/s, and the channels that serve slots. -/
  ports  : List Nat
  serving : List Nat
  deriving DecidableEq, Repr

def Ask.heads (a : Ask) : List HeadEntry := a.cfg.heads.filter (fun e => e.enable == 1)
def Ask.streams (a : Ask) : List StreamEntry := a.cfg.streams.filter (fun e => e.enable == 1)
def Ask.head (a : Ask) (k : Nat) : Option HeadEntry := a.heads.find? (fun e => e.head == k)
def Ask.coreOf (a : Ask) (s : Nat) : Nat := a.cfg.decCore.getD s 255

/-- The claims of the resulting configuration that this module owns: their charges enter every resource check. -/
def Ask.owned (a : Ask) : List Claim := a.cfg.claims.filter (fun c => c.owner == 255 || c.owner == a.own)

/-- f(h) in frames per second. -/
def HeadEntry.rate (e : HeadEntry) : Rate := ⟨1000000000 * 2 ^ 24, e.pq⟩

/-- Largest picture rate of a stream. Log entry 149 (DEDUCED). -/
def StreamEntry.rate (e : StreamEntry) : Rate := ⟨1000000, e.minPeriodUs⟩

/-- Sum of the reservations of a kind, of one instance or of all (R86). -/
def Ask.reserved (a : Ask) (kind : Nat) (inst : Option Nat) : Nat :=
  a.owned.foldl (fun n c => match c.body with
    | .reservation k i amount => if k = kind ∧ (inst.isNone ∨ inst = some i) then n + amount else n
    | _ => n) 0

/-! ## 0x01 to 0x04 -/

def Ask.struct_ (a : Ask) : Stage_ :=
  let lanes := a.heads.map (·.lane)
  andThen (overAll (fun (e : HeadEntry) =>
      let byte := a.cfg.headEngine.getD e.head 255
      andThen (check (decide (e.engine ≤ 7)) ⟨1, some e.head, e.engine, 0, 0⟩) (fun _ =>
      andThen (check (decide (byte ≤ 7)) ⟨1, some e.head, byte, 0, 0⟩) (fun _ =>
      check (decide (e.lane ≤ 47) && (lanes.filter (· == e.lane)).length == 1) ⟨1, some e.head, e.lane, 0, 0⟩))) a.heads)
    (fun _ => overAll (fun (e : StreamEntry) =>
      check (decide (a.coreOf e.stream ≤ 7)) ⟨1, some e.stream, a.coreOf e.stream, 0, 1⟩) a.streams)

/-- The levels that a codec's standard defines (R89). -/
def levels (codec : Nat) : List Nat :=
  if codec ≤ 2 then [30, 60, 63, 90, 93, 120, 123, 150, 153]
  else [9, 10, 11, 12, 13, 20, 21, 22, 30, 31, 32, 40, 41, 42, 50, 51]

def Ask.decodeLevel (a : Ask) : Stage_ :=
  overAll (fun (e : StreamEntry) => check ((levels e.codec).contains e.level) ⟨2, some e.stream, 0, 0, 0⟩) a.streams

/-- The initial descriptor lies inside the envelope (R65, R101). Log entry 132 (DEDUCED). -/
def LayerEntry.inEnvelope (e : LayerEntry) : Bool :=
  let d := e.descriptor
  decide (e.envX0 ≤ descDstX d ∧ e.envY0 ≤ descDstY d ∧ descDstX d + descDstW d ≤ e.envX1 ∧
    descDstY d + descDstH d ≤ e.envY1 ∧ descSrcW d ≤ e.envSrcW ∧ descSrcH d ≤ e.envSrcH) &&
    !scaleBad e (descSrcW d) (descDstW d) && !scaleBad e (descSrcH d) (descDstH d)

/-- Buckram: the image lies in its envelope. Log entry 132 (DEDUCED). -/
def Ask.envelope (a : Ask) : Stage_ :=
  overAll (fun (e : LayerEntry) =>
    check (match a.cfg.heads.find? (fun k => k.head == e.head) with
      | some k => decide (e.envX1 ≤ k.hActive ∧ e.envY1 ≤ k.vActive) && within_ 1 e.envDown 8 && within_ 1 e.envUp 8 &&
          e.inEnvelope
      | none => false) ⟨3, some e.layer, 0, 0, 0⟩) a.cfg.layers

/-- A layer's head. -/
def Ask.headOf (a : Ask) (l : Nat) : Option HeadEntry :=
  (a.cfg.layers.find? (fun e => e.layer == l)).bind (fun e => a.cfg.heads.find? (fun k => k.head == e.head))

/-- The layer exists. -/
def Ask.hasLayer (a : Ask) (l : Nat) : Bool := a.cfg.layers.any (fun e => e.layer == l)

/-- DEADLINE of a freshness claim. -/
def ClaimBody.deadline? : ClaimBody → Option Nat
  | .capture _ _ _ d => some d
  | .pointToPixel _ _ _ _ d => some d
  | .stitch _ _ _ _ _ d => some d
  | .budget _ _ d => some d
  | _ => none

/-- A stitch link of the resulting configuration. -/
def Ask.link (a : Ask) (k : Nat) : Option LinkEntry := a.cfg.stitch.bind (fun s => s.links.find? (fun l => l.link == k))

/-- The streams, layers, targets, links, ports and CLAIM_IDs that a claim names exist, enabled or not, and so does the
instance that a reservation names (R85, R86, R100; R69 for a deletion). Log entries 142 (DEDUCED), 223 (DESIGN CHOICE). -/
def Ask.claimHolds (a : Ask) (c : Claim) : Bool :=
  match c.body with
  | .deletion => a.before.any (fun o => o.id == c.id && o.owner == c.owner)
  | .reservation kind inst _ =>
    (match kind with
      | 1 => inst == 0
      | 2 => decide (inst ≤ 16)
      | 3 => inst == 0
      | 4 => decide (inst ≤ 3)
      | 5 => decide (inst ≤ 3)
      | _ => false)
  | .capture stream layer _ _ => a.cfg.streams.any (fun e => e.stream == stream) && a.hasLayer layer
  | .pointToPixel layer _ _ _ _ => a.hasLayer layer
  | .command first count port _ =>
    (List.range count).all (fun i => a.cfg.commands.any (fun t => t.target == first + i)) &&
      ((a.cfg.field.bind (fun f => f.ports.find? (fun p => p.port == port))).isSome)
  | .stitch src link _ _ layer _ =>
    (a.cfg.claims.any (fun x => x.id == src && x.shared && x.body.deadline?.isSome)) && (a.link link).isSome &&
      a.hasLayer layer
  | .budget layer _ _ => a.hasLayer layer

/-- Buckram: every claim refers to what exists. Log entries 142 (DEDUCED), 144 (DEDUCED). -/
def Ask.claimRef (a : Ask) : Stage_ :=
  overAll (fun (d : Due) => check (a.claimHolds d.claim) ⟨4, d.ordinal, d.claim.id, 0, 0⟩) a.due

/-! ## 0x05 to 0x07 -/

def Ask.decoderRate (a : Ask) : Stage_ :=
  overAll (fun c =>
    let r := Rate.sum ((a.streams.filter (fun e => a.coreOf e.stream == c)).map (fun e =>
      e.rate.scale (e.maxW * e.maxH + 2100) 1))
    load (Reg.BCK_LOAD_DEC_KSPS c) (r.up 1000) (check (r.le 1050000000) ⟨5, some c, r.up 1000, 1050000, 0⟩)) (List.range 8)

def Ask.engineRate (a : Ask) : Stage_ :=
  overAll (fun e =>
    let r := Rate.sum ((a.heads.filter (fun k => k.engine == e)).map (fun k => k.rate.scale (k.hActive * k.vTotal) 1))
    load (Reg.BCK_LOAD_CE_KPXS e) (r.up 1000) (check (r.le 2548000000) ⟨6, some e, r.up 1000, 2548000, 0⟩)) (List.range 8)

def Ask.outputRate (a : Ask) : Stage_ :=
  let r := Rate.sum (a.heads.map (fun k => k.rate.scale (k.hActive * k.vActive) 1))
  load Reg.BCK_LOAD_OUT_MPXS (r.up 1000000) (check (r.le 20000000000) ⟨7, some 0, r.up 1000000, 20000, 0⟩)

/-! ## 0x08 and 0x09: occlusion (R91, R92) -/

/-- A span of 64 pixels of a slice row of a head, cut to its active area. -/
structure Span where
  x0 : Nat
  x1 : Nat
  y0 : Nat
  y1 : Nat
  deriving DecidableEq, Repr

def spanOf (k : HeadEntry) (row i : Nat) : Span :=
  ⟨64 * i, min (64 * i + 64) k.hActive, 32 * row, min (32 * row + 32) k.vActive⟩

/-- A layer's envelope meets a span. -/
def LayerEntry.meets (e : LayerEntry) (s : Span) : Bool :=
  decide (e.envX0 < s.x1 ∧ s.x0 < e.envX1 ∧ e.envY0 < s.y1 ∧ s.y0 < e.envY1)

/-- A credit layer's rectangle covers a span. -/
def LayerEntry.covers (e : LayerEntry) (s : Span) : Bool :=
  e.credit && decide (e.envX0 ≤ s.x0 ∧ s.x1 ≤ e.envX1 ∧ e.envY0 ≤ s.y0 ∧ s.y1 ≤ e.envY1)

/-- A layer meets a span and no credit layer above covers it. -/
def uncovered (ls : List LayerEntry) (e : LayerEntry) (s : Span) : Bool :=
  e.meets s && !ls.any (fun c => standsAbove c.layer c.descriptor e.layer e.descriptor && c.covers s)

def Ask.layersOn (a : Ask) (k : Nat) : List LayerEntry := a.cfg.layers.filter (fun e => e.head == k)

def HeadEntry.spans (k : HeadEntry) : Nat := cdiv k.hActive 64

def Ask.layerDepth (a : Ask) : Stage_ :=
  overAll (fun (k : HeadEntry) =>
    let ls := a.layersOn k.head
    overAll (fun row => overAll (fun i =>
      check (decide ((ls.filter (fun e => uncovered ls e (spanOf k row i))).length ≤ 8)) ⟨8, some k.head, row * 256 + i, 8, 0⟩)
      (List.range k.spans)) (List.range k.slices)) a.heads

/-- LB of a layer (R92), with d = D / 2 above 2. -/
def LayerEntry.lineBuffer (e : LayerEntry) : Nat :=
  -- 2 d
  let d2 := if e.envDown ≤ 2 then 2 * e.envDown else e.envDown
  (16 * d2 + 3) * (128 * d2 + 3) * 4

/-- The line-buffer charge of a slice row. -/
def rowCharge (ls : List LayerEntry) (k : HeadEntry) (row : Nat) : Nat :=
  ls.foldl (fun n e => if (List.range k.spans).any (fun i => uncovered ls e (spanOf k row i)) then n + e.lineBuffer else n) 0

/-- The largest row charge among an engine's heads up to and with head `k`. -/
def Ask.largestRow (a : Ask) (k : HeadEntry) : Nat :=
  (a.heads.filter (fun o => o.engine == k.engine && decide (o.head ≤ k.head))).foldl (fun n o =>
    (List.range o.slices).foldl (fun n r => max n (rowCharge (a.layersOn o.head) o r)) n) 0

def Ask.lineBuffers (a : Ask) : Stage_ :=
  overAll (fun (k : HeadEntry) =>
    let ls := a.layersOn k.head
    load (Reg.BCK_LOAD_LB_BYTES k.engine) (a.largestRow k) (overAll (fun row =>
      let n := rowCharge ls k row
      check (decide (n ≤ 1048576)) ⟨9, some k.head, n, 1048576, row⟩) (List.range k.slices))) a.heads

/-! ## 0x0A to 0x0C: central store and Tartan (R93 to R95) -/

/-- A charged flow: its master port, none for the fixed charge, and its rate in B/s. -/
structure Flow where
  port : Option Nat
  rate : Rate
  deriving DecidableEq, Repr

/-- Bits per pixel of a layer's source, times the Muslin ratio's inverse, as a quotient (Table 04.4). -/
def Ask.pixelBits (a : Ask) (e : LayerEntry) : Nat × Nat :=
  match e.kind with
  | 0 => (((a.cfg.streams.find? (fun s => s.stream == e.source)).map (fun s => if s.codec = 2 then 15 else 12)).getD 15, 2)
  | 1 => match a.cfg.surfaces.find? (fun s => s.handle == e.source) with
    | some s =>
      let bits := match s.format with | 3 => 12 | 4 => 15 | _ => 32
      (match s.coding with | 0 => (bits, 1) | 1 => (2 * bits, 3) | 2 => (bits, 2) | _ => (bits, 3))
    | none => (32, 1)
  | _ => (32, 2)

/-- The layer has an uncovered span. -/
def visible (ls : List LayerEntry) (k : HeadEntry) (e : LayerEntry) : Bool :=
  (List.range k.slices).any (fun r => (List.range k.spans).any (fun i => uncovered ls e (spanOf k r i)))

/-- Enabled encode contexts of a head, and its stitch sends on enabled links (06_composition.md R164). -/
def Cfg.tapsOf (c : Cfg) (k : Nat) : List EncodeEntry := c.encode.filter (fun e => e.enable == 1 && e.head == k)
def Cfg.sendsOf (c : Cfg) (k : Nat) : List SendEntry :=
  (c.stitch.map (fun s => s.sends.filter (fun e => e.head == k && s.links.any (fun l => l.link == e.link && l.enable == 1)))).getD []

/-- Input pixel rate of a context (09_encode.md R209). -/
def Ask.pixelRate (a : Ask) (e : EncodeEntry) : Rate :=
  match a.cfg.encSize e, a.head e.head with
  | some (w, ht), some k => k.rate.scale (w * ht) e.div
  | _, _ => .zero

/-- BYTES × f(sending head) of a stitch claim; a sending head that the image does not tell has an open rate.
Log entries 145 (DESIGN CHOICE), 146 (DEDUCED). -/
def Ask.stitchRate (a : Ask) (c : Claim) (bytes : Nat) : Rate :=
  let pq := ((a.cfg.senders.find? (fun s => s.claim == c.id)).map (·.period)).getD (Config.senderPeriod c.id)
  ⟨bytes * 1000000000 * 2 ^ 24, pq⟩

/-- Every flow of Table 04.4; reservations of KIND 0x01 are charged to the central store alone.
Log entries 146 (DEDUCED), 225 (DESIGN CHOICE). -/
def Ask.flows (a : Ask) : List Flow :=
  let heads := a.heads.flatMap (fun k =>
    let ls := a.layersOn k.head
    let fetch := (ls.filter (visible ls k)).map (fun e =>
      let (b, d) := a.pixelBits e
      Flow.mk (some k.engine) (k.rate.scale (e.envSrcW * e.envSrcH * b * (36 + 3 * e.envUp)) (8 * d * 32)))
    let ring := k.rate.scale (k.hActive * k.vActive * 2) 1
    fetch ++ [Flow.mk (some k.engine) ring, Flow.mk (some (21 + k.head / 4)) ring] ++
      (a.cfg.tapsOf k.head).map (fun t => Flow.mk (some (18 + t.core)) ring) ++
      (a.cfg.sendsOf k.head).map (fun s => Flow.mk (some (37 + s.link)) ring))
  let streams := a.streams.flatMap (fun e =>
    let core := 9 + a.coreOf e.stream
    let jb : Rate := ⟨e.bitrate * 1000, 8⟩
    [Flow.mk (some core) (e.rate.scale (e.maxW * e.maxH * 348 * (if e.codec = 2 then 15 else 12)) 1600),
      Flow.mk (some 33) jb, Flow.mk (some core) jb])
  let codes := (a.cfg.encode.filter (fun e => e.enable == 1)).map (fun e => Flow.mk (some (18 + e.core)) ((a.pixelRate e).scale 6 1))
  let claims := a.owned.flatMap (fun c => match c.body with
    | .pointToPixel _ _ _ redraw _ => [Flow.mk (some 20) (Rate.ofNat (redraw * 6000))]
    | .stitch _ link _ bytes _ _ => [Flow.mk (some (37 + link)) ((a.stitchRate c bytes).scale 2 1)]
    | _ => [])
  heads ++ streams ++ codes ++ claims ++ [Flow.mk none (Rate.ofNat 500000000)]

/-- OVH (R93). -/
def Ask.overhead (a : Ask) : Rate :=
  let n := if a.cfg.cst.rhWide = 1 then 4 else 2
  (Rate.add ⟨35125, 1000000⟩ ⟨n, a.cfg.cst.rhThreshold⟩).scale 375100000000 1

def Ask.dram (a : Ask) (fs : List Flow) : Stage_ :=
  let r := (Rate.sum (fs.map (·.rate))).add (a.overhead.add (Rate.ofNat (a.reserved 1 none)))
  load Reg.BCK_LOAD_DRAM_MBPS (r.up 1000000) (check (r.le 262570000000) ⟨0x0A, some 0, r.up 1000000, 262570, 0⟩)

def Ask.selfRefresh (a : Ask) : Stage_ :=
  overAll (fun c => check (!(bit a.cfg.cst.srEn c && a.serving.contains c)) ⟨0x0B, some c, 0, 0, 0⟩) (List.range 12)

/-- Burst length of a master port (R95); the fixed charge is taken at 16 beats. Log entry 147 (DEDUCED). -/
def burstOf : Option Nat → Nat
  | some 33 => 4
  | some 34 => 4
  | some 35 => 1
  | some 36 => 1
  | _ => 16

/-- The ports that carry the flows of admitted chains. Log entry 146 (DEDUCED). -/
def chainPorts : List Nat := List.range 34 ++ [37, 38, 39, 40, 46]

/-- A target port's demand; a reservation of KIND 0x02 adds its AMOUNT as it stands. Log entries 147 (DEDUCED),
224 (DESIGN CHOICE). -/
def Ask.targetPort (a : Ask) (shared : Rate) (t : Nat) : Stage_ :=
  let r := (if a.serving.contains t then shared else Rate.zero).add (Rate.ofNat (a.reserved 2 (some t)))
  check (r.le 76800000000) ⟨0x0C, some t, r.up 1000000, 76800, 0⟩

/-- A master port's demand. -/
def Ask.masterPort (fs : List Flow) (m : Nat) : Stage_ :=
  let r := Rate.sum ((fs.filter (fun f => f.port == some m)).map (·.rate))
  let top := 1280 * burstOf (some m)
  check (r.le (top * 1000000)) ⟨0x0C, some m, r.up 1000000, top, 1⟩

/-- A master port's QoS against the urgent thresholds of the DRAM target ports. -/
def Ask.masterQos (a : Ask) (m : Nat) : Stage_ :=
  let q := a.cfg.tartan.qos.getD m 0
  let unmet := (a.cfg.tartan.urgent.take 12).filter (fun u => decide (q < u))
  check (unmet.isEmpty || !chainPorts.contains m) ⟨0x0C, some m, q, unmet.foldl max 0, 2⟩

/-- Buckram: the flows fit the Tartan matrix, in ascending order of the port (R102). Log entries 147 (DEDUCED),
227 (DESIGN CHOICE). -/
def Ask.tartan (a : Ask) (fs : List Flow) : Stage_ :=
  let shared := Rate.sum (fs.map (fun f => f.rate.scale (burstOf f.port + 1) (11 * burstOf f.port)))
  overAll (fun n =>
    andThen (if n < 17 then a.targetPort shared n else .pass) (fun _ =>
    andThen (Ask.masterPort fs n) (fun _ => a.masterQos n))) (List.range 47)

/-! ## 0x0D to 0x11 (R96, R97) -/

def Ask.crossing (a : Ask) : Stage_ :=
  let r := Rate.ofNat ((a.reserved 3 none + 4000) * 512)
  load Reg.BCK_LOAD_XING_KBPS (r.up 1000) (check (r.le 1200000000) ⟨0x0D, some 0, r.up 1000, 1200000, 0⟩)

def Ask.lanes (a : Ask) : Stage_ :=
  andThen (overAll (fun l => overAll (fun (k : HeadEntry) =>
      let bpp := if k.format = 0 then 30 else 24
      let r := k.rate.scale (102 * k.vActive * (k.hActive * bpp + 1280)) 100
      check (r.le 22500000000) ⟨0x0E, some l, r.up 1000000, 22500, 0⟩) (a.heads.filter (fun k => k.lane == l)))
      (List.range 48)) (fun _ =>
  overAll (fun n =>
    let rates := (a.streams.filter (fun e => e.portA == n || (e.frer == 1 && e.portB == n))).foldl (fun s e => s + e.bitrate) 0
    let r := Rate.ofNat (rates * 1000 + a.reserved 4 (some n))
    let line := a.ports.getD n 0
    check (r.le (line * 800)) ⟨0x0E, some (0x100 + n), r.up 1000000, line * 8 / 10000, 0⟩) (List.range 4))

/-- Lanes wired of an enabled link. -/
def Ask.wiredLanes (a : Ask) (k : Nat) : Nat := ((a.link k).map (fun l => popcount l.wired 4)).getD 0

def Ask.stitchLinks (a : Ask) : Stage_ :=
  overAll (fun k =>
    let inbound := Rate.sum (a.owned.map (fun c => match c.body with
      | .stitch _ link _ bytes _ _ => if link = k then a.stitchRate c bytes else .zero
      | _ => .zero))
    let r := inbound.add (Rate.ofNat (a.reserved 5 (some k)))
    let top := 3200 * a.wiredLanes k
    check (r.le (top * 1000000)) ⟨0x0F, some k, r.up 1000000, top, 0⟩) (List.range 4)

def Ask.encodeRate (a : Ask) : Stage_ :=
  overAll (fun c =>
    let r := Rate.sum ((a.cfg.encode.filter (fun e => e.enable == 1 && e.core == c)).map a.pixelRate)
    load (Reg.BCK_LOAD_ENC_KPXS c) (r.up 1000) (check (r.le 497664000) ⟨0x10, some c, r.up 1000, 497664, 0⟩)) (List.range 2)

def Ask.mimicRate (a : Ask) : Stage_ :=
  let r := Rate.ofNat (a.owned.foldl (fun n c => match c.body with
    | .pointToPixel _ _ _ redraw _ => n + redraw * 1000
    | _ => n) 0)
  check (r.le 2800000000) ⟨0x11, some 0, r.up 1000000, 2800, 0⟩

/-! ## 0x12 to 0x14: coverage (R87) -/

/-- The owned claims of the type that matches a layer's KIND. Log entry 143 (DEDUCED). -/
def Ask.covering (a : Ask) (e : LayerEntry) : List Claim :=
  a.owned.filter (fun c => c.body.layer? == some e.layer && (match c.body, e.kind with
    | .capture _ _ _ _, 0 => true
    | .budget _ _ _, 1 => true
    | .pointToPixel _ _ _ _ _, 2 => true
    | .stitch _ _ _ _ _ _, 3 => true
    | _, _ => false))

/-- Buckram: every live-bearing layer has its claim. Log entry 143 (DEDUCED). -/
def Ask.noClaim (a : Ask) : Stage_ :=
  overAll (fun (e : LayerEntry) => check (e.liveBearing == 0 || (a.covering e).length == 1) ⟨0x12, some e.layer, 0, 0, 0⟩)
    a.cfg.layers

def Ask.budgetUnclaimed (a : Ask) : Stage_ :=
  overAll (fun (e : LayerEntry) => overAll (fun (c : Claim) =>
    let d := c.body.deadline?.getD 0
    check (decide (e.budget ≤ d)) ⟨0x13, some e.layer, e.budget, d, 0⟩) (a.covering e)) a.cfg.layers

def Ask.classUnproven (a : Ask) : Stage_ :=
  overAll (fun (d : Due) => match d.claim.body with
    | .capture stream _ _ _ => check (!a.streams.any (fun e => e.stream == stream && e.cls == 2)) ⟨0x14, d.ordinal, stream, 0, 0⟩
    | _ => .pass) a.due

/-! ## 0x15: chains (R98, R99, Table 04.5) -/

/-- One central-store access of an urgent request, in ns. -/
def lMem : Nat := 3200

/-- T_frame of a head in ns. -/
def HeadEntry.frameTime (k : HeadEntry) : Rate := ⟨k.pq, 2 ^ 24⟩

/-- The composition lead, 2 × P_slice. -/
def HeadEntry.lead (k : HeadEntry) : Rate := k.frameTime.scale 64 k.vTotal

/-- The one stage of memory handovers, slice wait and lead. -/
def HeadEntry.tail (k : HeadEntry) (handovers : Nat) : Nat :=
  ((Rate.ofNat (handovers * lMem)).add (k.frameTime.add k.lead)).up 1

/-- Transmission of a command at a port's mode. -/
def sendTime (mode : Nat) : Nat := match mode with | 1 => 12304 | 2 => 4922 | _ => 1231

/-- The sum of a claim's stage bounds in ns. -/
def Ask.chain (a : Ask) (b : ClaimBody) : Nat :=
  match b with
  | .capture stream layer aSrc _ =>
    match a.cfg.streams.find? (fun e => e.stream == stream), a.headOf layer with
    | some e, some k =>
      (if e.cls = 0 then aSrc else e.pathMax) + 40000 +
        ((Rate.ofNat (e.maxPeriodUs * 1000 + 2000000)).add ⟨e.maxW * e.maxH * 20, 21⟩).up 1 + 3 * lMem +
        k.frameTime.up 1 + k.lead.up 1
    | _, _ => 0
  | .pointToPixel layer cells aSrc redraw _ =>
    aSrc + 20000 + 1000000 + (1200 + (cells + 17 + cdiv (cells + 16) 15) * 512) + 10000 + (cdiv redraw 4 + 2000) +
      ((a.headOf layer).map (·.tail 2)).getD 0
  | .command _ _ port _ =>
    let p := a.cfg.field.bind (fun f => f.ports.find? (fun p => p.port == port))
    250000 + (1200 + 19 * 512) + 50000 + (p.map (·.cycleNs)).getD 0 + sendTime ((p.map (·.mode)).getD 0)
  | .stitch src link _ bytes layer _ =>
    let up := ((a.cfg.claims.find? (fun c => c.id == src)).bind (fun c => c.body.deadline?)).getD 0
    up * 1024 + (2000 + cdiv (bytes * 10) (32 * a.wiredLanes link) + 20000) +
      ((a.headOf layer).map (·.tail 2)).getD 0
  | .budget layer age _ => age + ((a.headOf layer).map (·.tail 1)).getD 0
  | _ => 0

/-- The bound of a claim: VT units for freshness claims, ns for type 0x04, 0 for type 0x01 (R99). -/
def Ask.bound (a : Ask) (b : ClaimBody) : Nat :=
  if b.deadline?.isSome then cdiv (a.chain b) 1024 + 1 else a.chain b

/-- The chain of one claim passes. -/
def Ask.chainHolds (a : Ask) (b : ClaimBody) : Bool :=
  match b, b.deadline? with
  | .command _ _ _ d, _ => decide (a.bound b ≤ d)
  | _, some d => decide (a.bound b < d)
  | _, none => true

def ClaimBody.limit : ClaimBody → Nat
  | .command _ _ _ d => d
  | b => b.deadline?.getD 0

def Ask.chains (a : Ask) : Stage_ :=
  overAll (fun (d : Due) =>
    let b := d.claim.body
    let s := check (a.chainHolds b) ⟨0x15, d.ordinal, a.bound b, b.limit, 0⟩
    match d.ordinal, s.2 with
    | some i, none => if b = .deletion then s else (⟨[], [(i, a.bound b)]⟩, none)
    | _, _ => s) a.due

/-! ## The run (R102) -/

def Ask.run (a : Ask) : Stage_ :=
  andThen a.struct_ fun _ => andThen a.decodeLevel fun _ => andThen a.envelope fun _ => andThen a.claimRef fun _ =>
  andThen a.decoderRate fun _ => andThen a.engineRate fun _ => andThen a.outputRate fun _ => andThen a.layerDepth fun _ =>
  andThen a.lineBuffers fun _ =>
  let fs := a.flows
  andThen (a.dram fs) fun _ => andThen a.selfRefresh fun _ => andThen (a.tartan fs) fun _ =>
  andThen a.crossing fun _ => andThen a.lanes fun _ => andThen a.stitchLinks fun _ => andThen a.encodeRate fun _ =>
  andThen a.mimicRate fun _ => andThen a.noClaim fun _ => andThen a.budgetUnclaimed fun _ => andThen a.classUnproven fun _ =>
  a.chains

end Sys2Proof.Machine
end

