-- ==== Sys2Proof/Machine/ImageOps.lean ====
section
/-! DEFINITION. Staging, verification, admission and the commit point of structure images (03_structure_image.md R70 to
R74, R77, R78; 04_admission.md R102 to R106). -/

namespace Sys2Proof.Machine

/-! ## Members and their messages (R67, R73, R363) -/

/-- SIM.PEER_ADMIT shows what members said of the image `id`. -/
def HostSide.showPeers (h : HostSide) (id : Nat) : HostSide :=
  let mask (want : Bool) : Nat := h.stage.peers.foldl (fun m p =>
    if p.imageId = id ∧ id ≠ 0 ∧ p.admits = want then setBit m p.target else m) 0
  (h.put Reg.SIM_PEER_ADMIT_ADMITTED (mask true)).put Reg.SIM_PEER_ADMIT_REFUSED (mask false)

/-- IMAGE_ID that is staged or was last staged. -/
def HostSide.stagedId (h : HostSide) : Nat := ((h.stage.staged).map (·.imageId)).getD 0

/-- An IMAGE_MSG of a member arrives: the last one of each member counts. Log entries 62 (DEDUCED), 153 (DEDUCED). -/
def HostSide.takeImageMsg (h : HostSide) (m : PeerMsg) : HostSide :=
  let h := { h with stage := { h.stage with peers := m :: h.stage.peers.filter (fun p => p.target != m.target) } }
  if h.stagedId = 0 then h else h.showPeers h.stagedId

/-- What one member's last message says at the commit point: no reason, or that of R73. A message that concerns the active
image says nothing about the staged one. Log entries 63 (DEDUCED), 153 (DEDUCED). -/
def HostSide.peerVerdict (h : HostSide) (st : Staged) (t : Nat) : Option Nat :=
  match h.stage.peers.find? (fun p => p.target == t && !(p.imageId == h.activeId && h.activeId != st.imageId)) with
  | none => some 0x13
  | some p =>
    if p.imageId = st.imageId ∧ !p.admits then some 0x14
    else if p.imageId = st.imageId ∧ p.epoch = st.epoch then none
    else some 0x15

/-- The reason and the member for which the commit point refuses: PEER_REFUSED before PEER_MISMATCH before
PEER_MISSING; every other member is awaited. Log entries 63 (DEDUCED), 153 (DEDUCED). -/
def HostSide.peersFail (h : HostSide) (st : Staged) : Option (Nat × Nat) :=
  let bad := ((List.range 8).filter (fun t => bit st.members t && t != h.ownTarget)).filterMap (fun t =>
    (h.peerVerdict st t).map (fun r => (r, t)))
  [0x14, 0x15, 0x13].findSome? (fun r => bad.find? (fun p => p.1 == r))

/-! ## Verification (R70, R71) -/

/-- SIM.REFUSAL shows no refusal. Log entry 126 (DEDUCED). -/
def HostSide.clearRefusal (h : HostSide) : HostSide :=
  (((h.put Reg.SIM_REFUSAL_REASON 0).put Reg.SIM_REFUSAL_SECTION 0).put Reg.SIM_REFUSAL_PEER 0).put
    Reg.SIM_REFUSAL_SECTION_NONE 0

/-- A refusal with its messages; a start-up under way begins step 9 again. Log entry 45 (DEDUCED). -/
def HostSide.stopImage (h : HostSide) (r : Refuse) (peer members id : Nat) (e : DT) : HostSide :=
  (h.refuseImage r.reason r.sec peer members id e).restartStaging

/-- A refusal of the image that is staged and checked. -/
def HostSide.stopStaged (h : HostSide) (reason : Nat) (peer : Nat := 0) : HostSide :=
  (h.refuseStaged reason peer).restartStaging

/-- The module's copy of staged bytes; a byte that a read does not return is open (log entry 1). A longer copy than an
image can be is refused by its header alone. Log entries 123 (DEDUCED), 124 (DESIGN CHOICE). -/
def HostSide.copyOf (h : HostSide) (ca len : Nat) : List Byte :=
  (List.range (min len (64 * 2 ^ 20))).map (fun i =>
    if caEnd ≤ ca + i ∨ h.store.poisoned (ca + i) then BitVec.ofNat 8 (Config.copyByte (ca + i)) else h.store.byte (ca + i))

/-- The copy takes pages where some are free. Log entry 125 (DEDUCED). -/
def HostSide.copyPages (h : HostSide) (len : Nat) : HostSide :=
  let n := cdiv len 65536
  match h.findPlace 0 630784 n [] with
  | (some f, h) => h.reservePages ⟨f, n, .stagedCopy, true⟩
  | (none, h) => h

/-- Step 6a over the sections. -/
def readPieces (part shared : Bool) (own : Nat) : List Section → Refuse ⊕ List Piece
  | [] => .inr []
  | s :: t =>
    if s.annotation then readPieces part shared own t
    else
      match bodyOf part shared (if s.target = 255 ∨ s.target = own then some (own / 4) else none) s with
      | none => .inl ⟨0x0A, some s.index⟩
      | some b =>
        match readPieces part shared own t with
        | .inl e => .inl e
        | .inr l => .inr (⟨s, b⟩ :: l)

/-- Steps 2 to 6a of R71. Log entry 123 (DEDUCED). -/
def HostSide.readImage (h : HostSide) (copy : List Byte) (len : Nat) (forced : Bool) : Refuse ⊕ Parsed :=
  let hdr := Header.parse copy
  match (checkHeader copy len).or ((h.checkSignature copy hdr.total).or (h.checkTuple hdr.tuple forced)) with
  | some r => .inl r
  | none =>
    match readSections 0 ((copy.take (hdr.total - 256)).drop 64) hdr.count with
    | .inl r => .inl r
    | .inr ss =>
      match readPieces hdr.part (hdr.bank || hdr.twill) h.ownTarget ss with
      | .inl r => .inl r
      | .inr ps => .inr ⟨hdr, ps, h.ownTarget⟩

/-- Bytes of one section of FIELD_CONFIG content (11_crossing.md R267). -/
def contentSection (s : Section) : List Byte :=
  let crc := (crc32 s.body).toNat
  leBytes s.type 2 ++ leBytes (clrBit s.flags 0) 1 ++ leBytes s.target 1 ++ leBytes s.body.length 4 ++
    leBytes s.body.length 4 ++ leBytes crc 4 ++ s.body

/-- FIELD_CONFIG content: the FIELD, POINTS and COMMANDS sections for this module, in type order.
Log entry 27 (DEDUCED). -/
def Parsed.content (p : Parsed) : List Byte :=
  [0x0F, 0x10, 0x11].flatMap (fun t =>
    ((p.pieces.filter (fun x => x.sec.type == t && (x.sec.target == 255 || x.sec.target == p.own))).flatMap
      (fun x => contentSection x.sec)))

/-- The image's field content differs from the active field configuration (R71 step 8). -/
def Parsed.changesField (p : Parsed) (active c : Cfg) : Bool :=
  p.hasContent && ((c.field, c.points, c.commands) != (active.field, active.points, active.commands))

/-- A claim names a layer in scope (R103). -/
def claimNames (active c : Cfg) (s : Scope) (b : ClaimBody) : Bool := (b.layer?.map (inScope active c s)).getD false

/-- The claims that the Buckram run proves (R85, R103): those that the image carries, then those that it does not.
Log entries 156 (DEDUCED), 226 (DESIGN CHOICE). -/
def Parsed.due (p : Parsed) (active c : Cfg) : List (Option Nat × Claim) :=
  let mine (k : Claim) : Bool := k.owner == 255 || k.owner == p.own
  let carried := (p.get Body.claimsOf).getD []
  let own := (carried.zipIdx.filter (fun x => mine x.1)).map (fun x => (some x.2, x.1))
  match p.get Body.scopeOf, p.hdr.part with
  | some s, true => own ++ ((active.claims.filter (fun k => mine k && !carried.any (fun n => n.id == k.id) &&
      claimNames active c s k.body)).map (fun k => (none, k)))
  | _, _ => own

/-- Buckram's run begins: the registers clear but BCK.QUERY (R105). -/
def HostSide.beginAdmission (h : HostSide) (part : Bool) : HostSide :=
  let h := { h with stage := { h.stage with bounds := [] } }
  let zero := [Reg.BCK_STATUS_CODE, Reg.BCK_STATUS_RUN_TIME, Reg.BCK_ELEMENT_INDEX, Reg.BCK_ELEMENT_AUX,
    Reg.BCK_DETAIL_VALUE, Reg.BCK_LIMIT_VALUE, Reg.BCK_QBOUND_BOUND, Reg.BCK_QBOUND_VALID, Reg.BCK_LOAD_DRAM_MBPS,
    Reg.BCK_LOAD_XING_KBPS, Reg.BCK_LOAD_OUT_MPXS] ++
    (List.range 8).flatMap (fun i => [Reg.BCK_LOAD_DEC_KSPS i, Reg.BCK_LOAD_CE_KPXS i, Reg.BCK_LOAD_LB_BYTES i]) ++
    (List.range 2).map (fun i => Reg.BCK_LOAD_ENC_KPXS i)
  let h := zero.foldl (fun h f => h.put f 0) h
  ((h.put Reg.BCK_STATUS_RESULT 1).putB Reg.BCK_STATUS_PARTIAL part).toStage 2

/-- Step 8 (R71). -/
def HostSide.checkField (h : HostSide) (st : Staged) : HostSide :=
  match st.content with
  | none => h.beginAdmission st.part
  | some c =>
    if h.xing.state = 3 then h.stopStaged 0x0E
    else if h.xing.state = 0 then h.stopStaged 0x0F
    else h.beginSending false st.imageId c (h.now + 100000000)

/-- Steps 6b to 8 of R71 for an image that has been read. Log entries 127 (DEDUCED), 152 (DEDUCED), 204 (DEDUCED). -/
def HostSide.judgeImage (h : HostSide) (p : Parsed) (copy : List Byte) (e : DT) (forced : Bool) : HostSide :=
  let c := p.result h.cfg
  let members := p.members h.cfg
  let bad (h : HostSide) (r : Refuse) : HostSide := h.stopImage r 0 members p.hdr.imageId e
  match (h.checkCross p c).or (h.checkTargets p) with
  | some r => bad h r
  | none =>
    match h.reserve p c p.pieces with
    | .inr r => bad h r
    | .inl h' =>
      match h.checkScope p c with
      | some r => bad h' r
      | none =>
        let st : Staged := {
          epoch := e
          imageId := p.hdr.imageId
          part := p.hdr.part
          members := members
          cfg := c
          content := if p.changesField h.cfg c then some p.content else none
          held := false
          forced := forced && !h.uliska.tested.contains (h.running p.hdr.tuple.schema)
          copy := copy
          headsIn := ((p.get Body.headsOf).getD []).map (·.head)
          layersIn := ((p.get Body.layersOf).getD []).map (·.layer)
          due := p.due h.cfg c }
        (({ h' with stage := { h'.stage with staged := some st } }).showBankSeq).checkField st

/-- Staging and verification of a copy of `len` bytes for the epoch `e` (R70, R71).
Log entries 77 (DESIGN CHOICE), 125 (DEDUCED). -/
def HostSide.stageCopy (h : HostSide) (copy : List Byte) (len : Nat) (e : DT) : HostSide :=
  let forced := h.flag Reg.SIM_STATUS_OVERRIDE_ARMED
  let h := (((h.put Reg.SIM_STATUS_OVERRIDE_ARMED 0).clearRefusal.copyPages copy.length).toStage 1).showPeers 0
  let ahead := dtDiff e h.now
  let id := fieldAt copy 16 8
  if ¬ (0 < ahead ∧ ahead ≤ 3600000000000) then h.stopImage ⟨0x11, none⟩ 0 255 id e
  else
    match h.readImage copy len forced with
    | .inl r => h.stopImage r 0 255 id e
    | .inr p => (h.showPeers p.hdr.imageId).judgeImage p copy e forced

/-- A SIM.CTRL or SIM.FORCE write that is ignored. -/
def HostSide.simIgnored (h : HostSide) : HostSide := h.put Reg.SIM_STATUS_CTRL_IGNORED 1

/-- VERIFY (R70). Log entries 126 (DEDUCED), 152 (DEDUCED), 154 (DEDUCED). -/
def HostSide.simVerify (h : HostSide) : HostSide :=
  if 1 ≤ h.stageOf ∧ h.stageOf ≤ 5 then h.simIgnored
  else
    let ca := h.pair Reg.SIM_STAGE_ADDR_LO_ADDR Reg.SIM_STAGE_ADDR_HI_ADDR / 8 * 8
    let len := h.get Reg.SIM_STAGE_LEN_LEN
    h.stageCopy (h.copyOf ca len) len (BitVec.ofNat 64 (h.pair Reg.SIM_EPOCH_LO_DT Reg.SIM_EPOCH_HI_DT))

/-! ## Admission (R102 to R106) -/

/-- Shows a quantity in a field of BCK; what a field too narrow for it shows is open. Log entry 150 (DESIGN CHOICE). -/
def HostSide.quantity (h : HostSide) (f : Fld) (v : Nat) : HostSide :=
  h.put f (if v < 2 ^ f.w then v else Config.wideValue v)

/-- BCK.QBOUND reflects BCK.QUERY (R106). Log entry 150 (DESIGN CHOICE). -/
def HostSide.showBound (h : HostSide) : HostSide :=
  let b := if h.get Reg.BCK_STATUS_RESULT = 2 then
      h.stage.bounds.find? (fun b => b.1 == h.get Reg.BCK_QUERY_INDEX) else none
  (h.quantity Reg.BCK_QBOUND_BOUND ((b.map (·.2)).getD 0)).putB Reg.BCK_QBOUND_VALID b.isSome

/-- What Buckram judges. -/
def HostSide.askOf (h : HostSide) (st : Staged) : Ask where
  cfg := st.cfg
  before := h.cfg.claims
  due := st.due.map (fun d => ⟨d.1, d.2⟩)
  own := h.ownTarget
  ports := (List.range 4).map h.portRate
  serving := (List.range 12).filter (fun c => h.get (Reg.CST_CH_STATUS_ROLE c) == 0)

/-- The run ends after `time` units of 10 µs. ELEMENT of a claim that the image does not carry is open.
Log entries 150 (DESIGN CHOICE), 203 (DEDUCED). -/
def HostSide.endAdmission (h : HostSide) (st : Staged) (time : Nat) : HostSide :=
  let (found, reject) := (h.askOf st).run
  let h := found.loads.foldl (fun h l => h.quantity l.1 l.2) h
  let h := h.put Reg.BCK_STATUS_RUN_TIME (min time 0xFFFF)
  match reject with
  | some r =>
    let element := r.element.getD (Config.claimElement st.imageId r.detail)
    let h := (((((h.put Reg.BCK_STATUS_RESULT 3).put Reg.BCK_STATUS_CODE r.code).put Reg.BCK_ELEMENT_INDEX element).put
      Reg.BCK_ELEMENT_AUX r.aux).quantity Reg.BCK_DETAIL_VALUE r.detail).quantity Reg.BCK_LIMIT_VALUE r.limit
    h.stopStaged 0x10
  | none =>
    let h := { h with stage := { h.stage with bounds := found.bounds } }
    let h := ((h.put Reg.BCK_STATUS_RESULT 2).showBound).toStage 3
    h.sendVerdict st.members st.imageId st.epoch true

/-! ## Arming, cancelling and the commit point (R73) -/

/-- DT of the commit point. Log entry 203 (DEDUCED). -/
def Staged.commitPoint (s : Staged) : DT := s.epoch - 20000000

/-- The commit point of the staged image has been reached. -/
def HostSide.pastCommit (h : HostSide) : Bool :=
  match h.stage.staged with
  | some st => dtReached h.now st.commitPoint
  | none => false

/-- ARM: at the commit point it counts as after it. -/
def HostSide.simArm (h : HostSide) : HostSide :=
  if h.stageOf = 3 ∧ !h.pastCommit then h.toStage 4 else h.simIgnored

/-- CANCEL before the commit point (R73). Log entries 155 (DEDUCED), 203 (DEDUCED). -/
def HostSide.simCancel (h : HostSide) : HostSide :=
  if 1 ≤ h.stageOf ∧ h.stageOf ≤ 4 ∧ !h.pastCommit then
    let h := if h.stageOf = 2 then h.put Reg.BCK_STATUS_RESULT 0 else h
    (h.dropStaged.toStage 7).restartStaging
  else h.simIgnored

/-- SIM.FORCE (R78). Log entry 154 (DEDUCED). -/
def HostSide.simForce (h : HostSide) (v : Nat) : HostSide :=
  if bits v 16 16 = 0x5EA1 ∧ bit v 0 then
    if h.stageOf = 0 then h.put Reg.SIM_STATUS_OVERRIDE_ARMED 1 else h.simIgnored
  else h

/-- Items by key whose entries differ between two lists, one of them absent included. Log entry 73 (DEDUCED). -/
def changedKeys {α : Type} [DecidableEq α] (key : α → Nat) (old new : List α) : List Nat :=
  (((old ++ new).map key).foldl (fun l k => if l.contains k then l else l ++ [k]) []).filter (fun k =>
    old.find? (fun e => key e == k) != new.find? (fun e => key e == k))

/-- STAGE becomes COMMITTED: what the image changes is fixed (R74), every head of the old and the new configuration awaits
its switch instant, and the arm notice leaves (11_crossing.md R267). -/
def HostSide.commitImage (h : HostSide) (st : Staged) : HostSide :=
  let enabled (c : Cfg) : List Nat := (c.heads.filter (fun e => e.enable == 1)).map (·.head)
  let heads := (enabled h.cfg ++ enabled st.cfg).foldl (fun l k => if l.contains k then l else l ++ [k]) []
  -- while the module resynchronises its heads count as not enabled (16_twin_repair.md R381)
  let heads := if h.get Reg.TWN_RESYNC_STATE = 1 then [] else heads
  let h := { h with stage := { h.stage with
    switches := heads
    live := false
    before := h.cfg
    chHeads := changedKeys HeadEntry.head h.cfg.heads st.cfg.heads
    chLayers := changedKeys LayerEntry.layer h.cfg.layers st.cfg.layers } }
  (h.toStage 5).sendArm st.imageId st.epoch

/-- The commit point (R73). -/
def HostSide.commitPoint (h : HostSide) : HostSide :=
  match h.stage.staged with
  | none => h
  | some st =>
    if h.stageOf = 0 ∨ 5 ≤ h.stageOf ∨ !h.pastCommit then h
    else if h.stageOf ≠ 4 then h.stopStaged 0x12
    else
      match h.peersFail st with
      | some (r, t) => h.stopStaged r t
      | none => h.commitImage st

end Sys2Proof.Machine
end

