-- ==== Sys2Proof/Machine/FieldMsg.lean ====
section
/-! DEFINITION. Meanings of the crossing's messages in pieces and of the field log and peeks (11_crossing.md R267 to R269,
03_structure_image.md R71, R76). -/

namespace Sys2Proof.Machine

/-! ## Pieces on XM2 -/

/-- OP of a FIELD_CONFIG or FW_STAGE cell. -/
def cellOp (c : List Byte) : Nat := fieldAt c 4 1

/-- The oldest cell on XM2 where it has this TYPE and an OP that `op` takes. -/
def FieldSide.takePiece (f : FieldSide) (ty : Nat) (op : Nat → Bool) : Option (List Byte) × FieldSide :=
  match (f.xing.chan 2).slots.head? with
  | some c => if cellType c = ty ∧ !op (cellOp c) then (none, f) else f.takeCell 2 ty
  | none => (none, f)

/-- Answers a piece. Log entry 28 (DESIGN CHOICE). -/
def FieldSide.ackPiece (f : FieldSide) (c : List Byte) (code : Nat) : FieldSide := f.writeAck 2 ⟨cellMsg c, code⟩

/-- The content in reception. -/
def FieldSide.pieces (f : FieldSide) (fw : Bool) : Option Receiving := if fw then f.xing.fwRx else f.xing.cfgRx
def FieldSide.setPieces (f : FieldSide) (fw : Bool) (v : Option Receiving) : FieldSide :=
  { f with xing := if fw then { f.xing with fwRx := v } else { f.xing with cfgRx := v } }

/-- A BEGIN: a content in reception is dropped. Log entry 28 (DESIGN CHOICE). -/
def FieldSide.beginPieces (f : FieldSide) (fw : Bool) (c : List Byte) : FieldSide :=
  (f.setPieces fw (some ⟨fieldAt c 8 8, fieldAt c 16 4, fieldAt c 20 4, []⟩)).ackPiece c 0

/-- A DATA cell: it continues the content, or is out of sequence. -/
def FieldSide.dataPiece (f : FieldSide) (fw : Bool) (c : List Byte) : FieldSide :=
  match f.pieces fw with
  | some r =>
    if fieldAt c 8 4 = r.content.length ∧ r.content.length < r.total then
      let r := { r with content := r.content ++ slice c 12 (min 52 (r.total - r.content.length)) }
      (f.setPieces fw (some r)).ackPiece c 0
    else f.ackPiece c 1
  | none => f.ackPiece c 1

/-- What an END finds: the whole content, or the code of R267. -/
def FieldSide.wholePieces (f : FieldSide) (fw : Bool) (c : List Byte) : Nat ⊕ Receiving :=
  match f.pieces fw with
  | some r =>
    if r.content.length < r.total ∨ (!fw ∧ fieldAt c 8 8 ≠ r.imageId) then .inl 1
    else if (crc32 r.content).toNat ≠ r.crc then .inl 2
    else .inr r
  | none => .inl 1

/-! ## FIELD_CONFIG (R267) -/

/-- Field content as its sections give it. -/
structure Content where
  field   : Option FieldCfg
  points  : Option PointsCfg
  targets : List TargetEntry
  deriving DecidableEq, Repr

/-- Reads FIELD_CONFIG content: FIELD, POINTS and COMMANDS sections in type order, each with a valid header and body; the
fuel bounds the number of sections. Log entries 26 (DEDUCED), 27 (DEDUCED). -/
def readContent : Nat → Nat → List Byte → Content → Option Content
  | 0, _, b, x => if b.isEmpty then some x else none
  | n + 1, last, b, x =>
    if b.isEmpty then some x
    else
      let type := fieldAt b 0 2
      let len := fieldAt b 4 4
      let body := slice b 16 len
      if b.length < 16 + len ∨ fieldAt b 8 4 ≠ len ∨ fieldAt b 2 1 ≠ 0 ∨ type ≤ last ∨ (crc32 body).toNat ≠ fieldAt b 12 4 then none
      else
        let rest := b.drop (16 + len)
        match type with
        | 0x0F => match fieldOf body with
          | some c => readContent n type rest { x with field := some c }
          | none => none
        | 0x10 => match pointsOf body with
          | some c => readContent n type rest { x with points := some c }
          | none => none
        | 0x11 => match commandsOf body with
          | some c => readContent n type rest { x with targets := c }
          | none => none
        | _ => none

/-- The content that verifies. Log entries 26 (DEDUCED), 27 (DEDUCED). -/
def contentOf (b : List Byte) : Option Content := readContent 3 0 b ⟨none, none, []⟩

/-- FIELD_CONFIG_BEGIN (R267). An OP outside Table 11.4 is content that is invalid. -/
def execFieldConfigBegin (s : State) : Out :=
  fieldCmd s (fun f =>
    match f.takePiece 7 (fun op => op == 1 || !decide (1 ≤ op ∧ op ≤ 5)) with
    | (some c, f) => if cellOp c = 1 then f.beginPieces false c else f.ackPiece c 3
    | (none, f) => f)

/-- FIELD_CONFIG_DATA (R267). -/
def execFieldConfigData (s : State) : Out :=
  fieldCmd s (fun f =>
    match f.takePiece 7 (· == 2) with
    | (some c, f) => f.dataPiece false c
    | (none, f) => f)

/-- An END of field content: verified content is held, for one image only. Log entry 28 (DESIGN CHOICE). -/
def FieldSide.endContent (f : FieldSide) (c : List Byte) : FieldSide :=
  let found := f.wholePieces false c
  let f := f.setPieces false none
  match found with
  | .inl code => f.ackPiece c code
  | .inr r =>
    if (contentOf r.content).isSome then
      ({ f with act := { f.act with held := some (r.imageId, r.content) } }).ackPiece c 0
    else f.ackPiece c 3

/-- FIELD_CONFIG_END (R267). Log entry 28 (DESIGN CHOICE). -/
def execFieldConfigEnd (s : State) : Out :=
  fieldCmd s (fun f =>
    match f.takePiece 7 (· == 3) with
    | (some c, f) => f.endContent c
    | (none, f) => f)

/-- FIELD_CONFIG_ARM (R267). -/
def execFieldConfigArm (s : State) : Out :=
  fieldCmd s (fun f =>
    match f.takePiece 7 (· == 4) with
    | (some c, f) => ({ f with act := { f.act with armed := some (fieldAt c 8 8, dtAt c 24) } }).ackPiece c 0
    | (none, f) => f)

/-- FIELD_CONFIG_CANCEL (R267): the held content is discarded. -/
def execFieldConfigCancel (s : State) : Out :=
  fieldCmd s (fun f =>
    match f.takePiece 7 (· == 5) with
    | (some c, f) => ({ f with act := { f.act with held := none } }).ackPiece c 0
    | (none, f) => f)

/-- E on the field time base (R267, 03_structure_image.md R76). Log entry 61 (DEDUCED). -/
def FieldSide.atEpoch (f : FieldSide) : FieldSide :=
  match f.act.armed with
  | none => f
  | some (id, e) =>
    if !dtReached f.now e then f
    else
      let f := { f with act := { f.act with activeId := id, armed := none } }
      match f.act.held with
      | some (i, bs) =>
        if i = id then
          match contentOf bs with
          | some c =>
            let f := f.activate c.field c.points c.targets e
            { f with act := { f.act with contentId := id, held := none } }
          | none => f
        else f
      | none => f

/-- FIELD_ACTIVATE (R267, R76). -/
def execFieldActivate (s : State) : Out := fieldCmd s (·.atEpoch)

/-- Step 8 of R71 ends with an acknowledge. Log entry 29 (DEDUCED). -/
def HostSide.contentAcked (h : HostSide) (v : Sending) (code : Nat) : HostSide :=
  let h := h.pieceAcked false v code
  match h.sendingOf false, h.stage.staged with
  | some v, some st =>
    if h.stageOf ≠ 1 then h
    else if v.phase = 3 then
      ({ h with stage := { h.stage with staged := some { st with held := true } } }).beginAdmission st.part
    else if v.phase = 4 then h.stopStaged 0x0F
    else h
  | _, _ => h

/-- Host Uliska reads the oldest acknowledge on XM2 (R256, R267, R268). Log entry 29 (DEDUCED). -/
def HostSide.pieceAnswer (h : HostSide) : HostSide :=
  match (h.xing.chan 2).ackq with
  | [] => h
  | a :: rest =>
    let h := h.setChan 2 { h.xing.chan 2 with ackq := rest }
    let h := { h with uliska := { h.uliska with arms := h.uliska.arms.erase a.msg } }
    let awaits (v : Option Sending) : Option Sending := v.filter (fun v => decide (v.phase < 3) && v.msg == a.msg)
    match awaits (h.sendingOf false), awaits (h.sendingOf true) with
    | some v, _ => h.contentAcked v a.code
    | none, some v => (h.pieceAcked true v a.code).put Reg.SYS_FW_STATUS_PROGRESS (v.sent / 1048576)
    | none, none => h

/-- FIELD_CONFIG_ACK (R71, R256, R267). -/
def execFieldConfigAck (s : State) : Out := hostCmd s (·.pieceAnswer)

/-! ## FW_STAGE (R268, 18_module_electrical.md R420, R421) -/

/-- Bytes of a field firmware image at most (18_module_electrical.md R421). -/
def fieldBankBytes : Nat := 24 * 1048576

/-- The inactive field bank is erased. -/
def State.eraseFieldBank (s : State) : State :=
  let i := 1 - s.field.bank
  let p := s.phys.fieldPhys
  { s with phys := { s.phys with fieldPhys := p.setBank i { p.bank i with image := none, verifies := false } } }

/-- The content received so far stands in the inactive field bank (R268). -/
def State.writeFieldBank (s : State) : State :=
  match s.field.xing.fwRx with
  | some r =>
    let i := 1 - s.field.bank
    let p := s.phys.fieldPhys
    { s with phys := { s.phys with fieldPhys := p.setBank i { p.bank i with image := some r.content } } }
  | none => s

/-- FW_STAGE_BEGIN (R268). Log entry 28 (DESIGN CHOICE). -/
def execFwStageBegin (s : State) : Out :=
  fieldState s (fun s =>
    match s.field.takePiece 8 (fun op => op == 1 || !decide (1 ≤ op ∧ op ≤ 3)) with
    | (some c, f) =>
      if cellOp c ≠ 1 then { s with field := f.ackPiece c 3 }
      else if fieldBankBytes < fieldAt c 16 4 then { s with field := f.ackPiece c 4 }
      else { s.eraseFieldBank with field := f.beginPieces true c }
    | (none, f) => { s with field := f })

/-- FW_STAGE_DATA (R268): the bank takes the content as it comes. -/
def execFwStageData (s : State) : Out :=
  fieldState s (fun s =>
    match s.field.takePiece 8 (· == 2) with
    | (some c, f) => ({ s with field := f.dataPiece true c }).writeFieldBank
    | (none, f) => { s with field := f })

/-- An END of field firmware: a bank that verifies is selected for the next field boot. -/
def State.endFirmware (s : State) (c : List Byte) (verifies : Bool) (build : BitVec 32) : State :=
  let found := s.field.wholePieces true c
  let f := s.field.setPieces true none
  match found with
  | .inl code => { s with field := f.ackPiece c code }
  | .inr r =>
    let i := 1 - f.bank
    let p := s.phys.fieldPhys.written i r.content ⟨true, verifies, build, [], false⟩
    { s with field := f.ackPiece c (if verifies then 0 else 3), phys := { s.phys with fieldPhys := p } }

/-- FW_STAGE_END (R268). -/
def execFwStageEnd (verifies : Bool) (build : BitVec 32) (s : State) : Out :=
  fieldState s (fun s =>
    match s.field.takePiece 8 (· == 3) with
    | (some c, f) => ({ s with field := f }).endFirmware c verifies build
    | (none, f) => { s with field := f })

/-! ## FIELD_PEEK and LOG_EXPORT (R269) -/

/-- A reply waits for a free slot of XM24. Log entry 169 (DEDUCED). -/
def FieldSide.reply (f : FieldSide) (c : List Byte) : FieldSide :=
  { f with work := { f.work with exportBox := f.work.exportBox ++ [c] } }

/-- Free bytes. Log entry 64 (DESIGN CHOICE). -/
def FieldSide.freeBytes (f : FieldSide) : Nat → List Byte × FieldSide
  | 0 => ([], f)
  | n + 1 =>
    let (v, f) := f.free 256
    let (l, f) := f.freeBytes n
    (BitVec.ofNat 8 v :: l, f)

/-- The CODE of a FIELD_PEEK: 1 DENIED at an address outside the readable ranges, 2 BAD_RANGE where the access crosses the end
of the range, 0 otherwise. The readable ranges are the release's (Config). Log entry 64 (DESIGN CHOICE). -/
def peekCode (addr len : Nat) : Nat :=
  if Config.fieldReadable (addr / 4) = 0 then 1
  else if (List.range (cdiv (addr % 4 + len) 4)).all (fun i => Config.fieldReadable (addr / 4 + i) != 0) then 0
  else 2

/-- A FIELD_PEEK (R269): what the readable addresses hold is not given, so DATA is open (log entry 1).
Log entry 64 (DESIGN CHOICE). -/
def FieldSide.peek (f : FieldSide) (c : List Byte) : FieldSide :=
  let len := min 48 (fieldAt c 8 1)
  let code := peekCode (fieldAt c 4 4) len
  let (data, f) := if code = 0 then f.freeBytes len else ([], f)
  f.reply (oneCell 9 (cellMsg c) (leBytes (fieldAt c 4 4) 4 ++ leBytes (fieldAt c 8 1) 1 ++ leBytes code 1 ++ leBytes 0 2 ++
    data))

/-- FIELD_PEEK (R269). -/
def execFieldPeek (s : State) : Out :=
  fieldCmd s (fun f =>
    match f.takeCell 16 9 with
    | (some c, f) => (f.peek c).pushExport 17
    | (none, f) => f)

/-- The reply for one record. The numbers of the field log's codes, units and details are not given (Config).
Log entries 18 (DESIGN CHOICE), 168 (DEDUCED). -/
def logReply (msg index newest : Nat) (e : FieldEvent) : List Byte :=
  oneCell 10 msg (leBytes index 4 ++ leBytes 0 4 ++ leBytes newest 4 ++ leBytes e.dt.toNat 8 ++
    leBytes (Config.fieldEvent (4 * e.code)) 2 ++ leBytes (Config.fieldEvent (4 * (e.code + 8 * e.unit) + 1)) 2 ++
    leBytes (Config.fieldEvent (4 * (e.code + 8 * (e.unit + 4096 * e.detail)) + 2)) 36)

/-- A LOG_EXPORT: records from INDEX on, oldest first. Log entry 168 (DEDUCED). -/
def FieldSide.export_ (f : FieldSide) (c : List Byte) : FieldSide :=
  let records := f.work.log.reverse
  let newest := records.length - 1
  let first := fieldAt c 4 4
  let picked := (records.zipIdx.drop first).take (fieldAt c 8 2)
  picked.foldl (fun f x => f.reply (logReply (cellMsg c) x.2 newest x.1)) f

/-- LOG_EXPORT (R269, 03_structure_image.md R82). -/
def execLogExport (s : State) : Out :=
  fieldCmd s (fun f =>
    match f.takeCell 16 10 with
    | (some c, f) => (f.export_ c).pushExport 17
    | (none, f) => f)

end Sys2Proof.Machine
end

