-- ==== Sys2Proof/Machine/Invariant.lean ====
section
/-! DEFINITION. The check of the conserved quantities (01_architecture.md R23 to R25). A count that a register or a field of
State holds is compared with what holds the resource. -/

namespace Sys2Proof.Machine

/-- An invariant has failed: its bit, the first failure, the event, and the resource in its safer state (R24, R25). In the cycle
of the write that cleared the last bit the record of the first failure stays. Log entries 83 (DEDUCED), 221 (DESIGN CHOICE). -/
def HostSide.invariantFails (h : HostSide) (qty inst : Nat) (f : Fld) : HostSide :=
  let h := h.put f 1
  let h := if h.flag Reg.SYS_INVAR_STATUS_VALID then h
    else if h.conserve.cleared = some h.tb.raw then h.put Reg.SYS_INVAR_STATUS_VALID 1
    else ((h.put Reg.SYS_INVAR_STATUS_FIRST_QTY qty).put Reg.SYS_INVAR_STATUS_FIRST_INST inst).put Reg.SYS_INVAR_STATUS_VALID 1
  let old := match h.conserve.failed with
    | some (r, m) => if r = h.tb.raw then m else 0
    | none => 0
  let h := { h with conserve := { h.conserve with
    stuck := if h.stuck qty inst then h.conserve.stuck else (qty, inst) :: h.conserve.stuck
    failed := some (h.tb.raw, setBit old f.lo) } }
  h.log 1 1 inst 0 qty

/-- Checks one quantity over instances. -/
def HostSide.checkOne (h : HostSide) (qty : Nat) (insts : List Nat) (f : Fld) (ok : Nat → Bool) : HostSide :=
  insts.foldl (fun g i => if ok i then g else g.invariantFails qty i f) h

/-- Tartan credits: free + in flight = 128, and as many in flight as requests of the port await their last response beat. -/
def HostSide.trtHolds (h : HostSide) (m : Nat) : Bool :=
  h.get (Reg.TRT_MASTER_FREE m) + h.get (Reg.TRT_MASTER_IN_FLIGHT m) == 128 &&
    h.get (Reg.TRT_MASTER_IN_FLIGHT m) == (h.tartan.inFlight.filter (fun f => f.req.port.val == m)).length

/-- Slots of a channel: at a sending end free + full = 16, at a receiving end no more cells than slots. -/
def HostSide.slotHolds (h : HostSide) (c : Nat) : Bool :=
  (!hostSends c || (h.get (Reg.MBX_TXSTAT_FREE c) + h.get (Reg.MBX_TXSTAT_FULL c) == 16 &&
    h.get (Reg.MBX_TXSTAT_FULL c) == (h.xing.chan c).full)) &&
    (!hostReceives c || (decide ((h.xing.chan c).slots.length ≤ 16) &&
      h.get (Reg.MBX_RXSTAT_COUNT c) == (h.xing.chan c).slots.length))

/-- Leases of a handle: the count kept equals what holds the surface (06_composition.md R149). -/
def HostSide.leaseHolds (h : HostSide) (sh : Nat) : Bool :=
  match h.surface sh with
  | some s => s.leases == h.leaseCount (.surface sh)
  | none => true

/-- Reference tokens of a context: free + held = its pool, and as many held as its pictures hold. -/
def HostSide.tokenHolds (h : HostSide) (s : Nat) : Bool :=
  h.get (Reg.DEC_CTX_TOKENS_FREE s) + h.get (Reg.DEC_CTX_TOKENS_HELD s) == h.get (Reg.DEC_CTX_TOKENS_POOL s) &&
    h.get (Reg.DEC_CTX_TOKENS_HELD s) == h.tokensHeld s

/-- Credits of an UP link as this end sees them: credits + cells sent and not credited back = 256, and its receive buffer,
which empties as cells arrive, free whole. -/
def HostSide.linkHolds (h : HostSide) (k : Nat) : Bool :=
  !h.linkUp k || (h.get (Reg.STC_CREDITS_TX_CREDITS k) + ((h.link k).sent + 65536 - (h.link k).credited) % 65536 == 256 &&
    h.get (Reg.STC_CREDITS_RX_FREE k) == 256)

/-- Staging slots of a head: no more slices filling and emitting than slots. -/
def HostSide.stageHolds (h : HostSide) (k : Nat) : Bool := decide ((h.head k).filling.length + (h.head k).handed.length ≤ 2)

/-- Pages: free + used = 630,784, and as many used as runs hold. -/
def HostSide.pageHolds (h : HostSide) (_ : Nat) : Bool :=
  h.get Reg.CST_PAGES_LO_FREE + h.get Reg.CST_PAGES_HI_USED == 630784 && h.get Reg.CST_PAGES_HI_USED == h.store.usedPages

/-- Transaction slots of a channel: free + queued + in service = 256, and as many queued as requests wait. -/
def HostSide.dramHolds (h : HostSide) (c : Nat) : Bool :=
  h.get (Reg.CST_CH_SLOTS_FREE c) + h.get (Reg.CST_CH_SLOTS_QUEUED c) + h.get (Reg.CST_CH_SLOTS_IN_SERVICE c) == 256 &&
    h.get (Reg.CST_CH_SLOTS_QUEUED c) == (h.dramQueue c).length

/-- Checks every quantity of Table 01.11, in the order of the codes and of the instances; of several failures in one check the
first in this order is recorded. Log entries 83 (DEDUCED), 221 (DESIGN CHOICE). -/
def HostSide.checkInvariants (h : HostSide) : HostSide :=
  let h := { h with conserve := { h.conserve with lastCheck := some h.now } }
  let h := h.checkOne 0 (List.range 47) Reg.SYS_INVAR_STATUS_TRT_CREDIT h.trtHolds
  let h := h.checkOne 1 (List.range 80) Reg.SYS_INVAR_STATUS_SLOT h.slotHolds
  let h := h.checkOne 2 (h.display.surfaces.map (·.1)) Reg.SYS_INVAR_STATUS_LEASE h.leaseHolds
  let h := h.checkOne 3 (List.range 128) Reg.SYS_INVAR_STATUS_REF_TOKEN h.tokenHolds
  let h := h.checkOne 4 (List.range 6) Reg.SYS_INVAR_STATUS_LINK_CREDIT h.linkHolds
  let h := h.checkOne 5 (List.range 48) Reg.SYS_INVAR_STATUS_HEAD_SLOT h.stageHolds
  let h := h.checkOne 6 [0] Reg.SYS_INVAR_STATUS_PAGE h.pageHolds
  h.checkOne 7 (List.range 12) Reg.SYS_INVAR_STATUS_DRAM_TXN h.dramHolds

/-- The check by host DT is due: 20 ms have passed since the last one (R24). -/
def HostSide.checkDue (h : HostSide) : Bool :=
  match h.conserve.lastCheck with
  | none => true
  | some t => decide (20000000 ≤ dtDiff h.now t)

/-- The lowest-numbered enabled head. -/
def HostSide.lowestHead (h : HostSide) : Option Nat := (List.range 48).find? (fun k => h.flag (Reg.HDS_STATUS_ENABLED k))

/-- The bits of SYS.INVAR_STATUS that a check of this cycle has set: the same cycle's write does not clear them (R25;
00_scope.md R11). -/
def HostSide.failedNow (h : HostSide) : Nat :=
  match h.conserve.failed with
  | some (r, m) => if r = h.tb.raw then m else 0
  | none => 0

/-- A write of SYS.INVAR_STATUS: VALID falls once no bit is set (R25). -/
def HostSide.clearInvariants (h : HostSide) (v : Nat) : HostSide :=
  let fs := [Reg.SYS_INVAR_STATUS_TRT_CREDIT, Reg.SYS_INVAR_STATUS_SLOT, Reg.SYS_INVAR_STATUS_LEASE,
    Reg.SYS_INVAR_STATUS_REF_TOKEN, Reg.SYS_INVAR_STATUS_LINK_CREDIT, Reg.SYS_INVAR_STATUS_HEAD_SLOT,
    Reg.SYS_INVAR_STATUS_PAGE, Reg.SYS_INVAR_STATUS_DRAM_TXN]
  let now := h.failedNow
  let h := fs.foldl (fun h f => if bit v f.lo && !bit now f.lo then h.put f 0 else h) h
  if h.flag Reg.SYS_INVAR_STATUS_VALID && fs.all (fun f => !h.flag f) then
    ({ h with conserve := { h.conserve with cleared := some h.tb.raw } }).put Reg.SYS_INVAR_STATUS_VALID 0
  else h

end Sys2Proof.Machine
end

