-- ==== Sys2Proof/Machine/Heads.lean ====
section
/-! DEFINITION. Meanings of the commands of heads and slices (08_heads.md; 06_composition.md R145 to R164;
02_freshness.md R52 to R54; 01_architecture.md R24). -/

namespace Sys2Proof.Machine

/-- SLICE_COMPOSE_START (R157, R158). -/
def execSliceComposeStart (head : Fin 48) (slice : Fin 128) (facts : ComposeFacts) (s : State) : Out :=
  hostCmd s (fun h => h.composeStart head.val slice.val facts)

/-- SLICE_HANDOVER (R198, R164). -/
def execSliceHandover (head : Fin 48) (s : State) : Out := hostCmd s (fun h => h.handover head.val)

/-- SLICE_DEADLINE_MISS (R199). -/
def execSliceDeadlineMiss (head : Fin 48) (frame : Nat) (slice : Fin 128) (s : State) : Out :=
  hostCmd s (fun h => h.deadlineMiss head.val frame slice.val)

/-- PACKET_EMIT (R196, R52). -/
def execPacketEmit (head : Fin 48) (s : State) : Out := hostCmd s (fun h => h.emitPacket head.val)

/-- SLICE_EMIT_COMPLETE (R150, R198). -/
def execSliceEmitComplete (head : Fin 48) (s : State) : Out := hostCmd s (fun h => h.emitComplete head.val)

/-- LAYER_BUDGET_WRITE: a budget from 1 to the admitted one, or a refusal (R53). -/
def execLayerBudgetWrite (who : Requester) (layer : Fin 1024) (v : Word) (s : State) : Out :=
  regCmd s who (fun h =>
    let h := h.answer .none
    let b := bits v.toNat 0 26
    let admitted := ((h.layerEntry layer.val).map (·.budget)).getD 0
    if 1 ≤ b ∧ b ≤ admitted then h.put (Reg.FRS_LAYER_BUDGET_BUDGET layer.val) b
    else h.put (Reg.FRS_LAYER_STATE_BUDGET_REFUSED layer.val) 1)

/-- EVT_RD_WRITE: the read index moves only on the written span (R54). -/
def execEvtRdWrite (who : Requester) (v : Word) (s : State) : Out :=
  regCmd s who (fun h =>
    let h := h.answer .none
    let i := bits v.toNat 0 12
    if onSpan 4096 (h.get Reg.FRS_EVT_RD_INDEX) (h.get Reg.FRS_EVT_WR_INDEX) i then h.put Reg.FRS_EVT_RD_INDEX i else h)

/-- COMMIT (R190). -/
def execCommit (who : Requester) (head : Fin 48) (s : State) : Out :=
  regCmd s who (fun h => (h.answer .none).commitHead head.val none)

/-- COMMIT_TARGETED (R190). -/
def execCommitTargeted (who : Requester) (head : Fin 48) (target : BitVec 8) (s : State) : Out :=
  regCmd s who (fun h => (h.answer .none).commitHead head.val (some target.toNat))

/-- LATCH: at L(n) of the head's coming frame (R190, R148, R201). -/
def execLatch (head : Fin 48) (s : State) : Out :=
  hostCmd s (fun h =>
    match h.nextLatch head.val with
    | some n => if dtReached h.now n.at_ then h.doLatch head.val n else h
    | none => h)

/-- FRAME_START: at start(n) of the next latched frame (R186); at the frame boundary of the lowest enabled head the
invariants are checked (R24). -/
def execFrameStart (head : Fin 48) (s : State) : Out :=
  hostCmd s (fun h =>
    let v := h.head head.val
    match v.planFrom (v.started + 1) with
    | some p =>
      -- the first frame of a new timing starts once the head has switched
      if dtReached h.now p.start && (v.time == some p.time || (v.time.map (fun t => timingDiffers t.entry p.time.entry)) == some false) then
        let h := h.startFrame head.val p
        if h.lowestHead = some head.val then h.checkInvariants else h
      else h
    | none => h)

/-- TE_REPORT (R200, R201). -/
def execTeReport (head : Fin 48) (report : TeReport) (s : State) : Out :=
  hostCmd s (fun h => h.teReport head.val report.dest.toNat report.payload)

/-- INVARIANT_TIMER: every 20 ms of host DT while the module is active and no head is enabled (R24). -/
def execInvariantTimer (s : State) : Out :=
  hostCmd s (fun h => if h.activeId ≠ 0 ∧ h.lowestHead.isNone ∧ h.checkDue then h.checkInvariants else h)

/-- INVAR_STATUS_WRITE (R25). -/
def execInvarStatusWrite (who : Requester) (v : Word) (s : State) : Out :=
  regCmd s who (fun h => (h.answer .none).clearInvariants v.toNat)

end Sys2Proof.Machine
end

