-- ==== Sys2Proof/Machine/ActivateOps.lean ====
section
/-! DEFINITION. Activation of a committed image (03_structure_image.md R73 to R76, R81; 02_freshness.md R43;
05_ingest_decode.md R107, R108, R123; 06_composition.md R140, R141, R143, R164; 07_mimic.md R182; 08_heads.md R203,
R204; 09_encode.md R212; 10_field_points_commands.md R236; 13_central_store.md R291, R298; 14_tartan_protection.md R333;
16_twin_repair.md R380 to R383). -/

namespace Sys2Proof.Machine

/-! ## Layers and watch tiles -/

/-- A layer without a LAYERS entry: both descriptor copies are 0 (R143). -/
def HostSide.dropLayer (h : HostSide) (l : Nat) : HostSide :=
  let h := { h with cfg := { h.cfg with layers := h.cfg.layers.filter (fun e => e.layer != l) } }
  let h := (List.range 8).foldl (fun h i => h.put (Reg.layerWord l i) 0) h
  let h := (h.setArmedDesc l none).setActiveDesc l []
  [Reg.FRS_LAYER_BUDGET_BUDGET l, Reg.CMP_LAYER_STATUS_HEAD l, Reg.FRS_LAYER_STATE_LIVE_BEARING l,
    Reg.FRS_LAYER_STATE_GINGHAM_EN l, Reg.CMP_LAYER_STATUS_CREDIT l].foldl (fun h f => h.put f 0) h

/-- A layer leaves its head for another one: until it joins, it holds no descriptor reference, and LAYER_STATUS.HEAD names
its new head (R74). -/
def HostSide.moveLayer (h : HostSide) (e : LayerEntry) (left : DT) : HostSide :=
  let h := { h with cfg := { h.cfg with layers := h.cfg.layers.filter (fun x => x.layer != e.layer) } }
  let h := ((h.setArmedDesc e.layer none).setActiveDesc e.layer []).put (Reg.CMP_LAYER_STATUS_HEAD e.layer) e.head
  { h with stage := { h.stage with movers := h.stage.movers ++ [⟨e, left⟩] } }

/-- The watch tiles of a layer take their new entries: a tile is kept only where its entry and the layer's KIND and SOURCE
are unchanged (R43). Log entries 95 (DEDUCED), 157 (DEDUCED). -/
def HostSide.takeWatch (h : HostSide) (st : Staged) (l : Nat) : HostSide :=
  let old := h.stage.before
  let shown (c : Cfg) : Option (Nat × Nat) := (c.layers.find? (fun e => e.layer == l)).map (fun e => (e.kind, e.source))
  let entry (c : Cfg) (t : Nat) : Option WatchEntry := c.watch.find? (fun w => w.layer == l && w.tile == t)
  let kept := h.cfg.watch.filter (fun (w : WatchEntry) => w.layer != l)
  let listed := st.cfg.watch.filter (fun (w : WatchEntry) => w.layer == l)
  let h := { h with cfg := { h.cfg with watch := kept ++ listed } }
  let h := (List.range 4).foldl (fun h t =>
    if entry old t = entry st.cfg t ∧ shown old = shown st.cfg then h else h.setTile l t WatchTile.fresh) h
  let mask := (listed.filter (fun w => w.bound == 1)).foldl (fun m w => setBit m w.tile) 0
  (h.put (Reg.FRS_LAYER_STATE_WT_BOUND l) mask).showVerdicts l

/-- The layers of the old and the new configuration. -/
def bothLayers (a b : Cfg) : List Nat := ((a.layers ++ b.layers).map (·.layer)).eraseDups

/-- Layers that wait for no head's switch instant take effect at E. Log entry 158 (DEDUCED). -/
def HostSide.layersAtE (h : HostSide) (st : Staged) : HostSide :=
  let waits (k : Nat) : Bool := h.stage.switches.contains k
  (bothLayers h.stage.before st.cfg).foldl (fun h l =>
    let old := h.layerEntry l
    let new := st.cfg.layers.find? (fun e => e.layer == l)
    let held := match old, new with
      | some o, _ => waits o.head
      | none, some n => waits n.head
      | none, none => true
    if held then h
    else match new with
      | some n => if st.layersIn.contains l then h.takeLayer 0 n else h
      | none => h.dropLayer l) h

/-- Layers at head `k`'s switch instant (R73, R74). Log entry 158 (DEDUCED). -/
def HostSide.layersAtSwitch (h : HostSide) (st : Staged) (k : Nat) (on first : Bool) : HostSide :=
  let h := (h.layersOf k).foldl (fun h o =>
    match st.cfg.layers.find? (fun e => e.layer == o.layer) with
    | none => h.dropLayer o.layer
    | some n =>
      if n.head = k then h
      else
        let h := h.moveLayer n h.now
        if (st.cfg.headEntry n.head).isSome then h
        else ({ h with stage := { h.stage with movers := h.stage.movers.filter (fun m => m.entry.layer != n.layer) } }).takeLayer
          0 n) h
  -- a head that has not latched the image's first frame, or will show none, takes its layers now
  if on && first then h
  else
    (st.cfg.layers.filter (fun e => e.head == k && st.layersIn.contains e.layer &&
      (match h.layerEntry e.layer with
        | some o => o.head == k
        | none => !h.stage.movers.any (fun m => m.entry.layer == e.layer)))).foldl (fun h e =>
          h.takeLayer (h.head k).nextFrame e) h

/-! ## Surfaces (R140, R141, R151) -/

/-- A component of FILL_COLOUR in a surface's format: exact for ARGB 2:10:10:10, whose components are the colour's;
otherwise the conversion's result is open (log entry 1). Log entry 164 (DESIGN CHOICE). -/
def fillComponent (format c colour : Nat) : Nat :=
  match format, c with
  | 2, 0 => 3
  | 2, _ => bits colour (10 * (3 - c)) 10
  | 1, 0 => 255
  | 4, _ => Config.fillComponent 4 c colour % 1024
  | f, _ => Config.fillComponent f c colour % 256

/-- A uniform tile of FILL_COLOUR: interleaved for ARGB formats, planes for 4:2:0. -/
def fillTile (format colour : Nat) : List Nat :=
  if format = 3 ∨ format = 4 then
    List.replicate 32 (fillComponent format 0 colour) ++ List.replicate 8 (fillComponent format 1 colour) ++
      List.replicate 8 (fillComponent format 2 colour)
  else (List.range 128).map (fun i => fillComponent format (i % 4) colour)

/-- A surface with FILL is written with FILL_COLOUR. Log entry 164 (DESIGN CHOICE). -/
def HostSide.fillSurface (h : HostSide) (s : Surface) (colour : Nat) : HostSide :=
  let base := s.page * 65536
  if s.coding = 0 then
    let pitch := pitchOf s.format s.width
    let row (n : Nat) (unit : List Byte) (h : HostSide) (o : Nat) : HostSide :=
      h.caPut 0xFF (base + o) ((List.replicate n unit).flatten)
    let b (c : Nat) : List Byte := leBytes (fillComponent s.format c colour) 1
    if s.format = 3 then
      let h := (List.range s.height).foldl (fun h y => row s.width (b 0) h (y * pitch)) h
      (List.range (s.height / 2)).foldl (fun h y => row (s.width / 2) (b 1 ++ b 2) h (pitch * s.height + y * pitch)) h
    else
      let c := fillComponent s.format
      let word := if s.format = 2 then c 0 colour * 2 ^ 30 + c 1 colour * 2 ^ 20 + c 2 colour * 2 ^ 10 + c 3 colour
        else c 0 colour * 2 ^ 24 + c 1 colour * 2 ^ 16 + c 2 colour * 2 ^ 8 + c 3 colour
      (List.range s.height).foldl (fun h y => row s.width (leBytes word 4) h (y * pitch)) h
  else
    (List.range (s.height / 4)).foldl (fun h ty => (List.range (s.width / 8)).foldl (fun h tx =>
      let (ca, n) := s.slotCa tx ty
      h.codeTile s.format s.coding ca n (fillTile s.format colour)) h) h

/-- The page run of an owner of the staged image. Log entry 165 (DEDUCED). -/
def HostSide.stagedRun (h : HostSide) (o : PageOwner) : Option PageRun := h.store.pages.find? (fun r => r.staged && r.owner == o)

/-- Surfaces at E: those that a full image does not list enter RELEASING, listed ones are allocated or carry over. A listed
surface whose release completed since step 6 has no pages and stays FREE. Log entry 233 (DESIGN CHOICE). -/
def HostSide.surfacesAtE (h : HostSide) (st : Staged) : HostSide :=
  let h := if st.part then h else
    h.display.surfaces.foldl (fun h p =>
      match p.2 with
      | some s => if st.cfg.surfaces.any (fun e => e.handle == p.1) then h
          else h.setSurface p.1 (some { s with pending := true, retain := false, bell := if s.pending then s.bell else none })
      | none => h) h
  st.cfg.surfaces.foldl (fun h e =>
    match h.surface e.handle, h.stagedRun (.surface e.handle) with
    | some s, _ => h.setSurface e.handle (some { s with syncBound := e.syncBound })
    | none, some r =>
      let s : Surface := ⟨r.first, e.format, e.coding, e.cls, e.width, e.height, e.syncBound, ⟨0, e.cls, true, false, false⟩,
        false, false, none, 0⟩
      let h := h.setSurface e.handle (some s)
      if e.fill = 1 then h.fillSurface s e.fillColour else h
    | none, none => h) h

/-! ## Pages -/

/-- A run of the old image that the new one does not keep. -/
def dropsRun (pages : List PageRun) (st : Staged) (r : PageRun) : Bool :=
  let again := pages.any (fun n => n.staged && n.owner == r.owner)
  match r.owner with
  | .surface _ => false
  | .ring _ _ => false
  | .stagedCopy => false
  | .retained _ => !st.part
  | .mimicSurface m => again || !((st.cfg.mimic.map (fun c => c.surfaces.any (fun s => s.surface == m))).getD false)
  | .cellMap m => again || !((st.cfg.mimic.map (fun c => c.surfaces.any (fun s => s.surface == m))).getD false)
  | .stitch g => again || !((st.cfg.stitch.map (fun c => c.recvs.any (fun s => s.region == g))).getD false)
  | .replica => again || st.cfg.points.isNone
  | _ => again

/-- Staged pages become active and the old ones return; the staged copy becomes part of the retained set
(16_twin_repair.md R380). Log entry 165 (DEDUCED). -/
def HostSide.pagesAtE (h : HostSide) (st : Staged) : HostSide :=
  let kept := h.store.pages.filter (fun r => r.staged || !dropsRun h.store.pages st r)
  let pages := kept.map (fun r => if r.staged then
    { r with staged := false, owner := if r.owner = .stagedCopy then .retained st.imageId else r.owner } else r)
  ({ h with store := { h.store with pages := pages } }).showPages

/-! ## Streams (R107, R108, R123) -/

/-- A stream at E: one that is enabled, or whose entry changes, begins afresh and reports its group; one that is not listed
or not enabled ends. Log entry 161 (DEDUCED). -/
def HostSide.streamAtE (h : HostSide) (st : Staged) (s : Nat) : HostSide :=
  let old := (h.stage.before.streams.find? (fun e => e.stream == s)).filter (fun e => e.enable == 1)
  let new := (st.cfg.streams.find? (fun e => e.stream == s)).filter (fun e => e.enable == 1)
  let core := st.cfg.decCore.getD s 255
  let core := if h.video.dc8For = some core then 8 else core
  let gone (h : HostSide) : HostSide :=
    let h := (h.picturesOf s).foldl (fun h p => h.setPicture p.1 (some { p.2 with inDpb := false })) h
    let h := (h.setStreamState s StreamState.fresh).setContext s Context.fresh
    h.pictureBoundary s
  match old, new with
  | none, none => h
  | some _, none =>
    let h := gone h
    let h := ((h.put (Reg.ING_STATUS_ENABLED s) 0).put (Reg.DEC_CTX_STATUS_STATE s) 0).put (Reg.DEC_CTX_STATUS_CORE s) 0
    let h := [Reg.ING_STATUS_SSRC_LOCKED s, Reg.ING_SSRC_SSRC s, Reg.ING_STATUS_SR_VALID s, Reg.ING_STATUS_SYNC_VALID s,
      Reg.ING_SYNC_ATTEST_VALID s, Reg.ING_STATUS_FRER_ACTIVE s].foldl (fun h f => h.put f 0) h
    (h.put (Reg.DEC_CTX_TOKENS_POOL s) 0).showContext s
  | o, some e =>
    let h := h.put (Reg.DEC_CTX_STATUS_CORE s) core
    if o = some e then h
    else
      let h := gone h
      let h := h.setStreamState s { StreamState.fresh with ssrc := if e.ssrc = 0 then none else some e.ssrc }
      let h := (h.put (Reg.ING_STATUS_ENABLED s) 1).put (Reg.DEC_CTX_STATUS_STATE s) 1
      let h := ((h.put (Reg.DEC_CTX_TOKENS_POOL s) e.tokens).showContext s).showStream s
      if e.multicast = 1 then
        let h := h.send (.report e.portA e.addr (e.ipv6 == 1))
        if e.frer = 1 then h.send (.report e.portB e.addr (e.ipv6 == 1)) else h
      else h

/-! ## Encoders (R212, R216, R219) -/

/-- The head that an encode context follows: that of its new entry, or of its old one. Log entry 141 (DEDUCED). -/
def encHead (a b : Cfg) (x : Nat) : Nat :=
  let on (c : Cfg) : Option EncodeEntry := c.encode.find? (fun e => e.context == x && e.enable == 1)
  (((on b).or (on a)).map (·.head)).getD 48

/-- An encode context takes its new entry; it restarts where the entry changes or `timing` says that its head's timing
does: its frames that wait or are in progress are abandoned. `first` is the number of the first latched frame that it may
read. Log entries 107 (DEDUCED), 157 (DEDUCED), 246 (DESIGN CHOICE). -/
def HostSide.takeEncode (h : HostSide) (st : Staged) (x : Nat) (timing : Bool) (first : Nat) : HostSide :=
  let entry (c : Cfg) : Option EncodeEntry := c.encode.find? (fun e => e.context == x)
  let old := entry h.stage.before
  let new := entry st.cfg
  let h := { h with cfg := { h.cfg with
    encode := h.cfg.encode.filter (fun e => e.context != x) ++ (new.map (fun e => [e])).getD [] } }
  if old = new ∧ !timing then h
  else
    let lost (q : List EncFrame) : List EncFrame := q.filter (fun f => f.ctx != x)
    let h := (List.range 2).foldl (fun h c =>
      let k := h.encCore c
      h.setEncCore c ⟨lost k.queue, k.current.filter (fun d => d.input.ctx != x)⟩) h
    match new with
    | some e =>
      if e.enable = 1 then
        let (seq, h) := h.free 65536
        let set : RcSet := ⟨e.qpMax, e.maxFrameBits, e.maxFrameBits / 2, false⟩
        let h := h.setEncCtx x { EncCtx.idle with applied := set, last := first - 1, rtpSeq := seq }
        let ring (o : Option EncodeEntry) : Option (Nat × Nat) := o.map (fun e => (e.ringOffset, e.ringBytes))
        let h := if ring old = ring new ∧ (old.map (·.outPcie)) = some e.outPcie then h
          else (h.put (Reg.ENC_OUT_WR_OFFSET x) 0).put (Reg.ENC_OUT_RD_OFFSET x) 0
        ((h.put (Reg.ENC_CTX_STATUS_ENABLED x) 1).put (Reg.ENC_CTX_STATUS_QP x) e.qpMax).put (Reg.ENC_CTX_STATUS_GO_PENDING x) 0
      else ((h.setEncCtx x EncCtx.idle).put (Reg.ENC_CTX_STATUS_ENABLED x) 0).put (Reg.ENC_CTX_STATUS_GO_PENDING x) 0
    | none => ((h.setEncCtx x EncCtx.idle).put (Reg.ENC_CTX_STATUS_ENABLED x) 0).put (Reg.ENC_CTX_STATUS_GO_PENDING x) 0

/-- ENC.CORE_STATUS.ACTIVE. -/
def HostSide.showEncCores (h : HostSide) : HostSide :=
  (List.range 2).foldl (fun h c => h.putB (Reg.ENC_CORE_STATUS_ACTIVE c)
    (h.cfg.encode.any (fun e => e.enable == 1 && e.core == c))) h

/-! ## Mimic surfaces (R182) -/

/-- Mimic surfaces at E: kept, drawn afresh, or gone. Log entries 87 (DEDUCED), 163 (DEDUCED). -/
def HostSide.mimicAtE (h : HostSide) (st : Staged) (runs : List PageRun) : HostSide :=
  let page (o : PageOwner) : Nat := ((runs.find? (fun r => r.staged && r.owner == o)).map (·.first)).getD 0
  let h := h.putB Reg.MIM_STATUS_ACTIVE st.cfg.mimic.isSome
  let listed := (st.cfg.mimic.map (·.surfaces)).getD []
  let h := (List.range 64).foldl (fun h m =>
    match listed.find? (fun s => s.surface == m) with
    | some e =>
      let h := h.put (Reg.MIM_SURF_STATUS_ENABLED m) 1
      if keepsMimic h.stage.before.mimic st.cfg.mimic m then h
      else h.beginDrawing m (page (.mimicSurface m)) (page (.cellMap m)) e
    | none =>
      ((((h.dropMimicHolds m).setMimicSurf m none).put (Reg.MIM_SURF_STATUS_ENABLED m) 0).put (Reg.MIM_SURF_STATUS_DRAWN m) 0).put
        (Reg.MIM_SURF_STATUS_LEASES m) 0) h
  h.showMimic

/-! ## The rest at E -/

/-- A key lies among the `len` keys from `lo`. -/
def inRange (lo len k : Nat) : Bool := decide (lo ≤ k ∧ k < lo + len)

/-- Moves `len` keys of a table to a new place, whose old content is lost. Log entry 216 (DEDUCED). -/
def moveRange {α : Type} [DecidableEq α] (d : α) (len src dst : Nat) (t : Table α) : Table α :=
  (t.filter (fun p => inRange src len p.1)).foldl (fun u p => tput d u (p.1 - src + dst) p.2)
    (t.filter (fun p => !inRange dst len p.1))

/-- Central store, Tartan, MPU, rings and replica at E; a replica that begins to exist holds 0
(10_field_points_commands.md R236), and one that moves keeps its records; a module ring of another base or size starts empty.
Log entries 163 (DEDUCED), 216 (DEDUCED), 230 (DESIGN CHOICE). -/
def HostSide.storeAtE (h : HostSide) (st : Staged) : HostSide :=
  let c := st.cfg
  let old := h.stage.before
  let h := if old.imageId = 0 then (h.put Reg.CST_STATUS_GRAIN_LOG2 c.cst.grainLog2).put Reg.CST_STATUS_HASH_EN c.cst.hashEn else h
  let h := (List.range 12).foldl (fun h ch => h.putB (Reg.CST_CH_STATUS_SR_EN ch)
    (bit c.cst.srEn ch && h.get (Reg.CST_CH_STATUS_ROLE ch) == 1)) h
  let h := { h with store := { h.store with rhThreshold := c.cst.rhThreshold } }
  let h := (List.range 47).foldl (fun h m => h.put (Reg.TRT_MASTER_QOS m) (c.tartan.qos.getD m 0)) h
  let h := (List.range 17).foldl (fun h t => (List.range 47).foldl (fun h m =>
    h.put ⟨0x10400 + t * 0x20 + (m / 8) * 4, 3 * (m % 8), 3, 0, .ro⟩ (c.tartan.prio.getD (48 * t + m) 0))
    (h.put (Reg.TRT_URGENT_THRESHOLD t) (c.tartan.urgent.getD t 0))) h
  let h := if st.part then h else h.loadRegions c.mpu
  let h := if old.log.modRing = c.log.modRing ∧ old.log.modCount = c.log.modCount then h
    else (h.put Reg.SYS_LOG_WR_INDEX 0).put Reg.SYS_LOG_RD_INDEX 0
  let h := if old.log.frsRing = c.log.frsRing then h else (h.put Reg.FRS_EVT_WR_INDEX 0).put Reg.FRS_EVT_RD_INDEX 0
  let h := (h.putPair Reg.SYS_LOG_BASE_LO_ADDR Reg.SYS_LOG_BASE_HI_ADDR c.log.modRing).putPair Reg.FRS_EVT_BASE_LO_ADDR
    Reg.FRS_EVT_BASE_HI_ADDR c.log.frsRing
  let at_ (c : Cfg) : Option Nat := c.points.map (fun q => c.cst.bar2Base + q.replicaOffset)
  match at_ c, at_ old with
  | some lo, some from_ => if lo = from_ then h else { h with store := { h.store with
      mem := moveRange 0 8388608 from_ lo h.store.mem
      poison := moveRange false 131072 (from_ / 64) (lo / 64) h.store.poison } }
  | some lo, none => { h with store := { h.store with
      mem := h.store.mem.filter (fun p => !inRange lo 8388608 p.1)
      poison := h.store.poison.filter (fun p => !inRange lo 8388608 (p.1 * 64)) } }
  | _, _ => h

/-- CMP.FANOUT.READERS: the packetiser, the encoder taps and the stitch sends of each enabled head (R164). -/
def HostSide.showReaders (h : HostSide) (c : Cfg) : HostSide :=
  (List.range 48).foldl (fun h k => h.put (Reg.CMP_FANOUT_READERS k)
    (if (c.headEntry k).isSome then 1 + (c.tapsOf k).length + (c.sendsOf k).length else 0)) h

/-- Stitch regions that the image changes hold nothing. -/
def HostSide.regionsAtE (h : HostSide) (st : Staged) : HostSide :=
  let regions := (h.stage.before.stitch.map (·.recvs)).getD [] ++ (st.cfg.stitch.map (·.recvs)).getD []
  (regions.map (·.region)).eraseDups.foldl (fun h r =>
    let kept := ((st.cfg.stitch.map (·.recvs)).getD []).any (fun e => e.region == r && keepsRegion h.stage.before.stitch e)
    if kept then h
    else ((h.setRegion r Region.empty).put (Reg.STC_REGION_VALID r) 0).put (Reg.STC_REGION_WORST r) 0) h

/-- Entries of one kind, of which those that `held` picks keep what they were. -/
def holdBack {α : Type} (key : α → Nat) (held : Nat → Bool) (old new : List α) : List α :=
  overlay key [] (old.filter (fun e => held (key e)) ++ new.filter (fun e => !held (key e)))

/-- E of a committed image: every part but the heads that await their switch instants takes effect (R73).
Log entries 61 (DEDUCED), 204 (DEDUCED). -/
def HostSide.activateImage (h : HostSide) (st : Staged) : HostSide :=
  let h := { h with stage := { h.stage with live := true } }
  let old := h.stage.before
  let waits (k : Nat) : Bool := h.stage.switches.contains k
  let runs := h.store.pages
  let h := (h.surfacesAtE st).pagesAtE st
  let h := { h with cfg := { st.cfg with
    heads := holdBack HeadEntry.head waits old.heads st.cfg.heads
    layers := h.cfg.layers
    watch := h.cfg.watch
    encode := h.cfg.encode } }
  let h := h.layersAtE st
  let h := ((bothLayers old st.cfg).filter (fun l => !waits (headFor old st.cfg l))).foldl (fun h l => h.takeWatch st l) h
  let h := h.storeAtE st
  let h := (List.range 128).foldl (fun h s => h.streamAtE st s) h
  let h := (((List.range 16).filter (fun x => !waits (encHead old st.cfg x))).foldl (fun h x =>
    h.takeEncode st x false 1) h).showEncCores
  let h := ((h.mimicAtE st runs).regionsAtE st).showReaders st.cfg
  let h := (h.put Reg.FRS_SYNC_BOUND_BOUND st.cfg.gingham.plausBound).coverPaces
  let h := ((h.enableLinks.armSpares).showCores).showSpareEngine
  let h := if st.forced then h.put Reg.SIM_STATUS_UNQUALIFIED 1 else h
  let h := if st.content.isSome then
      ({ h with uliska := { h.uliska with contentId := st.imageId } }).put Reg.SIM_STATUS_FIELD_SPLIT 0
    else h
  h.settle

/-! ## Switch instants (R73, R74, R203, R204) -/

/-- HDS.STATUS.ENABLED and HDS.EPOCH follow a head's timing. -/
def HostSide.showHead (h : HostSide) (k : Nat) : HostSide :=
  let t := (h.head k).time
  (h.putB (Reg.HDS_STATUS_ENABLED k) t.isSome).putPair (Reg.HDS_EPOCH_LO_DT k) (Reg.HDS_EPOCH_HI_DT k)
    ((t.map (·.epoch.toNat)).getD 0)

/-- Head `k` takes the committed image at its switch instant `sw`; events 0x4 and 0x5 carry the frame most recently started.
Log entries 162 (DEDUCED), 244 (DESIGN CHOICE). -/
def HostSide.switchHead (h : HostSide) (st : Staged) (k : Nat) (sw : DT) : HostSide :=
  let v := h.head k
  let new := h.newTiming k sw
  let changed := match v.time, new with
    | some a, some b => timingDiffers a.entry b.entry
    | some _, none => true
    | none, _ => false
  let firstDone := v.firstNo.isSome
  let firstNo := v.firstNo.getD (v.latches + 1)
  let first := match new with
    | some t => if firstDone then v.nextFrame else t.firstAt (v.phiOf t) sw
    | none => 0
  let h := if changed then
      let f := h.get (Reg.HDS_FRAME_FRAME k)
      let h := if v.marks < 2 then (h.put (Reg.HDS_STATUS_SHORT_MARKER k) 1).log 5 4 k f else h
      h.log 5 5 k f
    else h
  let others := h.cfg.heads.filter (fun (e : HeadEntry) => e.head != k)
  let own := st.cfg.heads.filter (fun (e : HeadEntry) => e.head == k)
  let h := { h with cfg := { h.cfg with heads := overlay HeadEntry.head others own } }
  let h := h.setHead k { h.head k with
    time := new
    coming := none
    firstNo := none
    nextFrame := first
    phi0 := if changed || v.time.isNone then 0 else v.phi0
    ended := if new.isSome then v.ended else v.latches
    marks := 0
    commit := if new.isSome then (h.head k).commit else none
    report := if changed then none else (h.head k).report
    former := if changed then none else (h.head k).former }
  let h := if new.isSome then h else h.put (Reg.HDS_STATUS_COMMIT_PENDING k) 0
  let engine := new.map (·.entry.engine)
  let spared := h.display.ce8Heads.filter (fun (c : Nat) => c != k || engine == h.display.ce8For)
  let h := { h with display := { h.display with ce8Heads := spared } }
  let h := h.layersAtSwitch st k new.isSome firstDone
  let h := ((bothLayers h.stage.before st.cfg).filter (fun l => headFor h.stage.before st.cfg l == k)).foldl
    (fun h l => h.takeWatch st l) h
  let restart := changed || v.time.isNone
  let h := (((List.range 16).filter (fun x => encHead h.stage.before st.cfg x == k)).foldl (fun h x =>
    h.takeEncode st x restart firstNo) h).showEncCores
  let h := { h with stage := { h.stage with switches := h.stage.switches.filter (· != k) } }
  ((h.showHead k).showEngines).settle

/-! ## The end of an activation -/

/-- The slice rings of heads that are no longer enabled with their width return their pages (R164). Log entry 241 (DESIGN
CHOICE). -/
def HostSide.dropRings (h : HostSide) : HostSide :=
  let wanted (k w : Nat) : Bool := h.cfg.heads.any (fun (e : HeadEntry) => e.head == k && e.enable == 1 && e.hActive == w)
  h.freePages (fun r => match r.owner with
    | .ring k w => !r.staged && !wanted k w
    | _ => false)

/-- The set of images that a joining twin would need (16_twin_repair.md R380). Log entry 165 (DEDUCED). -/
def HostSide.retain (h : HostSide) (st : Staged) : HostSide :=
  let t := h.twin
  let one : Retained := ⟨st.imageId, st.epoch, st.copy⟩
  if !st.part then { h with twin := { t with retained := [one], overflow := false } }
  else if t.retained.length < 16 then { h with twin := { t with retained := t.retained ++ [one] } }
  else { h with twin := { t with overflow := true } }

/-- The heads of a module that has resynchronised take their epochs and φ from RESYNC_INFO (16_twin_repair.md R383).
Log entry 85 (DEDUCED). -/
def HostSide.adoptHeads (h : HostSide) (info : List (DT × Int)) : HostSide :=
  let h := (h.cfg.heads.filter (fun e => e.enable == 1)).foldl (fun h e =>
    let (epoch, phi) := info.getD e.head (0, 0)
    let t : HeadTime := ⟨e, epoch⟩
    (h.setHead e.head { HeadState.idle with
      time := some t
      phi0 := phi
      nextFrame := t.firstAt phi h.now }).showHead e.head) h
  h.showEngines

/-- The last switch instant has passed: SIM.ACTIVE_ID, SIM.ACTIVE_EPOCH and IDLE (R73). Log entry 160 (DEDUCED). -/
def HostSide.finishActivation (h : HostSide) (st : Staged) : HostSide :=
  let h := (h.putPair Reg.SIM_ACTIVE_ID_LO_ID Reg.SIM_ACTIVE_ID_HI_ID st.imageId).putPair Reg.SIM_ACTIVE_EPOCH_LO_DT
    Reg.SIM_ACTIVE_EPOCH_HI_DT st.epoch.toNat
  let h := (h.put Reg.SIM_TUPLE0_SCHEMA st.cfg.schema).toStage 0
  let seq := if st.cfg.bankFlag then (st.cfg.bank.map (·.bankSeq)).getD h.stage.bankSeq else h.stage.bankSeq
  let h := { h with stage := { h.stage with
    staged := none
    live := false
    lastSwitch := some h.now
    chHeads := []
    chLayers := []
    before := Cfg.blank
    bankSeq := seq } }
  let h := (h.retain st).dropRings
  h.putB Reg.TWN_STATUS_ID_MATCH (h.pair Reg.TWN_PARTNER_ID_LO_ID Reg.TWN_PARTNER_ID_HI_ID == h.activeId)

/-- A resynchronisation after the activation of one image of the set: the next one is staged for 100 ms ahead, or it is
complete (16_twin_repair.md R382, R383). Log entry 166 (DEDUCED). -/
def HostSide.resyncNext (h : HostSide) : HostSide :=
  match h.twin.joining, h.get Reg.TWN_RESYNC_STATE with
  | some j, 1 =>
    let total := h.get Reg.TWN_RESYNC_TOTAL
    if 0 < total ∧ h.get Reg.TWN_RESYNC_DONE = total then
      let h := h.adoptHeads (j.info.getD [])
      ({ h with twin := { h.twin with joining := none } }).put Reg.TWN_RESYNC_STATE 2
    else if 1 ≤ h.stageOf ∧ h.stageOf ≤ 5 then h
    else
      match j.waiting with
      | img :: rest =>
        let h := { h with twin := { h.twin with joining := some { j with waiting := rest } } }
        let e : DT := h.now + 100000000
        (h.putPair Reg.SIM_EPOCH_LO_DT Reg.SIM_EPOCH_HI_DT e.toNat).stageCopy img img.length e
      | [] => h
  | _, _ => h

/-- The activation ends once no head awaits its switch instant. -/
def HostSide.endIfSwitched (h : HostSide) (st : Staged) : HostSide :=
  if h.stage.live && h.stage.switches.isEmpty then
    let h := h.finishActivation st
    if h.get Reg.TWN_RESYNC_STATE = 1 then (h.put Reg.TWN_RESYNC_DONE (h.get Reg.TWN_RESYNC_DONE + 1)).resyncNext else h
  else h

/-- E (R73). Log entry 160 (DEDUCED). -/
def HostSide.atEpoch (h : HostSide) : HostSide :=
  match h.stage.staged with
  | some st =>
    if h.stageOf = 5 ∧ !h.stage.live ∧ dtReached h.now st.epoch then (h.activateImage st).endIfSwitched st else h
  | none => h

/-- A head's switch instant (R73). Log entry 162 (DEDUCED). -/
def HostSide.atSwitch (h : HostSide) (k : Nat) : HostSide :=
  match h.stage.staged with
  | some st =>
    let sw := h.switchAt k st.epoch
    if h.stageOf = 5 ∧ h.stage.live ∧ h.stage.switches.contains k ∧ dtReached h.now sw then
      (h.switchHead st k sw).endIfSwitched st
    else h
  | none => h

end Sys2Proof.Machine
end

