-- ==== Sys2Proof/Machine/ImageCmd.lean ====
section
/-! DEFINITION. Meanings of the structure image commands (03_structure_image.md R70 to R82, 04_admission.md R102 to R106,
15_lanes.md R363, 16_twin_repair.md R382). -/

namespace Sys2Proof.Machine

/-- LOG_RD_WRITE (R82): the read index moves only within the written span. -/
def execLogRdWrite (who : Requester) (v : Word) (s : State) : Out :=
  regCmd s who (fun h =>
    let h := h.answer .none
    let i := bits v.toNat 0 16
    if onSpan h.cfg.log.modCount (h.get Reg.SYS_LOG_RD_INDEX) (h.get Reg.SYS_LOG_WR_INDEX) i then
      h.put Reg.SYS_LOG_RD_INDEX i
    else h)

/-- IMAGE_VERIFY (R70, R71). -/
def execImageVerify (who : Requester) (s : State) : Out := regCmd s who (fun h => (h.answer .none).simVerify)

/-- Step 8 ends without an acknowledge within 100 ms (R71). -/
def HostSide.fieldSilent (h : HostSide) : HostSide :=
  match h.sendingOf false with
  | some v => if h.stageOf = 1 ∧ v.phase < 3 ∧ dtReached h.now v.deadline then h.stopStaged 0x0F else h
  | none => h

/-- FIELD_CONFIG_TIMEOUT (R71, R72). -/
def execFieldConfigTimeout (s : State) : Out := hostCmd s (·.fieldSilent)

/-- The end of the Buckram run. A resynchronising module arms what it has admitted (16_twin_repair.md R382). -/
def HostSide.admissionDone (h : HostSide) (time : Nat) : HostSide :=
  match h.stage.staged with
  | some st =>
    if h.stageOf = 2 then
      let h := h.endAdmission st time
      if h.stageOf = 3 ∧ h.get Reg.TWN_RESYNC_STATE = 1 then h.toStage 4 else h
    else h
  | none => h

/-- ADMISSION_COMPLETE (R83 to R106, R73, R363). -/
def execAdmissionComplete (runMs : Nat) (s : State) : Out := hostCmd s (·.admissionDone runMs)

/-- IMAGE_ARM (R73). -/
def execImageArm (who : Requester) (s : State) : Out := regCmd s who (fun h => (h.answer .none).simArm)

/-- IMAGE_CANCEL (R73). -/
def execImageCancel (who : Requester) (s : State) : Out := regCmd s who (fun h => (h.answer .none).simCancel)

/-- OVERRIDE_ARM (R78). Log entry 154 (DEDUCED). -/
def execOverrideArm (who : Requester) (v : Word) (s : State) : Out :=
  regCmd s who (fun h => (h.answer .none).simForce v.toNat)

/-- COMMIT_POINT (R73). -/
def execCommitPoint (s : State) : Out := hostCmd s (·.commitPoint)

/-- IMAGE_ACTIVATE (R73). -/
def execImageActivate (s : State) : Out := hostCmd s (·.atEpoch)

/-- HEAD_SWITCH (R73, R74, R203). -/
def execHeadSwitch (head : Fin 48) (s : State) : Out := hostCmd s (fun h => h.atSwitch head.val)

/-- The link over which a member is reached: its stitch link, or a twin link (01_architecture.md R20). -/
def HostSide.linkTo (h : HostSide) (t : Nat) : Nat :=
  if t = twinOf h.ownTarget then h.twinLink else (t % 4 + 3 - h.ownTarget % 4) % 4

/-- The twin answers RESYNC_REQ with a refusal, as its retained set has overflowed: the resynchronisation ends
(16_twin_repair.md R380, R382). -/
def HostSide.resyncRefused (h : HostSide) (m : PeerMsg) : HostSide :=
  let unanswered := match h.twin.joining with
    | some j => j.info.isNone
    | none => false
  if !m.admits && m.target == twinOf h.ownTarget && h.get Reg.TWN_RESYNC_STATE == 1 && unanswered then
    (h.put Reg.TWN_RESYNC_STATE 3).log 8 2 0
  else h

/-- A member's IMAGE_MSG. An ADMIT for an image of the retained set with another epoch is a joining module's: it is answered
with an ADMIT of that epoch (16_twin_repair.md R382). -/
def HostSide.imageMsgArrives (h : HostSide) (m : PeerMsg) : HostSide :=
  let h := (h.takeImageMsg m).resyncRefused m
  if m.admits && h.twin.retained.any (fun r => r.imageId == m.imageId && r.epoch != m.epoch) then
    h.sendMessage (h.linkTo m.target) 3 (h.imageMsg m.imageId m.epoch true)
  else h

/-- PEER_IMAGE_MSG (R73, 15_lanes.md R363, 16_twin_repair.md R382). Log entry 172 (DESIGN CHOICE). -/
def execPeerImageMsg (imageId : BitVec 64) (epoch : DT) (admits : Bool) (target : Fin 8) (s : State) : Out :=
  hostCmd s (fun h => h.imageMsgArrives ⟨target.val, admits, imageId.toNat, epoch⟩)

/-- BCK_QUERY (R106). -/
def execBckQuery (who : Requester) (v : Word) (s : State) : Out :=
  regCmd s who (fun h => ((h.answer .none).put Reg.BCK_QUERY_INDEX v.toNat).showBound)

end Sys2Proof.Machine
end

