-- ==== Sys2Proof/Machine/Lane.lean ====
section
/-! DEFINITION. Meanings of the lane and link commands (15_lanes.md). Lanes 0 to 95 are HL0 to HL95, 96 to 105 FL0 to
FL9. -/

namespace Sys2Proof.Machine

def FieldSide.lane (f : FieldSide) (i : Nat) : FieldLane := tget FieldLane.reset f.lanes i
def FieldSide.setLane (f : FieldSide) (i : Nat) (v : FieldLane) : FieldSide :=
  { f with lanes := tput FieldLane.reset f.lanes i v }

/-- Loss of signal or of lock begins to be held on a host lane. -/
def HostSide.holdBad (h : HostSide) (l : Nat) : HostSide :=
  { h with lanes := { h.lanes with badAt := if tget 0 h.lanes.badAt l = 0 then tput 0 h.lanes.badAt l (h.tb.raw.toNat + 1)
                                            else h.lanes.badAt } }

/-- LOS rises on a host lane (R341). -/
def HostSide.los (h : HostSide) (l : Nat) : HostSide :=
  if h.flag (Reg.LNE_STATUS_LOS l) then h
  else (((h.put (Reg.LNE_STATUS_LOS l) 1).bump (Reg.LNE_COUNTS_LOS_EVENTS l)).holdBad l).loseLane l

/-- LOL rises on a host lane (R341). -/
def HostSide.lol (h : HostSide) (l : Nat) : HostSide :=
  if h.flag (Reg.LNE_STATUS_LOL l) then h
  else (((h.put (Reg.LNE_STATUS_LOL l) 1).bump (Reg.LNE_COUNTS_LOL_EVENTS l)).holdBad l).loseLane l

/-- The amplitude and the lock return on a host lane (R341, log entry 31). Log entry 31 (DEDUCED). -/
def HostSide.signalBack (h : HostSide) (l : Nat) : HostSide :=
  let h := { h with lanes := { h.lanes with badAt := tput 0 h.lanes.badAt l 0 } }
  (h.put (Reg.LNE_STATUS_LOS l) 0).put (Reg.LNE_STATUS_LOL l) 0

/-- A fault of a field lane begins to be held. -/
def FieldLane.hold (v : FieldLane) (now : DT) : FieldLane := { v with badAt := if v.badAt.isNone then some now else v.badAt }

/-- LANE_LOS (R341, R355, R356). -/
def execLaneLos (lane : Fin 106) (s : State) : Out :=
  if lane.val < 96 then hostCmd s (fun h => h.los lane.val)
  else fieldCmd s (fun f => let v := f.lane (lane.val - 96); f.setLane (lane.val - 96) ({ v with los := true }.hold f.now))

/-- LANE_SIGNAL_RETURN (R341). Log entry 31 (DEDUCED). -/
def execLaneSignalReturn (lane : Fin 106) (s : State) : Out :=
  if lane.val < 96 then hostCmd s (fun h => h.signalBack lane.val)
  else fieldCmd s (fun f => let v := f.lane (lane.val - 96)
                            f.setLane (lane.val - 96) { v with los := false, lol := false, badAt := none })

/-- LANE_LOL (R341, R355, R356). -/
def execLaneLol (lane : Fin 106) (s : State) : Out :=
  if lane.val < 96 then hostCmd s (fun h => h.lol lane.val)
  else fieldCmd s (fun f => let v := f.lane (lane.val - 96); f.setLane (lane.val - 96) ({ v with lol := true }.hold f.now))

/-- LANE_TX_FAULT (R341). -/
def execLaneTxFault (lane : Fin 106) (s : State) : Out :=
  if lane.val < 96 then hostCmd s (fun h => h.put (Reg.LNE_STATUS_TX_FAULT lane.val) 1)
  else fieldCmd s (fun f => let v := f.lane (lane.val - 96); f.setLane (lane.val - 96) { v with txFault := true })

/-- The eye of an UP host lane (R343, R344, R388). -/
def HostSide.eye (h : HostSide) (l w e : Nat) : HostSide :=
  if h.get (Reg.LNE_STATUS_STATE l) ≠ 3 then h
  else
    let h := ((h.put (Reg.LNE_QUALITY_EYE_W l) w).put (Reg.LNE_QUALITY_EYE_H l) e).put (Reg.LNE_QUALITY_VALID l) 1
    let lim := h.eyeLimits l
    let n := if w < lim.1 ∨ e < lim.2 then tget 0 h.lanes.weak l + 1 else 0
    let h := { h with lanes := { h.lanes with weak := tput 0 h.lanes.weak l n } }
    let h := if (n = 3 ∨ !h.codesOk l) ∧ l < 52 then h.swapWeak l else h
    if h.cfg.imageId = 0 then h else h.armSpares

/-- EYE_MEASURE (R343, R388). -/
def execEyeMeasure (lane : Fin 106) (w : BitVec 12) (h : BitVec 12) (s : State) : Out :=
  if lane.val < 96 then hostCmd s (fun x => x.eye lane.val w.toNat h.toNat)
  else fieldCmd s (fun f => let v := f.lane (lane.val - 96)
                            if v.state = 3 then f.setLane (lane.val - 96) { v with eyeW := w.toNat, eyeH := h.toNat } else f)

/-- One tap step within 0 to `top` (R345): the new value and the answer. -/
def tapStep (v top : Nat) : TapStep → Nat × Nat
  | .inc => if v < top then (v + 1, 0) else (v, 2)
  | .dec => if 0 < v then (v - 1, 0) else (v, 1)
  | .hold => (v, 3)

/-- A TRAIN block on a native stitch or twin lane in TRAIN (R345, R354). The taps of a preset are open (log entry 1). -/
def HostSide.trainBlock (h : HostSide) (l : Nat) (b : TrainBlock) : HostSide :=
  match linkOfLane l with
  | none => h
  | some (k, i) =>
    if h.get (Reg.LNE_STATUS_STATE l) ≠ 2 ∨ h.ilm2400 k then h
    else
      let h := match b.preset with
        | some _ =>
          let (p, h) := h.free 16
          let (q, h) := h.free 32
          (((h.put (Reg.LNE_TXEQ_PRE l) p).put (Reg.LNE_TXEQ_POST l) q).send (.train l 0 0))
        | none =>
          let (p, a) := tapStep (h.get (Reg.LNE_TXEQ_PRE l)) 15 b.pre
          let (q, c) := tapStep (h.get (Reg.LNE_TXEQ_POST l)) 31 b.post
          (((h.put (Reg.LNE_TXEQ_PRE l) p).put (Reg.LNE_TXEQ_POST l) q).send (.train l a c))
      if b.ready && b.eyeMet then
        let h := h.put (Reg.LNE_STATUS_STATE l) 3
        if h.linkAlive k then
          h.recover k (setBit (if h.linkUp k then h.get (Reg.STC_STATUS_ACTIVE k) else (h.link k).asked) i)
        else h.endTraining k
      else h

/-- TRAIN_BLOCK_RX (R345, R354, R355). -/
def execTrainBlockRx (lane : Fin 96) (blk : TrainBlock) (s : State) : Out := hostCmd s (fun h => h.trainBlock lane.val blk)

/-- TRAIN_TIMEOUT (R345, R354): the lane is left out of its link. -/
def execTrainTimeout (lane : Fin 96) (s : State) : Out :=
  hostCmd s (fun h =>
    match linkOfLane lane.val with
    | none => h
    | some (k, _) =>
      if h.get (Reg.LNE_STATUS_STATE lane.val) = 2 then (h.put (Reg.LNE_STATUS_STATE lane.val) 4).endTraining k else h)

/-- SPARE_SWAP (R347 to R349, R365): a secure write of SWAP. -/
def execSpareSwap (who : Requester) (spare : Fin 16) (s : State) : Out :=
  regCmd s who (fun h =>
    if !who.isSecure then h.refuseWrite who
    else
      let h := h.answer .none
      if h.flag (Reg.LNE_SPARE_STATUS_ARMED spare.val) then h.triggerLane (h.get (Reg.LNE_SPARE_CTRL_LANE spare.val)) false
      else h)

/-- A fault of R347 stands on a lane: TX_FAULT, or LOS or LOL held for 4 µs. -/
def HostSide.laneFaulty (h : HostSide) (l : Nat) : Bool :=
  let t := tget 0 h.lanes.badAt l
  h.flag (Reg.LNE_STATUS_TX_FAULT l) || (t != 0 && decide (t - 1 + 1600 ≤ h.tb.raw.toNat))

/-- SPARE_AUTO_TRIGGER (R347 to R349). -/
def execSpareAutoTrigger (spare : Fin 16) (s : State) : Out :=
  hostCmd s (fun h =>
    let l := h.get (Reg.LNE_SPARE_CTRL_LANE spare.val)
    if h.flag (Reg.LNE_SPARE_STATUS_ARMED spare.val) && h.flag (Reg.LNE_SPARE_CTRL_AUTO spare.val) && h.laneFaulty l
    then h.triggerLane l true else h)

/-- FIELD_LANE_SWAP (R350, R388): FL8 for FP0 to FP3, FL9 for FP4 to FP7, once the port's fault has been held for
1 ms. -/
def execFieldLaneSwap (spare : Fin 2) (port : Fin 8) (s : State) : Out :=
  fieldCmd s (fun f =>
    let v := f.lane port.val
    let used := (List.range 8).any (fun p => (f.lane p).spare == some (8 + spare.val))
    let held := match v.badAt with | some t => decide (1000000 ≤ dtDiff f.now t) | none => false
    if port.val / 4 == spare.val && !used && v.spare.isNone && held then
      (f.setLane port.val { v with state := 4, spare := some (8 + spare.val) }).setLane (8 + spare.val)
        { f.lane (8 + spare.val) with state := 3 }
    else f)

/-- MARKER_RX (R351, R354, R337): the marker that is due on a lane names a lane number, or is missing. In ALIGN it aligns
the lane or leaves it out; on a link that carries cells, a lane whose marker is missing twice in succession or names another
lane is lost. -/
def execMarkerRx (lane : Fin 96) (number : Option (Fin 4)) (s : State) : Out :=
  hostCmd s (fun h =>
    match linkOfLane lane.val with
    | none => h
    | some (k, i) =>
      if h.get (Reg.STC_STATUS_STATE k) = 3 then
        (if h.get (Reg.LNE_STATUS_STATE lane.val) = 3 then h.alignMarker k i (number.map (·.val)) else h)
      else
        let l := h.link k
        let n := if number.isSome then 0 else tget 0 l.misses i + 1
        let lost := n == 2 || (number.map (fun x => x.val != i)).getD false
        let h := h.setLink k { l with misses := tput 0 l.misses i (if lost then 0 else n) }
        if lost then h.loseLane lane.val else h)

/-- CREDIT_BLOCK_RX (R353). -/
def execCreditBlockRx (link : Fin 6) (blk : CreditBlock) (s : State) : Out :=
  hostCmd s (fun h =>
    if h.linkAlive link.val then
      let h := (h.setLink link.val { h.link link.val with credited := blk.count.toNat }).showCredits link.val
      if 4 ≤ link.val then h.pumpTwin 256 else h
    else h)

/-- RECOVER_RX (R355, R356). -/
def execRecoverRx (link : Fin 6) (blk : RecoverBlock) (s : State) : Out :=
  hostCmd s (fun h =>
    if h.linkAlive link.val then h.onRecover link.val blk.mask.toNat blk.lastGood.toNat blk.free.val else h)

/-- WIDTH_ACK_RX (R355, R356). -/
def execWidthAckRx (link : Fin 6) (blk : RecoverBlock) (s : State) : Out :=
  hostCmd s (fun h => h.onWidthAck link.val blk.mask.toNat)

/-- LINK_RETRAIN (R354, R365): the wired lanes that are not active train; the link stays UP. In ILM-2400 mode a lane needs no
training and joins at once (R346). -/
def execLinkRetrain (who : Requester) (link : Fin 6) (s : State) : Out :=
  regCmd s who (fun h =>
    if !who.isSecure then h.refuseWrite who
    else
      let h := h.answer .none
      if !h.linkUp link.val then h
      else (List.range 4).foldl (fun h i =>
        if bit (h.wired link.val) i && !bit (h.get (Reg.STC_STATUS_ACTIVE link.val)) i
        then
          (if h.ilm2400 link.val then
            (h.put (Reg.LNE_STATUS_STATE (laneOfLink link.val i)) 3).recover link.val
              (setBit (if h.linkUp link.val then h.get (Reg.STC_STATUS_ACTIVE link.val) else (h.link link.val).asked) i)
          else h.put (Reg.LNE_STATUS_STATE (laneOfLink link.val i)) 2)
        else h) h)

/-- LINK_UP (R354, R353). -/
def execLinkUp (link : Fin 6) (s : State) : Out := hostCmd s (fun h => h.bringUp link.val)

/-- PEER_HEALTH on each UP stitch link, every 10 ms (R363). -/
def HostSide.peerHealth (h : HostSide) : HostSide :=
  if h.tb.due h.lanes.peerAt 4000000 then
    (List.range 4).foldl (fun h k => h.sendMessage k 4 (leBytes (b2n h.tb.syncOk + 2 * h.get Reg.SIM_STATUS_UNQUALIFIED +
      16 * h.get Reg.SYS_STRAPS_TARGET) 8)) ({ h with lanes := { h.lanes with peerAt := h.tb.raw.toNat + 1 } })
  else h

/-- PEER_HEALTH_SEND (R363). -/
def execPeerHealthSend (s : State) : Out := hostCmd s (·.peerHealth)

/-- LANE_DORMANT_EXIT (R340, R342, R348): a lane that is wanted has left DORMANT or ended its calibration: a link's lane
trains, any other is UP, and a spare that was triggered carries its lane's role. -/
def execLaneDormantExit (lane : Fin 96) (s : State) : Out :=
  hostCmd s (fun h =>
    let l := lane.val
    let st := h.get (Reg.LNE_STATUS_STATE l)
    if !h.laneWanted l then h
    else match linkOfLane l with
      | some (k, _) =>
        if st ≠ 0 ∧ st ≠ 1 then h
        else if h.ilm2400 k then (h.put (Reg.LNE_STATUS_STATE l) 3).endTraining k
        else
          let h := h.put (Reg.LNE_STATUS_STATE l) 2
          if h.get (Reg.STC_STATUS_STATE k) = 1 then h.setLinkState k 2 else h
      | none =>
        if st ≠ 0 then h
        else
          let h := h.put (Reg.LNE_STATUS_STATE l) 3
          if 80 ≤ l ∧ tget 0 h.lanes.waking (l - 80) ≠ 0 then h.spareCarries (l - 80) (tget 0 h.lanes.waking (l - 80) - 1) else h)

end Sys2Proof.Machine
end

