-- ==== Sys2Proof/Machine/Mimic.lean ====
section
/-! DEFINITION. Meanings of the commands of the symbol engine and of the replica (07_mimic.md; 10_field_points_commands.md
R236). -/

namespace Sys2Proof.Machine

/-- MIMIC_BATCH (R177). -/
def execMimicBatch (s : State) : Out := hostCmd s (fun h => h.startBatch)

/-- WIDGET_DRAWN (R177, R181). -/
def execWidgetDrawn (facts : DrawFacts) (s : State) : Out := hostCmd s (fun h => h.drawn facts)

/-- MIMIC_DRAW_COMPLETE (R182). -/
def execMimicDrawComplete (facts : FreshFacts) (s : State) : Out := hostCmd s (fun h => h.completeDrawing facts)

/-- WIDGET_PROBE (R184). -/
def execWidgetProbe (who : Requester) (v : Word) (s : State) : Out :=
  regCmd s who (fun h => ((h.answer .none).put Reg.MIM_WIDGET_PROBE_WIDGET v.toNat).showWidget)

/-- CELL_PROBE (R184). -/
def execCellProbe (who : Requester) (v : Word) (s : State) : Out :=
  regCmd s who (fun h => (((h.answer .none).put Reg.MIM_CELL_PROBE_SURFACE v.toNat).put Reg.MIM_CELL_PROBE_CELL
    (v.toNat / 2 ^ 16)).showCell)

/-- POINT_BATCH_RX: every record of the batch is written and the batch goes to the symbol engine (R236, R177).
Log entry 56 (DEDUCED). -/
def execPointBatchRx (s : State) : Out :=
  hostCmd s (fun h =>
    match h.xing.batches with
    | [] => h
    | (arrived, cells) :: rest =>
      let h := { h with xing := { h.xing with batches := rest } }
      if h.cfg.points.isNone then h
      else
        let es := batchEntries cells
        let h := es.foldl (fun h e => h.writeEntry arrived e) h
        let b : Batch := ⟨es.map (fun e => bits (fieldAt e 0 4) 0 18), h.tb.raw.toNat⟩
        ({ h with mimic := { h.mimic with queue := h.mimic.queue ++ [b] } }).showMimic)

end Sys2Proof.Machine
end

