-- ==== Sys2Proof/Machine/Power.lean ====
section
/-! DEFINITION. Meanings of the power, reset, start-up, thermal and firmware commands (18_module_electrical.md). -/

namespace Sys2Proof.Machine

/-! ## Supplies (R412, R413) -/

/-- A side's physical part when its supply comes into range: the reset pin is asserted until it is released (R413). -/
def SidePhys.powerOn (p : SidePhys) : SidePhys :=
  { p with supply := .inRange, rstPin := true, tripHeld := false, tripped := false, firstReset := true }

/-- A side's physical part with its supply out of range: a thermal hold ends (R419). Log entry 114 (DESIGN CHOICE). -/
def SidePhys.powerOff (p : SidePhys) : SidePhys := { p with supply := .outOfRange, tripHeld := false, tripped := false }

/-- HOST_POWER_ON (R412): the central store holds nothing known (log entry 3). -/
def execHostPowerOn (s : State) : Out :=
  if s.phys.hostPhys.supply = .inRange then .next s
  else
    let s := s.hostDown
    .next { s with
      host := { s.host with store := (HostSide.start.mapAfterReset s.phys.retired).store }
      phys := { s.phys with hostPhys := s.phys.hostPhys.powerOn } }

/-- HOST_POWER_OFF (R413): the side's logic fails, as it may at any time while its supply is out of range, and until it is
powered and reset it does nothing. Log entry 114 (DESIGN CHOICE). -/
def execHostPowerOff (s : State) : Out :=
  let s := s.hostDown
  .next { s with phys := { s.phys with hostPhys := s.phys.hostPhys.powerOff } }

/-- FIELD_POWER_ON (R412). -/
def execFieldPowerOn (s : State) : Out :=
  if s.phys.fieldPhys.supply = .inRange then .next s
  else
    let s := s.fieldDown
    .next { s with
      field := { s.field with faultPin := false }
      phys := { s.phys with fieldPhys := s.phys.fieldPhys.powerOn } }

/-- FIELD_POWER_OFF (R413). Log entry 114 (DESIGN CHOICE). -/
def execFieldPowerOff (s : State) : Out :=
  let s := s.fieldDown
  .next { s with
    field := { s.field with faultPin := false }
    phys := { s.phys with fieldPhys := s.phys.fieldPhys.powerOff } }

/-! ## Reset pins (R415, R417, R419) -/

/-- A thermal hold ends once the pin has been held for 1 ms with the die below 110 °C (R419).
Log entry 211 (DEDUCED). -/
def SidePhys.holdPin (p : SidePhys) (us : Nat) : SidePhys :=
  { p with rstPin := true, tripHeld := p.tripHeld && !(decide (1000 ≤ us) && decide (p.temp < 110)) }

/-- HOST_RST_ASSERT (R417, R419): it takes effect after 10 µs. -/
def execHostRstAssert (holdUs : Nat) (s : State) : Out :=
  let s := if 10 ≤ holdUs ∧ s.host.run then s.hostDown else s
  .next { s with phys := { s.phys with hostPhys := s.phys.hostPhys.holdPin holdUs } }

/-- HOST_RST_RELEASE (R415, R417, R428): the straps are sampled as the side leaves reset. -/
def execHostRstRelease (slot : Fin 4) (role : Bool) (s : State) : Out :=
  let p := s.phys.hostPhys
  let s := { s with phys := { s.phys with slotPin := slot.val, rolePin := role, hostPhys := { p with rstPin := false } } }
  if s.host.run ∨ p.tripHeld ∨ p.supply = .outOfRange then .next s
  else
    let h := s.host.leaveReset slot.val role p.firstReset true false p.tripped
    .next { s with
      host := { h with pcieUp := !s.phys.perst }
      phys := { s.phys with hostPhys := { s.phys.hostPhys with firstReset := false, tripped := false } } }

/-- FIELD_RST_ASSERT (R417, R419). -/
def execFieldRstAssert (holdUs : Nat) (s : State) : Out :=
  let s := if 10 ≤ holdUs ∧ s.field.run then s.fieldDown else s
  let p := s.phys.fieldPhys.holdPin holdUs
  .next { s with
    field := { s.field with faultPin := s.field.faultPin && (s.field.run || p.tripHeld) }
    phys := { s.phys with fieldPhys := p } }

/-- FIELD_RST_RELEASE (R415, R417, R426). -/
def execFieldRstRelease (role : Bool) (s : State) : Out :=
  let p := s.phys.fieldPhys
  let s := { s with phys := { s.phys with fieldRolePin := role, fieldPhys := { p with rstPin := false } } }
  if s.field.run ∨ p.tripHeld ∨ p.supply = .outOfRange then .next s
  else .next { s with
    field := s.field.leaveReset role
    phys := { s.phys with fieldPhys := { s.phys.fieldPhys with firstReset := false, tripped := false } } }

/-- PCIE_PERST (R417): the endpoint alone, its MSI-X table with it, is reset. -/
def execPciePerst (asserted : Bool) (s : State) : Out :=
  let s := { s with phys := { s.phys with perst := asserted } }
  if s.host.run then
    .next { s with host := if asserted then { s.host with pcieUp := false, msix := [], msixPend := [] }
                           else { s.host with pcieUp := true } }
  else .next s

/-! ## Start-up (R422 to R426) -/

/-- The work of step `n` has ended (R422 to R425). At step 12 host Uliska asks the field side for its strap. -/
def State.endStep (s : State) (n : Nat) (work : StepWork) : State :=
  let role := if s.field.run && decide (2 ≤ s.host.xing.state) then some s.field.role else none
  let h := if n < 9 then s.host.earlyStepDone s.phys.hostPhys n work else s.host.lateStepDone role n
  let retired := if n = 7 ∧ s.phys.retired.isNone ∧ work.failedChannels.length = 1 then
      work.failedChannels.head?.map (·.val) else s.phys.retired
  { s with host := h, phys := { s.phys with retired := retired } }

/-- STARTUP_STEP_DONE (R422 to R425): a step that has exceeded its bound does not end. Log entry 122 (DESIGN CHOICE). -/
def execStartupStepDone (work : StepWork) (s : State) : Out :=
  hostState s (fun s =>
    match s.host.bootStep with
    | none => s
    | some n =>
      if s.host.stepLate s.phys.hostPhys n then { s with host := s.host.stepTimeout s.phys.hostPhys } else s.endStep n work)

/-- STARTUP_STEP_TIMEOUT (R422). -/
def execStartupStepTimeout (s : State) : Out :=
  hostState s (fun s => { s with host := s.host.stepTimeout s.phys.hostPhys })

/-- FIELD_STARTUP_STEP_DONE (R426). -/
def execFieldStartupStepDone (work : StepWork) (s : State) : Out :=
  fieldState s (fun s => { s with field := s.field.stepDone s.phys.fieldPhys work })

/-! ## Temperature (R419) -/

/-- The physical part of a side. -/
def State.sidePhys (s : State) (side : Side) : SidePhys :=
  match side with
  | .host => s.phys.hostPhys
  | .field => s.phys.fieldPhys

/-- A die's temperature. -/
def State.setTemp (s : State) (side : Side) (t : Int) : State :=
  { s with phys := match side with
      | .host => { s.phys with hostPhys := { s.phys.hostPhys with temp := t } }
      | .field => { s.phys with fieldPhys := { s.phys.fieldPhys with temp := t } } }

/-- THERMAL_TRIP (R419): a die reaches 125 °C; one without supply trips nothing. -/
def execThermalTrip (side : Side) (s : State) : Out :=
  if (s.sidePhys side).supply = .outOfRange then .next s else .next ((s.trip side).setTemp side 125)

/-- SYS.TEMP takes a host measurement; HOST_MAX keeps the highest as a signed value. Log entry 116 (DEDUCED). -/
def HostSide.measureTemp (h : HostSide) (t : BitVec 8) : HostSide :=
  let h := h.put Reg.SYS_TEMP_HOST t.toNat
  if signed (h.get Reg.SYS_TEMP_HOST_MAX) 8 < t.toInt then h.put Reg.SYS_TEMP_HOST_MAX t.toNat else h

/-- A side that runs shows what its die measures. -/
def State.showTemp (s : State) (side : Side) (t : BitVec 8) : State :=
  match side with
  | .host => { s with host := if s.host.run then s.host.measureTemp t else s.host }
  | .field => { s with field := if s.field.run then { s.field with temp := t.toInt } else s.field }

/-- TEMP_MEASURE (R419): a die in reset measures too, one without supply does not; a die at 125 °C or above trips. -/
def execTempMeasure (side : Side) (temp : BitVec 8) (s : State) : Out :=
  if (s.sidePhys side).supply = .outOfRange then .next s
  else
    let t := (s.setTemp side temp.toInt).showTemp side temp
    .next (if 125 ≤ temp.toInt then t.trip side else t)

/-! ## Soft resets (R418) -/

/-- A field reset that host Uliska requests: doorbell 5 is rung; while the crossing is DOWN the request is ignored.
Log entry 55 (DEDUCED). -/
def HostSide.requestFieldReset (h : HostSide) : HostSide := if h.xing.state = 0 then h else h.ring 5

/-- SOFT_RESET_HOST (R418). -/
def execSoftResetHost (who : Requester) (s : State) : Out :=
  regState s who (fun s => ({ s with host := s.host.answer .none }).softHost)

/-- SOFT_RESET_FIELD (R418). -/
def execSoftResetField (who : Requester) (s : State) : Out :=
  regCmd s who (fun h => (h.answer .none).requestFieldReset)

/-- SOFT_RESET_BOTH (R418): the doorbell has reached the field side before the host reset takes effect.
Log entries 54 (DEDUCED), 55 (DEDUCED). -/
def execSoftResetBoth (who : Requester) (s : State) : Out :=
  regState s who (fun s =>
    let s := { s with host := s.host.answer .none }
    (if s.host.xing.state = 0 ∨ s.field.run = false then s else s.softField).softHost)

/-! ## Firmware (R421) -/

/-- FW_WRITE_HOST (R421). -/
def execFwWriteHost (who : Requester) (s : State) : Out := regCmd s who (fun h => (h.answer .none).fwGo 1)

/-- FW_WRITE_FIELD (R421). -/
def execFwWriteField (who : Requester) (s : State) : Out := regCmd s who (fun h => (h.answer .none).fwGo 2)

/-- FW_SELECT_HOST (R421). -/
def execFwSelectHost (who : Requester) (s : State) : Out := regCmd s who (fun h => (h.answer .none).fwGo 3)

/-- FW_OP_COMPLETE (R420, R421). Log entry 119 (DEDUCED). -/
def execFwOpComplete (found : FwFindings) (s : State) : Out := hostState s (fun s => s.fwComplete found)

end Sys2Proof.Machine
end

