-- ==== Sys2Proof/Machine/StitchOps.lean ====
section
/-! DEFINITION. Stitch sends (15_lanes.md R359) and the checks that every link cell meets at its receiver (R352, R353, R355,
03_structure_image.md R75). -/

namespace Sys2Proof.Machine

/-! ## Stitch sends (R359) -/

def HostSide.sendState (h : HostSide) (i : Nat) : SendState := tget SendState.idle h.lanes.sends i
def HostSide.setSend (h : HostSide) (i : Nat) (v : SendState) : HostSide :=
  { h with lanes := { h.lanes with sends := tput SendState.idle h.lanes.sends i v } }

/-- The slices of a head that meet a send rectangle: first and last. -/
def SendEntry.slices (e : SendEntry) : Nat × Nat := (e.y / 32, (e.y + e.h - 1) / 32)

/-- The coded tiles of a slice that lie in the rectangle, in ascending order. -/
def HostSide.sendTiles (h : HostSide) (e : SendEntry) (p : Plan) (s : Nat) : List Byte :=
  let top := max (e.y / 4) (8 * s)
  let stop := min ((e.y + e.h) / 4) (8 * s + 8)
  let w := p.time.entry.hActive
  match h.ringCa e.head w (ringSlotOf p s) with
  | none => []
  | some ca => (List.range (stop - top)).flatMap (fun j => (List.range (e.w / 8)).flatMap (fun i =>
      h.store.bytes (ringTileCa w ca (e.x / 8 + i) (top + j - 8 * s)) 64))

/-- DATA payloads: of 1,024 bytes, at the end of a transfer possibly shorter; and the bytes that wait.
Log entry 176 (DEDUCED). -/
def dataCells (last : Bool) : Nat → List Byte → List (List Byte) × List Byte
  | 0, bs => ([], bs)
  | n + 1, bs =>
    if 1024 ≤ bs.length then
      let (l, rest) := dataCells last n (bs.drop 1024)
      (bs.take 1024 :: l, rest)
    else if last && !bs.isEmpty then ([bs], [])
    else ([], bs)

/-- The frame and slice that a send entry reads next: the frame in progress, or the newest frame that has started.
Log entry 176 (DEDUCED). -/
def HostSide.sendNext (h : HostSide) (e : SendEntry) (v : SendState) : Option (Plan × SendState) :=
  let hd := h.head e.head
  let fresh := match hd.plan hd.started with
    | some p => if v.frame < p.no then some (p, { SendState.idle with frame := p.no, next := e.slices.1 }) else none
    | none => none
  if v.frame ≠ 0 ∧ v.next ≤ e.slices.2 then
    match hd.plan v.frame with
    | some p => some (p, v)
    | none => fresh
  else fresh

/-- A slice is read and its cells are sent; a slice lost to the reader ends the transfer without END. It waits while
credits for its cells are missing. Log entry 176 (DEDUCED). -/
def HostSide.stitchSend (h : HostSide) (i : Nat) : HostSide :=
  match h.cfg.stitch.bind (fun c => c.sends[i]?) with
  | none => h
  | some e =>
    match h.sendNext e (h.sendState i) with
    | none => h
    | some (p, v) =>
      let (slot, read) := h.readSlot e.head p v.next
      match slot with
      | none => read.setSend i { v with next := e.slices.2 + 1, carry := [] }
      | some r =>
        let last := v.next == e.slices.2
        let bytes := v.carry ++ h.sendTiles e p v.next
        let (cells, carry) := dataCells last (bytes.length + 1) bytes
        let need := cells.length + b2n last
        if !h.linkUp e.link ∨ h.get (Reg.STC_CREDITS_TX_CREDITS e.link) < need then h
        else
          let tag := r.tag.encode
          let (h, total) := cells.foldl (fun (x : HostSide × Nat) c =>
            ((x.1.sendLink e.link (x.1.cellHeader 1 r.worst c.length tag p.f e.region (x.2 / 8)) c).1, x.2 + c.length))
            (h, v.offset)
          let v := { v with
            next := v.next + 1
            offset := total
            tags := v.tags ++ [r.tag]
            worst := worse v.worst r.worst
            carry := carry }
          let h := h.setSend i v
          if last then
            (h.sendLink e.link (h.cellHeader 2 v.worst 0 (combine v.tags).encode p.f e.region (total / 8)) []).1
          else h

/-! ## Cells at their receiver (R352, R353, R355) -/

/-- A cell is well formed: its length, its CRC and its TYPE. Log entry 174 (DEDUCED). -/
def cellSound (c : List Byte) : Bool :=
  let len := fieldAt c 2 2
  decide (40 ≤ c.length ∧ len ≤ 1024) && c.length == 40 + len &&
    (crc32c (c.take 36 ++ c.drop 40)).toNat == fieldAt c 36 4

/-- What a receiver finds of a cell: a failed CRC, a cell that it holds already, one out of order, or the next one. -/
inductive CellFate where
  | damaged | held | early | next_
  deriving DecidableEq, Repr

/-- What becomes of a received cell. Log entry 174 (DEDUCED). -/
def HostSide.cellFate (h : HostSide) (k : Nat) (c : List Byte) : CellFate :=
  if !cellSound c then .damaged
  else
    let d := signed (fieldAt c 4 4 + 2 ^ 32 - (h.link k).lastGood) 32
    if d = 1 then .next_ else if d ≤ 0 then .held else .early

/-- A cell is taken and its buffer freed: a CREDIT block follows. Log entries 174 (DEDUCED), 175 (DEDUCED). -/
def HostSide.freeCell (h : HostSide) (k : Nat) (lseq : Nat) : HostSide :=
  let v := h.link k
  let n := (v.freed + 1) % 65536
  (h.setLink k { v with lastGood := lseq, freed := n }).send (.credit k n)

/-- The TARGET code of the peer at the other end of a stitch link (01_architecture.md R20). -/
def HostSide.peerOf (h : HostSide) (k : Nat) : Nat :=
  let own := h.ownTarget
  own / 4 * 4 + (own % 4 + k + 1) % 4

/-- More than 1 ms has passed since the last switch instant (R75). -/
def HostSide.settledId (h : HostSide) : Bool :=
  match h.stage.lastSwitch with
  | some t => decide (1000000 ≤ dtDiff h.now t)
  | none => false

/-- SIM.STATUS.SPLIT and its events follow a peer's active ID (R75). Log entry 173 (DEDUCED). -/
def HostSide.judgeSplit (h : HostSide) (peer id : Nat) : HostSide :=
  let differs := id != h.activeId
  let was := bit h.stage.splitPeers peer
  if differs && !was && h.settledId then
    let h := { h with stage := { h.stage with splitPeers := setBit h.stage.splitPeers peer } }
    (h.put Reg.SIM_STATUS_SPLIT 1).log 6 2 peer
  else if !differs && was then
    let h := { h with stage := { h.stage with splitPeers := clrBit h.stage.splitPeers peer } }
    (h.putB Reg.SIM_STATUS_SPLIT (h.stage.splitPeers != 0)).log 6 3 peer
  else h

/-- The tag of a stitch cell as the receiver takes it (02_freshness.md R31).
A CLASS of 0b11 is kept. Log entries 79 (DESIGN CHOICE), 173 (DEDUCED), 177 (DEDUCED), 228 (DESIGN CHOICE). -/
def HostSide.stitchTag (h : HostSide) (k : Nat) (c : List Byte) : Tag :=
  let t := Tag.decode (fieldAt c 16 8)
  if (h.link k).peerSync then t else { t with cls := 2 }

/-- A DATA or END cell (R360, R361). Log entry 177 (DEDUCED). -/
def HostSide.stitchCell (h : HostSide) (k : Nat) (c : List Byte) : HostSide :=
  let id := fieldAt c 8 8
  let h := h.putB (Reg.STC_STATUS_ID_MATCH k) (id == h.activeId)
  if id ≠ h.activeId ∧ h.settledId then h.bump (Reg.STC_ERRORS_ID_DISCARD k)
  else
    let r := fieldAt c 28 1
    if (h.recvEntry r).map (·.link) ≠ some k then h
    else if fieldAt c 0 1 = 1 then h.stitchData r (fieldAt c 24 4) (8 * fieldAt c 29 3) (c.drop 40)
    else h.stitchEnd r (fieldAt c 24 4) (8 * fieldAt c 29 3) (h.stitchTag k c) (bits (fieldAt c 1 1) 0 3)

/-- A PEER_HEALTH cell (R363). Log entry 173 (DEDUCED). -/
def HostSide.peerHealthCell (h : HostSide) (k : Nat) (p : List Byte) : HostSide :=
  let v := fieldAt p 0 1
  (h.setLink k { h.link k with peerSync := bit v 0, peerUnqualified := bit v 1, peerTarget := bits v 4 4 }).putB
    (Reg.STC_STATUS_PEER_SYNC_OK k) (bit v 0)

end Sys2Proof.Machine
end

