-- ==== Sys2Proof/Machine/TwinOps.lean ====
section
/-! DEFINITION. The Twill pair (16_twin_repair.md): the interlock (R369 to R374), twin messages (R376, R377) and
resynchronisation (R380 to R383). -/

namespace Sys2Proof.Machine

/-! ## The interlock (R369 to R374) -/

/-- INTLK_OUT falls: a standby from now on (R372). Log entry 184 (DEDUCED). -/
def FieldSide.dropLine (f : FieldSide) : FieldSide :=
  { f with il := { f.il with
      out := false
      contention := none
      release := none
      fell := false
      standbyAt := f.now } }

/-- A note waits for the next link cell to the host side; none is kept while the crossing is DOWN (11_crossing.md R262).
Log entry 217 (DESIGN CHOICE). -/
def FieldSide.note (f : FieldSide) (n : FieldNote) : FieldSide :=
  if f.xing.state = 0 then f else { f with xing := { f.xing with notes := f.xing.notes ++ [n] } }

/-- INTLK_OUT falls; a release in progress is complete, and the host side is told (R374, R391). Log entry 184 (DEDUCED). -/
def FieldSide.withdraw (f : FieldSide) : FieldSide :=
  if f.il.release.isSome then f.dropLine.note .released else f.dropLine

/-- INTLK_OUT rises: the contention window begins (R369). -/
def FieldSide.raiseLine (f : FieldSide) : FieldSide :=
  { f with il := { f.il with out := true, contention := some f.now, fell := false, blocked := false } }

/-- Time since an instant, `since` where there has been none. Log entry 182 (DEDUCED). -/
def elapsed (now : DT) (at_ : Option DT) (since : DT) : Int := dtDiff now (at_.getD since)

/-- Doorbell 2 has not been rung for 250 µs (R372). Log entry 182 (DEDUCED). -/
def FieldSide.partnerSilent (f : FieldSide) : Bool := decide (250000 ≤ elapsed f.now f.il.bell2 0)

/-- The condition under which an eligible standby asserts (R372). Log entry 182 (DEDUCED). -/
def FieldSide.mayAssert (f : FieldSide) : Bool :=
  let low := dtDiff f.now f.il.inLowAt
  !f.il.out && !f.il.in_ && f.eligible &&
    ((f.il.fell && decide (10000 ≤ low)) || f.partnerSilent ||
      decide (250000 ≤ low ∧ 250000 ≤ dtDiff f.now f.il.standbyAt))

/-- A standby whose partner is silent while INTLK_IN stays asserted: TAKEOVER_BLOCKED is logged once, and the host side is told
(R372, 03_structure_image.md Table 03.20). Log entry 183 (DEDUCED). -/
def FieldSide.noteBlocked (f : FieldSide) : FieldSide :=
  if f.run && !f.il.out && f.il.in_ && f.partnerSilent && !f.il.blocked then
    (({ f with il := { f.il with blocked := true } }).logEvent 3 0 0).note .blocked
  else f

/-- Every launch queue is empty, or a release has lasted 5 ms (R374). Log entry 182 (DEDUCED). -/
def FieldSide.releaseOver (f : FieldSide) : Bool :=
  match f.il.release with
  | some t => (List.range 8).all (fun p => (tget [] f.work.queues p).isEmpty) || decide (5000000 ≤ dtDiff f.now t)
  | none => false

/-! ## Heartbeats and HEALTH (R376, R377, Table 16.3) -/

/-- Faulted units: engines, decoder cores and encoder cores. -/
def HostSide.faultedMask (h : HostSide) : Nat :=
  let set (m i : Nat) (f : Fld) : Nat := if h.flag f then setBit m i else m
  let m := (List.range 9).foldl (fun m e => set m e (Reg.CMP_ENGINE_STATUS_FAULTED e)) 0
  let m := (List.range 9).foldl (fun m c => set m (9 + c) (Reg.DEC_CORE_STATUS_FAULTED c)) m
  (List.range 2).foldl (fun m c => set m (18 + c) (Reg.ENC_CORE_STATUS_FAULTED c)) m

/-- SYS.INVAR_STATUS. -/
def HostSide.invarWord (h : HostSide) : Nat :=
  let flags := [Reg.SYS_INVAR_STATUS_TRT_CREDIT, Reg.SYS_INVAR_STATUS_SLOT, Reg.SYS_INVAR_STATUS_LEASE,
    Reg.SYS_INVAR_STATUS_REF_TOKEN, Reg.SYS_INVAR_STATUS_LINK_CREDIT, Reg.SYS_INVAR_STATUS_HEAD_SLOT,
    Reg.SYS_INVAR_STATUS_PAGE, Reg.SYS_INVAR_STATUS_DRAM_TXN]
  (flags ++ [Reg.SYS_INVAR_STATUS_FIRST_INST, Reg.SYS_INVAR_STATUS_FIRST_QTY, Reg.SYS_INVAR_STATUS_VALID]).foldl
    (fun n f => n + 2 ^ f.lo * h.get f) 0

/-- Every UP lane has figures and they meet Table 15.2. Log entry 185 (DEDUCED). -/
def HostSide.lanesGood (h : HostSide) : Bool :=
  (List.range 96).all (fun l => h.get (Reg.LNE_STATUS_STATE l) != 3 ||
    (h.flag (Reg.LNE_QUALITY_VALID l) && decide ((h.eyeLimits l).1 ≤ h.get (Reg.LNE_QUALITY_EYE_W l) ∧
      (h.eyeLimits l).2 ≤ h.get (Reg.LNE_QUALITY_EYE_H l))))

/-- SELFTEST (Table 16.4). Log entries 167 (DEDUCED), 185 (DEDUCED). -/
def HostSide.selftest (h : HostSide) : Nat :=
  b2n h.twin.cePassed + 2 * b2n h.twin.dcPassed + 4 * b2n h.twin.dryPassed + 8 * b2n h.lanesGood +
    16 * b2n (h.invarWord % 256 == 0)

/-- A HEARTBEAT on one twin link, if it is UP and has a credit. HB_SEQ counts each one sent.
Log entry 178 (DEDUCED). -/
def HostSide.sendHeartbeat (h : HostSide) (k : Nat) : HostSide :=
  let n := (h.twin.hbSeq + 1) % 2 ^ 32
  let flags := b2n h.twin.releasing + 2 * h.get Reg.TWN_STATUS_ROLE + 4 * h.get Reg.SIM_STATUS_UNQUALIFIED +
    8 * h.get Reg.TWN_CTRL_ELIGIBLE
  let p := leBytes 1 1 ++ leBytes flags 1 ++ leBytes 0 2 ++ leBytes n 4 ++ leBytes h.now.toNat 8
  let (h', ok) := h.sendLink k (h.cellHeader 5 0 p.length 0 0 0 0) p
  if ok then { h' with twin := { h'.twin with hbSeq := n } } else h

/-- A KICK (R376): a HEARTBEAT on each UP twin link, and doorbell 0. -/
def HostSide.kick (h : HostSide) : HostSide := ((h.sendHeartbeat 4).sendHeartbeat 5).ring 0

/-- Watch tiles with a verdict of this module's own raising: layer, tile and vintage. -/
def HostSide.ownVerdicts (h : HostSide) : List (Nat × Nat × VT) :=
  (h.fresh.tiles.filter (fun x => x.2.verdict)).map (fun x => (x.1 / 4, x.1 % 4, x.2.raisedAt))

/-- VERDICTS payloads of at most 127 entries. -/
def verdictCells (seq : Nat) : Nat → List (Nat × Nat × VT) → List (List Byte)
  | 0, _ => []
  | n + 1, vs =>
    match vs with
    | [] => []
    | vs =>
      let some_ := vs.take 127
      (leBytes 3 1 ++ leBytes 0 1 ++ leBytes some_.length 2 ++ leBytes seq 4 ++
        some_.flatMap (fun v => leBytes (v.1 + 1024 * v.2.1) 4 ++ leBytes v.2.2.toNat 4)) :: verdictCells seq n (vs.drop 127)

/-- A HEALTH message with its VERDICTS (R376), on TL0 if it is UP and otherwise on TL1. Log entry 178 (DEDUCED). -/
def HostSide.twinHealth (h : HostSide) : HostSide :=
  if !h.linkUp 4 && !h.linkUp 5 then h
  else
    let seq := (h.twin.healthSeq + 1) % 2 ^ 32
    let h := { h with twin := { h.twin with healthSeq := seq, healthAt := h.tb.raw.toNat + 1 } }
    let cells := verdictCells seq 33 h.ownVerdicts
    let flags := h.get Reg.TWN_STATUS_ROLE + 2 * h.get Reg.SIM_STATUS_UNQUALIFIED + 4 * b2n h.tb.syncOk +
      8 * h.get Reg.TWN_STATUS_AUTHORITY + 16 * h.get Reg.TWN_STATUS_INTLK_IN + 32 * b2n (h.get Reg.TWN_RESYNC_STATE == 2)
    let h := h.sendTwin (leBytes 2 1 ++ leBytes flags 1 ++ leBytes cells.length 2 ++
      leBytes (h.get Reg.SIM_TUPLE2_HOST_BUILD) 4 ++ leBytes (h.get Reg.SIM_TUPLE3_FIELD_BUILD) 4 ++ leBytes h.invarWord 4 ++
      leBytes h.activeId 8 ++ leBytes h.faultedMask 4 ++ leBytes h.selftest 4 ++ leBytes seq 4 ++ leBytes 0 28)
    cells.foldl (fun h c => h.sendTwin c) h

/-- A partner message shows its ROLE (R377). -/
def HostSide.checkRole (h : HostSide) (role : Bool) : HostSide :=
  if b2n role = h.get Reg.TWN_STATUS_ROLE ∧ !h.flag Reg.TWN_STATUS_ROLE_CONFLICT then
    (h.put Reg.TWN_STATUS_ROLE_CONFLICT 1).log 8 1 0
  else h

/-- TWN.HB_AGE: µs since the last partner heartbeat (R393). Log entry 190 (DEDUCED). -/
def HostSide.showAge (h : HostSide) : HostSide :=
  match h.twin.heard with
  | some t => h.put Reg.TWN_HB_AGE_US (min 0xFFFFFF ((dtDiff h.now t).toNat / 1000))
  | none => h

/-- A partner HEARTBEAT (R370, R376, R377, R393). -/
def HostSide.heartbeat (h : HostSide) (flags : Nat) : HostSide :=
  let h := { h with twin := { h.twin with heard := some h.now } }
  let h := (h.put Reg.TWN_STATUS_HB_OK 1).putB Reg.TWN_STATUS_PARTNER_RELEASE (bit flags 0)
  ((h.checkRole (bit flags 1)).ring 2).showAge

/-- HB_OK falls once no heartbeat has arrived for 250 µs (R393). -/
def HostSide.heartbeatLost (h : HostSide) : HostSide :=
  if h.flag Reg.TWN_STATUS_HB_OK && !within h.now h.twin.heard 250000 then
    (h.put Reg.TWN_STATUS_HB_OK 0).bump Reg.TWN_COUNTS_HB_LOSSES
  else h

/-- A partner's verdict for a tile is adopted where the tile's hash run started no later than that picture
(02_freshness.md R50). -/
def HostSide.adoptVerdict (h : HostSide) (l t : Nat) (vintage : VT) : HostSide :=
  let bound := h.cfg.watch.any (fun w => w.layer == l && w.tile == t && w.bound == 1)
  let v := h.tile l t
  if bound && v.hash.isSome && decide (0 ≤ vtDiff vintage v.runStart) then
    (h.setTile l t { v with adopted := some vintage }).showVerdicts l
  else h

/-- A partner HEALTH with its verdicts (R50, R370, R376, R377, R393). Log entry 179 (DEDUCED). -/
def HostSide.partnerHealth (h : HostSide) (m : TwinHealth) : HostSide :=
  let h := h.putPair Reg.TWN_PARTNER_ID_LO_ID Reg.TWN_PARTNER_ID_HI_ID m.activeId.toNat
  let h := h.putB Reg.TWN_STATUS_ID_MATCH (m.activeId.toNat == h.activeId)
  let qualified := !bit m.flags.toNat 1
  let h := h.putB Reg.TWN_STATUS_PARTNER_QUALIFIED qualified
  let h := h.checkRole (bit m.flags.toNat 0)
  let h := if qualified then h.ring 3 else h
  m.verdicts.foldl (fun h v => h.adoptVerdict v.1 v.2.1 v.2.2) h

/-! ## Resynchronisation (R380 to R383) -/

/-- RESYNC_REQ (R381, 18_module_electrical.md R425). Log entry 171 (DEDUCED). -/
def HostSide.startResync (h : HostSide) : HostSide :=
  if h.activeId = 0 ∧ h.tb.syncOk ∧ h.twin.heard.isSome ∧ h.get Reg.TWN_RESYNC_STATE = 0 ∧
      9 ≤ h.get Reg.SYS_BOOT_STATUS_STEP ∧ (h.linkUp 4 ∨ h.linkUp 5) then
    let h := { h with twin := { h.twin with joining := some ⟨none, 0, [], []⟩ } }
    let h := ((h.put Reg.TWN_RESYNC_STATE 1).put Reg.TWN_RESYNC_DONE 0).put Reg.TWN_RESYNC_TOTAL 0
    h.sendTwin (leBytes 4 1 ++ leBytes 0 3 ++ leBytes (h.get Reg.SIM_TUPLE0_STEPPING) 2 ++
      leBytes (h.get Reg.SIM_TUPLE0_SCHEMA) 2 ++ leBytes (h.get Reg.SIM_TUPLE1_BOOT_ROM) 4 ++
      leBytes (h.get Reg.SIM_TUPLE2_HOST_BUILD) 4)
  else h

/-- RESYNC_INFO of this module: by head its effective epoch and φ of the frame most recently started.
Log entry 180 (DEDUCED). -/
def HostSide.resyncInfo (h : HostSide) : List Byte :=
  leBytes 5 1 ++ leBytes h.twin.retained.length 1 ++ leBytes 0 6 ++ (List.range 48).flatMap (fun k =>
    let v := h.head k
    match v.time with
    | some t =>
      let phi := ((v.plan v.started).map (·.phi)).getD (v.phiOf t)
      leBytes t.epoch.toNat 8 ++ leBytes (unsigned phi 64) 8
    | none => leBytes 0 16)

/-- IMAGE_DATA payloads of one image. Log entry 180 (DEDUCED). -/
def imageCells (index total : Nat) : Nat → Nat → List Byte → List (List Byte)
  | 0, _, _ => []
  | n + 1, off, bs =>
    if bs.isEmpty then []
    else (leBytes 6 1 ++ leBytes index 1 ++ leBytes 0 2 ++ leBytes off 4 ++ leBytes total 4 ++ bs.take 1012) ::
      imageCells index total n (off + 1012) (bs.drop 1012)

/-- A partner's RESYNC_REQ (R380, R381): no answer without a retained set (18_module_electrical.md R425).
Log entries 166 (DEDUCED), 180 (DEDUCED). -/
def HostSide.answerResync (h : HostSide) : HostSide :=
  if h.twin.overflow then (h.twinVerdict h.activeId 0 false).put Reg.TWN_STATUS_SET_OVERFLOW 1
  else if h.twin.retained.isEmpty then h
  else
    let images := h.twin.retained.zipIdx.flatMap (fun r =>
      imageCells r.2 r.1.bytes.length (r.1.bytes.length / 1012 + 1) 0 r.1.bytes)
    ({ h with twin := { h.twin with outbox := h.twin.outbox ++ (h.resyncInfo :: images) } }).pumpTwin 256

/-- RESYNC_INFO at the joining module (R383). -/
def HostSide.takeResyncInfo (h : HostSide) (v : ResyncInfo) : HostSide :=
  match h.twin.joining with
  | some j =>
    if h.get Reg.TWN_RESYNC_STATE = 1 ∧ j.info.isNone then
      ({ h with twin := { h.twin with joining := some { j with info := some v.heads } } }).put Reg.TWN_RESYNC_TOTAL v.images
    else h
  | none => h

/-- IMAGE_DATA at the joining module (R382): the images arrive in order, and each is staged once the one before it has
activated. -/
def HostSide.takeImageData (h : HostSide) (v : ImageData) : HostSide :=
  match h.twin.joining with
  | some j =>
    if h.get Reg.TWN_RESYNC_STATE = 1 ∧ j.info.isSome ∧ v.index = j.index ∧ v.offset = j.bytes.length then
      let bytes := j.bytes ++ v.data
      let j := if v.total ≤ bytes.length then
          { j with index := j.index + 1, bytes := [], waiting := j.waiting ++ [bytes.take v.total] }
        else { j with bytes := bytes }
      ({ h with twin := { h.twin with joining := some j } }).resyncNext
    else h
  | none => h

/-! ## TWIN_MSG cells (R376) -/

/-- A HEALTH cell's fields. -/
def healthOf (p : List Byte) : TwinHealth where
  flags := BitVec.ofNat 8 (fieldAt p 1 1)
  hostBuild := BitVec.ofNat 32 (fieldAt p 4 4)
  fieldBuild := BitVec.ofNat 32 (fieldAt p 8 4)
  invar := BitVec.ofNat 32 (fieldAt p 12 4)
  activeId := BitVec.ofNat 64 (fieldAt p 16 8)
  faulted := BitVec.ofNat 32 (fieldAt p 24 4)
  selftest := BitVec.ofNat 32 (fieldAt p 28 4)
  seq := BitVec.ofNat 32 (fieldAt p 32 4)
  verdicts := []

/-- The entries of a VERDICTS cell. -/
def verdictsOf (p : List Byte) : List (Nat × Nat × VT) :=
  (List.range (fieldAt p 2 2)).map (fun i =>
    let id := fieldAt p (8 + 8 * i) 4
    (bits id 0 10, bits id 10 2, BitVec.ofNat 32 (fieldAt p (12 + 8 * i) 4)))

/-- RESYNC_INFO's fields. -/
def resyncOf (p : List Byte) : ResyncInfo :=
  ⟨fieldAt p 1 1, (List.range 48).map (fun k => (BitVec.ofNat 64 (fieldAt p (8 + 16 * k) 8), signed (fieldAt p (16 + 16 * k) 8) 64))⟩

/-- A HEALTH cell takes effect with the last of its VERDICTS cells. Log entry 179 (DEDUCED). -/
def HostSide.healthCell (h : HostSide) (p : List Byte) : HostSide :=
  let n := fieldAt p 2 2
  if n = 0 then ({ h with twin := { h.twin with coming := none } }).partnerHealth (healthOf p)
  else { h with twin := { h.twin with coming := some (healthOf p, n) } }

/-- A VERDICTS cell of the partner. Log entry 179 (DEDUCED). -/
def HostSide.verdictCell (h : HostSide) (p : List Byte) : HostSide :=
  match h.twin.coming with
  | some (m, n) =>
    if fieldAt p 4 4 ≠ m.seq.toNat then h
    else
      let m := { m with verdicts := m.verdicts ++ verdictsOf p }
      if n ≤ 1 then ({ h with twin := { h.twin with coming := none } }).partnerHealth m
      else { h with twin := { h.twin with coming := some (m, n - 1) } }
  | none => h

/-- A TWIN_MSG by its KIND; a reserved one is discarded and counted. -/
def HostSide.twinCell (h : HostSide) (p : List Byte) : HostSide :=
  match fieldAt p 0 1 with
  | 1 => h.heartbeat (fieldAt p 1 1)
  | 2 => h.healthCell p
  | 3 => h.verdictCell p
  | 4 => h.answerResync
  | 5 => h.takeResyncInfo (resyncOf p)
  | 6 => h.takeImageData ⟨fieldAt p 1 1, fieldAt p 4 4, fieldAt p 8 4, p.drop 12⟩
  | _ => h.bump Reg.TWN_COUNTS_BAD_MSG

/-! ## Link cells (15_lanes.md R352 to R364) -/

/-- A cell in order, by its TYPE: stitch cells on stitch links, twin messages on twin links.
Log entry 172 (DESIGN CHOICE). -/
def HostSide.linkCell (h : HostSide) (k : Nat) (c : List Byte) : HostSide :=
  let p := c.drop 40
  let type := fieldAt c 0 1
  let h := if k < 4 then h.judgeSplit (h.peerOf k) (fieldAt c 8 8) else h
  let twin := decide (4 ≤ k)
  match type, twin with
  | 1, false => h.stitchCell k c
  | 2, false => h.stitchCell k c
  | 3, _ =>
    let verdict := fieldAt p 16 1
    if verdict = 1 ∨ verdict = 2 then
      h.imageMsgArrives ⟨fieldAt p 17 1 % 8, verdict == 1, fieldAt p 0 8, BitVec.ofNat 64 (fieldAt p 8 8)⟩
    else h
  | 4, false => h.peerHealthCell k p
  | 5, true => h.twinCell p
  | _, _ => h

/-- A cell arrives whole (R352, R353, R355): while the receiver recovers it discards every cell.
Log entry 172 (DESIGN CHOICE). -/
def HostSide.cellRx (h : HostSide) (k : Nat) (c : List Byte) : HostSide :=
  if !h.linkUp k then h
  else
    let mask := h.get (Reg.STC_STATUS_ACTIVE k)
    match h.cellFate k c with
    | .damaged => (h.bump (Reg.STC_ERRORS_CRC_ERR k)).recover k mask
    | .held => h
    | .early => h.recover k mask
    | .next_ =>
      let h := h.freeCell k (fieldAt c 4 4)
      let type := fieldAt c 0 1
      if type = 0 ∨ 5 < type then h.bump (Reg.STC_ERRORS_CRC_ERR k)
      else (h.countWrap (Reg.STC_CELLS_RX_COUNT k)).linkCell k c

end Sys2Proof.Machine
end

