-- ==== Sys2Proof/Machine/RegOps.lean ====
section
/-! DEFINITION. Reads and writes of BAR0 registers that have no command of their own: the access codes of Table 00.2, the
values that an encoding table lists (00_scope.md R5 to R11), the pairs of R6, the layer descriptor table
(06_composition.md R143) and the MSI-X table (19_register_map.md R430). -/

namespace Sys2Proof.Machine

/-! ## Finding a register (19_register_map.md R436) -/

/-- The instance of a group of `n` at `base`, `stride` apart, that lies at `off`. -/
def instOf (off base stride n : Nat) : Option Nat :=
  if base ≤ off ∧ (off - base) % stride = 0 ∧ (off - base) / stride < n then some ((off - base) / stride) else none

/-- A register group holds the offset. -/
def RegDesc.holds (r : RegDesc) (off : Nat) : Bool :=
  if off < r.off then false
  else
    let d := off - r.off
    if r.s = 0 then d == 0
    else if r.n2 = 1 then d % r.s == 0 && decide (d / r.s < r.n)
    else decide (d / r.s < r.n) && d % r.s % r.s2 == 0 && decide (d % r.s / r.s2 < r.n2)

/-- The fields of the register at an offset. -/
def regFields (off : Nat) : List FieldDesc :=
  match Reg.all.find? (·.holds off) with
  | some r => r.fields
  | none => []

/-- A register lies at the offset. -/
def isReg (off : Nat) : Bool := Reg.all.any (·.holds off)

/-- The value after reset of a field whose value depends on its instance: roles and slots of the memory channels, roles
of the lanes, and the Fixed corrections and taps. -/
def rstAt (off : Nat) (d : FieldDesc) : Nat :=
  match instOf off 0x40104 0x20 12 with
  | some i => if d.lo = 0 then (Reg.CST_CH_STATUS_ROLE i).rst else if d.lo = 2 then (Reg.CST_CH_STATUS_SLOT i).rst else d.rst
  | none =>
    match instOf off 0x81000 0x20 96 with
    | some i => if d.lo = 0 then (Reg.LNE_STATUS_ROLE i).rst else d.rst
    | none =>
      if (instOf off 0x8100c 0x20 96).isSome ∨ (instOf off 0x400100 0x10 52).isSome ∨ (instOf off 0x400104 0x10 52).isSome then
        Config.fixedReg (off * 32 + d.lo) % 2 ^ d.w
      else d.rst

/-- A field of the register at an offset. -/
def regFld (off : Nat) (d : FieldDesc) : Fld := ⟨off, d.lo, d.w, rstAt off d, d.acc⟩

/-! ## Reads -/

/-- What a field reads: a WO field 0, any other its current value (Table 00.2). Log entry 197 (DESIGN CHOICE). -/
def HostSide.readField (h : HostSide) (off : Nat) (d : FieldDesc) : Nat :=
  match d.acc with
  | .wo => 0
  | _ => h.get (regFld off d)

/-- Word `w` of the two copies of a layer's descriptor (06_composition.md R143): 0 to 15 pending, 16 to 31 active. -/
def HostSide.layerTableWord (h : HostSide) (l w : Nat) : Nat :=
  if w < 16 then h.get (Reg.layerWord l w) else descWord (h.activeDesc l) (w - 16)

/-- The host side with the fields of the register at an offset that follow the time brought to this instant: a stream's status
(05_ingest_decode.md R134), HB_OK and the age of the last heartbeat (16_twin_repair.md R393), the time mapping's validity
(11_crossing.md R264) and the synchronised state (12_time.md R285). -/
def HostSide.current (h : HostSide) (off : Nat) : HostSide :=
  if 0x101000 ≤ off ∧ off < 0x102000 then h.showStream ((off - 0x101000) / 0x20)
  else match off with
  | 0x440008 => h.putB Reg.TWN_STATUS_HB_OK (within h.now h.twin.heard 250000)
  | 0x44000c => h.showAge
  | 0x418000 => h.showMap
  | 0x400034 => h.putB Reg.TIM_SYNC_STATUS_SYNC_OK h.tb.syncOk
  | 0x3c0000 => h.putB Reg.FRS_SYNC_BOUND_SYNC_OK h.tb.syncOk
  | _ => h

/-- What the word at an offset reads: a register, a word of the layer descriptor table or of the MPU region table
(14_tartan_protection.md R334), and 0 where there is none (R7, R8). RAW and DT read the time base (12_time.md R287).
Log entry 197 (DESIGN CHOICE). -/
def HostSide.readReg (h : HostSide) (off : Nat) : Nat :=
  if 0x280000 ≤ off ∧ off < 0x2A0000 then h.layerTableWord ((off - 0x280000) / 0x80) ((off - 0x280000) % 0x80 / 4)
  else if 0x28000 ≤ off ∧ off < 0x2DE00 then
    h.get (Reg.mpuWord ((off - 0x28000) / 512) ((off - 0x28000) % 512 / 16) ((off - 0x28000) % 16 / 4))
  else match off with
  | 0x400000 => h.tb.raw.toNat % 2 ^ 32
  | 0x400004 => h.tb.raw.toNat / 2 ^ 32
  | 0x400008 => h.now.toNat % 2 ^ 32
  | 0x40000c => h.now.toNat / 2 ^ 32
  | _ => (regFields off).foldl (fun a d => a + 2 ^ d.lo * (h.current off).readField off d) 0

/-- The lower words of the pairs of R6: base, stride and number. Log entry 192 (DEDUCED). -/
def pairLows : List (Nat × Nat × Nat) :=
  [(0x30, 4, 1), (0x50, 4, 1), (0x20008, 4, 1), (0x40010, 4, 1), (0x40028, 4, 1), (0x40034, 4, 1), (0x100000, 4, 1), (0x200034, 4, 1),
   (0x300000, 4, 1), (0x300008, 4, 1), (0x301010, 0x40, 48), (0x301018, 0x40, 48), (0x3c0010, 4, 1),
   (0x400000, 4, 1), (0x400008, 4, 1), (0x400018, 4, 1), (0x400020, 4, 1),
   (0x420108, 0x40, 8), (0x420110, 0x40, 8), (0x420118, 0x40, 8), (0x420120, 0x40, 8), (0x420130, 0x40, 8),
   (0x430110, 0x100, 2), (0x430120, 0x100, 2), (0x440010, 4, 1),
   (0x458010, 4, 1), (0x458020, 4, 1), (0x458028, 4, 1), (0x458030, 4, 1)]

/-- The offset is that of a pair's lower word. Log entry 192 (DEDUCED). -/
def isPairLow (off : Nat) : Bool := pairLows.any (fun p => (instOf off p.1 p.2.1 p.2.2).isSome)

/-- What a pair's latch holds after reset: the upper word's value at reset (R6). -/
def latchRst (off : Nat) : Nat :=
  if off = 0x300000 then Reg.HDS_SRC_MAC_HI_ADDR.rst else if off = 0x40010 then Reg.CST_PAGES_HI_USED.rst else 0

/-- A read of a pair's lower word latches the upper word in the same cycle (R6). Log entry 196 (DEDUCED). -/
def HostSide.latchPair (h : HostSide) (off : Nat) : HostSide :=
  if isPairLow off then { h with latch := tput (latchRst off) h.latch off (h.readReg (off + 4)) } else h

/-- What a read returns: at a pair's upper word the latched value, anywhere else the word's own (R6).
Log entry 196 (DEDUCED). -/
def HostSide.readValue (h : HostSide) (off : Nat) : Nat :=
  if 4 ≤ off ∧ isPairLow (off - 4) = true then tget (latchRst (off - 4)) h.latch (off - 4) else h.readReg off

/-- The events of the cycle that increment the counter with this lowest bit. -/
def countOf (events : List Nat) (lo : Nat) : Nat := (events.filter (· == lo)).length

/-- An RC field after its read: cleared, and incremented by the events of the same cycle (R10, R11). The two highest
values seen, SYS.TEMP.HOST_MAX and MIM.LAT_MAX, are not counters. Log entry 193 (DEDUCED). -/
def HostSide.clearRc (h : HostSide) (off : Nat) (events : List Nat) (d : FieldDesc) : HostSide :=
  match d.acc with
  | .rc =>
    let n := if off = 0x14 ∨ off = 0x38000c then 0 else countOf events d.lo
    h.put (regFld off d) (min n (2 ^ d.w - 1))
  | _ => h

/-- A read of a word: the value goes to the requester, a pair's upper word into its latch, and RC fields to 0 (R6, R10, R11).
Log entries 193 (DEDUCED), 196 (DEDUCED). -/
def HostSide.readWord (h : HostSide) (off : Nat) (events : List Nat) : HostSide :=
  ((regFields off).foldl (fun h d => h.clearRc off events d) (h.latchPair off)).answer (.data (h.readValue off))

/-! ## Writes -/

/-- A write to a field by its access code (Table 00.2, R8, R9). A trigger bit acts by its register's own rule. -/
def HostSide.writeField (h : HostSide) (off v : Nat) (d : FieldDesc) : HostSide :=
  let f := regFld off d
  let x := bits v d.lo d.w
  match d.acc with
  | .rw => if d.legal.isEmpty || d.legal.contains x then h.put f x else h
  | .rwi => if d.legal.isEmpty || d.legal.contains x then h.put f x else h
  | .w1c => h.put f (clrMask (h.get f) x)
  | .w1s => h
  | .wo => h
  | .ro => h
  | .rc => h

/-- A write to a register whose fields all follow their access codes; nothing where no register lies (R7). -/
def HostSide.writeReg (h : HostSide) (off v : Nat) : HostSide :=
  (regFields off).foldl (fun h d => h.writeField off v d) h

/-- A write to the registers of a unit that is active: its RWI fields keep their values (Table 00.2, R434). -/
def HostSide.writeActive (h : HostSide) (off v : Nat) : HostSide :=
  ((regFields off).filter (fun d => d.acc != .rwi)).foldl (fun h d => h.writeField off v d) h

/-- The fields of word `w` of a pending layer descriptor, as lowest bit and width (06_composition.md Table 06.3). -/
def layerFields (w : Nat) : List (Nat × Nat) :=
  match w with
  | 0 => [(0, 1), (1, 1), (2, 1), (3, 2), (5, 2), (8, 8), (16, 10)]
  | 1 => [(0, 12)]
  | 2 => [(0, 32)]
  | 3 => [(0, 32)]
  | 4 => [(0, 32)]
  | 5 => [(0, 32)]
  | 6 => [(0, 32)]
  | _ => []

/-- A pending descriptor word after a write: a field keeps its value where the write carries a reserved ALPHA_MODE or
CSC, and reserved bits stay 0 (R8, R9, R143, R144). -/
def layerMerge (w old v : Nat) : Nat :=
  (layerFields w).foldl (fun a f =>
    let x := bits v f.1 f.2
    let keep := w = 0 ∧ (f.1 = 3 ∨ f.1 = 5) ∧ x = 3
    a + 2 ^ f.1 * (if keep then bits old f.1 f.2 else x)) 0

/-- A write to the layer descriptor table: the pending copies of 1,024 layers; the active copies are read-only (R143). -/
def HostSide.writeLayerTable (h : HostSide) (off v : Nat) : HostSide :=
  let l := (off - 0x280000) / 0x80
  let w := (off - 0x280000) % 0x80 / 4
  if l < 1024 ∧ w < 16 then
    let f := Reg.layerWord l w
    h.put f (layerMerge w (h.get f) v)
  else h

/-! ## Registers with conditions of their own -/

/-- A host network port carries no enabled stream and no encode context of the active image, and no gPTP (R434).
Log entry 194 (DEDUCED). -/
def HostSide.portInactive (h : HostSide) (n : Nat) : Bool :=
  !(h.cfg.streams.any (fun e => e.enable == 1 && (e.portA == n || (e.frer == 1 && e.portB == n)))) &&
    !(h.cfg.encode.any (fun e => e.enable == 1 && e.outPcie == 0 && e.port == n)) && !bit (h.get Reg.TIM_GPTP_CTRL_HN_EN) n

/-- A port takes a mode; its lane follows (15_lanes.md R340). -/
def HostSide.writeHnMode (h : HostSide) (v n : Nat) (f : Fld) : HostSide :=
  let x := bits v (2 * n) 2
  if x = 3 ∨ h.portInactive n = false then h
  else ((h.put f x).wakeCalibrated).sleepLane (48 + n)

/-- A write of LNE.HN_MODE (R434). -/
def HostSide.writeHnModes (h : HostSide) (v : Nat) : HostSide :=
  (((h.writeHnMode v 0 Reg.LNE_HN_MODE_MODE_0).writeHnMode v 1 Reg.LNE_HN_MODE_MODE_1).writeHnMode v 2
    Reg.LNE_HN_MODE_MODE_2).writeHnMode v 3 Reg.LNE_HN_MODE_MODE_3

/-- A write of HDS.TE_CTRL: setting TE_EN starts without a report (08_heads.md Table 08.6, VALID).
Log entry 71 (DEDUCED). -/
def HostSide.writeTeCtrl (h : HostSide) (k v : Nat) : HostSide :=
  let rises := bit v 0 && !h.flag (Reg.HDS_TE_CTRL_TE_EN k)
  let h := h.writeReg (0x301020 + 0x40 * k) v
  if rises then ((h.setHead k { h.head k with report := none, former := none }).put (Reg.HDS_TE_STATUS_VALID k) 0) else h

/-- A write of CMP.SURF_STATUS: a 1 clears TAG_REFUSED of the probed handle (06_composition.md R141, R167). -/
def HostSide.writeSurfStatus (h : HostSide) (v : Nat) : HostSide :=
  if bit v 13 then
    let sh := h.get Reg.CMP_SURF_PROBE_HANDLE
    let kept := h.display.tagRefused.filter (fun (x : Nat) => x != sh)
    ({ h with display := { h.display with tagRefused := kept } }).showSurf
  else h

/-- A write of FRS.LAYER_STATE: GINGHAM_EN ignores writes while the layer is live-bearing (02_freshness.md R40). -/
def HostSide.writeLayerState (h : HostSide) (l v : Nat) : HostSide :=
  let h := if bit v 20 then h.put (Reg.FRS_LAYER_STATE_BUDGET_REFUSED l) 0 else h
  if h.flag (Reg.FRS_LAYER_STATE_LIVE_BEARING l) then h else h.putB (Reg.FRS_LAYER_STATE_GINGHAM_EN l) (bit v 7)

/-- A write of a secure spare's arming (15_lanes.md R347): a LANE above 95 leaves LANE as it is (R9). -/
def HostSide.writeSpare (h : HostSide) (k v : Nat) : HostSide :=
  let lane := bits v 0 7
  h.armSpare k (if lane < 96 then lane else h.get (Reg.LNE_SPARE_CTRL_LANE k)) (bits v 8 2) (bit v 10)

/-! ## MSI-X table (19_register_map.md R430) -/

/-- One word of an entry after a write. Log entry 5 (PRESUMED). -/
def MsixEntry.write (e : MsixEntry) (w v : Nat) : MsixEntry :=
  match w with
  | 0 => { e with addr := e.addr / 2 ^ 32 * 2 ^ 32 + v }
  | 1 => { e with addr := e.addr % 2 ^ 32 + v * 2 ^ 32 }
  | 2 => { e with data := v }
  | _ => { e with masked := bit v 0 }

/-- A write of one word of the table; unmasking an entry whose pending bit is set sends its message. The pending-bit
array is read-only. -/
def HostSide.writeMsixWord (h : HostSide) (off v : Nat) : HostSide :=
  if off < 0x8000 then
    let n := off / 16
    let e := (tget MsixEntry.reset h.msix n).write (off % 16 / 4) v
    let h := { h with msix := tput MsixEntry.reset h.msix n e }
    if !e.masked && tget false h.msixPend n then
      ({ h with msixPend := tput false h.msixPend n false }).send (.msix n e.addr e.data)
    else h
  else h

/-- A write at BAR4 by the PCIe endpoint: aligned words and double words; nothing else has an effect (log entry 5).
Log entry 5 (PRESUMED). -/
def HostSide.writeBar4 (h : HostSide) (who : Requester) (size off v : Nat) : HostSide :=
  match who.src with
  | .hcc _ => h.answer .busError
  | .pcie =>
    let h := h.answer .none
    if size = 4 ∧ off % 4 = 0 then h.writeMsixWord off (v % 2 ^ 32)
    else if size = 8 ∧ off % 8 = 0 then (h.writeMsixWord off (v % 2 ^ 32)).writeMsixWord (off + 4) (v / 2 ^ 32)
    else h

end Sys2Proof.Machine
end

