-- ==== Sys2Proof/Machine/Surface.lean ====
section
/-! DEFINITION. Meanings of the commands of surfaces and the coding window (06_composition.md R141, R152, R153, R167;
13_central_store.md R309 to R311). -/

namespace Sys2Proof.Machine

/-- SURFACE_RELEASE (R152, R153). -/
def execSurfaceRelease (who : Requester) (sh : Fin 4096) (doorbell : Fin 64) (s : State) : Out :=
  regCmd s who (fun h => (h.answer .none).requestRelease sh.val false doorbell.val)

/-- SURFACE_RELEASE_RETAIN (R152, R153). -/
def execSurfaceReleaseRetain (who : Requester) (sh : Fin 4096) (doorbell : Fin 64) (s : State) : Out :=
  regCmd s who (fun h => (h.answer .none).requestRelease sh.val true doorbell.val)

/-- SURF_TAG_WRITE (R141). -/
def execSurfTagWrite (who : Requester) (v : Word) (s : State) : Out :=
  regCmd s who (fun h => (h.answer .none).writeSurfTag v)

/-- SURF_PROBE (R167). -/
def execSurfProbe (who : Requester) (v : Word) (s : State) : Out :=
  regCmd s who (fun h => ((h.answer .none).put Reg.CMP_SURF_PROBE_HANDLE v.toNat).showSurf)

/-- REL_DONE_READ: answers and removes the oldest completed release; LOST is returned and cleared (R153). -/
def execRelDoneRead (who : Requester) (s : State) : Out :=
  readCmd s who (fun h =>
    let v := h.get Reg.CMP_REL_DONE_HANDLE + 2 ^ 30 * h.get Reg.CMP_REL_DONE_LOST + 2 ^ 31 * h.get Reg.CMP_REL_DONE_VALID
    let h := { h with display := { h.display with relDone := h.display.relDone.drop 1 } }
    ((h.put Reg.CMP_REL_DONE_LOST 0).showRelDone).answer (.data v))

/-- CWIN_SELECT (R310). -/
def execCwinSelect (who : Requester) (v : Word) (s : State) : Out :=
  regCmd s who (fun h => (h.answer .none).windowSelect (h.windowHandle v.toNat) false)

/-- CWIN_FLUSH (R310). -/
def execCwinFlush (who : Requester) (v : Word) (s : State) : Out :=
  regCmd s who (fun h => (h.answer .none).windowSelect (h.windowHandle v.toNat) true)

/-- CWIN_READ (R309, R310). -/
def execCwinRead (hcc : Bool) (off : BitVec 29) (len : Nat) (s : State) : Out :=
  hostCmd s (fun h => if hcc || h.pcieUp then h.answerWindow (if hcc then 35 else 34) off.toNat len else h)

/-- CWIN_WRITE (R309, R310). -/
def execCwinWrite (hcc : Bool) (off : BitVec 29) (data : List Byte) (s : State) : Out :=
  hostCmd s (fun h => if hcc || h.pcieUp then (h.answer .none).windowWrite hcc off.toNat data else h)

end Sys2Proof.Machine
end

