-- ==== Sys2Proof/Machine/TartanCmd.lean ====
section
/-! DEFINITION. Meanings of the matrix, lock and MPU commands (14_tartan_protection.md). TARTAN_REQUEST stands with the
write protections. -/

namespace Sys2Proof.Machine

/-- TARTAN_GRANT (R318 to R323). -/
def execTartanGrant (point : ArbPoint) (s : State) : Out := hostCmd s (fun h => h.grant point)

/-- TARTAN_RESPONSE (R318, R321, R332). -/
def execTartanResponse (port : Fin 47) (serial : Nat) (s : State) : Out := hostCmd s (fun h => h.respond port.val serial)

/-- REMAP (R324): a write from a secure privileged context. -/
def execRemap (who : Requester) (s : State) : Out :=
  regCmd s who (fun h =>
    if who.isSecurePriv then (h.answer .none).put Reg.TRT_CTRL_REMAP 1 else h.refuseWrite who)

/-- LOCK_READ (R325, R327). -/
def execLockRead (who : Requester) (core : Fin 8) (n : Fin 256) (s : State) : Out :=
  readCmd s who (fun h => h.lockRead n.val (who.lockId core.val))

/-- LOCK_RELEASE (R326). -/
def execLockRelease (who : Requester) (core : Fin 8) (n : Fin 256) (v : Word) (s : State) : Out :=
  regCmd s who (fun h => (h.answer .none).lockWrite n.val (who.lockId core.val) v.toNat)

/-- LOCK_FORCE (R326): a write from a secure privileged context. -/
def execLockForce (who : Requester) (n : Fin 256) (s : State) : Out :=
  regCmd s who (fun h => if who.isSecurePriv then (h.answer .none).lockFree n.val else h.refuseWrite who)

/-- MPU_REGION_WRITE (R331): from a secure privileged context; any other is counted. -/
def execMpuRegionWrite (who : Requester) (port : Fin 47) (region : Fin 32) (word : Fin 4) (v : Word) (s : State) : Out :=
  regCmd s who (fun h =>
    if who.isSecurePriv then (h.answer .none).regionWrite port.val region.val word.val v.toNat
    else (h.bump Reg.MPU_SEC_VIOL_COUNT).refuseWrite who)

/-- MPU_SYNC_WRITE (R332): the accesses checked so far are those that a read waits for. -/
def execMpuSyncWrite (who : Requester) (v : Word) (s : State) : Out :=
  regCmd s who (fun h =>
    let h := (h.answer .none).put Reg.MPU_SYNC_TOKEN (bits v.toNat 0 16)
    { h with tartan := { h.tartan with syncWait := h.tartan.live } })

/-- MPU_SYNC_READ (R332): answers the token, or waits. -/
def execMpuSyncRead (who : Requester) (s : State) : Out :=
  readCmd s who (fun h =>
    if h.tartan.syncWait.isEmpty then h.answer (.data (h.get Reg.MPU_SYNC_TOKEN))
    else { h with tartan := { h.tartan with syncRead := true } })

end Sys2Proof.Machine
end

