-- ==== Sys2Proof/Machine/TimeCmd.lean ====
section
/-! DEFINITION. Meanings of the commands of the time bases and of gPTP (12_time.md). -/

namespace Sys2Proof.Machine

/-- The gPTP frames of a field port go out like every other frame that is no command; field ports have no VLAN tag on
them. -/
def FieldSide.gptpOut (f : FieldSide) (port : Nat) (m : GptpOut) : Option DT × FieldSide := f.sendOther port gptpMac (.gptp m)

/-- gPTP runs on a field port (R280). -/
def FieldSide.gptpOn (f : FieldSide) (port : Nat) : Bool := (f.portEntry port).any (fun e => e.gptp == 1 && e.mode != 0)

/-- A gPTP message at a field port (R280, R286). Domain 0. -/
def FieldSide.gptp (f : FieldSide) (port : Nat) (m : GptpMsg) : FieldSide :=
  let discard : FieldSide := { f with tb := f.tb.gptpDiscard port }
  let dom (d : BitVec 8) : Bool := f.gptpOn port && d == 0
  match m with
  | .sync d i o =>
    if dom d && decide (-7 ≤ i ∧ i ≤ 0) then
      (match o with
        | some t => f.syncTime port f.arrival t
        | none => { f with tb := f.tb.awaitFollowUp port f.arrival })
    else discard
  | .followUp d t =>
    if dom d then
      (match f.tb.followed port with
        | (some x, tb) => ({ f with tb := tb }).syncTime port x t
        | (none, _) => f)
    else discard
  | .announce d gm sl => if dom d then { f with tb := f.tb.announced port gm.toNat sl } else discard
  | .pdelayReq d =>
    if dom d then
      (match f.gptpOut port (.pdelayResp f.arrival) with
        | (some t, f) => (f.gptpOut port (.pdelayRespFollowUp t)).2
        | (none, f) => f)
    else discard
  | .pdelayResp d n => if dom d then { f with tb := f.tb.delayHeard port f.arrival n } else discard
  | .other => discard

/-- A field port sends Pdelay_Req every second (R280); it never sends Sync. Log entry 252 (PRESUMED). -/
def FieldSide.gptpSend (f : FieldSide) (port : Nat) (kind : GptpSend) : FieldSide :=
  if f.gptpOn port && kind == .pdelayReq && f.tb.sendDue port kind 1000000000 then
    match f.gptpOut port .pdelayReq with
    | (some t, f) => { f with tb := (f.tb.noteSent port kind).delayAsked port t }
    | (none, f) => f
  else f

/-- INCR_WRITE (R274). -/
def execIncrWrite (side : Side) (who : Requester) (v : Word) (s : State) : Out :=
  match side with
  | .host => regCmd s who (fun h => h.timWrite who (fun h => h.setIncr v.toNat))
  | .field => fieldCmd s (fun f => if incrOk v.toNat then { f with tb := f.tb.setIncr v } else f)

/-- OFFSET_STEP (R275, R285, R287). -/
def execOffsetStep (side : Side) (who : Requester) (v lo : Word) (s : State) : Out :=
  match side with
  | .host => regCmd s who (fun h => h.timWrite who (fun h => h.writeOffsetHi v.toNat))
  | .field => fieldCmd s (fun f => { f with tb := f.tb.step (BitVec.ofNat 64 (lo.toNat + 2 ^ 32 * v.toNat)) })

/-- GPTP_MESSAGE (R280 to R283, R286). -/
def execGptpMessage (side : Side) (port : Fin 52) (msg : GptpMsg) (s : State) : Out :=
  match side with
  | .host => hostCmd s (fun h => h.gptp port.val msg)
  | .field => fieldCmd s (fun f => if port.val < 8 then f.gptp port.val msg else f)

/-- GPTP_SYNC_SEND (R280, R283). -/
def execGptpSyncSend (port : GptpPort) (kind : GptpSend) (s : State) : Out :=
  match port with
  | .host n => hostCmd s (fun h => h.gptpSend n.val kind)
  | .field n => fieldCmd s (fun f => f.gptpSend n.val kind)

/-- SYNC_CONFIRM (R285, R286). -/
def execSyncConfirm (side : Side) (who : Requester) (lose : Bool) (s : State) : Out :=
  match side with
  | .host => regCmd s who (fun h => h.timWrite who (fun h => h.writeSync true lose))
  | .field => fieldCmd s (fun f => { f with tb := f.tb.confirm lose f.syncLimit })

/-- SYNC_LOSE (R285, R286). -/
def execSyncLose (side : Side) (who : Requester) (s : State) : Out :=
  match side with
  | .host => regCmd s who (fun h => h.timWrite who (fun h => h.writeSync false true))
  | .field => fieldCmd s (fun f => { f with tb := f.tb.confirm true f.syncLimit })

/-- SYNC_WINDOW_EXPIRY (R285, R286). -/
def execSyncWindowExpiry (side : Side) (s : State) : Out :=
  match side with
  | .host => hostCmd s (fun h => ({ h with tb := h.tb.expire }).showSync)
  | .field => fieldCmd s (fun f => { f with tb := f.tb.expire })

/-- GPTP_RECEIPT_TIMEOUT (R280). -/
def execGptpReceiptTimeout (side : Side) (s : State) : Out :=
  match side with
  | .host => hostCmd s (fun h => ({ h with tb := h.tb.receiptTimeout }).showSlave)
  | .field => fieldCmd s (fun f => { f with tb := f.tb.receiptTimeout })

end Sys2Proof.Machine
end

