-- ==== Sys2Proof/Machine/TwinCmd.lean ====
section
/-! DEFINITION. Meanings of the link cell, stitch and Twill pair commands (15_lanes.md, 16_twin_repair.md). -/

namespace Sys2Proof.Machine

/-- LINK_CELL_RX (R352, R353, R355, R360, R361, R363, R364, R75, R376). -/
def execLinkCellRx (link : Fin 6) (cell : LinkCell) (s : State) : Out := hostCmd s (fun h => h.cellRx link.val cell.bytes)

/-- STITCH_SEND (R359, R353, 06_composition.md R164, R165). -/
def execStitchSend (entry : Fin 64) (s : State) : Out := hostCmd s (fun h => h.stitchSend entry.val)

/-! ## The interlock -/

/-- The level at INTLK_IN, which holds through a reset of the side. -/
def intlkPin (s : State) (f : FieldSide → FieldSide) : Out := .next (s.held { s with field := f s.field })

/-- INTLK_IN is asserted: module B withdraws (R369). Log entry 181 (DEDUCED). -/
def FieldSide.lineRises (f : FieldSide) : FieldSide :=
  if f.il.in_ then f
  else
    let f := { f with il := { f.il with in_ := true } }
    if f.run && f.il.out && f.role then f.withdraw else f

/-- INTLK_IN_RISE (R369). -/
def execIntlkInRise (s : State) : Out := intlkPin s (·.lineRises)

/-- INTLK_IN falls: the filter of R372 starts. Log entry 181 (DEDUCED). -/
def FieldSide.lineFalls (f : FieldSide) : FieldSide :=
  if !f.il.in_ then f
  else
    let f := f.noteBlocked
    { f with il := { f.il with in_ := false, fell := true, inLowAt := f.now } }

/-- INTLK_IN_FALL (R369, R372). -/
def execIntlkInFall (s : State) : Out := intlkPin s (·.lineFalls)

/-- CONTENTION_END (R369): 2 µs after the assertion. -/
def execContentionEnd (s : State) : Out :=
  fieldCmd s (fun f =>
    match f.il.contention with
    | some t => if 2000 ≤ dtDiff f.now t then { f with il := { f.il with contention := none } } else f
    | none => f)

/-- TAKEOVER_ASSERT (R369, R371, R372). -/
def execTakeoverAssert (s : State) : Out :=
  fieldCmd s (fun f =>
    let f := f.noteBlocked
    if f.mayAssert then f.raiseLine else f)

/-- HEARTBEAT_TIMEOUT (R372, R393): HB_OK falls on the host side, TAKEOVER_BLOCKED may follow on the field side; a side
that does not run takes no part. -/
def execHeartbeatTimeout (s : State) : Out :=
  .next (s.held { s with
    host := if s.host.run then s.host.heartbeatLost else s.host
    field := s.field.noteBlocked })

/-- ELIGIBILITY_LOSS (R371). -/
def execEligibilityLoss (s : State) : Out :=
  fieldCmd s (fun f => if f.il.out && !f.eligible then f.withdraw else f)

/-- INTLK_WATCHDOG_WRITE (R371). -/
def execIntlkWatchdogWrite (s : State) : Out :=
  fieldCmd s (fun f => { f with il := { f.il with watchdog := some f.now } })

/-- RELEASE_DEASSERT (R374, R391). -/
def execReleaseDeassert (s : State) : Out :=
  fieldCmd s (fun f => if f.il.out && f.releaseOver then f.withdraw else f)

/-! ## Doorbells and messages -/

/-- `ticks` of the host's raw count have passed since a count that is 0 for never, or one more than the count. -/
def HostSide.due (h : HostSide) (at_ ticks : Nat) : Bool := h.tb.due at_ ticks

/-- ELIGIBLE_RING (R370, R377, R381). -/
def execEligibleRing (s : State) : Out :=
  hostCmd s (fun h =>
    if h.flag Reg.TWN_CTRL_ELIGIBLE && !h.flag Reg.TWN_STATUS_ROLE_CONFLICT && h.get Reg.TWN_RESYNC_STATE != 1 &&
        h.due h.twin.bell4At 2000000 then
      ({ h with twin := { h.twin with bell4At := h.tb.raw.toNat + 1 } }).ring 4
    else h)

/-- TWIN_KICK (R376, R393). -/
def execTwinKick (who : Requester) (s : State) : Out :=
  regCmd s who (fun h =>
    if who.isSecure then (h.answer .none).kick
    else (h.bump Reg.TWN_COUNTS_SEC_VIOL).refuseWrite who)

/-- A RELEASE write: a release begins, or the module holds no authority, by the last field HEALTH (R391).
Log entries 184 (DEDUCED), 218 (DEDUCED). -/
def HostSide.release (h : HostSide) : HostSide :=
  if h.flag Reg.TWN_STATUS_AUTHORITY then ({ h with twin := { h.twin with releasing := true } }).ring 1
  else h.put Reg.TWN_STATUS_RELEASE_IGNORED 1

/-- TWIN_RELEASE (R391, R393). -/
def execTwinRelease (who : Requester) (s : State) : Out :=
  regCmd s who (fun h => (h.answer .none).release)

/-- TWIN_HEALTH_SEND (R376): every 10 ms. -/
def execTwinHealthSend (s : State) : Out :=
  hostCmd s (fun h => if h.due h.twin.healthAt 4000000 then h.twinHealth else h)

/-- HEARTBEAT_RX (R370, R376, R377, R393). Log entry 172 (DESIGN CHOICE). -/
def execHeartbeatRx (link : Fin 2) (flags : BitVec 8) (s : State) : Out :=
  hostCmd s (fun h => if h.linkUp (4 + link.val) then h.heartbeat flags.toNat else h)

/-- TWIN_HEALTH_RX (02_freshness.md R50, R370, R377, R393). Log entry 172 (DESIGN CHOICE). -/
def execTwinHealthRx (msg : TwinHealth) (s : State) : Out :=
  hostCmd s (fun h => if h.linkUp 4 || h.linkUp 5 then h.partnerHealth msg else h)

/-! ## Resynchronisation -/

/-- RESYNC_START (R381). Log entry 171 (DEDUCED). -/
def execResyncStart (s : State) : Out := hostCmd s (·.startResync)

/-- RESYNC_REQ_RX (R380, R381). Log entry 172 (DESIGN CHOICE). -/
def execResyncReqRx (s : State) : Out := hostCmd s (fun h => if h.linkUp 4 || h.linkUp 5 then h.answerResync else h)

/-- RESYNC_INFO_RX (R383). -/
def execResyncInfoRx (info : ResyncInfo) (s : State) : Out := hostCmd s (fun h => h.takeResyncInfo info)

/-- IMAGE_DATA_RX (R382). -/
def execImageDataRx (cell : ImageData) (s : State) : Out := hostCmd s (fun h => h.takeImageData cell)

/-! ## The dry launch (R379) -/

/-- The next enabled command target from `dryNext` on, in ascending order and round. Log entry 186 (DEDUCED). -/
def FieldSide.nextDry (f : FieldSide) : Option TargetEntry :=
  let on := f.act.targets.filter (fun e => e.enable == 1)
  (on.find? (fun e => decide (f.work.dryNext ≤ e.target))).or on.head?

/-- The frame for action 0 and argument 0 has a port and a command window that it fits. Log entry 186 (DEDUCED). -/
def FieldSide.dryFits (f : FieldSide) (e : TargetEntry) : Bool :=
  match f.portEntry e.port with
  | some pe =>
    let x := f.commandFrame e.port e ⟨0, e.target, 0, 0, 0, f.now, f.now, f.now, 0, false, ([], 0)⟩ f.now
    pe.mode != 0 && decide (frameBytes x.vid x.rtag x.body.bytes ≤ 1518 ∧ pe.takes x.vid x.rtag x.body ≤ pe.winLenNs)
  | none => false

/-- A dry launch, every 10 ms; `ok` says that the frame's CRC and length and the gate's refusal hold. Log entry 186 (DEDUCED). -/
def FieldSide.dryLaunch (f : FieldSide) (ok : Bool) : FieldSide :=
  if f.il.gateOpen || !f.tb.due f.work.dryAt 4000000 then f
  else
    match f.nextDry with
    | none => f
    | some e =>
      let pass := ok && f.dryFits e
      let g := f.setWork { f.work with dryNext := e.target + 1, dryAt := f.tb.raw.toNat + 1 }
      (if pass then g else g.logEvent 2 e.target 0).note (.dryLaunch pass)

/-- DRY_LAUNCH (R379). -/
def execDryLaunch (ok : Bool) (s : State) : Out := fieldCmd s (fun f => f.dryLaunch ok)

end Sys2Proof.Machine
end

