-- ==== Sys2Proof/Machine/Video.lean ====
section
/-! DEFINITION. Meanings of the commands of ingest and decoding (05_ingest_decode.md), and of the sweep of vintage tags
(02_freshness.md R30). -/

namespace Sys2Proof.Machine

/-- INGEST_FRAME (R107 to R119). -/
def execIngestFrame (port : Fin 4) (frame : NetFrame) (s : State) : Out := hostCmd s (fun h => h.ingest port.val frame)

/-- A host port answers a membership query with a report for each of its streams' groups (R107). -/
def HostSide.membership (h : HostSide) (port : Nat) (v6 : Bool) : HostSide :=
  h.cfg.streams.foldl (fun h e =>
    if e.enable = 1 ∧ e.multicast = 1 ∧ (e.ipv6 == 1) = v6 ∧ (e.portA = port ∨ (e.frer = 1 ∧ e.portB = port)) then
      h.send (.report port e.addr v6)
    else h) h

/-- A field port answers an IGMP query (10_field_points_commands.md R222). -/
def FieldSide.membership (f : FieldSide) (port : Nat) : FieldSide :=
  f.fieldCfg.sources.foldl (fun f e =>
    if e.enable = 1 ∧ e.multicast = 1 ∧ (e.portA = port ∨ (e.frer = 1 ∧ e.portB = port)) then
      f.sendReport port e.addr
    else f) f

/-- MEMBERSHIP_QUERY: field ports carry IPv4 only (R107, R222). -/
def execMembershipQuery (side : Side) (port : Fin 8) (v6 : Bool) (s : State) : Out :=
  match side with
  | .host => hostCmd s (fun h => if port.val < 4 ∧ h.hnMode port.val ≠ 0 then h.membership port.val v6 else h)
  | .field => fieldCmd s (fun f => if v6 then f else f.membership port.val)

/-- JB_HOLD_EXPIRY (R118). -/
def execJbHoldExpiry (stream : Fin 128) (s : State) : Out :=
  hostCmd s (fun h =>
    match h.streamEntry stream.val with
    | some e => if e.enable = 1 then (h.expireHolds stream.val e h.now).showStream stream.val else h
    | none => h)

/-- FRER_RESET_TIMEOUT (R116). -/
def execFrerResetTimeout (side : Side) (item : Fin 256) (s : State) : Out :=
  match side with
  | .host => hostCmd s (fun h =>
      let v := h.streamState item.val
      if item.val < 128 then
        (h.setStreamState item.val { v with frer := v.frer.timeout h.now }).showStream item.val
      else h)
  | .field => fieldCmd s (fun f =>
      let v := f.src item.val
      f.setSrc item.val { v with frer := v.frer.timeout f.now })

/-- SYNC_ATTEST: the attested window starts again (R113). -/
def execSyncAttest (who : Requester) (stream : Fin 128) (s : State) : Out :=
  regCmd s who (fun h =>
    let hold := ((h.streamEntry stream.val).map (·.syncHold)).getD 0
    let v := h.streamState stream.val
    ((h.answer .none).setStreamState stream.val
      { v with attested := some (windowFrom h.now v.attested hold) }).showStream stream.val)

/-- SYNC_REVOKE: the attested window ends (R113). -/
def execSyncRevoke (who : Requester) (stream : Fin 128) (s : State) : Out :=
  regCmd s who (fun h =>
    ((h.answer .none).setStreamState stream.val { h.streamState stream.val with attested := none }).showStream stream.val)

/-- SYNC_HOLD_EXPIRY (R113). -/
def execSyncHoldExpiry (stream : Fin 128) (s : State) : Out :=
  hostCmd s (fun h =>
    let v := h.streamState stream.val
    let keep (w : Option Window) : Option Window := if windowOpen h.now w then w else none
    (h.setStreamState stream.val { v with inband := keep v.inband, attested := keep v.attested }).showStream stream.val)

/-- TS_OFFSET_WRITE: the upper word, with the lower word held (R134, 00_scope.md R6). -/
def execTsOffsetWrite (who : Requester) (v : Word) (s : State) : Out :=
  regCmd s who (fun h => (h.answer .none).writeTsOffset v.toNat)

/-- DECODE_START (R122 to R125, R130 to R132). -/
def execDecodeStart (core : Fin 9) (facts : PictureFacts) (s : State) : Out :=
  hostCmd s (fun h => h.decodeStart core.val facts)

/-- PICTURE_COMPLETE (R125 to R129, R133). -/
def execPictureComplete (core : Fin 9) (facts : DecodedFacts) (s : State) : Out :=
  hostCmd s (fun h => h.pictureComplete core.val facts)

/-- DECODE_TIMEOUT (R133). -/
def execDecodeTimeout (core : Fin 9) (s : State) : Out := hostCmd s (fun h => h.decodeTimeout core.val)

/-- WT_PROBE (R134). -/
def execWtProbe (who : Requester) (v : Word) (s : State) : Out :=
  regCmd s who (fun h => (((h.answer .none).put Reg.DEC_WT_PROBE_LAYER v.toNat).put Reg.DEC_WT_PROBE_TILE
    (v.toNat / 2 ^ 10)).showTile)

/-- ANCIENT in the tags of surfaces and stitch transfers (R30). -/
def HostSide.sweepSurfaces (h : HostSide) : HostSide :=
  let now := h.vt
  let h := h.display.surfaces.foldl (fun h p =>
    match p.2 with
    | some v =>
      let t := v.tag.sweep now
      if t.ancient && !v.tag.ancient then
        (h.setSurface p.1 (some { v with tag := t })).frsEvent { code := 6, detail := p.1 }
      else h
    | none => h) h
  let sweep (r : Region) : Region := { r with latest := r.latest.map (fun x => { x with tag := x.tag.sweep now }) }
  let regions : Table Region := h.lanes.regions.foldl (fun t p => tput Region.empty t p.1 (sweep p.2)) []
  ({ h with lanes := { h.lanes with regions := regions } }).showSurf

/-- VINTAGE_SWEEP (R30). -/
def execVintageSweep (s : State) : Out := hostCmd s (fun h => h.sweepSurfaces.sweepPictures.sweepMimic)

end Sys2Proof.Machine
end

