-- ==== Sys2Proof/Machine/RegAccess.lean ====
section
/-! DEFINITION. Meanings of the plain register accesses (00_scope.md R5 to R11, 19_register_map.md R430 to R436): a write at
an offset acts as the register there; a register whose write is a command of its own acts as that command. -/

namespace Sys2Proof.Machine

/-- One access, then a second effect of the same write. Log entry 46 (DEDUCED). -/
def Out.andThen (o : Out) (f : State → Out) : Out :=
  match o with
  | .next s => f s
  | .fault r => .fault r
  | .refused r => .refused r

/-- An accepted write that only sets fields. -/
def plainWrite (who : Requester) (s : State) (f : HostSide → HostSide) : Out := regCmd s who (fun h => f (h.answer .none))

/-- A write to a register whose fields are all secure, where no counter counts a refusal (R433).
Log entry 210 (DEDUCED). -/
def securePlain (who : Requester) (s : State) (f : HostSide → HostSide) : Out :=
  regCmd s who (fun h => if who.isSecure then f (h.answer .none) else h.refuseWrite who)

/-- SYS.RESET (18_module_electrical.md R418): a write with another KEY, or without GO, is ignored.
Log entry 210 (DEDUCED). -/
def writeReset (who : Requester) (v : Nat) (s : State) : Out :=
  if bits v 16 16 = 0x5E70 ∧ bit v 0 = true then
    match bits v 1 2 with
    | 1 => execSoftResetHost who s
    | 2 => execSoftResetField who s
    | 3 => execSoftResetBoth who s
    | _ => plainWrite who s id
  else plainWrite who s id

/-- SYS.FW_CTRL (R421): a GO starts the operation that OP names. -/
def writeFwCtrl (who : Requester) (v : Nat) (s : State) : Out :=
  if bit v 31 then
    match bits v 0 2 with
    | 0 => plainWrite who s (·.fwGo 0)
    | 1 => execFwWriteHost who s
    | 2 => execFwWriteField who s
    | _ => execFwSelectHost who s
  else plainWrite who s id

/-- The SYS block. -/
def writeSys (who : Requester) (off v : Nat) (s : State) : Out :=
  match off with
  | 0x10 => writeReset who v s
  | 0x20 => execInvarStatusWrite who (BitVec.ofNat 32 v) s
  | 0x3c => writeFwCtrl who v s
  | 0x5c => execLogRdWrite who (BitVec.ofNat 32 v) s
  | _ => plainWrite who s (·.writeReg off v)

/-- The TRT block (14_tartan_protection.md): REMAP and LOCK_FORCE.GO act for secure privileged contexts only (R433). -/
def writeTrt (who : Requester) (core : Fin 8) (off v : Nat) (s : State) : Out :=
  match off with
  | 0x10000 =>
    if bit v 0 = true ∨ who.isSecurePriv = false then execRemap who s else plainWrite who s id
  | 0x1000c => if bit v 31 then execLockForce who (Fin.ofNat 256 (bits v 0 8)) s else plainWrite who s id
  | _ =>
    match instOf off 0x11000 4 256 with
    | some n => execLockRelease who core (Fin.ofNat 256 n) (BitVec.ofNat 32 v) s
    | none => plainWrite who s (·.writeReg off v)

/-- The MPU block and its region table (R331, R332, R334). -/
def writeMpu (who : Requester) (off v : Nat) (s : State) : Out :=
  if off = 0x20000 then execMpuSyncWrite who (BitVec.ofNat 32 v) s
  else
    match instOf off 0x28000 4 (47 * 128) with
    | some i => execMpuRegionWrite who (Fin.ofNat 47 (i / 128)) (Fin.ofNat 32 (i % 128 / 4)) (Fin.ofNat 4 (i % 4)) (BitVec.ofNat 32 v) s
    | none => plainWrite who s (·.writeReg off v)

/-- The CST block (13_central_store.md). -/
def writeCst (who : Requester) (off v : Nat) (s : State) : Out :=
  match off with
  | 0x40004 =>
    if bit v 31 = true ∨ who.isSecure = false then execChannelRetire who (Fin.ofNat 16 (bits v 0 4)) s else plainWrite who s id
  | 0x40024 => execUeSelect who (BitVec.ofNat 32 v) s
  | 0x40040 =>
    if bit v 16 then execCwinFlush who (BitVec.ofNat 32 v) s else execCwinSelect who (BitVec.ofNat 32 v) s
  | _ =>
    match instOf off 0x40100 0x20 12 with
    | some c => if bits v 0 2 = 3 then plainWrite who s id else execChannelRateWrite who (Fin.ofNat 12 c) (BitVec.ofNat 32 v) s
    | none => plainWrite who s (·.writeReg off v)

/-- The taps of LNE.TXEQ[l] take writes only for head, network and spare lanes and for SL3 in ILM-2400 mode (R365). -/
def HostSide.tapsWritable (h : HostSide) (l : Nat) : Bool :=
  decide (laneRole l ≤ 1) || laneRole l == 5 || (decide (68 ≤ l ∧ l < 72) && h.ilm2400 3)

/-- The LNE block (15_lanes.md): LNE.SPARE_CTRL[k] is secure. -/
def writeLne (who : Requester) (off v : Nat) (s : State) : Out :=
  if off = 0x80004 then plainWrite who s (·.writeHnModes v)
  else
    match instOf off 0x80100 8 16 with
    | some k =>
      let o := securePlain who s (·.writeSpare k v)
      if bit v 31 && who.isSecure then o.andThen (execSpareSwap who (Fin.ofNat 16 k)) else o
    | none =>
      match instOf off 0x8100c 0x20 96 with
      | some l => plainWrite who s (fun h => if h.tapsWritable l then h.writeReg off v else h)
      | none => plainWrite who s (·.writeReg off v)

/-- The ING block (05_ingest_decode.md R113, R134): a REVOKE and an ATTEST in the same write leave no evidence. -/
def writeIng (who : Requester) (off v : Nat) (s : State) : Out :=
  if off = 0x100004 then execTsOffsetWrite who (BitVec.ofNat 32 v) s
  else
    match instOf off 0x101014 0x20 128 with
    | some n =>
      if bit v 1 then execSyncRevoke who (Fin.ofNat 128 n) s
      else if bit v 0 then execSyncAttest who (Fin.ofNat 128 n) s
      else plainWrite who s id
    | none => plainWrite who s (·.writeReg off v)

/-- The DEC block (R134). -/
def writeDec (who : Requester) (off v : Nat) (s : State) : Out :=
  if off = 0x140040 then execWtProbe who (BitVec.ofNat 32 v) s else plainWrite who s (·.writeReg off v)

/-- The ENC block (09_encode.md R216): a GO submits the set. -/
def writeEnc (who : Requester) (off v : Nat) (s : State) : Out :=
  let o := plainWrite who s (·.writeReg off v)
  match instOf off 0x18040c 0x40 16 with
  | some x =>
    if bit v 31 then
      o.andThen (if bit v 8 then execRcSubmitIdr who (Fin.ofNat 16 x) else execRcSubmit who (Fin.ofNat 16 x))
    else o
  | none => o

/-- CMP.SURF_CMD (06_composition.md R152): OP 1 RELEASE, 2 RELEASE_RETAIN, any other none. -/
def writeSurfCmd (who : Requester) (v : Nat) (s : State) : Out :=
  match bits v 12 2 with
  | 1 => execSurfaceRelease who (Fin.ofNat 4096 (bits v 0 12)) (Fin.ofNat 64 (bits v 16 6)) s
  | 2 => execSurfaceReleaseRetain who (Fin.ofNat 4096 (bits v 0 12)) (Fin.ofNat 64 (bits v 16 6)) s
  | _ => plainWrite who s id

/-- The CMP block and the layer descriptor table (06_composition.md). -/
def writeCmp (who : Requester) (off v : Nat) (s : State) : Out :=
  match off with
  | 0x200020 => writeSurfCmd who v s
  | 0x200040 => execSurfProbe who (BitVec.ofNat 32 v) s
  | 0x200044 => plainWrite who s (·.writeSurfStatus v)
  | 0x200050 => execSurfTagWrite who (BitVec.ofNat 32 v) s
  | _ => if 0x280000 ≤ off then plainWrite who s (·.writeLayerTable off v) else plainWrite who s (·.writeReg off v)

/-- The HDS block (08_heads.md). -/
def writeHds (who : Requester) (off v : Nat) (s : State) : Out :=
  match instOf off 0x301000 0x40 48 with
  | some k =>
    if bit v 31 then
      if bit v 8 then execCommitTargeted who (Fin.ofNat 48 k) (BitVec.ofNat 8 v) s else execCommit who (Fin.ofNat 48 k) s
    else plainWrite who s id
  | none =>
    match instOf off 0x301020 0x40 48 with
    | some k => plainWrite who s (·.writeTeCtrl k v)
    | none => plainWrite who s (·.writeReg off v)

/-- The MIM block (07_mimic.md R184). -/
def writeMim (who : Requester) (off v : Nat) (s : State) : Out :=
  match off with
  | 0x380020 => execWidgetProbe who (BitVec.ofNat 32 v) s
  | 0x380030 => execCellProbe who (BitVec.ofNat 32 v) s
  | _ => plainWrite who s (·.writeReg off v)

/-- The FRS block (02_freshness.md). -/
def writeFrs (who : Requester) (off v : Nat) (s : State) : Out :=
  if off = 0x3c001c then execEvtRdWrite who (BitVec.ofNat 32 v) s
  else
    match instOf off 0x3c1000 8 1024 with
    | some l => plainWrite who s (·.writeLayerState l v)
    | none =>
      match instOf off 0x3c1004 8 1024 with
      | some l => execLayerBudgetWrite who (Fin.ofNat 1024 l) (BitVec.ofNat 32 v) s
      | none => plainWrite who s (·.writeReg off v)

/-- A write of a port correction (R283): what it replaces is in force for the rest of the tick. -/
def HostSide.writeCorr (h : HostSide) (off v : Nat) : HostSide :=
  let old := h.get ⟨off, 0, 32, 0, .rw⟩
  let h := h.writeReg off v
  if tget 0 h.corrOld off = 0 then { h with corrOld := tput 0 h.corrOld off (old + 1) } else h

/-- A write of TIM.GPTP_CTRL (R280): a network port that it switches off is slave no more. -/
def HostSide.writeGptpCtrl (h : HostSide) (v : Nat) : HostSide :=
  let h := h.writeReg 0x400040 v
  HostSide.showSlave ({ h with tb := (List.range 4).foldl (fun t p =>
    if bit (h.get Reg.TIM_GPTP_CTRL_HN_EN) p then t else t.portOff p) h.tb })

/-- The TIM block (12_time.md R274, R275, R282, R285, R287). -/
def writeTim (who : Requester) (off v : Nat) (s : State) : Out :=
  match off with
  | 0x400010 => execIncrWrite .host who (BitVec.ofNat 32 v) s
  | 0x400018 => regCmd s who (fun h => h.timWrite who (fun h => h.holdLow 0x400018 v))
  | 0x40001c => execOffsetStep .host who (BitVec.ofNat 32 v) 0 s
  | 0x400020 => plainWrite who s (fun h => if h.activeId = 0 then h.holdLow 0x400020 v else h)
  | 0x400024 => plainWrite who s (·.writeShiftHi v)
  | 0x400030 =>
    if bit v 0 then execSyncConfirm .host who (bit v 1) s
    else if bit v 1 then execSyncLose .host who s
    else regCmd s who (fun h => h.timWrite who id)
  | 0x400038 => regCmd s who (fun h => h.timWrite who (·.writeReg off v))
  | 0x400040 => regCmd s who (fun h => h.timWrite who (·.writeGptpCtrl v))
  | _ => if 0x400100 ≤ off then plainWrite who s (·.writeCorr off v) else plainWrite who s (·.writeReg off v)

/-- The registers of a crossing channel or host mailbox (11_crossing.md R249 to R256). -/
def writeChannel (who : Requester) (c : Fin 80) (r off v : Nat) (s : State) : Out :=
  if !isReg off then plainWrite who s id
  else if secureChan c.val && !who.isSecure then regCmd s who (fun h => h.secViol who false)
  else
    match r with
    | 0x40 => if bit v 0 then execMbxPush who c s else plainWrite who s id
    | 0xc0 => if bit v 0 then execMbxPop who c s else plainWrite who s id
    | 0xc8 => execMbxAck who c (BitVec.ofNat 32 v) s
    | _ => plainWrite who s (·.writeReg off v)

/-- The MBX block (R249, R258): doorbells 0 to 31 are secure. -/
def writeMbx (who : Requester) (off v : Nat) (s : State) : Out :=
  match off with
  | 0x418010 => execDoorbellRing .host who false (BitVec.ofNat 32 v) s
  | 0x418014 => execDoorbellRing .host who true (BitVec.ofNat 32 v) s
  | 0x418018 =>
    if v = 0 ∨ who.isSecure = true then plainWrite who s (·.writeReg off v)
    else regCmd s who (fun h => h.secViol who false)
  | _ =>
    if off < 0x418000 then writeChannel who (Fin.ofNat 80 ((off - 0x410000) / 0x100)) ((off - 0x410000) % 0x100) off v s
    else plainWrite who s (·.writeReg off v)

/-- The CRC block (17_data_engines.md R405): the parameters are writable while the unit is idle. -/
def writeCrc (who : Requester) (off v : Nat) (s : State) : Out :=
  if off = 0x420008 then execPaceWrite who 2 (BitVec.ofNat 32 v) s
  else
    match instOf off 0x420100 0x40 8 with
    | some u => plainWrite who s (·.crcCtrl u v)
    | none =>
      if 0x420100 ≤ off ∧ off < 0x420300 then
        plainWrite who s (fun h =>
          if h.flag (Reg.CRC_STATUS_BUSY ((off - 0x420100) / 0x40)) then h.writeActive off v else h.writeReg off v)
      else plainWrite who s (·.writeReg off v)

/-- DFL.CMD (R403): two command bits together are ignored. -/
def writeDflCmd (who : Requester) (e : Fin 2) (v : Nat) (s : State) : Out :=
  let fin := Fin.ofNat 4 (bits v 3 2)
  match bit v 0, bit v 1, bit v 2 with
  | false, false, false => regCmd s who (fun h => h.engineWrite who e.val id)
  | true, false, false => execDflStart who e fin s
  | false, true, false => execDflContinue who e fin s
  | false, false, true => execDflAbort who e s
  | _, _, _ => regCmd s who (fun h => h.engineWrite who e.val (fun h => h.dflIgnore e.val))

/-- The DFL block (R394, R403): every register of engine 1 is secure. -/
def writeDfl (who : Requester) (off v : Nat) (s : State) : Out :=
  if off < 0x430100 ∨ isReg off = false then plainWrite who s (·.writeReg off v)
  else
    let e := Fin.ofNat 2 ((off - 0x430100) / 0x100)
    match (off - 0x430100) % 0x100 with
    | 0x04 => writeDflCmd who e v s
    | 0x3c => execPaceWrite who (Fin.ofNat 3 e.val) (BitVec.ofNat 32 v) s
    | _ => regCmd s who (fun h => h.engineWrite who e.val (fun h =>
        if h.flag (Reg.DFL_STATUS_BUSY e.val) then h.writeActive off v else h.writeReg off v))

/-- TWN.CTRL (16_twin_repair.md R391, R393): RELEASE from any source; ELIGIBLE from secure contexts, any other attempt
counted. Log entry 46 (DEDUCED). -/
def writeTwnCtrl (who : Requester) (v : Nat) (s : State) : Out :=
  let o := if bit v 0 then execTwinRelease who s else plainWrite who s id
  o.andThen (fun s => regCmd s who (fun h =>
    if who.isSecure then h.putB Reg.TWN_CTRL_ELIGIBLE (bit v 1)
    else if bit v 1 = h.flag Reg.TWN_CTRL_ELIGIBLE then h
    else (h.bump Reg.TWN_COUNTS_SEC_VIOL).refuseWrite who))

/-- The TWN block. Log entry 210 (DEDUCED). -/
def writeTwn (who : Requester) (off v : Nat) (s : State) : Out :=
  match off with
  | 0x440000 => writeTwnCtrl who v s
  | 0x440004 => if bit v 0 = true ∨ who.isSecure = false then execTwinKick who s else plainWrite who s id
  | _ => plainWrite who s (·.writeReg off v)

/-- SIM.CTRL (03_structure_image.md R70, R73): its triggers act in the order of their bits. Log entry 46 (DEDUCED). -/
def writeSimCtrl (who : Requester) (v : Nat) (s : State) : Out :=
  let o := if bit v 0 then execImageVerify who s else plainWrite who s id
  let o := if bit v 1 then o.andThen (execImageArm who) else o
  if bit v 2 then o.andThen (execImageCancel who) else o

/-- The BCK, SIM, RPR and STC blocks. -/
def writeUpper (who : Requester) (off v : Nat) (s : State) : Out :=
  match off with
  | 0x450010 => execBckQuery who (BitVec.ofNat 32 v) s
  | 0x458000 => writeSimCtrl who v s
  | 0x458050 => execOverrideArm who (BitVec.ofNat 32 v) s
  | _ =>
    match instOf off 0x470000 0x40 6 with
    | some k => if bit v 0 then execLinkRetrain who (Fin.ofNat 6 k) s else securePlain who s id
    | none => plainWrite who s (·.writeReg off v)

/-- A word written at a BAR0 offset, by the block that holds it (19_register_map.md R431). Log entry 191 (DEDUCED). -/
def writeBar0 (who : Requester) (core : Fin 8) (off v : Nat) (s : State) : Out :=
  if off < 0x10000 then writeSys who off v s
  else if off < 0x20000 then writeTrt who core off v s
  else if off < 0x40000 then writeMpu who off v s
  else if off < 0x80000 then writeCst who off v s
  else if off < 0x100000 then writeLne who off v s
  else if off < 0x140000 then writeIng who off v s
  else if off < 0x180000 then writeDec who off v s
  else if off < 0x200000 then writeEnc who off v s
  else if off < 0x300000 then writeCmp who off v s
  else if off < 0x380000 then writeHds who off v s
  else if off < 0x3c0000 then writeMim who off v s
  else if off < 0x400000 then writeFrs who off v s
  else if off < 0x410000 then writeTim who off v s
  else if off < 0x420000 then writeMbx who off v s
  else if off < 0x430000 then writeCrc who off v s
  else if off < 0x440000 then writeDfl who off v s
  else if off < 0x450000 then writeTwn who off v s
  else writeUpper who off v s

/-- The master port through which a requester reaches the register space (14_tartan_protection.md R314). -/
def Requester.port (who : Requester) : Nat :=
  match who.src with
  | .pcie => 34
  | .hcc k => 35 + k.val

/-- The MPU forbids an access to BAR0, judged before its address is decoded (14_tartan_protection.md R316, R328). -/
def HostSide.barForbidden (h : HostSide) (who : Requester) (write : Bool) (off n : Nat) : Bool :=
  !h.mpuAllows who.port (who.priv && who.src != .pcie) (who.secure && who.src != .pcie) write (0x10000000 + off) n

/-- The fault of a forbidden access to BAR0 (14_tartan_protection.md R329). -/
def HostSide.barFault (h : HostSide) (who : Requester) (write : Bool) (off n : Nat) : HostSide :=
  (h.mpuFault who.port (who.priv && who.src != .pcie) (who.secure && who.src != .pcie) write (0x10000000 + off) n).refuseAccess
    who.port write

/-- REGISTER_WRITE (R5, R7 to R10, R430, R433 to R435): a write of another size or alignment has no effect, nor
has one that the MPU forbids (14_tartan_protection.md R328). Log entries 34 (DEDUCED), 191 (DEDUCED). -/
def execRegisterWrite (who : Requester) (core : Fin 8) (bar4 : Bool) (size off : Nat) (v : BitVec 64) (s : State) : Out :=
  if bar4 then regCmd s who (fun h => h.writeBar4 who size off v.toNat)
  else if s.host.barForbidden who true off size then regCmd s who (fun h => h.barFault who true off size)
  else if size = 4 ∧ off % 4 = 0 then writeBar0 who core off (v.toNat % 2 ^ 32) s
  else regCmd s who (fun h => h.refuseWrite who)

/-- A read of another size or alignment (R5): a non-posted request ends with Unsupported Request, a core's with a bus error. -/
def HostSide.refuseRead (h : HostSide) (who : Requester) : HostSide :=
  match who.src with
  | .pcie => h.answer .unsupportedRequest
  | .hcc _ => h.answer .busError

/-- Registers that only secure contexts reach, reads included (11_crossing.md R249): those of XM0 to XM15 and the words of
doorbells 0 to 31. -/
def secureRead (off : Nat) : Bool :=
  (decide (0x410000 ≤ off ∧ off < 0x411000) && isReg off) || off == 0x418010 || off == 0x418018

/-- MBX.ACKQ lies at the offset, and of which channel. -/
def ackqAt (off : Nat) : Option Nat := instOf off 0x410048 0x100 80

/-- A read of a word of BAR0 (R5 to R11): CMP.REL_DONE, MBX.ACKQ, TRT.LK and MPU.SYNC are read under their own rules
(06_composition.md R153, 11_crossing.md R256, 14_tartan_protection.md R325, R332). Before the end of start-up step 4 the PCIe
endpoint reads SYS.ID and SYS.BOOT_STATUS, and 0 elsewhere (R424). `events` are the counters that hardware increments in the
same cycle. Log entries 39 (DEDUCED), 193 (DEDUCED), 196 (DEDUCED), 197 (DESIGN CHOICE). -/
def readBar0 (who : Requester) (r : RegRead) (events : List Nat) (s : State) : Out :=
  let off := r.off
  if s.host.barForbidden who false off r.size then
    hostCmd s (fun h => if h.pcieUp = true ∨ who.src ≠ .pcie then h.barFault who false off r.size else h)
  else if r.size ≠ 4 ∨ off % 4 ≠ 0 then hostCmd s (fun h => if h.pcieUp = true ∨ who.src ≠ .pcie then h.refuseRead who else h)
  else if off = 0 ∨ off = 4 then
    hostCmd s (fun h => if h.pcieUp = true ∨ who.src ≠ .pcie then h.readWord off events else h)
  else if off = 0x200018 then execRelDoneRead who s
  else if off = 0x20000 then execMpuSyncRead who s
  else match ackqAt off, instOf off 0x11000 4 256 with
  | some c, _ => execAckqRead who (Fin.ofNat 80 c) s
  | none, some n => execLockRead who r.core (Fin.ofNat 256 n) s
  | none, none => readCmd s who (fun h =>
      if secureRead off && !who.isSecure then h.secViol who true else h.readWord off events)

/-- PAIR_LOW_READ (R5, R6). Log entry 196 (DEDUCED). -/
def execPairLowRead (who : Requester) (r : RegRead) (s : State) : Out := readBar0 who r [] s

/-- RC_COUNTER_READ (R10, R11). Log entry 193 (DEDUCED). -/
def execRcCounterRead (who : Requester) (r : RegRead) (events : List Nat) (s : State) : Out := readBar0 who r events s

end Sys2Proof.Machine
end

