-- ==== Sys2Proof/Machine/Repair.lean ====
section
/-! DEFINITION. In-service repair (16_twin_repair.md R384 to R389): the checks by CE8 and DC8, engine faults and SRAM rows. -/

namespace Sys2Proof.Machine

/-! ## Rotation -/

/-- The number after `last` (one more than a number, or 0) among ascending numbers, round. -/
def nextOf (ns : List Nat) (last : Nat) : Option Nat := (ns.find? (fun n => decide (last ≤ n))).or ns.head?

/-- Heads that an engine composes now. -/
def HostSide.headsOn (h : HostSide) (g : Nat) : List Nat :=
  (List.range 48).filter (fun k => match (h.head k).time with
    | some t => h.engineOf k t.entry == g
    | none => false)

/-- Engines in service (R384). -/
def HostSide.activeEngines (h : HostSide) : List Nat :=
  (List.range 8).filter (fun g => !h.flag (Reg.CMP_ENGINE_STATUS_FAULTED g) && !(h.headsOn g).isEmpty)

/-- The unit to be sampled: the one that a mismatch has picked, while that lasts, or the next in turn. -/
def Rotation.unit (r : Rotation) (units : List Nat) : Option Nat :=
  match r.again with
  | some (u, n) => if 0 < n ∧ units.contains u then some u else nextOf units r.lastUnit
  | none => nextOf units r.lastUnit

/-- The rotation after a sample. -/
def Rotation.taken (r : Rotation) (s : Sample) (raw : Nat) : Rotation :=
  { r with
    lastUnit := s.unit + 1
    sample := some s
    again := match r.again with
      | some (u, n) => if n ≤ 1 then none else some (u, n - 1)
      | none => none
    at_ := raw + 1 }

/-- A confirmed mismatch of a unit: it is sampled again in the next 10 periods; the second within 1 s is a fault (R385). -/
def Rotation.missed (r : Rotation) (u : Nat) (now : DT) : Rotation × Bool :=
  let second := match tget none r.misses u with
    | some t => decide (dtDiff now t < 1000000000)
    | none => false
  ({ r with again := some (u, 10), misses := tput none r.misses u (some now) }, second)

/-! ## Comparison holds (06_composition.md R149) -/

def HostSide.holdBufs (h : HostSide) (bs : List Buf) : HostSide :=
  ({ h with display := { h.display with compares := h.display.compares ++ bs } }).settle

/-- The holds of a sample end; releases that waited for them complete (R153). -/
def HostSide.endHolds (h : HostSide) (bs : List Buf) : HostSide :=
  ({ h with display := { h.display with compares := bs.foldl (fun l b => l.erase b) h.display.compares } }).settle

/-- RPR.LAST_MISMATCH. Log entry 188 (DEDUCED). -/
def HostSide.showMismatch (h : HostSide) (s : Sample) (decoder : Bool) : HostSide :=
  (((h.put Reg.RPR_LAST_MISMATCH_UNIT s.unit).putB Reg.RPR_LAST_MISMATCH_DECODER decoder).put Reg.RPR_LAST_MISMATCH_INDEX
    s.index).put Reg.RPR_LAST_MISMATCH_SLICE s.slice

/-! ## The spare engine (R384 to R386) -/

/-- The sample that is due: the next engine, its next head and the head's next slice, once that slice is in
composition. Log entry 187 (DEDUCED). -/
def HostSide.nextSample (h : HostSide) : Option Sample :=
  let r := h.twin.ce
  match r.unit h.activeEngines with
  | none => none
  | some g =>
    match nextOf (h.headsOn g) (tget 0 r.lastHead g) with
    | none => none
    | some k =>
      let n := ((h.head k).time.map (·.entry.slices)).getD 1
      let s := tget 0 r.lastSlice k % n
      (((h.head k).filling ++ (h.head k).composing).find? (fun c => c.slice == s)).map (fun c => ⟨g, k, s, c.bufs⟩)

/-- CE8 samples a slice every 5 ms unless it has replaced an engine or is faulted. Log entry 187 (DEDUCED). -/
def HostSide.ceSample (h : HostSide) : HostSide :=
  let r := h.twin.ce
  if h.display.ce8For.isSome || h.flag (Reg.CMP_ENGINE_STATUS_FAULTED 8) || r.sample.isSome || !h.due r.at_ 2000000 then h
  else
    match h.nextSample with
    | none => h
    | some s =>
      let r := r.taken s h.tb.raw.toNat
      let r := { r with lastHead := tput 0 r.lastHead s.unit (s.index + 1), lastSlice := tput 0 r.lastSlice s.index (s.slice + 1) }
      ({ h with twin := { h.twin with ce := r } }).holdBufs s.bufs

/-- CE_SAMPLE (R384). -/
def execCeSample (s : State) : Out := hostCmd s (·.ceSample)

/-- The hashes of a sample are compared (R384, R385). Log entry 188 (DEDUCED). -/
def HostSide.ceCompare (h : HostSide) (v : CompareFacts) : HostSide :=
  match h.twin.ce.sample with
  | none => h
  | some s =>
    let h := { h with twin := { h.twin with ce := { h.twin.ce with sample := none }, cePassed := v.same } }
    let h := (h.countWrap Reg.RPR_CE_COUNTS_SAMPLES).endHolds s.bufs
    if v.same then h
    else
      let h := h.showMismatch s false
      if !v.stable then h.markEngine 8
      else
        let (r, fault) := h.twin.ce.missed s.unit h.now
        let h := ({ h with twin := { h.twin with ce := r } }).bump Reg.RPR_CE_COUNTS_MISMATCHES
        if fault then h.markEngine s.unit else h

/-- CE_COMPARE (R384 to R386, 06_composition.md R153). -/
def execCeCompare (facts : CompareFacts) (s : State) : Out := hostCmd s (fun h => h.ceCompare facts)

/-- ENGINE_SELF_CHECK_FAULT (R385, R386). -/
def execEngineSelfCheckFault (engine : Fin 9) (s : State) : Out := hostCmd s (fun h => h.markEngine engine.val)

/-! ## The spare core (R387) -/

/-- Streams whose core has just started a picture, with a context that had 2 free tokens then: the picture in progress
holds one of them. Log entry 189 (DEDUCED). -/
def HostSide.sampleStreams (h : HostSide) : List Nat :=
  (List.range 128).filter (fun s =>
    match h.streamEntry s, h.coreOf s with
    | some e, some c => c != 8 && ((h.core c).current.map (·.rel.stream)) == some s && decide (h.tokensHeld s + 1 ≤ e.tokens)
    | _, _ => false)

/-- The core of a stream. -/
def HostSide.coreNow (h : HostSide) (s : Nat) : Nat := (h.coreOf s).getD 8

/-- DC8 samples a picture every 100 ms unless it has replaced a core or is faulted; after a mismatch, one of the same
core. Log entry 189 (DEDUCED). -/
def HostSide.dcSample (h : HostSide) : HostSide :=
  let r := h.twin.dc
  if h.video.dc8For.isSome || h.flag (Reg.DEC_CORE_STATUS_FAULTED 8) || r.sample.isSome || !h.due r.at_ 40000000 then h
  else
    let all_ := h.sampleStreams
    let some_ := match r.again with
      | some (u, _) => let l := all_.filter (fun s => h.coreNow s == u)
                       if l.isEmpty then all_ else l
      | none => all_
    match nextOf some_ (tget 0 r.lastHead 0) with
    | none => h
    | some i =>
      match (h.core (h.coreNow i)).current with
      | none => h
      | some d =>
        let s : Sample := ⟨h.coreNow i, i, 0, (d.id :: d.refs).map Buf.picture⟩
        let r := r.taken s h.tb.raw.toNat
        ({ h with twin := { h.twin with dc := { r with lastHead := tput 0 r.lastHead 0 (i + 1) } } }).holdBufs s.bufs

/-- DC_SAMPLE (R387). -/
def execDcSample (s : State) : Out := hostCmd s (·.dcSample)

/-- The hashes of a sampled picture are compared (R385, R387). Log entry 188 (DEDUCED). -/
def HostSide.dcCompare (h : HostSide) (v : CompareFacts) : HostSide :=
  match h.twin.dc.sample with
  | none => h
  | some s =>
    let h := { h with twin := { h.twin with dc := { h.twin.dc with sample := none }, dcPassed := v.same } }
    let h := (h.countWrap Reg.RPR_DC_COUNTS_SAMPLES).endHolds s.bufs
    if v.same then h
    else
      let h := h.showMismatch s true
      if !v.stable then h.markCore 8
      else
        let (r, fault) := h.twin.dc.missed s.unit h.now
        let h := ({ h with twin := { h.twin with dc := r } }).bump Reg.RPR_DC_COUNTS_MISMATCHES
        if fault then h.markCore s.unit else h

/-- DC_COMPARE (R387, 05_ingest_decode.md R133, 06_composition.md R153). -/
def execDcCompare (facts : CompareFacts) (s : State) : Out := hostCmd s (fun h => h.dcCompare facts)

/-! ## SRAM rows (R389) -/

/-- SRAM_ROW_REPAIR (R389). -/
def execSramRowRepair (side : Side) (array row : Nat) (s : State) : Out :=
  match side with
  | .host => hostCmd s (fun h => h.repairRow array row)
  | .field => fieldCmd s (fun f => f.repairRow array row)

end Sys2Proof.Machine
end

