-- ==== Sys2Proof/Machine/Dispatch.lean ====
section
/-! DEFINITION. The meaning of every command: one arm per constructor of `Instr`, each a direct call of its
meaning. -/

namespace Sys2Proof.Machine

open Sys2Proof

/-- The effect of a command on everything but the queue. -/
def exec (i : Instr) (s : State) : Host.Outcome State Fault Refusal :=
  match i with
  | .hostPowerOn => Sys2Proof.Machine.execHostPowerOn s
  | .hostPowerOff => Sys2Proof.Machine.execHostPowerOff s
  | .fieldPowerOn => Sys2Proof.Machine.execFieldPowerOn s
  | .fieldPowerOff => Sys2Proof.Machine.execFieldPowerOff s
  | .hostRstAssert holdUs => Sys2Proof.Machine.execHostRstAssert holdUs s
  | .hostRstRelease slot role => Sys2Proof.Machine.execHostRstRelease slot role s
  | .fieldRstAssert holdUs => Sys2Proof.Machine.execFieldRstAssert holdUs s
  | .fieldRstRelease role => Sys2Proof.Machine.execFieldRstRelease role s
  | .pciePerst asserted => Sys2Proof.Machine.execPciePerst asserted s
  | .startupStepDone work => Sys2Proof.Machine.execStartupStepDone work s
  | .startupStepTimeout => Sys2Proof.Machine.execStartupStepTimeout s
  | .fieldStartupStepDone work => Sys2Proof.Machine.execFieldStartupStepDone work s
  | .thermalTrip side => Sys2Proof.Machine.execThermalTrip side s
  | .tempMeasure side temp => Sys2Proof.Machine.execTempMeasure side temp s
  | .softResetHost who => Sys2Proof.Machine.execSoftResetHost who s
  | .softResetField who => Sys2Proof.Machine.execSoftResetField who s
  | .softResetBoth who => Sys2Proof.Machine.execSoftResetBoth who s
  | .fwWriteHost who => Sys2Proof.Machine.execFwWriteHost who s
  | .fwWriteField who => Sys2Proof.Machine.execFwWriteField who s
  | .fwSelectHost who => Sys2Proof.Machine.execFwSelectHost who s
  | .fwOpComplete found => Sys2Proof.Machine.execFwOpComplete found s
  | .registerWrite who core bar4 size off v => Sys2Proof.Machine.execRegisterWrite who core bar4 size off v s
  | .pairLowRead who r => Sys2Proof.Machine.execPairLowRead who r s
  | .invariantTimer => Sys2Proof.Machine.execInvariantTimer s
  | .invarStatusWrite who v => Sys2Proof.Machine.execInvarStatusWrite who v s
  | .isolationLockLost ch => Sys2Proof.Machine.execIsolationLockLost ch s
  | .isolationLockGained ch => Sys2Proof.Machine.execIsolationLockGained ch s
  | .vintageSweep => Sys2Proof.Machine.execVintageSweep s
  | .sliceComposeStart head slice facts => Sys2Proof.Machine.execSliceComposeStart head slice facts s
  | .sliceHandover head => Sys2Proof.Machine.execSliceHandover head s
  | .sliceDeadlineMiss head frame slice => Sys2Proof.Machine.execSliceDeadlineMiss head frame slice s
  | .packetEmit head => Sys2Proof.Machine.execPacketEmit head s
  | .sliceEmitComplete head => Sys2Proof.Machine.execSliceEmitComplete head s
  | .layerBudgetWrite who layer v => Sys2Proof.Machine.execLayerBudgetWrite who layer v s
  | .evtRdWrite who v => Sys2Proof.Machine.execEvtRdWrite who v s
  | .logRdWrite who v => Sys2Proof.Machine.execLogRdWrite who v s
  | .imageVerify who => Sys2Proof.Machine.execImageVerify who s
  | .fieldConfigTimeout => Sys2Proof.Machine.execFieldConfigTimeout s
  | .admissionComplete runMs => Sys2Proof.Machine.execAdmissionComplete runMs s
  | .imageArm who => Sys2Proof.Machine.execImageArm who s
  | .imageCancel who => Sys2Proof.Machine.execImageCancel who s
  | .overrideArm who v => Sys2Proof.Machine.execOverrideArm who v s
  | .commitPoint => Sys2Proof.Machine.execCommitPoint s
  | .imageActivate => Sys2Proof.Machine.execImageActivate s
  | .headSwitch head => Sys2Proof.Machine.execHeadSwitch head s
  | .mimicDrawComplete facts => Sys2Proof.Machine.execMimicDrawComplete facts s
  | .peerImageMsg imageId epoch admits target => Sys2Proof.Machine.execPeerImageMsg imageId epoch admits target s
  | .bckQuery who v => Sys2Proof.Machine.execBckQuery who v s
  | .ingestFrame port frame => Sys2Proof.Machine.execIngestFrame port frame s
  | .membershipQuery side port v6 => Sys2Proof.Machine.execMembershipQuery side port v6 s
  | .jbHoldExpiry stream => Sys2Proof.Machine.execJbHoldExpiry stream s
  | .frerResetTimeout side item => Sys2Proof.Machine.execFrerResetTimeout side item s
  | .syncAttest who stream => Sys2Proof.Machine.execSyncAttest who stream s
  | .syncRevoke who stream => Sys2Proof.Machine.execSyncRevoke who stream s
  | .syncHoldExpiry stream => Sys2Proof.Machine.execSyncHoldExpiry stream s
  | .tsOffsetWrite who v => Sys2Proof.Machine.execTsOffsetWrite who v s
  | .decodeStart core facts => Sys2Proof.Machine.execDecodeStart core facts s
  | .pictureComplete core facts => Sys2Proof.Machine.execPictureComplete core facts s
  | .decodeTimeout core => Sys2Proof.Machine.execDecodeTimeout core s
  | .coreSelftestFault encoder core => Sys2Proof.Machine.execCoreSelftestFault encoder core s
  | .wtProbe who v => Sys2Proof.Machine.execWtProbe who v s
  | .commit who head => Sys2Proof.Machine.execCommit who head s
  | .commitTargeted who head target => Sys2Proof.Machine.execCommitTargeted who head target s
  | .latch head => Sys2Proof.Machine.execLatch head s
  | .frameStart head => Sys2Proof.Machine.execFrameStart head s
  | .teReport head report => Sys2Proof.Machine.execTeReport head report s
  | .surfaceRelease who sh doorbell => Sys2Proof.Machine.execSurfaceRelease who sh doorbell s
  | .surfaceReleaseRetain who sh doorbell => Sys2Proof.Machine.execSurfaceReleaseRetain who sh doorbell s
  | .surfTagWrite who v => Sys2Proof.Machine.execSurfTagWrite who v s
  | .surfProbe who v => Sys2Proof.Machine.execSurfProbe who v s
  | .relDoneRead who => Sys2Proof.Machine.execRelDoneRead who s
  | .bar2Request off op => Sys2Proof.Machine.execBar2Request off op s
  | .mimicBatch => Sys2Proof.Machine.execMimicBatch s
  | .widgetDrawn facts => Sys2Proof.Machine.execWidgetDrawn facts s
  | .widgetProbe who v => Sys2Proof.Machine.execWidgetProbe who v s
  | .cellProbe who v => Sys2Proof.Machine.execCellProbe who v s
  | .encSliceRead ctx slice => Sys2Proof.Machine.execEncSliceRead ctx slice s
  | .encodeFrameStart core => Sys2Proof.Machine.execEncodeFrameStart core s
  | .encodeFrameDone core facts => Sys2Proof.Machine.execEncodeFrameDone core facts s
  | .rcSubmit who ctx => Sys2Proof.Machine.execRcSubmit who ctx s
  | .rcSubmitIdr who ctx => Sys2Proof.Machine.execRcSubmitIdr who ctx s
  | .uadpMessage port msg => Sys2Proof.Machine.execUadpMessage port msg s
  | .arpRequest port target sender senderMac => Sys2Proof.Machine.execArpRequest port target sender senderMac s
  | .modbusPollDue poll => Sys2Proof.Machine.execModbusPollDue poll s
  | .modbusResponse source resp => Sys2Proof.Machine.execModbusResponse source resp s
  | .modbusTimeout poll => Sys2Proof.Machine.execModbusTimeout poll s
  | .modbusReconnect source connected => Sys2Proof.Machine.execModbusReconnect source connected s
  | .sourceSilence source => Sys2Proof.Machine.execSourceSilence source s
  | .pointSweep => Sys2Proof.Machine.execPointSweep s
  | .batchClose => Sys2Proof.Machine.execBatchClose s
  | .pointBatchRx => Sys2Proof.Machine.execPointBatchRx s
  | .cmdRequest => Sys2Proof.Machine.execCmdRequest s
  | .cmdNoAck req => Sys2Proof.Machine.execCmdNoAck req s
  | .cmdAckRx => Sys2Proof.Machine.execCmdAckRx s
  | .cmdReqRx => Sys2Proof.Machine.execCmdReqRx s
  | .guardRunExpiry target term => Sys2Proof.Machine.execGuardRunExpiry target term s
  | .commandLaunch at_ => Sys2Proof.Machine.execCommandLaunch at_ s
  | .commandDeadline port req => Sys2Proof.Machine.execCommandDeadline port req s
  | .mbxPush who ch => Sys2Proof.Machine.execMbxPush who ch s
  | .mbxPop who ch => Sys2Proof.Machine.execMbxPop who ch s
  | .mbxAck who ch v => Sys2Proof.Machine.execMbxAck who ch v s
  | .ackqRead who ch => Sys2Proof.Machine.execAckqRead who ch s
  | .cellArrival ch damaged => Sys2Proof.Machine.execCellArrival ch damaged s
  | .linkCellSend side => Sys2Proof.Machine.execLinkCellSend side s
  | .linkCellArrival side => Sys2Proof.Machine.execLinkCellArrival side s
  | .doorbellRing side who hi v => Sys2Proof.Machine.execDoorbellRing side who hi v s
  | .interfaceHelloRx => Sys2Proof.Machine.execInterfaceHelloRx s
  | .helloReplyRx => Sys2Proof.Machine.execHelloReplyRx s
  | .healthTimeout side => Sys2Proof.Machine.execHealthTimeout side s
  | .healthSend side => Sys2Proof.Machine.execHealthSend side s
  | .healthRx side => Sys2Proof.Machine.execHealthRx side s
  | .timeXferSend => Sys2Proof.Machine.execTimeXferSend s
  | .timeXferRequestRx => Sys2Proof.Machine.execTimeXferRequestRx s
  | .timeXferReplyRx => Sys2Proof.Machine.execTimeXferReplyRx s
  | .mapExpiry => Sys2Proof.Machine.execMapExpiry s
  | .fieldConfigBegin => Sys2Proof.Machine.execFieldConfigBegin s
  | .fieldConfigData => Sys2Proof.Machine.execFieldConfigData s
  | .fieldConfigEnd => Sys2Proof.Machine.execFieldConfigEnd s
  | .fieldConfigArm => Sys2Proof.Machine.execFieldConfigArm s
  | .fieldConfigCancel => Sys2Proof.Machine.execFieldConfigCancel s
  | .fieldConfigAck => Sys2Proof.Machine.execFieldConfigAck s
  | .fieldActivate => Sys2Proof.Machine.execFieldActivate s
  | .fwStageBegin => Sys2Proof.Machine.execFwStageBegin s
  | .fwStageData => Sys2Proof.Machine.execFwStageData s
  | .fwStageEnd verifies build => Sys2Proof.Machine.execFwStageEnd verifies build s
  | .fieldPeek => Sys2Proof.Machine.execFieldPeek s
  | .logExport => Sys2Proof.Machine.execLogExport s
  | .incrWrite side who v => Sys2Proof.Machine.execIncrWrite side who v s
  | .offsetStep side who v lo => Sys2Proof.Machine.execOffsetStep side who v lo s
  | .gptpMessage side port msg => Sys2Proof.Machine.execGptpMessage side port msg s
  | .gptpSyncSend port kind => Sys2Proof.Machine.execGptpSyncSend port kind s
  | .syncConfirm side who lose => Sys2Proof.Machine.execSyncConfirm side who lose s
  | .syncLose side who => Sys2Proof.Machine.execSyncLose side who s
  | .syncWindowExpiry side => Sys2Proof.Machine.execSyncWindowExpiry side s
  | .dramAccess ch ecc bank row => Sys2Proof.Machine.execDramAccess ch ecc bank row s
  | .patrolRead ch block ecc => Sys2Proof.Machine.execPatrolRead ch block ecc s
  | .refresh ch bank => Sys2Proof.Machine.execRefresh ch bank s
  | .refreshWindow => Sys2Proof.Machine.execRefreshWindow s
  | .selfRefreshEntry ch => Sys2Proof.Machine.execSelfRefreshEntry ch s
  | .selfRefreshExit ch => Sys2Proof.Machine.execSelfRefreshExit ch s
  | .retrainPause ch ns => Sys2Proof.Machine.execRetrainPause ch ns s
  | .channelRateWrite who ch v => Sys2Proof.Machine.execChannelRateWrite who ch v s
  | .channelTrained ch => Sys2Proof.Machine.execChannelTrained ch s
  | .channelRetire who ch => Sys2Proof.Machine.execChannelRetire who ch s
  | .retireWakeDone => Sys2Proof.Machine.execRetireWakeDone s
  | .retireCopyBlock ecc => Sys2Proof.Machine.execRetireCopyBlock ecc s
  | .retireCopyDone => Sys2Proof.Machine.execRetireCopyDone s
  | .retireDrainDone => Sys2Proof.Machine.execRetireDrainDone s
  | .ueSelect who v => Sys2Proof.Machine.execUeSelect who v s
  | .cwinSelect who v => Sys2Proof.Machine.execCwinSelect who v s
  | .cwinFlush who v => Sys2Proof.Machine.execCwinFlush who v s
  | .cwinRead hcc off len => Sys2Proof.Machine.execCwinRead hcc off len s
  | .cwinWrite hcc off data => Sys2Proof.Machine.execCwinWrite hcc off data s
  | .tartanRequest req => Sys2Proof.Machine.execTartanRequest req s
  | .tartanGrant point => Sys2Proof.Machine.execTartanGrant point s
  | .tartanResponse port serial => Sys2Proof.Machine.execTartanResponse port serial s
  | .remap who => Sys2Proof.Machine.execRemap who s
  | .lockRead who core n => Sys2Proof.Machine.execLockRead who core n s
  | .lockRelease who core n v => Sys2Proof.Machine.execLockRelease who core n v s
  | .lockForce who n => Sys2Proof.Machine.execLockForce who n s
  | .mpuRegionWrite who port region word v => Sys2Proof.Machine.execMpuRegionWrite who port region word v s
  | .mpuSyncWrite who v => Sys2Proof.Machine.execMpuSyncWrite who v s
  | .mpuSyncRead who => Sys2Proof.Machine.execMpuSyncRead who s
  | .laneLos lane => Sys2Proof.Machine.execLaneLos lane s
  | .laneSignalReturn lane => Sys2Proof.Machine.execLaneSignalReturn lane s
  | .laneLol lane => Sys2Proof.Machine.execLaneLol lane s
  | .laneTxFault lane => Sys2Proof.Machine.execLaneTxFault lane s
  | .eyeMeasure lane w h => Sys2Proof.Machine.execEyeMeasure lane w h s
  | .trainBlockRx lane blk => Sys2Proof.Machine.execTrainBlockRx lane blk s
  | .trainTimeout lane => Sys2Proof.Machine.execTrainTimeout lane s
  | .spareSwap who spare => Sys2Proof.Machine.execSpareSwap who spare s
  | .spareAutoTrigger spare => Sys2Proof.Machine.execSpareAutoTrigger spare s
  | .fieldLaneSwap spare port => Sys2Proof.Machine.execFieldLaneSwap spare port s
  | .markerRx lane number => Sys2Proof.Machine.execMarkerRx lane number s
  | .linkCellRx link cell => Sys2Proof.Machine.execLinkCellRx link cell s
  | .creditBlockRx link blk => Sys2Proof.Machine.execCreditBlockRx link blk s
  | .recoverRx link blk => Sys2Proof.Machine.execRecoverRx link blk s
  | .widthAckRx link blk => Sys2Proof.Machine.execWidthAckRx link blk s
  | .stitchSend entry => Sys2Proof.Machine.execStitchSend entry s
  | .linkRetrain who link => Sys2Proof.Machine.execLinkRetrain who link s
  | .linkUp link => Sys2Proof.Machine.execLinkUp link s
  | .peerHealthSend => Sys2Proof.Machine.execPeerHealthSend s
  | .intlkInRise => Sys2Proof.Machine.execIntlkInRise s
  | .intlkInFall => Sys2Proof.Machine.execIntlkInFall s
  | .contentionEnd => Sys2Proof.Machine.execContentionEnd s
  | .takeoverAssert => Sys2Proof.Machine.execTakeoverAssert s
  | .heartbeatTimeout => Sys2Proof.Machine.execHeartbeatTimeout s
  | .eligibilityLoss => Sys2Proof.Machine.execEligibilityLoss s
  | .intlkWatchdogWrite => Sys2Proof.Machine.execIntlkWatchdogWrite s
  | .eligibleRing => Sys2Proof.Machine.execEligibleRing s
  | .twinKick who => Sys2Proof.Machine.execTwinKick who s
  | .twinRelease who => Sys2Proof.Machine.execTwinRelease who s
  | .releaseDeassert => Sys2Proof.Machine.execReleaseDeassert s
  | .twinHealthSend => Sys2Proof.Machine.execTwinHealthSend s
  | .heartbeatRx link flags => Sys2Proof.Machine.execHeartbeatRx link flags s
  | .twinHealthRx msg => Sys2Proof.Machine.execTwinHealthRx msg s
  | .resyncStart => Sys2Proof.Machine.execResyncStart s
  | .resyncReqRx => Sys2Proof.Machine.execResyncReqRx s
  | .resyncInfoRx info => Sys2Proof.Machine.execResyncInfoRx info s
  | .imageDataRx cell => Sys2Proof.Machine.execImageDataRx cell s
  | .dryLaunch ok => Sys2Proof.Machine.execDryLaunch ok s
  | .ceSample => Sys2Proof.Machine.execCeSample s
  | .ceCompare facts => Sys2Proof.Machine.execCeCompare facts s
  | .dcSample => Sys2Proof.Machine.execDcSample s
  | .dcCompare facts => Sys2Proof.Machine.execDcCompare facts s
  | .sramRowRepair side array row => Sys2Proof.Machine.execSramRowRepair side array row s
  | .dflStart who engine fin => Sys2Proof.Machine.execDflStart who engine fin s
  | .dflContinue who engine fin => Sys2Proof.Machine.execDflContinue who engine fin s
  | .dflAbort who engine => Sys2Proof.Machine.execDflAbort who engine s
  | .dflJobStop engine facts => Sys2Proof.Machine.execDflJobStop engine facts s
  | .paceWrite who unit v => Sys2Proof.Machine.execPaceWrite who unit v s
  | .crcStart who unit v => Sys2Proof.Machine.execCrcStart who unit v s
  | .crcAbort who unit => Sys2Proof.Machine.execCrcAbort who unit s
  | .crcJobDone unit memError => Sys2Proof.Machine.execCrcJobDone unit memError s
  | .rcCounterRead who r events => Sys2Proof.Machine.execRcCounterRead who r events s
  | .engineSelfCheckFault engine => Sys2Proof.Machine.execEngineSelfCheckFault engine s
  | .modbusConnectionFailure source => Sys2Proof.Machine.execModbusConnectionFailure source s
  | .gptpReceiptTimeout side => Sys2Proof.Machine.execGptpReceiptTimeout side s
  | .laneDormantExit lane => Sys2Proof.Machine.execLaneDormantExit lane s

end Sys2Proof.Machine
end

