-- ==== Sys2Proof/Machine/Tick.lean ====
section
/-! DEFINITION. What passes while no command waits: one tick of 2.5 ns of the reference of each side that runs
(12_time.md R272, R273; log entry 50). -/

namespace Sys2Proof.Machine

/-- One tick of the host side: after a step of OFFSET every head finds its next frame (R275), and a correction that was
written acts from now on (R283). Log entries 50 (DESIGN CHOICE), 190 (DEDUCED). -/
def HostSide.tick (h : HostSide) : HostSide :=
  if h.run then
    let t := { h with tb := h.tb.tick, corrOld := [] }
    (if h.tb.next.isSome then t.resyncHeads else t).showAge
  else h

/-- One tick of the field side. Log entry 50 (DESIGN CHOICE). -/
def FieldSide.tick (f : FieldSide) : FieldSide := if f.run then { f with tb := f.tb.tick } else f

/-- One tick of the module. Log entry 50 (DESIGN CHOICE). -/
def State.tick (s : State) : State := { s with host := s.host.tick, field := s.field.tick }

end Sys2Proof.Machine
end

