-- ==== Sys2Proof/Safety.lean ====
section
/-! DEFINITION. What the claims are stated with: when a side takes commands, what a command that completes answers, what a
command leaves alone, and the invariant of the two sides' resets. -/

namespace Sys2Proof.Machine

/-- The host side takes commands: it is not in reset (18_module_electrical.md R417). -/
abbrev State.hostReady (s : State) : Prop := s.host.run = true

/-- The field side takes commands. -/
abbrev State.fieldReady (s : State) : Prop := s.field.run = true

/-- A requester's register access reaches its register: the host side takes commands and BAR0 is open to it (R424). -/
abbrev State.reaches (s : State) (who : Requester) : Prop := s.hostReady ∧ s.host.barOpen who = true

/-- A command completes: it answers a next state, leaves the queue alone, and the next state satisfies `P`. -/
def Completes (c : Instr) (s : State) (P : State → Prop) : Prop :=
  ∃ t, exec c s = .next t ∧ t.pending = s.pending ∧ P t

/-- Every register field but those listed reads as before. -/
def RegsKept (changed : List Fld) (s t : State) : Prop :=
  ∀ f : Fld, (∀ g ∈ changed, f.key ≠ g.key) → t.host.get f = s.host.get f

/-- Every register field outside the blocks CST, CMP and MIM, whose registers show leases and pages, reads as before. -/
def LeaseRegsOnly (s t : State) : Prop :=
  ∀ f : Fld, (∀ b ∈ [(0x40000, 0x80000), (0x200000, 0x280000), (0x380000, 0x3c0000)],
    f.key < b.1 * 32 ∨ b.2 * 32 ≤ f.key) → t.host.get f = s.host.get f

/-- Every byte of the central store and of the control-core SRAM reads as before. -/
def MemKept (s t : State) : Prop :=
  (∀ a, t.host.store.byte a = s.host.store.byte a) ∧ t.host.tartan.sram = s.host.tartan.sram

/-- The field side and the physical module stand as before. -/
def OnlyHost (s t : State) : Prop := t.field = s.field ∧ t.phys = s.phys

/-- The host side and the physical module stand as before. -/
def OnlyField (s t : State) : Prop := t.host = s.host ∧ t.phys = s.phys

/-- Field Uliska takes the oldest cell of XM2 and answers it with an acknowledge code (11_crossing.md R256, R267). -/
def Answered (c : List Byte) (rest : List (List Byte)) (code : Nat) (s t : State) : Prop :=
  (t.field.xing.chan 2).slots = rest ∧ (t.field.xing.chan 2).acks = (s.field.xing.chan 2).acks ++ [⟨cellMsg c, code⟩]

/-- The offset of a register, or of none, at which a write only sets fields by their access codes (00_scope.md Table 00.2):
the blocks, or their parts, without the registers whose write is a command or has a rule of its own. -/
def plainOffset (off : Nat) : Bool :=
  let within (lo hi : Nat) (but : List Nat) : Bool := decide (lo ≤ off ∧ off < hi) && !but.contains off
  within 0 0x10000 [0x10, 0x20, 0x3c, 0x5c] || within 0x40000 0x40100 [0x40004, 0x40024, 0x40040] ||
  within 0x80000 0x80100 [0x80004] || within 0x81000 0x100000 [] || within 0x100000 0x101000 [0x100004] ||
  within 0x140000 0x180000 [0x140040] || within 0x200000 0x280000 [0x200020, 0x200040, 0x200044, 0x200050] ||
  within 0x300000 0x301000 [] || within 0x380000 0x3c0000 [0x380020, 0x380030] ||
  within 0x3c0000 0x3c1000 [0x3c001c] || within 0x440008 0x450000 [] ||
  within 0x450000 0x470000 [0x450010, 0x458000, 0x458050]

/-- No register, table word or descriptor lies at the offset (00_scope.md R7; 19_register_map.md R436). -/
def noRegister (off : Nat) : Bool :=
  !isReg off && !decide (0x28000 ≤ off ∧ off < 0x28000 + 47 * 512) && !decide (0x280000 ≤ off ∧ off < 0x2A0000)

/-- The command is one of those that reach across the barrier: the supplies, reset pins and thermal trips of a side, a
measurement that trips it, and the resets that SYS.RESET orders, which take the crossing DOWN on both sides; cells, link
cells, lock and silence of the crossing; and the silence of the partner's heartbeats, which both sides judge
(11_crossing.md R262; 16_twin_repair.md R372, R393). -/
def Crosses : Instr → Bool
  | .hostPowerOn => true
  | .hostPowerOff => true
  | .fieldPowerOn => true
  | .fieldPowerOff => true
  | .isolationLockLost _ => true
  | .isolationLockGained _ => true
  | .cellArrival _ _ => true
  | .linkCellArrival _ => true
  | .healthTimeout _ => true
  | .hostRstAssert _ => true
  | .fieldRstAssert _ => true
  | .thermalTrip _ => true
  | .tempMeasure _ temp => decide (125 ≤ temp.toInt)
  | .softResetHost _ => true
  | .softResetBoth _ => true
  | .registerWrite _ _ _ _ _ _ => true
  | .heartbeatTimeout => true
  | _ => false

/-- What holds of the two sides' power and reset in every state that the block reaches: a side whose supply is out of range
(R413) or that a thermal trip holds (R419) does not run; an isolation channel is locked only while both sides run
(11_crossing.md R260, R262); while the host side runs, the PCIe endpoint is out of reset exactly while PCIE_PERST_N is
deasserted (R417, R424). -/
def State.Inv (s : State) : Prop :=
  (s.phys.hostPhys.supply = .outOfRange → s.host.run = false) ∧
  (s.phys.fieldPhys.supply = .outOfRange → s.field.run = false) ∧
  (s.phys.hostPhys.tripHeld = true → s.host.run = false) ∧
  (s.phys.fieldPhys.tripHeld = true → s.field.run = false) ∧
  (s.phys.lock0 = true ∨ s.phys.lock1 = true → s.host.run = true ∧ s.field.run = true) ∧
  (s.host.run = true → s.host.pcieUp = !s.phys.perst)

end Sys2Proof.Machine
end

