-- ==== Sys2Proof/Certificates/Slice0/Obligations.lean ====
section
/-! DEFINITION. The statements for the provers. Each cites the rules of the specification that it states. -/

open Sys2Proof Sys2Proof.Machine

/-- O1: A side starts when its supply comes into range, and a supply out of range or a thermal trip holds it (R412,
R413, R419, 18_module_electrical.md). What it says of the points that log entries 3, 6, 114, 211 settle is the model's
own choice or reading. -/
def Obligations.SuppliesAndTripsHoldASide : Prop :=
  (∀ s : State,
      (s.phys.hostPhys.supply = .outOfRange →
        Completes (.hostPowerOn) s (fun t => t.phys.hostPhys.supply = .inRange ∧ t.phys.hostPhys.rstPin = true ∧
          t.phys.hostPhys.tripHeld = false ∧ t.phys.hostPhys.firstReset = true ∧ t.host.run = false) ∧
        Completes (.hostPowerOff) s (fun t => t.phys.hostPhys.supply = .outOfRange)) ∧
      (s.host.run = false → exec (.refreshWindow) s = .next s) ∧
      Completes (.hostPowerOff) s (fun t => t.phys.hostPhys.supply = .outOfRange ∧ t.phys.hostPhys.tripHeld = false ∧
        t.host.run = false) ∧
      (s.phys.fieldPhys.supply = .outOfRange →
        Completes (.fieldPowerOn) s (fun t => t.phys.fieldPhys.supply = .inRange ∧ t.phys.fieldPhys.rstPin = true ∧
          t.phys.fieldPhys.tripHeld = false ∧ t.phys.fieldPhys.firstReset = true ∧ t.field.run = false) ∧
        Completes (.fieldPowerOff) s (fun t => t.phys.fieldPhys.supply = .outOfRange)) ∧
      (s.field.run = false → exec (.pointSweep) s = .next s) ∧
      Completes (.fieldPowerOff) s (fun t => t.phys.fieldPhys.supply = .outOfRange ∧ t.phys.fieldPhys.tripHeld = false ∧
        t.field.run = false)) ∧
  (∀ (s : State) (v : BitVec 8),
      (s.phys.hostPhys.supply = .inRange → Completes (.thermalTrip .host) s (fun t => t.host.run = false ∧
        t.phys.hostPhys.tripHeld = true ∧ t.phys.hostPhys.tripped = true)) ∧
      (s.phys.fieldPhys.supply = .inRange → Completes (.thermalTrip .field) s (fun t => t.field.run = false ∧
        t.phys.fieldPhys.tripHeld = true ∧ t.field.faultPin = true ∧ t.field.il.out = false)) ∧
      (s.phys.hostPhys.supply = .inRange → 125 ≤ v.toInt → Completes (.tempMeasure .host v) s (fun t => t.host.run = false ∧
        t.phys.hostPhys.tripHeld = true)) ∧
      (s.phys.fieldPhys.supply = .inRange → 125 ≤ v.toInt → Completes (.tempMeasure .field v) s (fun t => t.field.run = false ∧
        t.phys.fieldPhys.tripHeld = true ∧ t.field.faultPin = true)) ∧
      (s.phys.hostPhys.supply = .inRange → s.hostReady → v.toInt < 125 → Completes (.tempMeasure .host v) s (fun t => t.host.get Reg.SYS_TEMP_HOST = v.toNat ∧
        v.toInt ≤ signed (t.host.get Reg.SYS_TEMP_HOST_MAX) 8 ∧
        RegsKept [Reg.SYS_TEMP_HOST, Reg.SYS_TEMP_HOST_MAX] s t ∧ MemKept s t ∧ t.field = s.field)) ∧
      (s.phys.fieldPhys.supply = .inRange → s.fieldReady → v.toInt < 125 → Completes (.tempMeasure .field v) s (fun t =>
        t.field.temp = v.toInt ∧ t.host = s.host)))

/-- O2: The reset pins stop and start their sides; PCIE_PERST_N resets the endpoint alone (R415, R417, R419, R428,
R424, R430, 18_module_electrical.md). What it says of the points that log entries 5, 34, 191, 211 settle is the
model's own choice or reading. -/
def Obligations.ResetPinsStopAndStart : Prop :=
  (∀ (s : State) (us : Nat) (slot : Fin 4) (role : Bool),
      (s.phys.hostPhys.supply = .inRange →
        (10 ≤ us → Completes (.hostRstAssert us) s (fun t => t.host.run = false ∧
          t.phys.hostPhys.rstPin = true)) ∧
        (us < 10 → Completes (.hostRstAssert us) s (fun t => t.host = s.host ∧ t.field = s.field)) ∧
        (s.host.run = false → s.phys.hostPhys.tripHeld = false → Completes (.hostRstRelease slot role) s (fun t =>
          t.host.run = true ∧ t.phys.hostPhys.rstPin = false ∧ t.host.get Reg.SYS_STRAPS_SLOT = slot.val ∧
          t.host.get Reg.SYS_STRAPS_ROLE = b2n role ∧ t.host.get Reg.SYS_STRAPS_TARGET = 4 * b2n role + slot.val ∧
          t.host.get Reg.SYS_RESET_CAUSE_PIN = 1 ∧ t.host.get Reg.SYS_RESET_CAUSE_SOFT = 0 ∧
          t.host.get Reg.SYS_RESET_CAUSE_POWER = b2n s.phys.hostPhys.firstReset ∧
          t.host.get Reg.SYS_RESET_CAUSE_THERMAL = b2n s.phys.hostPhys.tripped ∧
          t.host.pcieUp = !s.phys.perst ∧ t.field = s.field)) ∧
        (s.host.run = false → s.phys.hostPhys.tripHeld = true → Completes (.hostRstRelease slot role) s (fun t =>
          t.host = s.host ∧ t.field = s.field))) ∧
      (s.phys.fieldPhys.supply = .inRange →
        (10 ≤ us → Completes (.fieldRstAssert us) s (fun t => t.field.run = false ∧
          t.phys.fieldPhys.rstPin = true)) ∧
        (us < 10 → Completes (.fieldRstAssert us) s (fun t => t.host = s.host ∧
          { t.field with faultPin := s.field.faultPin } = s.field)) ∧
        (s.field.run = false → s.phys.fieldPhys.tripHeld = true → Completes (.fieldRstRelease role) s (fun t =>
          t.host = s.host ∧ t.field = s.field)) ∧
        (s.field.run = false → s.phys.fieldPhys.tripHeld = false → Completes (.fieldRstRelease role) s (fun t =>
          t.field.run = true ∧ t.field.role = role ∧ t.phys.fieldPhys.rstPin = false ∧ t.host = s.host)))) ∧
  (∀ s : State, s.hostReady →
      Completes (.pciePerst true) s (fun t => t.host.pcieUp = false ∧ t.host.msix = [] ∧ t.host.msixPend = [] ∧
        RegsKept [] s t ∧ MemKept s t ∧ t.field = s.field) ∧
      Completes (.pciePerst false) s (fun t => t.host.pcieUp = true ∧ t.host.msix = s.host.msix ∧ RegsKept [] s t ∧
        MemKept s t ∧ t.field = s.field) ∧
      (∀ (p q : Bool) (core : Fin 8) (off : Nat) (v : BitVec 64), s.host.get Reg.SYS_BOOT_STATUS_STEP < 5 → off = 0x300008 →
        exec (.registerWrite ⟨.pcie, p, q⟩ core false 4 off v) s = .next s))

/-- O3: A start-up step that ends well gives way to the next; a failed one stays, with its reason (R416, R420, R422,
R423, R426, 18_module_electrical.md). What it says of the points that log entries 44, 122 settle is the model's own
choice or reading. -/
def Obligations.StartupStepsAdvance : Prop :=
  ∀ (s : State) (w : StepWork),
    (s.hostReady → s.host.get Reg.SYS_BOOT_STATUS_FAILED = 0 →
      (s.host.stepLate s.phys.hostPhys (s.host.get Reg.SYS_BOOT_STATUS_STEP) = false →
      (s.host.get Reg.SYS_BOOT_STATUS_STEP = 1 → Completes (.startupStepDone w) s (fun t =>
        t.host.get Reg.SYS_BOOT_STATUS_STEP = 2 ∧ t.host.get Reg.SYS_BOOT_STATUS_FAILED = 0 ∧
        RegsKept [Reg.SYS_BOOT_STATUS_STEP, Reg.SYS_BOOT_STATUS_ELAPSED] s t ∧ MemKept s t ∧ t.field = s.field)) ∧
      (s.host.get Reg.SYS_BOOT_STATUS_STEP = 3 → s.phys.hostPhys.chooseBank = none → Completes (.startupStepDone w) s (fun t =>
        t.host.get Reg.SYS_BOOT_STATUS_FAILED = 1 ∧ t.host.get Reg.SYS_BOOT_STATUS_REASON = 2 ∧
        t.host.get Reg.SYS_BOOT_STATUS_STEP = 3)) ∧
      (∀ i fallback, s.host.get Reg.SYS_BOOT_STATUS_STEP = 3 → s.phys.hostPhys.chooseBank = some (i, fallback) →
        Completes (.startupStepDone w) s (fun t => t.host.get Reg.SYS_BOOT_STATUS_STEP = 4 ∧
          t.host.get Reg.SYS_BOOT_STATUS_HOST_BANK = i ∧ t.host.get Reg.SYS_BOOT_STATUS_FALLBACK = b2n fallback)) ∧
      (s.host.get Reg.SYS_BOOT_STATUS_STEP = 4 → Completes (.startupStepDone w) s (fun t =>
        t.host.get Reg.SYS_BOOT_STATUS_STEP = 5 ∧ t.host.get Reg.TRT_CTRL_REMAP = 1 ∧
        RegsKept [Reg.SYS_BOOT_STATUS_STEP, Reg.SYS_BOOT_STATUS_ELAPSED, Reg.TRT_CTRL_REMAP] s t ∧ MemKept s t ∧
        t.field = s.field)) ∧
      (s.host.get Reg.SYS_BOOT_STATUS_STEP = 8 → s.host.tb.syncOk = true → Completes (.startupStepDone w) s (fun t =>
        t.host.get Reg.SYS_BOOT_STATUS_STEP = 9)) ∧
      (s.host.get Reg.SYS_BOOT_STATUS_STEP = 12 → s.field.run = true → 2 ≤ s.host.xing.state →
        s.field.role = s.host.flag Reg.SYS_STRAPS_ROLE → Completes (.startupStepDone w) s (fun t =>
          t.host.get Reg.SYS_BOOT_STATUS_STEP = 15 ∧ t.host.get Reg.TWN_CTRL_ELIGIBLE = 1 ∧ t.field = s.field)) ∧
      (s.host.get Reg.SYS_BOOT_STATUS_STEP = 12 → s.field.run = true → 2 ≤ s.host.xing.state →
        s.field.role ≠ s.host.flag Reg.SYS_STRAPS_ROLE → Completes (.startupStepDone w) s (fun t =>
          t.host.get Reg.SYS_BOOT_STATUS_STEP = 15 ∧ t.host.get Reg.SYS_STRAPS_ROLE_MISMATCH = 1 ∧
          t.host.get Reg.TWN_CTRL_ELIGIBLE = s.host.get Reg.TWN_CTRL_ELIGIBLE ∧ t.field = s.field)) ∧
      (s.host.get Reg.SYS_BOOT_STATUS_STEP = 5 → w.ok = true → w.faults = [] → Completes (.startupStepDone w) s (fun t =>
        t.host.get Reg.SYS_BOOT_STATUS_STEP = 6 ∧
        RegsKept [Reg.SYS_BOOT_STATUS_STEP, Reg.SYS_BOOT_STATUS_ELAPSED] s t ∧ MemKept s t ∧ t.field = s.field)) ∧
      (s.host.get Reg.SYS_BOOT_STATUS_STEP = 9 → s.host.imageUnderWay = true → Completes (.startupStepDone w) s (fun t =>
        t.host.get Reg.SYS_BOOT_STATUS_STEP = 10 ∧
        RegsKept [Reg.SYS_BOOT_STATUS_STEP, Reg.SYS_BOOT_STATUS_ELAPSED] s t ∧ MemKept s t ∧ t.field = s.field)) ∧
      (s.host.cfg.imageId ≠ 0 → s.host.get Reg.SYS_BOOT_STATUS_STEP = 10 →
        Completes (.startupStepDone w) s (fun t => t.host.get Reg.SYS_BOOT_STATUS_STEP = 11 ∧
        RegsKept [Reg.SYS_BOOT_STATUS_STEP, Reg.SYS_BOOT_STATUS_ELAPSED] s t ∧ MemKept s t ∧ t.field = s.field)) ∧
      (s.host.cfg.imageId ≠ 0 → s.host.get Reg.SYS_BOOT_STATUS_STEP = 11 → s.host.get Reg.TWN_RESYNC_STATE ≠ 1 →
        Completes (.startupStepDone w) s (fun t => t.host.get Reg.SYS_BOOT_STATUS_STEP = 12 ∧
        RegsKept [Reg.SYS_BOOT_STATUS_STEP, Reg.SYS_BOOT_STATUS_ELAPSED] s t ∧ MemKept s t ∧ t.field = s.field)) ∧
      (s.host.get Reg.SYS_BOOT_STATUS_STEP = 2 → w.ok = false → Completes (.startupStepDone w) s (fun t =>
        t.host.get Reg.SYS_BOOT_STATUS_FAILED = 1 ∧ t.host.get Reg.SYS_BOOT_STATUS_REASON = 1 ∧
        t.host.get Reg.SYS_BOOT_STATUS_STEP = 2)) ∧
      (s.host.get Reg.SYS_BOOT_STATUS_STEP = 5 → w.ok = false → Completes (.startupStepDone w) s (fun t =>
        t.host.get Reg.SYS_BOOT_STATUS_FAILED = 1 ∧ t.host.get Reg.SYS_BOOT_STATUS_REASON = 3 ∧
        t.host.get Reg.SYS_BOOT_STATUS_STEP = 5))) ∧
      (s.host.get Reg.SYS_BOOT_STATUS_STEP ≠ 8 →
        s.host.stepLate s.phys.hostPhys (s.host.get Reg.SYS_BOOT_STATUS_STEP) = true →
        Completes (.startupStepTimeout) s (fun t => t.host.get Reg.SYS_BOOT_STATUS_FAILED = 1 ∧
          t.host.get Reg.SYS_BOOT_STATUS_REASON = 4 ∧
          RegsKept [Reg.SYS_BOOT_STATUS_FAILED, Reg.SYS_BOOT_STATUS_REASON] s t ∧ MemKept s t ∧ OnlyHost s t)) ∧
      (s.host.get Reg.SYS_BOOT_STATUS_STEP = 8 → stepBound 8 1 < s.host.tb.sinceNs s.host.boot.stepEntry →
        Completes (.startupStepTimeout) s (fun t => t.host.get Reg.SYS_BOOT_STATUS_NO_SYNC = 1 ∧
          t.host.get Reg.SYS_BOOT_STATUS_STEP = 9 ∧ OnlyHost s t))) ∧
    (s.fieldReady → s.field.boot.failed = false →
      (s.field.boot.step = 1 → Completes (.fieldStartupStepDone w) s (fun t => t.field.boot.step = 2 ∧ OnlyField s t)) ∧
      (∀ i fallback, s.field.boot.step = 3 → s.phys.fieldPhys.chooseBank = some (i, fallback) →
        Completes (.fieldStartupStepDone w) s (fun t => t.field.boot.step = 4 ∧ t.field.bank = i ∧
          t.field.fallback = fallback ∧ t.field.build = (s.phys.fieldPhys.bank i).build ∧ OnlyField s t)) ∧
      (s.field.boot.step = 4 → w.ok = true → w.faults = [] → Completes (.fieldStartupStepDone w) s (fun t =>
        t.field.boot.step = 5 ∧ t.field.repaired = s.field.repaired ∧ OnlyField s t)) ∧
      (s.field.boot.step = 6 → Completes (.fieldStartupStepDone w) s (fun t => t.field.boot.step = 7 ∧ OnlyField s t)) ∧
      (s.field.boot.step = 2 → w.ok = false → Completes (.fieldStartupStepDone w) s (fun t =>
        t.field.boot.failed = true ∧ t.field.faultPin = true ∧ OnlyField s t)))

/-- O4: SYS.RESET with its key restarts the sides that SCOPE names, the host side with cause SOFT (R418, R428,
18_module_electrical.md). What it says of the points that log entries 54, 55 settle is the model's own choice or
reading. -/
def Obligations.SoftResetsRestartTheirSides : Prop :=
  ∀ (s : State) (who : Requester), s.reaches who →
    Completes (.softResetHost who) s (fun t => t.host.run = true ∧ t.host.get Reg.SYS_BOOT_STATUS_STEP = 1 ∧
      t.host.get Reg.SYS_RESET_CAUSE_SOFT = 1 ∧ t.host.get Reg.SYS_RESET_CAUSE_PIN = 0 ∧
      t.host.get Reg.SYS_RESET_CAUSE_POWER = 0 ∧ t.host.get Reg.SYS_RESET_CAUSE_THERMAL = 0 ∧
      t.field.role = s.field.role) ∧
    (s.host.xing.state ≠ 0 → Completes (.softResetField who) s (fun t =>
      bit (t.host.get Reg.MBX_DB_RING_LO_BITS) 5 = true ∧ RegsKept [Reg.MBX_DB_RING_LO_BITS] s t ∧ MemKept s t ∧
      OnlyHost s t)) ∧
    (s.host.xing.state = 0 → Completes (.softResetField who) s (fun t => RegsKept [] s t ∧ MemKept s t ∧ OnlyHost s t)) ∧
    (s.host.xing.state ≠ 0 → s.field.run = true → Completes (.softResetBoth who) s (fun t =>
      t.host.run = true ∧ t.host.get Reg.SYS_RESET_CAUSE_SOFT = 1 ∧ t.field.run = true ∧ t.field.boot.step = 1))

/-- O5: A GO write of SYS.FW_CTRL starts one firmware operation, refused while another runs or when its length is too
great (R420, R421, 18_module_electrical.md). What it says of the points that log entries 118, 119 settle is the
model's own choice or reading. -/
def Obligations.FirmwareOperationsRun : Prop :=
  ∀ (s : State) (who : Requester) (v : FwFindings), s.reaches who →
    (s.host.get Reg.SYS_FW_STATUS_STATE ≠ 1 →
      (s.host.get Reg.SYS_FW_LEN_BYTES ≤ 128 * 1048576 → Completes (.fwWriteHost who) s (fun t =>
        t.host.get Reg.SYS_FW_STATUS_STATE = 1 ∧ (t.host.fwOp.map (·.op)) = some 1 ∧ MemKept s t ∧ OnlyHost s t)) ∧
      (s.host.get Reg.SYS_FW_LEN_BYTES ≤ 24 * 1048576 → 2 ≤ s.host.xing.state → Completes (.fwWriteField who) s (fun t =>
        t.host.get Reg.SYS_FW_STATUS_STATE = 1 ∧ (t.host.fwOp.map (·.op)) = some 2 ∧ OnlyHost s t)) ∧
      Completes (.fwSelectHost who) s (fun t => t.host.get Reg.SYS_FW_STATUS_STATE = 1 ∧
        (t.host.fwOp.map (·.op)) = some 3 ∧ MemKept s t ∧ OnlyHost s t)) ∧
    (s.host.get Reg.SYS_FW_STATUS_STATE = 1 → ∀ c ∈ [Instr.fwWriteHost who, .fwWriteField who, .fwSelectHost who],
      Completes c s (fun t => t.host.get Reg.SYS_FW_STATUS_IGNORED = 1 ∧ t.host.fwOp = s.host.fwOp ∧
      RegsKept [Reg.SYS_FW_STATUS_IGNORED] s t ∧ MemKept s t ∧ OnlyHost s t)) ∧
    (∀ addr len, s.host.fwOp = some ⟨1, addr, len⟩ → v.flashOk = true → v.verifies = true →
      Completes (.fwOpComplete v) s (fun t => t.host.get Reg.SYS_FW_STATUS_STATE = 2 ∧
        t.host.get Reg.SYS_FW_STATUS_CODE = 0 ∧ t.host.fwOp = none ∧
        (t.phys.hostPhys.bank (1 - s.host.get Reg.SYS_BOOT_STATUS_HOST_BANK)).recordValid = true ∧
        (t.phys.hostPhys.bank (1 - s.host.get Reg.SYS_BOOT_STATUS_HOST_BANK)).build = v.build.toNat ∧
        (t.phys.hostPhys.bank (1 - s.host.get Reg.SYS_BOOT_STATUS_HOST_BANK)).image = some (s.host.store.bytes addr len) ∧
        ((s.phys.hostPhys.bank (s.host.get Reg.SYS_BOOT_STATUS_HOST_BANK)).generation + 1 < 2 ^ 32 →
          t.phys.hostPhys.preferred = 1 - s.host.get Reg.SYS_BOOT_STATUS_HOST_BANK) ∧
        t.field = s.field))

/-- O6: A slice is handed over or missed, and its packets leave in order (R164, R198, R199, R196, R150, R52,
08_heads.md, 06_composition.md). -/
def Obligations.SlicesAndPacketsLeaveInOrder : Prop :=
  (∀ (s : State) (k : Fin 48), s.hostReady →
      (∀ (r : SliceRec) (rest : HeadState) (p : Plan), (s.host.head k.val).oldest = some (r, rest) →
        (s.host.head k.val).plan r.no = some p → (s.host.head k.val).isMissed r.no r.slice = false →
        dtDiff s.host.now (p.emit r.slice) ≤ -16 → rest.filling.length + rest.handed.length < 2 → r.drawn.length ≤ 32 →
        Completes (.sliceHandover k) s (fun t =>
          (t.host.head k.val).composing = rest.composing ∧ (t.host.head k.val).filling = rest.filling ∧
          (t.host.head k.val).handed = (s.host.head k.val).handed ++ [r] ∧
          (∃ q, tget none t.host.display.rings (16 * k.val + ringSlotOf p r.slice) = some q ∧ q.frame = r.frame ∧
            q.slice = r.slice ∧ q.worst = regionsWorst r.regions) ∧
          ((∀ ca, s.host.ringCa k.val p.time.entry.hActive (ringSlotOf p r.slice) = some ca →
              s.host.store.anyPoison ca (ringSlotBytes p.time.entry.hActive) = false) →
            RegsKept [] s t ∧ t.host.tartan.sram = s.host.tartan.sram ∧
            (∀ a, (∀ ca, s.host.ringCa k.val p.time.entry.hActive (ringSlotOf p r.slice) = some ca →
                a < ca ∨ ca + ringSlotBytes p.time.entry.hActive ≤ a) →
              t.host.store.byte a = s.host.store.byte a)) ∧ OnlyHost s t)) ∧
      (∀ (frame : Nat) (i : Fin 128) (p : Plan),
        (s.host.head k.val).plans.find?
          (fun q => q.f == frame % 2 ^ 32 && decide ((s.host.head k.val).doneNo ≤ q.no)) = some p →
        i.val < p.time.entry.slices → -16 < dtDiff s.host.now (p.emit i.val) →
        (s.host.head k.val).isMissed p.no i.val = false →
        (s.host.head k.val).handed.any (fun r => r.no == p.no && r.slice == i.val) = false →
        Completes (.sliceDeadlineMiss k frame i) s (fun t =>
          (t.host.head k.val).isMissed p.no i.val = true ∧ (t.host.head k.val).handed = (s.host.head k.val).handed ∧
          t.host.get (Reg.HDS_COUNTS_FAULT_SLICES k.val) =
            satAdd (s.host.get (Reg.HDS_COUNTS_FAULT_SLICES k.val)) 1 (Reg.HDS_COUNTS_FAULT_SLICES k.val).w ∧
          t.host.get (Reg.HDS_STATUS_FAULT_SEEN k.val) = 1 ∧ OnlyHost s t))) ∧
  (∀ (s : State) (k : Fin 48) (p : Plan), s.hostReady →
      (∀ n, (s.host.head k.val).planFrom (s.host.head k.val).emitNo = some p →
        n = (if p.no = (s.host.head k.val).emitNo then (s.host.head k.val).emitPkt else 0) →
        -2 ≤ dtDiff (s.host.egressAt (k.val + 4)) (p.pkt n) →
        Completes (.packetEmit k) s (fun t =>
          (n + 1 ≠ p.time.entry.packets → (t.host.head k.val).emitNo = p.no ∧ (t.host.head k.val).emitPkt = n + 1) ∧
          (n + 1 = p.time.entry.packets → (t.host.head k.val).emitNo = p.no + 1 ∧ (t.host.head k.val).emitPkt = 0) ∧
          (dtDiff (s.host.egressAt (k.val + 4)) (p.pkt n) ≤ 0 →
            (∃ bytes earlier, t.host.sent = .headFrame k.val bytes :: earlier) ∧
            (n % 64 ≠ 0 → t.host.sent = .headFrame k.val (s.host.packetBytes k.val p n) :: s.host.sent ∧
              t.host.get (Reg.HDS_PKTS_COUNT k.val) = (s.host.get (Reg.HDS_PKTS_COUNT k.val) + 1) % 2 ^ 32)) ∧
          (0 < dtDiff (s.host.egressAt (k.val + 4)) (p.pkt n) → n % 64 ≠ 0 → t.host.sent = s.host.sent ∧
            t.host.get (Reg.HDS_PKTS_COUNT k.val) = s.host.get (Reg.HDS_PKTS_COUNT k.val)) ∧
          (n % 64 ≠ 0 → RegsKept [Reg.HDS_PKTS_COUNT k.val] s t ∧ MemKept s t) ∧ OnlyHost s t)) ∧
      (∀ i, (s.host.head k.val).planFrom (s.host.head k.val).doneNo = some p →
        i = (if p.no = (s.host.head k.val).doneNo then (s.host.head k.val).doneSlice else 0) →
        (p.no < (s.host.head k.val).emitNo ∨ ((s.host.head k.val).emitNo = p.no ∧
          min (64 * (i + 1)) p.time.entry.packets ≤ (s.host.head k.val).emitPkt)) →
        Completes (.sliceEmitComplete k) s (fun t =>
          (t.host.head k.val).handed = (s.host.head k.val).handed.filter (fun r => !(r.no == p.no && r.slice == i)) ∧
          (i + 1 ≠ p.time.entry.slices → (t.host.head k.val).doneNo = p.no ∧ (t.host.head k.val).doneSlice = i + 1) ∧
          (i + 1 = p.time.entry.slices → (t.host.head k.val).doneNo = p.no + 1 ∧ (t.host.head k.val).doneSlice = 0) ∧
          OnlyHost s t)))

/-- O7: A latch fixes its frame, a frame start shows it, and a due slice enters composition (R148, R157, R158, R190,
R186, R201, 06_composition.md, 08_heads.md). What it says of the points that log entries 41, 72, 73, 83, 85, 221, 237
settle is the model's own choice or reading. -/
def Obligations.CompositionFollowsTheLatch : Prop :=
  ∀ (s : State) (k : Fin 48), s.hostReady →
    (∀ n, s.host.nextLatch k.val = some n → dtReached s.host.now n.at_ = true →
      Completes (.latch k) s (fun t =>
        (t.host.head k.val).latches = (s.host.head k.val).latches + 1 ∧ (t.host.head k.val).nextFrame = n.frame + 1 ∧
        (∃ p, (t.host.head k.val).plans.head? = some p ∧ p.no = (s.host.head k.val).latches + 1 ∧ p.frame = n.frame ∧
          p.time = n.time ∧ p.phi = (s.host.slew k.val n).1 ∧ p.mark = none) ∧
        (∀ c, n.first = false → (s.host.head k.val).commit = some c → c ≤ n.frame → (t.host.head k.val).commit = none ∧
          t.host.get (Reg.HDS_STATUS_COMMIT_PENDING k.val) = 0 ∧
          t.host.get (Reg.HDS_COMMIT_FRAME_FRAME k.val) = n.frame % 2 ^ 32) ∧ OnlyHost s t)) ∧
    (∀ p, (s.host.head k.val).planFrom ((s.host.head k.val).started + 1) = some p →
      dtReached s.host.now p.start = true →
      (∃ u, (s.host.head k.val).time = some u ∧ (u = p.time ∨ timingDiffers u.entry p.time.entry = false)) →
      Completes (.frameStart k) s (fun t =>
        (t.host.head k.val).started = p.no ∧ t.host.get (Reg.HDS_FRAME_FRAME k.val) = p.f ∧
        t.host.get (Reg.HDS_STATUS_TE_SLEWING k.val) = b2n (p.step != 0) ∧
        t.host.pair (Reg.HDS_PHASE_LO_PHI k.val) (Reg.HDS_PHASE_HI_PHI k.val) = unsigned p.phi 64 ∧ OnlyHost s t)) ∧
    (∀ (i : Fin 128) (facts : ComposeFacts) (p : Plan) (h1 : HostSide) (e : Nat),
      s.host.nextSlice k.val i.val = some (p, true) →
      h1 = (if i.val = 0 then s.host.takeOver k.val p.time.entry else s.host) → e = h1.engineOf k.val p.time.entry →
      dtReached s.host.now (p.composeAt i.val) = true → dtReached s.host.now (p.emit i.val) = false →
      h1.get (Reg.CMP_ENGINE_STATUS_FAULTED e) = 0 → h1.firstInOrder k.val (p.emit i.val) e = true →
      (h1.finishSlices e).isSome = true →
      Completes (.sliceComposeStart k i facts) s (fun t =>
        (t.host.head k.val).compNo = p.no ∧ (t.host.head k.val).compSlice = i.val + 1 ∧
        (t.host.head k.val).filling = (s.host.head k.val).filling ++
          (s.host.head k.val).composing.filter (fun r => r.engine == e) ∧
        (∃ r, (t.host.head k.val).composing =
            (s.host.head k.val).composing.filter (fun r => r.engine != e) ++ [r] ∧ r.no = p.no ∧ r.engine = e ∧
          r.frame = p.f ∧ r.slice = i.val ∧ r.pixels = ringPass r.drawn) ∧
        tget none t.host.display.rings (16 * k.val + ringSlotOf p i.val) = none ∧ OnlyHost s t))

/-- O8: A commit aims at a latch; a tearing-effect report is taken or dropped (R145, R190, R191, R200, R201,
08_heads.md, 06_composition.md). What it says of the points that log entries 70, 72 settle is the model's own choice
or reading. -/
def Obligations.CommitsAndReportsMeetTheirFrames : Prop :=
  (∀ (s : State) (who : Requester) (k : Fin 48) (target : BitVec 8), s.reaches who →
      (s.host.get (Reg.HDS_STATUS_ENABLED k.val) ≠ 1 →
        Completes (.commit who k) s (fun t => t.host.display = s.host.display ∧ RegsKept [] s t ∧ MemKept s t ∧ OnlyHost s t) ∧
        Completes (.commitTargeted who k target) s (fun t => t.host.display = s.host.display ∧ RegsKept [] s t ∧
          MemKept s t ∧ OnlyHost s t)) ∧
      (s.host.get (Reg.HDS_STATUS_ENABLED k.val) = 1 →
        (s.host.committed = false ∨ s.host.stage.chHeads.contains k.val = false) →
        Completes (.commit who k) s (fun t =>
          (t.host.head k.val).commit = some (s.host.followingLatch k.val) ∧
          t.host.get (Reg.HDS_STATUS_COMMIT_PENDING k.val) = 1 ∧
          t.host.get (Reg.HDS_STATUS_COMMIT_LATE k.val) = s.host.get (Reg.HDS_STATUS_COMMIT_LATE k.val) ∧ OnlyHost s t) ∧
        (∀ d, d = signed (target.toNat + 256 - s.host.followingLatch k.val % 256) 8 →
          (0 ≤ d → Completes (.commitTargeted who k target) s (fun t =>
            (t.host.head k.val).commit = some (s.host.followingLatch k.val + d.toNat) ∧
            t.host.get (Reg.HDS_STATUS_COMMIT_PENDING k.val) = 1 ∧ OnlyHost s t)) ∧
          (d < 0 → Completes (.commitTargeted who k target) s (fun t =>
            (t.host.head k.val).commit = some (s.host.followingLatch k.val) ∧
            t.host.get (Reg.HDS_STATUS_COMMIT_PENDING k.val) = 1 ∧ t.host.get (Reg.HDS_STATUS_COMMIT_LATE k.val) = 1 ∧
            t.host.get (Reg.HDS_COUNTS_LATE_COMMITS k.val) =
              satAdd (s.host.get (Reg.HDS_COUNTS_LATE_COMMITS k.val)) 1 (Reg.HDS_COUNTS_LATE_COMMITS k.val).w ∧
            OnlyHost s t))))) ∧
  (∀ (s : State) (k : Fin 48) (b : TeReport), s.hostReady →
      ((s.host.get (Reg.HDS_TE_CTRL_TE_EN k.val) ≠ 1 ∨ b.payload.length ≠ 32 ∨
          (crc32c (b.payload.take 28)).toNat ≠ fieldAt b.payload 28 4) →
        Completes (.teReport k b) s (fun t =>
          t.host.get (Reg.HDS_COUNTS_TE_DROPS k.val) =
            satAdd (s.host.get (Reg.HDS_COUNTS_TE_DROPS k.val)) 1 (Reg.HDS_COUNTS_TE_DROPS k.val).w ∧
          RegsKept [Reg.HDS_COUNTS_TE_DROPS k.val] s t ∧ MemKept s t ∧ t.host.display = s.host.display ∧ OnlyHost s t)) ∧
      (∀ p, (s.host.head k.val).plan (s.host.head k.val).started = some p →
        (s.host.head k.val).plans.find? (fun q => q.time.same p.time && q.f == p.f &&
          decide (q.no ≤ (s.host.head k.val).started)) = some p →
        (∀ r, (s.host.head k.val).report = some r → 0 ≤ signed (p.f + 2 ^ 32 - r.frame) 32) → s.host.get (Reg.HDS_TE_CTRL_TE_EN k.val) = 1 → b.payload.length = 32 →
        bits (fieldAt b.payload 0 1) 4 4 = 1 → bits (fieldAt b.payload 1 1) 0 6 = k.val →
        bit (fieldAt b.payload 2 2) 0 = true → (crc32c (b.payload.take 28)).toNat = fieldAt b.payload 28 4 →
        (b.dest.toNat = s.host.get Reg.HDS_TE_DA_HI_ADDR * 2 ^ 32 + s.host.get Reg.HDS_TE_DA_LO_ADDR ∨
          b.dest.toNat = s.host.get Reg.HDS_SRC_MAC_HI_ADDR * 2 ^ 32 + s.host.get Reg.HDS_SRC_MAC_LO_ADDR) →
        fieldAt b.payload 4 4 = p.f →
        (dtDiff (BitVec.ofNat 64 (fieldAt b.payload 8 8)) p.start).natAbs * 2 ^ 24 < p.time.entry.pq →
        Completes (.teReport k b) s (fun t =>
          t.host.get (Reg.HDS_TE_STATUS_VALID k.val) = 1 ∧ t.host.get (Reg.HDS_TE_STATUS_LAST_FRAME k.val) = p.f % 2 ^ 8 ∧
          (t.host.head k.val).report = some ⟨p.f, p.phi + dtDiff (BitVec.ofNat 64 (fieldAt b.payload 8 8)) p.start,
            (s.host.head k.val).started, s.host.tb.raw.toNat⟩ ∧
          RegsKept [Reg.HDS_TE_STATUS_VALID k.val, Reg.HDS_TE_STATUS_LAST_FRAME k.val] s t ∧ MemKept s t ∧ OnlyHost s t)))

/-- O9: A read index moves only on the written span; a layer's budget only within the admitted one (R53, R54, R82,
02_freshness.md, 03_structure_image.md). -/
def Obligations.ReadIndicesStayOnTheSpan : Prop :=
  ∀ (s : State) (who : Requester) (v : Word) (l : Fin 1024), s.reaches who →
    (∀ i, i = v.toNat % 4096 →
      (onSpan 4096 (s.host.get Reg.FRS_EVT_RD_INDEX) (s.host.get Reg.FRS_EVT_WR_INDEX) i = true →
        Completes (.evtRdWrite who v) s (fun t => t.host.get Reg.FRS_EVT_RD_INDEX = i ∧
          RegsKept [Reg.FRS_EVT_RD_INDEX] s t ∧ MemKept s t ∧ OnlyHost s t)) ∧
      (onSpan 4096 (s.host.get Reg.FRS_EVT_RD_INDEX) (s.host.get Reg.FRS_EVT_WR_INDEX) i = false →
        Completes (.evtRdWrite who v) s (fun t => RegsKept [] s t ∧ MemKept s t ∧ OnlyHost s t))) ∧
    (∀ i, i = v.toNat % 2 ^ 16 →
      (onSpan s.host.cfg.log.modCount (s.host.get Reg.SYS_LOG_RD_INDEX) (s.host.get Reg.SYS_LOG_WR_INDEX) i = true →
        Completes (.logRdWrite who v) s (fun t => t.host.get Reg.SYS_LOG_RD_INDEX = i ∧
          RegsKept [Reg.SYS_LOG_RD_INDEX] s t ∧ MemKept s t ∧ OnlyHost s t)) ∧
      (onSpan s.host.cfg.log.modCount (s.host.get Reg.SYS_LOG_RD_INDEX) (s.host.get Reg.SYS_LOG_WR_INDEX) i = false →
        Completes (.logRdWrite who v) s (fun t => RegsKept [] s t ∧ MemKept s t ∧ OnlyHost s t))) ∧
    (∀ b, b = v.toNat % 2 ^ 26 →
      (1 ≤ b → b ≤ ((s.host.layerEntry l.val).map (·.budget)).getD 0 →
        Completes (.layerBudgetWrite who l v) s (fun t => t.host.get (Reg.FRS_LAYER_BUDGET_BUDGET l.val) = b ∧
          RegsKept [Reg.FRS_LAYER_BUDGET_BUDGET l.val] s t ∧ MemKept s t ∧ OnlyHost s t)) ∧
      (b = 0 ∨ ((s.host.layerEntry l.val).map (·.budget)).getD 0 < b →
        Completes (.layerBudgetWrite who l v) s (fun t => t.host.get (Reg.FRS_LAYER_STATE_BUDGET_REFUSED l.val) = 1 ∧
          RegsKept [Reg.FRS_LAYER_STATE_BUDGET_REFUSED l.val] s t ∧ MemKept s t ∧ OnlyHost s t)))

/-- O10: The conserved quantities are checked in time; a failure sets its bit and the first failure; a write clears
(R23, R24, R25, 01_architecture.md). What it says of the points that log entries 83, 221 settle is the model's own
choice or reading. -/
def Obligations.InvariantsAreCheckedAndCleared : Prop :=
  ∀ (s : State) (who : Requester) (v : Word),
    (s.hostReady → s.host.activeId ≠ 0 → s.host.lowestHead = none → s.host.checkDue = true →
      s.host.get (Reg.TRT_MASTER_FREE 0) + s.host.get (Reg.TRT_MASTER_IN_FLIGHT 0) ≠ 128 →
      Completes (.invariantTimer) s (fun t =>
        t.host.get Reg.SYS_INVAR_STATUS_TRT_CREDIT = 1 ∧ t.host.get Reg.SYS_INVAR_STATUS_VALID = 1 ∧
        t.host.stuck 0 0 = true ∧
        (s.host.get Reg.SYS_INVAR_STATUS_VALID = 0 → s.host.conserve.cleared ≠ some s.host.tb.raw → t.host.get Reg.SYS_INVAR_STATUS_FIRST_QTY = 0 ∧
          t.host.get Reg.SYS_INVAR_STATUS_FIRST_INST = 0) ∧ OnlyHost s t)) ∧
    (s.reaches who →
      Completes (.invarStatusWrite who v) s (fun t =>
        (∀ f ∈ [Reg.SYS_INVAR_STATUS_TRT_CREDIT, Reg.SYS_INVAR_STATUS_SLOT, Reg.SYS_INVAR_STATUS_LEASE,
            Reg.SYS_INVAR_STATUS_REF_TOKEN, Reg.SYS_INVAR_STATUS_LINK_CREDIT, Reg.SYS_INVAR_STATUS_HEAD_SLOT,
            Reg.SYS_INVAR_STATUS_PAGE, Reg.SYS_INVAR_STATUS_DRAM_TXN],
          t.host.get f = if bit v.toNat f.lo ∧ bit s.host.failedNow f.lo = false then 0 else s.host.get f) ∧
        t.host.get Reg.SYS_INVAR_STATUS_VALID =
          (if s.host.get Reg.SYS_INVAR_STATUS_VALID = 1 ∧
              ∀ f ∈ [Reg.SYS_INVAR_STATUS_TRT_CREDIT, Reg.SYS_INVAR_STATUS_SLOT, Reg.SYS_INVAR_STATUS_LEASE,
                Reg.SYS_INVAR_STATUS_REF_TOKEN, Reg.SYS_INVAR_STATUS_LINK_CREDIT, Reg.SYS_INVAR_STATUS_HEAD_SLOT,
                Reg.SYS_INVAR_STATUS_PAGE, Reg.SYS_INVAR_STATUS_DRAM_TXN], t.host.get f ≠ 1
            then 0 else s.host.get Reg.SYS_INVAR_STATUS_VALID) ∧
        RegsKept [Reg.SYS_INVAR_STATUS_TRT_CREDIT, Reg.SYS_INVAR_STATUS_SLOT, Reg.SYS_INVAR_STATUS_LEASE,
          Reg.SYS_INVAR_STATUS_REF_TOKEN, Reg.SYS_INVAR_STATUS_LINK_CREDIT, Reg.SYS_INVAR_STATUS_HEAD_SLOT,
          Reg.SYS_INVAR_STATUS_PAGE, Reg.SYS_INVAR_STATUS_DRAM_TXN, Reg.SYS_INVAR_STATUS_VALID] s t ∧
        MemKept s t ∧ OnlyHost s t))

/-- O11: A lost lock is recorded and the second one takes the crossing DOWN; a gained lock starts HELLO (R14, R260,
R262, 01_architecture.md, 11_crossing.md). What it says of the points that log entries 52, 53 settle is the model's
own choice or reading. -/
def Obligations.IsolationLocksGovernTheCrossing : Prop :=
  ∀ (s : State) (ch : Fin 2) (f : Fld),
    f = (if ch.val = 0 then Reg.MBX_XING_STATUS_LOCK0 else Reg.MBX_XING_STATUS_LOCK1) →
    (s.locked ch.val = true → s.host.run = true → Completes (.isolationLockLost ch) s (fun t =>
      t.locked ch.val = false ∧ t.host.get f = 0 ∧
      (s.locked (1 - ch.val) = true → t.host.xing.state = s.host.xing.state ∧ t.field = s.field) ∧
      (s.locked (1 - ch.val) = false → t.host.xing.state = 0 ∧ (s.field.run = true → t.field.xing.state = 0)))) ∧
    (s.locked ch.val = false → s.host.run = true → s.field.run = true → 4 ≤ s.host.get Reg.SYS_BOOT_STATUS_STEP →
      6 ≤ s.field.boot.step → Completes (.isolationLockGained ch) s (fun t =>
        t.locked ch.val = true ∧ t.host.get f = 1 ∧
        (s.host.xing.state = 0 → t.host.xing.state = 1 ∧ t.host.get Reg.MBX_XING_STATUS_STATE = 1) ∧
        (s.host.xing.state ≠ 0 → t.host.xing.state = s.host.xing.state) ∧
        (s.field.xing.state ≠ 0 → t.field = s.field) ∧
        (s.field.xing.state = 0 → t.field.xing.state = 1 ∧ ((s.field.xing.chan 10).full < 16 →
          ∃ x, (t.field.xing.chan 10).flight = (s.field.xing.chan 10).flight ++ [x] ∧ cellType x.cell = 6))))

/-- O12: A push takes a slot, a pop frees one, an acknowledge travels back; a non-secure access to a secure channel is
counted (R249, R252, R253, R256, R259, 11_crossing.md). What it says of the points that log entries 67, 209 settle is
the model's own choice or reading. -/
def Obligations.ChannelsPushPopAndAcknowledge : Prop :=
  ∀ (s : State) (who : Requester) (ch : Fin 80) (v : Word), s.reaches who →
    (hostSends ch.val = true → (secureChan ch.val = true → who.isSecure = true) →
      (s.host.xing.canPush ch.val = true → Completes (.mbxPush who ch) s (fun t =>
        (t.host.xing.chan ch.val).full = (s.host.xing.chan ch.val).full + 1 ∧
        (∃ x, (t.host.xing.chan ch.val).flight = (s.host.xing.chan ch.val).flight ++ [x] ∧ x.at_ = s.host.now ∧
          x.cell = patch (s.host.staged ch.val) 1 (leBytes (s.host.xing.chan ch.val).cseq 1)) ∧
        t.host.get (Reg.MBX_TXSTAT_FULL ch.val) = ((s.host.xing.chan ch.val).full + 1) % 2 ^ 5 ∧
        (ch.val < 64 → RegsKept [Reg.MBX_TXSTAT_FREE ch.val, Reg.MBX_TXSTAT_FULL ch.val, Reg.MBX_TXSTAT_ACKS ch.val] s t) ∧
        MemKept s t ∧ OnlyHost s t)) ∧
      (s.host.xing.canPush ch.val = false → Completes (.mbxPush who ch) s (fun t =>
        t.host.get (Reg.MBX_TXSTAT_REJECTED ch.val) = 1 ∧ t.host.xing = s.host.xing ∧
        RegsKept [Reg.MBX_TXSTAT_REJECTED ch.val] s t ∧ MemKept s t ∧ OnlyHost s t)) ∧
      (∀ a rest, (s.host.xing.chan ch.val).ackq = a :: rest → Completes (.ackqRead who ch) s (fun t =>
        t.host.resp = .data (a.msg + 2 ^ 8 * a.code + 2 ^ 31) ∧ (t.host.xing.chan ch.val).ackq = rest ∧
        MemKept s t ∧ OnlyHost s t)) ∧
      ((s.host.xing.chan ch.val).ackq = [] → Completes (.ackqRead who ch) s (fun t =>
        t.host.resp = .data 0 ∧ t.host.xing = s.host.xing ∧ RegsKept [] s t ∧ MemKept s t ∧ OnlyHost s t))) ∧
    (hostReceives ch.val = true → (secureChan ch.val = true → who.isSecure = true) →
      (∀ cell rest, (s.host.xing.chan ch.val).slots = cell :: rest → Completes (.mbxPop who ch) s (fun t =>
        (t.host.xing.chan ch.val).slots = rest ∧
        (ch.val < 64 → (t.host.xing.chan ch.val).popped = (s.host.xing.chan ch.val).popped + 1) ∧
        (64 ≤ ch.val → (t.host.xing.chan ch.val).popped = 0 ∧ (s.host.stuck 1 ch.val = false →
          (t.host.xing.chan ch.val).full =
            (s.host.xing.chan ch.val).full - ((s.host.xing.chan ch.val).popped + 1))) ∧ OnlyHost s t)) ∧
      ((s.host.xing.chan ch.val).slots = [] → Completes (.mbxPop who ch) s (fun t =>
        t.host.xing = s.host.xing ∧ RegsKept [] s t ∧ MemKept s t ∧ OnlyHost s t)) ∧
      (bit v.toNat 31 = true → Completes (.mbxAck who ch v) s (fun t =>
        (ch.val < 64 → (t.host.xing.chan ch.val).acks =
          (s.host.xing.chan ch.val).acks ++ [⟨bits v.toNat 0 8, bits v.toNat 8 16⟩]) ∧
        (64 ≤ ch.val → (s.host.xing.chan ch.val).acks = [] → (s.host.xing.chan ch.val).ackq.length < 16 →
          (t.host.xing.chan ch.val).ackq = (s.host.xing.chan ch.val).ackq ++ [⟨bits v.toNat 0 8, bits v.toNat 8 16⟩]) ∧
        (t.host.xing.chan ch.val).slots = (s.host.xing.chan ch.val).slots ∧ MemKept s t ∧ OnlyHost s t)) ∧
      (bit v.toNat 31 = false → Completes (.mbxAck who ch v) s (fun t =>
        t.host.xing = s.host.xing ∧ RegsKept [] s t ∧ MemKept s t ∧ OnlyHost s t))) ∧
    (secureChan ch.val = true → who.isSecure = false → ∀ c,
      (c = .mbxPush who ch ∧ hostSends ch.val = true ∨ c = .ackqRead who ch ∧ hostSends ch.val = true ∨
        c = .mbxPop who ch ∧ hostReceives ch.val = true ∨ c = .mbxAck who ch v ∧ hostReceives ch.val = true) →
      Completes c s (fun t =>
        t.host.get Reg.MBX_SEC_VIOL_COUNT = satAdd (s.host.get Reg.MBX_SEC_VIOL_COUNT) 1 Reg.MBX_SEC_VIOL_COUNT.w ∧
        t.host.xing = s.host.xing ∧ RegsKept [Reg.MBX_SEC_VIOL_COUNT] s t ∧ MemKept s t ∧ OnlyHost s t))

/-- O13: The oldest cell in flight on a channel arrives in a slot, or, damaged, returns its slot and is counted (R253,
R255, R259, R263, 11_crossing.md). What it says of the points that log entries 48, 56 settle is the model's own choice
or reading. -/
def Obligations.CellsArriveWhole : Prop :=
  ∀ (s : State) (ch : Fin 80) (x : Flight) (rest : List Flight),
    (64 ≤ ch.val → s.hostReady → (s.host.xing.chan ch.val).flight = x :: rest → ∀ damaged,
      Completes (.cellArrival ch damaged) s (fun t =>
        (t.host.xing.chan ch.val).flight = rest ∧
        (t.host.xing.chan ch.val).slots = (s.host.xing.chan ch.val).slots ++ [x.cell] ∧ MemKept s t ∧ OnlyHost s t)) ∧
    (ch.val < 64 → hostReceives ch.val = true → s.hostReady → (s.field.xing.chan ch.val).flight = x :: rest →
      s.field.xing.mayArrive ch.val = true →
      Completes (.cellArrival ch true) s (fun t =>
        (t.field.xing.chan ch.val).flight = rest ∧ (t.host.xing.chan ch.val).slots = (s.host.xing.chan ch.val).slots ∧
        (t.host.xing.chan ch.val).popped = (s.host.xing.chan ch.val).popped + 1 ∧
        t.host.get Reg.MBX_XING_COUNTS_CELL_ERR =
          satAdd (s.host.get Reg.MBX_XING_COUNTS_CELL_ERR) 1 Reg.MBX_XING_COUNTS_CELL_ERR.w ∧
        MemKept s t ∧ t.phys = s.phys) ∧
      (ch.val ≠ 9 → Completes (.cellArrival ch false) s (fun t =>
        (t.field.xing.chan ch.val).flight = rest ∧
        (∃ c, (t.host.xing.chan ch.val).slots = (s.host.xing.chan ch.val).slots ++ [c] ∧
          (cellType x.cell ≠ 4 → c = x.cell)) ∧ MemKept s t ∧ t.phys = s.phys)) ∧
      (ch.val = 9 → Completes (.cellArrival ch false) s (fun t =>
        (t.field.xing.chan ch.val).flight = rest ∧ t.phys = s.phys))) ∧
    (ch.val < 64 → hostSends ch.val = true → s.fieldReady → (s.host.xing.chan ch.val).flight = x :: rest →
      s.host.xing.mayArrive ch.val = true →
      Completes (.cellArrival ch true) s (fun t =>
        (t.host.xing.chan ch.val).flight = rest ∧ (t.field.xing.chan ch.val).slots = (s.field.xing.chan ch.val).slots ∧
        (t.field.xing.chan ch.val).popped = (s.field.xing.chan ch.val).popped + 1 ∧
        t.field.xing.cellErr = s.field.xing.cellErr + 1 ∧ MemKept s t ∧ t.phys = s.phys) ∧
      Completes (.cellArrival ch false) s (fun t =>
        (t.host.xing.chan ch.val).flight = rest ∧
        (∃ c, (t.field.xing.chan ch.val).slots = (s.field.xing.chan ch.val).slots ++ [c] ∧
          (cellType x.cell ≠ 4 → c = x.cell)) ∧ MemKept s t ∧ t.phys = s.phys))

/-- O14: A link cell carries pop notices, acknowledges and doorbells and is sent at most once in 8 µs; bells become
pending (R249, R253, R256, R258, 11_crossing.md, 16_twin_repair.md). What it says of the points that log entry 186
settles is the model's own choice or reading. -/
def Obligations.LinkCellsCarryNoticesAndBells : Prop :=
  ∀ (s : State) (who : Requester) (v : Word) (p : LinkPayload) (rest : List LinkPayload),
    (s.hostReady → s.host.xing.state ≠ 0 → (s.host.xing.linkWaiting s.host.ringing s.host.now).waiting = true →
      s.host.xing.linkDue s.host.tb.raw.toNat = true → Completes (.linkCellSend .host) s (fun t =>
        t.host.xing.link = s.host.xing.link ++ [s.host.xing.linkWaiting s.host.ringing s.host.now] ∧
        (∀ c, c < 32 → (t.host.xing.chan c).popped = 0 ∧ (t.host.xing.chan c).acks = []) ∧ t.host.ringing = 0 ∧
        RegsKept [Reg.MBX_DB_RING_LO_BITS, Reg.MBX_DB_RING_HI_BITS] s t ∧ MemKept s t ∧ OnlyHost s t)) ∧
    (s.fieldReady → s.field.xing.state ≠ 0 → (s.field.xing.linkWaiting s.field.xing.ring s.field.now).waiting = true →
      s.field.xing.linkDue s.field.tb.raw.toNat = true → Completes (.linkCellSend .field) s (fun t =>
        t.field.xing.link = s.field.xing.link ++ [s.field.xing.linkWaiting s.field.xing.ring s.field.now] ∧ t.field.xing.notes = [] ∧
        (∀ c, c < 32 → (t.field.xing.chan c).popped = 0 ∧ (t.field.xing.chan c).acks = []) ∧ t.field.xing.ring = 0 ∧
        OnlyField s t)) ∧
    (s.hostReady → s.field.xing.link = p :: rest → Completes (.linkCellArrival .host) s (fun t =>
      t.field.xing.link = rest ∧
      t.host.get Reg.MBX_DB_PEND_LO_BITS = (s.host.get Reg.MBX_DB_PEND_LO_BITS ||| (p.bells % 2 ^ 32)) % 2 ^ 32 ∧
      t.host.get Reg.MBX_DB_PEND_HI_BITS = (s.host.get Reg.MBX_DB_PEND_HI_BITS ||| (p.bells / 2 ^ 32)) % 2 ^ 32 ∧
      (∀ c n, p.pops = [(c, n)] → p.acks = [] → s.host.stuck 1 c = false →
        (t.host.xing.chan c).full = (s.host.xing.chan c).full - n) ∧
      (∀ b, p.notes = [.dryLaunch b] → t.host.twin.dryPassed = b) ∧
      (p.notes = [.blocked] → t.host.get Reg.TWN_STATUS_TAKEOVER_BLOCKED = 1) ∧
      (p.notes = [.released] → t.host.twin.releasing = false ∧ t.host.get Reg.TWN_COUNTS_RELEASES =
        satAdd (s.host.get Reg.TWN_COUNTS_RELEASES) 1 Reg.TWN_COUNTS_RELEASES.w) ∧
      (p.notes = [] → MemKept s t) ∧ t.phys = s.phys)) ∧
    (s.fieldReady → s.host.xing.link = p :: rest → bit p.bells 5 = false → Completes (.linkCellArrival .field) s (fun t =>
      t.host.xing.link = rest ∧
      t.field.il.bell0 = (if bit p.bells 0 then some s.field.now else s.field.il.bell0) ∧
      t.field.il.bell2 = (if bit p.bells 2 then some s.field.now else s.field.il.bell2) ∧
      t.field.il.bell3 = (if bit p.bells 3 then some s.field.now else s.field.il.bell3) ∧
      t.field.il.bell4 = (if bit p.bells 4 then some s.field.now else s.field.il.bell4) ∧
      t.field.xing.pend = (s.field.xing.pend ||| (p.bells / 32 * 32)) ∧ t.phys = s.phys)) ∧
    (s.fieldReady → s.host.xing.link = p :: rest → bit p.bells 5 = true → Completes (.linkCellArrival .field) s (fun t =>
      t.field.run = true ∧ t.field.boot.step = 1)) ∧
    (s.reaches who → Completes (.doorbellRing .host who true v) s (fun t =>
      t.host.get Reg.MBX_DB_RING_HI_BITS = (s.host.get Reg.MBX_DB_RING_HI_BITS ||| v.toNat) % 2 ^ 32 ∧
      RegsKept [Reg.MBX_DB_RING_HI_BITS] s t ∧ MemKept s t ∧ OnlyHost s t)) ∧
    (s.reaches who → who.isSecure = true → Completes (.doorbellRing .host who false v) s (fun t =>
      (v ≠ 0 → t.host.get Reg.MBX_DB_RING_LO_BITS = (s.host.get Reg.MBX_DB_RING_LO_BITS ||| v.toNat) % 2 ^ 32) ∧
      RegsKept [Reg.MBX_DB_RING_LO_BITS] s t ∧ MemKept s t ∧ OnlyHost s t)) ∧
    (s.reaches who → who.isSecure = false → v ≠ 0 → Completes (.doorbellRing .host who false v) s (fun t =>
      t.host.get Reg.MBX_SEC_VIOL_COUNT = satAdd (s.host.get Reg.MBX_SEC_VIOL_COUNT) 1 Reg.MBX_SEC_VIOL_COUNT.w ∧
      RegsKept [Reg.MBX_SEC_VIOL_COUNT] s t ∧ MemKept s t ∧ OnlyHost s t)) ∧
    (s.fieldReady → Completes (.doorbellRing .field who false v) s (fun t =>
      t.field.xing.ring = (s.field.xing.ring ||| v.toNat) ∧ OnlyField s t))

/-- O15: INTERFACE_HELLO settles FULL or LIMITED, HEALTH keeps the crossing, 50 ms of silence takes it DOWN (R260,
R262, R266, R76, 11_crossing.md). What it says of the points that log entries 53, 66 settle is the model's own choice
or reading. -/
def Obligations.HelloAndHealthSetTheCrossing : Prop :=
  ∀ (s : State) (c : List Byte) (rest : List (List Byte)),
    (s.hostReady → (s.host.xing.chan 10).slots = c :: rest → cellType c = 6 → s.host.xing.state = 1 →
      Completes (.interfaceHelloRx) s (fun t => (t.host.xing.chan 10).slots = rest ∧
        t.host.xing.state = (if s.host.pairTested (fieldAt c 8 4) then 2 else 3) ∧
        t.host.get Reg.MBX_XING_STATUS_STATE = t.host.xing.state ∧
        t.host.get Reg.SIM_TUPLE3_FIELD_BUILD = fieldAt c 8 4 % 2 ^ 32 ∧
        ((s.host.xing.chan 1).full < 16 → (t.host.xing.chan 1).full = (s.host.xing.chan 1).full + 1) ∧
        MemKept s t ∧ OnlyHost s t)) ∧
    (s.fieldReady → (s.field.xing.chan 1).slots = c :: rest → cellType c = 6 → s.field.xing.state = 1 →
      Completes (.helloReplyRx) s (fun t => (t.field.xing.chan 1).slots = rest ∧
        t.field.xing.state = (if fieldAt c 7 1 = 1 then 2 else 3) ∧ OnlyField s t)) ∧
    (s.hostReady → s.host.xing.state ≠ 0 → 50000000 ≤ dtDiff s.host.now s.host.xing.lastHealth →
      Completes (.healthTimeout .host) s (fun t => t.host.xing.state = 0 ∧ t.host.get Reg.MBX_XING_STATUS_STATE = 0 ∧
        (s.field.run = true → t.field.xing.state = 0) ∧ MemKept s t ∧ t.phys = s.phys)) ∧
    (s.hostReady → dtDiff s.host.now s.host.xing.lastHealth < 50000000 →
      Completes (.healthTimeout .host) s (fun t => t = s)) ∧
    (s.fieldReady → s.field.xing.state ≠ 0 → 50000000 ≤ dtDiff s.field.now s.field.xing.lastHealth →
      Completes (.healthTimeout .field) s (fun t => t.field.xing.state = 0 ∧
        (s.host.run = true → t.host.xing.state = 0) ∧ MemKept s t ∧ t.phys = s.phys)) ∧
    (s.hostReady → 2 ≤ s.host.xing.state → s.host.xing.healthDue s.host.now = true → (s.host.xing.chan 1).full < 16 →
      Completes (.healthSend .host) s (fun t =>
      (t.host.xing.chan 1).full = (s.host.xing.chan 1).full + 1 ∧ t.host.xing.resync = false ∧
      t.host.xing.healthSent = some s.host.now ∧ MemKept s t ∧ OnlyHost s t)) ∧
    (s.fieldReady → 2 ≤ s.field.xing.state → s.field.xing.healthDue s.field.now = true →
      (s.field.xing.chan 10).full < 16 → Completes (.healthSend .field) s (fun t =>
      (t.field.xing.chan 10).full = (s.field.xing.chan 10).full + 1 ∧ t.field.work.carry = 0 ∧ OnlyField s t)) ∧
    (s.hostReady → (s.host.xing.chan 10).slots = c :: rest → cellType c = 5 → Completes (.healthRx .host) s (fun t =>
      (t.host.xing.chan 10).slots = rest ∧ t.host.xing.lastHealth = s.host.now ∧
      t.host.get Reg.TWN_STATUS_AUTHORITY = b2n (bit (fieldAt c 16 1) 0) ∧
      t.host.get Reg.TWN_STATUS_INTLK_IN = b2n (bit (fieldAt c 16 1) 1) ∧
      t.host.twin.releasing = (s.host.twin.releasing && bit (fieldAt c 16 1) 0) ∧ OnlyHost s t)) ∧
    (s.fieldReady → (s.field.xing.chan 1).slots = c :: rest → cellType c = 5 → Completes (.healthRx .field) s (fun t =>
      (t.field.xing.chan 1).slots = rest ∧ t.field.xing.lastHealth = s.field.now ∧
      t.field.act.split = bit (fieldAt c 16 1) 3 ∧ t.field.act.unqualified = bit (fieldAt c 16 1) 2 ∧ OnlyField s t))

/-- O16: A time transfer joins the mapping when its round trip is at most 3 µs; MAP_VALID follows the mapping's age
(R263, R264, 11_crossing.md). -/
def Obligations.TimeTransferFeedsTheMapping : Prop :=
  ∀ (s : State) (c : List Byte) (rest : List (List Byte)),
    (s.hostReady → 2 ≤ s.host.xing.state →
      (s.host.xing.xfer.lastSent = none ∨ ∃ d, s.host.xing.xfer.lastSent = some d ∧ 2000000 ≤ dtDiff s.host.now d) →
      Completes (.timeXferSend) s (fun t =>
        t.host.xing.xfer.xseq = (s.host.xing.xfer.xseq + 1) % 2 ^ 32 ∧ t.host.xing.xfer.lastSent = some s.host.now ∧
        t.host.xing.xfer.open_ = none ∧
        ((s.host.xing.chan 1).full < 16 → (t.host.xing.chan 1).full = (s.host.xing.chan 1).full + 1) ∧
        MemKept s t ∧ OnlyHost s t)) ∧
    (s.fieldReady → (s.field.xing.chan 1).slots = c :: rest → cellType c = 4 → Completes (.timeXferRequestRx) s (fun t =>
      (t.field.xing.chan 1).slots = rest ∧ t.field.xing.xfer.xseq = fieldAt c 4 4 ∧
      t.field.xing.xfer.open_ = some (dtAt c 8, dtAt c 16) ∧ OnlyField s t)) ∧
    (∀ e : Exchange, e = ⟨dtAt c 24, dtAt c 32, dtAt c 8, dtAt c 16⟩ → s.hostReady →
      (s.host.xing.chan 10).slots = c :: rest → cellType c = 4 → fieldAt c 4 4 = s.host.xing.xfer.xseq →
      Completes (.timeXferReplyRx) s (fun t =>
        (t.host.xing.chan 10).slots = rest ∧ t.host.xing.xfer.open_ = some (e.t3, e.t4) ∧
        (dtDiff e.t4 e.t1 - dtDiff e.t3 e.t2 ≤ 3000 →
          t.host.xing.xfer.k = some e ∧ t.host.xing.xfer.j = s.host.xing.xfer.k) ∧
        (3000 < dtDiff e.t4 e.t1 - dtDiff e.t3 e.t2 →
          t.host.xing.xfer.k = s.host.xing.xfer.k ∧ t.host.xing.xfer.j = s.host.xing.xfer.j) ∧
        t.host.get Reg.MBX_XING_STATUS_MAP_VALID = b2n t.host.mapping.isSome ∧ MemKept s t ∧ OnlyHost s t)) ∧
    (s.hostReady → Completes (.mapExpiry) s (fun t =>
      t.host.get Reg.MBX_XING_STATUS_MAP_VALID = b2n s.host.mapping.isSome ∧
      RegsKept [Reg.MBX_XING_STATUS_MAP_VALID] s t ∧ MemKept s t ∧ OnlyHost s t))

/-- O17: INCR changes the rate without moving DT; a step of OFFSET, LOSE and the window's end end the synchronised
state (R274, R275, R285, R286, R287, R433, 12_time.md). What it says of the points that log entry 43 settles is the
model's own choice or reading. -/
def Obligations.TimeBasesStepAndSynchronise : Prop :=
  ∀ (s : State) (who : Requester) (v lo : Word) (lose : Bool),
    (s.reaches who → who.isSecure = true →
      (incrOk v.toNat = true → Completes (.incrWrite .host who v) s (fun t => t.host.tb.incr = v ∧
        t.host.now = s.host.now ∧ t.host.get Reg.TIM_INCR_INCR = v.toNat ∧ RegsKept [Reg.TIM_INCR_INCR] s t ∧
        MemKept s t ∧ OnlyHost s t)) ∧
      (incrOk v.toNat = false → Completes (.incrWrite .host who v) s (fun t => t.host.tb = s.host.tb ∧ RegsKept [] s t ∧
        MemKept s t ∧ OnlyHost s t)) ∧
      (∀ low, low = (if tget 0 s.host.heldLo Reg.TIM_OFFSET_LO_OFFSET.off = 0 then s.host.get Reg.TIM_OFFSET_LO_OFFSET
          else tget 0 s.host.heldLo Reg.TIM_OFFSET_LO_OFFSET.off - 1) →
        Completes (.offsetStep .host who v lo) s (fun t =>
          t.host.tb.next = some (BitVec.ofNat 64 (low + 2 ^ 32 * v.toNat)) ∧ t.host.now = s.host.now ∧
          t.tick.host.tb.offset = BitVec.ofNat 64 (low + 2 ^ 32 * v.toNat) ∧ t.host.tb.syncUntil = none ∧
          t.host.get Reg.TIM_SYNC_STATUS_SYNC_OK = 0 ∧ t.host.get Reg.FRS_SYNC_BOUND_SYNC_OK = 0 ∧
          t.host.get Reg.TIM_COUNTS_STEPS = satAdd (s.host.get Reg.TIM_COUNTS_STEPS) 1 Reg.TIM_COUNTS_STEPS.w ∧
          MemKept s t ∧ OnlyHost s t)) ∧
      Completes (.syncConfirm .host who lose) s (fun t =>
        (lose = true ∨ s.host.tb.next ≠ none → t.host.tb.syncUntil = none) ∧
        (lose = false → s.host.tb.next = none → t.host.tb.syncUntil =
          if s.host.tb.mayConfirm (s.host.get Reg.TIM_SYNC_LIMIT_LIMIT) then some (s.host.now + 250000000)
          else s.host.tb.syncUntil) ∧
        t.host.get Reg.TIM_SYNC_STATUS_SYNC_OK = b2n t.host.tb.syncOk ∧
        t.host.get Reg.FRS_SYNC_BOUND_SYNC_OK = b2n t.host.tb.syncOk ∧
        RegsKept [Reg.TIM_SYNC_STATUS_SYNC_OK, Reg.FRS_SYNC_BOUND_SYNC_OK] s t ∧ MemKept s t ∧ OnlyHost s t) ∧
      Completes (.syncLose .host who) s (fun t => t.host.tb.syncUntil = none ∧
        t.host.get Reg.TIM_SYNC_STATUS_SYNC_OK = 0 ∧
        RegsKept [Reg.TIM_SYNC_STATUS_SYNC_OK, Reg.FRS_SYNC_BOUND_SYNC_OK] s t ∧ MemKept s t ∧ OnlyHost s t)) ∧
    (s.reaches who → who.isSecure = false → ∀ c, (c = .incrWrite .host who v ∨ c = .offsetStep .host who v lo ∨
        c = .syncConfirm .host who lose ∨ c = .syncLose .host who) →
      Completes c s (fun t => t.host.tb = s.host.tb ∧
        t.host.get Reg.TIM_COUNTS_SEC_VIOL = satAdd (s.host.get Reg.TIM_COUNTS_SEC_VIOL) 1 Reg.TIM_COUNTS_SEC_VIOL.w ∧
        RegsKept [Reg.TIM_COUNTS_SEC_VIOL] s t ∧ MemKept s t ∧ OnlyHost s t)) ∧
    (s.hostReady → ∀ e, s.host.tb.syncUntil = some e → dtReached s.host.now e = true →
      Completes (.syncWindowExpiry .host) s (fun t => t.host.tb.syncUntil = none ∧
        t.host.get Reg.TIM_SYNC_STATUS_SYNC_OK = 0 ∧
        RegsKept [Reg.TIM_SYNC_STATUS_SYNC_OK, Reg.FRS_SYNC_BOUND_SYNC_OK] s t ∧ MemKept s t ∧ OnlyHost s t)) ∧
    (s.fieldReady →
      (incrOk v.toNat = true → Completes (.incrWrite .field who v) s (fun t => t.field.tb.incr = v ∧
        t.field.now = s.field.now ∧ OnlyField s t)) ∧
      (incrOk v.toNat = false → Completes (.incrWrite .field who v) s (fun t => t.field = s.field ∧ OnlyField s t)) ∧
      Completes (.offsetStep .field who v lo) s (fun t =>
        t.field.tb.next = some (BitVec.ofNat 64 (lo.toNat + 2 ^ 32 * v.toNat)) ∧ t.field.now = s.field.now ∧
        t.tick.field.tb.offset = BitVec.ofNat 64 (lo.toNat + 2 ^ 32 * v.toNat) ∧ t.field.tb.syncUntil = none ∧
        OnlyField s t) ∧
      Completes (.syncConfirm .field who lose) s (fun t =>
        (lose = true ∨ s.field.tb.next ≠ none → t.field.tb.syncUntil = none) ∧
        (lose = false → s.field.tb.next = none → t.field.tb.syncUntil =
          if s.field.tb.mayConfirm s.field.syncLimit then some (s.field.now + 250000000) else s.field.tb.syncUntil) ∧
        OnlyField s t) ∧
      Completes (.syncLose .field who) s (fun t => t.field.tb.syncUntil = none ∧ OnlyField s t) ∧
      (∀ e, s.field.tb.syncUntil = some e → dtReached s.field.now e = true →
        Completes (.syncWindowExpiry .field) s (fun t => t.field.tb.syncUntil = none ∧ OnlyField s t)))

/-- O18: A domain time at the slave port steps OFFSET at a first lock, a new shift or above 1 ms of error, else
changes the rate (R280, R281, R282, R283, R286, 12_time.md). -/
def Obligations.GptpServoStepsOrSlews : Prop :=
  ∀ (s : State) (port : Fin 52) (d : BitVec 8) (i e o : Int) (x org : DT) (m : GptpMsg),
    (s.hostReady → port.val < 4 →
      (bit (s.host.get Reg.TIM_GPTP_CTRL_HN_EN) port.val = true → d.toNat = s.host.get Reg.TIM_GPTP_CTRL_DOMAIN →
        ((m = .sync d i (some org) ∧ -7 ≤ i ∧ i ≤ 0 ∧ x = s.host.ingressAt port.val ∨
            m = .followUp d org ∧ s.host.tb.gptp.syncAt = some (port.val, x)) →
          s.host.tb.slave = some port.val →
          o = s.host.tb.offsetOf port.val x org (s.host.corr (Reg.TIM_PORT_ASYM_NS port.val)) →
          e = o - (if s.host.shiftNew then BitVec.ofNat 64
            (s.host.pair Reg.TIM_EPOCH_SHIFT_LO_SHIFT Reg.TIM_EPOCH_SHIFT_HI_SHIFT) else s.host.shift).toInt →
          (s.host.shiftNew = true ∨ s.host.tb.locked = false ∨ 1000000 < e.natAbs →
            Completes (.gptpMessage .host port m) s (fun t =>
              t.host.tb.next = some (s.host.tb.written - BitVec.ofInt 64 e) ∧ t.host.tb.locked = true ∧
              t.host.now = s.host.now ∧ t.host.tb.syncUntil = none ∧ t.host.shiftNew = false ∧ MemKept s t ∧
              OnlyHost s t)) ∧
          (s.host.shiftNew = false → s.host.tb.locked = true → e.natAbs ≤ 1000000 →
            Completes (.gptpMessage .host port m) s (fun t =>
              t.host.tb.offset = s.host.tb.offset ∧ t.host.tb.next = s.host.tb.next ∧ t.host.now = s.host.now ∧
              (∃ v, t.host.tb.incr = BitVec.ofNat 32 v ∧
                (s.host.tb.incrRange.1 ≤ s.host.tb.incrRange.2 → s.host.tb.incrRange.1 ≤ v ∧ v ≤ s.host.tb.incrRange.2) ∧
                (s.host.tb.incrRange.2 < s.host.tb.incrRange.1 → v = s.host.tb.incr.toNat)) ∧
              RegsKept [Reg.TIM_SYNC_STATUS_ERROR, Reg.TIM_INCR_INCR] s t ∧ MemKept s t ∧ OnlyHost s t))) ∧
        (∀ gm, Completes (.gptpMessage .host port (.announce d gm true)) s (fun t =>
          t.host.tb.slave = some port.val ∧ t.host.get Reg.TIM_SYNC_STATUS_SLAVE_PORT = 4 + port.val ∧
          RegsKept [Reg.TIM_SYNC_STATUS_SLAVE_PORT] s t ∧ MemKept s t ∧ OnlyHost s t))) ∧
      (bit (s.host.get Reg.TIM_GPTP_CTRL_HN_EN) port.val = false → Completes (.gptpMessage .host port m) s (fun t =>
        tget 0 t.host.tb.discards port.val = tget 0 s.host.tb.discards port.val + 1 ∧ RegsKept [] s t ∧ MemKept s t ∧
        OnlyHost s t))) ∧
    (s.hostReady → s.host.gptpOn port.val = true →
      (d.toNat = s.host.get Reg.TIM_GPTP_CTRL_DOMAIN → Completes (.gptpMessage .host port (.pdelayReq d)) s (fun t =>
        t.host.sent = .gptp port.val (.pdelayRespFollowUp (s.host.egressAt port.val)) (s.host.egressAt port.val) ::
          .gptp port.val (.pdelayResp (s.host.ingressAt port.val)) (s.host.egressAt port.val) :: s.host.sent ∧
        RegsKept [] s t ∧ MemKept s t ∧ OnlyHost s t)) ∧
      (4 ≤ port.val → s.host.tb.sendDue port.val .sync (s.host.gptpInterval .sync) = true →
        Completes (.gptpSyncSend (.host port) .sync) s (fun t =>
          t.host.sent = .gptp port.val (.followUp (s.host.egressAt port.val - s.host.shift)) (s.host.egressAt port.val) ::
            .gptp port.val .sync (s.host.egressAt port.val) :: s.host.sent ∧ RegsKept [] s t ∧ MemKept s t ∧
          OnlyHost s t)) ∧
      (4 ≤ port.val → s.host.tb.sendDue port.val .announce 1000000000 = true →
        Completes (.gptpSyncSend (.host port) .announce) s (fun t =>
          t.host.sent = .gptp port.val (.announce 255 s.host.tb.gm) (s.host.egressAt port.val) :: s.host.sent ∧
          RegsKept [] s t ∧ MemKept s t ∧ OnlyHost s t)) ∧
      (s.host.tb.sendDue port.val .pdelayReq 1000000000 = true →
        Completes (.gptpSyncSend (.host port) .pdelayReq) s (fun t =>
          t.host.sent = .gptp port.val .pdelayReq (s.host.egressAt port.val) :: s.host.sent ∧
          tget none t.host.tb.gptp.reqAt port.val = some (s.host.egressAt port.val) ∧
          RegsKept [] s t ∧ MemKept s t ∧ OnlyHost s t))) ∧
    (s.hostReady → Completes (.gptpReceiptTimeout .host) s (fun t => t.host.tb.slave = none ∧
      t.host.get Reg.TIM_SYNC_STATUS_SLAVE_PORT = 0 ∧ RegsKept [Reg.TIM_SYNC_STATUS_SLAVE_PORT] s t ∧ MemKept s t ∧
      OnlyHost s t)) ∧
    (s.fieldReady → Completes (.gptpReceiptTimeout .field) s (fun t => t.field.tb.slave = none ∧ OnlyField s t)) ∧
    (s.fieldReady → ∀ hp : port.val < 8, s.field.gptpOn port.val = true →
      (s.field.tb.sendDue port.val .pdelayReq 1000000000 = true → ∀ y g,
        s.field.gptpOut port.val .pdelayReq = (some y, g) →
        Completes (.gptpSyncSend (.field ⟨port.val, hp⟩) .pdelayReq) s (fun t =>
          t.field.work.sent = g.work.sent ∧ tget none t.field.tb.gptp.reqAt port.val = some y ∧ OnlyField s t)) ∧
      ((m = .sync 0 i (some org) ∧ -7 ≤ i ∧ i ≤ 0 ∧ x = s.field.arrival ∨
          m = .followUp 0 org ∧ s.field.tb.gptp.syncAt = some (port.val, x)) →
        s.field.tb.slave = some port.val → o = s.field.tb.offsetOf port.val x org 0 →
        (s.field.tb.locked = false ∨ 1000000 < o.natAbs → Completes (.gptpMessage .field port m) s (fun t =>
          t.field.tb.next = some (s.field.tb.written - BitVec.ofInt 64 o) ∧ t.field.tb.locked = true ∧
          t.field.now = s.field.now ∧ t.field.tb.syncUntil = none ∧ OnlyField s t)) ∧
        (s.field.tb.locked = true → o.natAbs ≤ 1000000 → Completes (.gptpMessage .field port m) s (fun t =>
          t.field.tb.offset = s.field.tb.offset ∧ t.field.tb.next = s.field.tb.next ∧ t.field.now = s.field.now ∧
          OnlyField s t))))

/-- O19: A lock is acquired by a read, released by its owner's write of 0, by LOCK_FORCE or by a reset, by nothing
else (R326). -/
def Obligations.LocksAreAcquiredByReading : Prop :=
  ∀ (s : State) (who : Requester) (core : Fin 8) (n : Fin 256) (v : Word),
    (s.reaches who →
      (v = 0 → s.host.get (Reg.TRT_LK_BUSY n.val) = 1 → s.host.get (Reg.TRT_LK_OWNER n.val) = who.lockId core.val →
        Completes (.lockRelease who core n v) s (fun t => t.host.get (Reg.TRT_LK_BUSY n.val) = 0 ∧
          t.host.get (Reg.TRT_LK_OWNER n.val) = 0 ∧
          RegsKept [Reg.TRT_LK_BUSY n.val, Reg.TRT_LK_OWNER n.val] s t ∧ MemKept s t ∧ OnlyHost s t)) ∧
      ((v ≠ 0 ∨ s.host.get (Reg.TRT_LK_BUSY n.val) ≠ 1 ∨ s.host.get (Reg.TRT_LK_OWNER n.val) ≠ who.lockId core.val) →
        Completes (.lockRelease who core n v) s (fun t =>
          t.host.get Reg.TRT_LOCK_VIOL_COUNT = satAdd (s.host.get Reg.TRT_LOCK_VIOL_COUNT) 1 Reg.TRT_LOCK_VIOL_COUNT.w ∧
          RegsKept [Reg.TRT_LOCK_VIOL_COUNT] s t ∧ MemKept s t ∧ OnlyHost s t)) ∧
      (who.isSecurePriv = true → Completes (.lockForce who n) s (fun t => t.host.get (Reg.TRT_LK_BUSY n.val) = 0 ∧
        RegsKept [Reg.TRT_LK_BUSY n.val, Reg.TRT_LK_OWNER n.val] s t ∧ MemKept s t ∧ OnlyHost s t)) ∧
      (s.host.get (Reg.TRT_LK_BUSY n.val) ≠ 1 → Completes (.lockRead who core n) s (fun t => t.host.resp = .data 0 ∧
        t.host.get (Reg.TRT_LK_BUSY n.val) = 1 ∧ t.host.get (Reg.TRT_LK_OWNER n.val) = who.lockId core.val ∧
        RegsKept [Reg.TRT_LK_BUSY n.val, Reg.TRT_LK_OWNER n.val] s t ∧ MemKept s t ∧ OnlyHost s t)) ∧
      (s.host.get (Reg.TRT_LK_BUSY n.val) = 1 → Completes (.lockRead who core n) s (fun t =>
        t.host.resp = .data (2 ^ 31 + s.host.get (Reg.TRT_LK_OWNER n.val)) ∧ RegsKept [] s t ∧ MemKept s t ∧
        OnlyHost s t)) ∧
      Completes (.softResetHost who) s (fun t => ∀ m : Fin 256, t.host.get (Reg.TRT_LK_BUSY m.val) = 0)) ∧
    (s.hostReady → Completes (.hostRstAssert 10) s (fun t => ∀ m : Fin 256, t.host.get (Reg.TRT_LK_BUSY m.val) = 0))

/-- O20: A request that the MPU or the map refuses is counted and goes no further; one that passes waits, is granted
on a credit and answered (R315, R317, R318, R319, R321, R324, R328, R329, 14_tartan_protection.md). What it says of
the points that log entry 36 settles is the model's own choice or reading. -/
def Obligations.MatrixRequestsAreJudgedAndServed : Prop :=
  ∀ (s : State) (who : Requester), s.hostReady →
    (∀ r : TReq, s.host.burstOk r = true → s.host.get (Reg.TRT_MASTER_FREE r.port.val) ≠ 0 →
      (s.host.mpuAllows r.port.val r.priv r.secure r.op.isWrite r.ta.toNat r.op.length = false →
        Completes (.tartanRequest r) s (fun t => t.host.get Reg.MPU_FAULT_COUNT_COUNT =
            satAdd (s.host.get Reg.MPU_FAULT_COUNT_COUNT) 1 Reg.MPU_FAULT_COUNT_COUNT.w ∧
          t.host.get Reg.MPU_FAULT_VALID = 1 ∧ t.host.tartan = s.host.tartan ∧ MemKept s t ∧ OnlyHost s t)) ∧
      (s.host.mpuAllows r.port.val r.priv r.secure r.op.isWrite r.ta.toNat r.op.length = true →
        s.host.protection r.port.val r.ta.toNat r.op = none →
        (s.host.targetOf r.ta.toNat = none → Completes (.tartanRequest r) s (fun t =>
          t.host.get Reg.TRT_DECODE_ERR_COUNT =
            satAdd (s.host.get Reg.TRT_DECODE_ERR_COUNT) 1 Reg.TRT_DECODE_ERR_COUNT.w ∧
          t.host.get Reg.TRT_DECODE_ERR_PORT = r.port.val ∧ t.host.tartan = s.host.tartan ∧
          RegsKept [Reg.TRT_DECODE_ERR_COUNT, Reg.TRT_DECODE_ERR_PORT] s t ∧ MemKept s t ∧ OnlyHost s t)) ∧
        (∀ g, s.host.targetOf r.ta.toNat = some g → Completes (.tartanRequest r) s (fun t =>
          t.host.tartan.serial = s.host.tartan.serial + 1 ∧
          (t.host.tartan.point (pointOf r.route g)).queue = (s.host.tartan.point (pointOf r.route g)).queue ++
            [⟨s.host.tartan.serial + 1, r, r.route, g, s.host.get (Reg.TRT_MASTER_QOS r.port.val), s.host.tb.raw⟩] ∧
          MemKept s t ∧ OnlyHost s t)))) ∧
    (∀ (p : ArbPoint) (st : PointState) (w : Waiting), st = s.host.tartan.point p → (s.host.arbCycle st).isSome = true →
      (s.host.arbitrate st (st.presented.filter (s.host.eligible p st)).length
        (st.presented.filter (s.host.eligible p st))).1 = some w →
      (∀ g, p = .target g → Completes (.tartanGrant p) s (fun t =>
        t.host.get (Reg.TRT_MASTER_FREE w.req.port.val) = (s.host.get (Reg.TRT_MASTER_FREE w.req.port.val) - 1) % 2 ^ 8 ∧
        t.host.get (Reg.TRT_MASTER_IN_FLIGHT w.req.port.val) =
          (s.host.get (Reg.TRT_MASTER_IN_FLIGHT w.req.port.val) + 1) % 2 ^ 8 ∧
        (∃ x ∈ t.host.tartan.inFlight, x.serial = w.serial ∧ x.req = w.req) ∧ OnlyHost s t)) ∧
      (∀ n, p = .link n → Completes (.tartanGrant p) s (fun t =>
        (∃ x ∈ (t.host.tartan.point (pointOf (w.left.drop 1) w.target)).queue, x.serial = w.serial ∧ x.req = w.req ∧
          x.left = w.left.drop 1) ∧ t.host.tartan.inFlight = s.host.tartan.inFlight ∧ MemKept s t ∧ OnlyHost s t))) ∧
    (∀ (m : Fin 47) (serial : Nat), (∃ x ∈ s.host.tartan.inFlight, x.serial = serial ∧ x.req.port.val = m.val ∧ s.host.tartan.earlierOpen x = false) →
      (∀ c, c < 12 → ∀ r ∈ s.host.dramQueue c, r.serial ≠ serial) → Completes (.tartanResponse m serial) s (fun t =>
        (s.host.stuck 0 m.val = false →
          t.host.get (Reg.TRT_MASTER_FREE m.val) = (s.host.get (Reg.TRT_MASTER_FREE m.val) + 1) % 2 ^ 8 ∧
          t.host.get (Reg.TRT_MASTER_IN_FLIGHT m.val) = (s.host.get (Reg.TRT_MASTER_IN_FLIGHT m.val) - 1) % 2 ^ 8) ∧
        (s.host.stuck 0 m.val = true → RegsKept [] s t) ∧
        (∀ x ∈ t.host.tartan.inFlight, x.serial ≠ serial) ∧
        RegsKept [Reg.TRT_MASTER_FREE m.val, Reg.TRT_MASTER_IN_FLIGHT m.val] s t ∧ MemKept s t ∧ OnlyHost s t)) ∧
    (s.host.barOpen who = true →
      (who.isSecurePriv = true → Completes (.remap who) s (fun t => t.host.get Reg.TRT_CTRL_REMAP = 1 ∧
        RegsKept [Reg.TRT_CTRL_REMAP] s t ∧ MemKept s t ∧ OnlyHost s t)) ∧
      (who.isSecurePriv = false → Completes (.remap who) s (fun t => RegsKept [] s t ∧ MemKept s t ∧ OnlyHost s t)))

/-- O21: A region's words 0 and 1 are held until word 2 applies all three; MPU.SYNC answers once earlier accesses are
done (R331, R332, 14_tartan_protection.md). What it says of the points that log entries 147, 227 settle is the model's
own choice or reading. -/
def Obligations.RegionWordsApplyTogether : Prop :=
  ∀ (s : State) (who : Requester) (p : Fin 47) (r : Fin 32) (w : Fin 4) (v : Word) (e : Nat), s.reaches who →
    e = 32 * p.val + r.val →
    (who.isSecurePriv = true →
      (w.val < 2 → Completes (.mpuRegionWrite who p r w v) s (fun t => RegsKept [] s t ∧
        tget 0 t.host.tartan.heldWords (e * 2 + w.val) = v.toNat + 1 ∧ MemKept s t ∧ OnlyHost s t)) ∧
      (w.val = 2 → Completes (.mpuRegionWrite who p r w v) s (fun t =>
        t.host.get (Reg.mpuWord p.val r.val 2) = v.toNat % 64 ∧
        (∀ k x, k < 2 → tget 0 s.host.tartan.heldWords (e * 2 + k) = x + 1 →
          t.host.get (Reg.mpuWord p.val r.val k) = x % 2 ^ 32) ∧
        (∀ k, k < 2 → tget 0 s.host.tartan.heldWords (e * 2 + k) = 0 → t.host.get (Reg.mpuWord p.val r.val k) =
          s.host.get (Reg.mpuWord p.val r.val k) % 2 ^ 32) ∧
        (∀ k, k < 2 → tget 0 t.host.tartan.heldWords (e * 2 + k) = 0) ∧
        RegsKept [Reg.mpuWord p.val r.val 0, Reg.mpuWord p.val r.val 1, Reg.mpuWord p.val r.val 2] s t ∧
        MemKept s t ∧ OnlyHost s t)) ∧
      (w.val = 3 → Completes (.mpuRegionWrite who p r w v) s (fun t => RegsKept [] s t ∧ MemKept s t ∧ OnlyHost s t))) ∧
    (who.isSecurePriv = false → Completes (.mpuRegionWrite who p r w v) s (fun t =>
      t.host.get Reg.MPU_SEC_VIOL_COUNT = satAdd (s.host.get Reg.MPU_SEC_VIOL_COUNT) 1 Reg.MPU_SEC_VIOL_COUNT.w ∧
      t.host.tartan = s.host.tartan ∧ RegsKept [Reg.MPU_SEC_VIOL_COUNT] s t ∧ MemKept s t ∧ OnlyHost s t)) ∧
    Completes (.mpuSyncWrite who v) s (fun t => t.host.get Reg.MPU_SYNC_TOKEN = v.toNat % 2 ^ 16 ∧
      t.host.tartan.syncWait = s.host.tartan.live ∧ RegsKept [Reg.MPU_SYNC_TOKEN] s t ∧ MemKept s t ∧ OnlyHost s t) ∧
    (s.host.tartan.syncWait = [] → Completes (.mpuSyncRead who) s (fun t =>
      t.host.resp = .data (s.host.get Reg.MPU_SYNC_TOKEN) ∧ RegsKept [] s t ∧ MemKept s t ∧ OnlyHost s t)) ∧
    (s.host.tartan.syncWait ≠ [] → Completes (.mpuSyncRead who) s (fun t => t.host.tartan.syncRead = true ∧
      RegsKept [] s t ∧ MemKept s t ∧ OnlyHost s t))

/-- O22: A channel serves its oldest request whole; errors poison a block and are logged; patrol and refresh change no
byte (R292, R293, R294, R296, R297, 13_central_store.md). What it says of the points that log entries 8, 121 settle is
the model's own choice or reading. -/
def Obligations.ChannelsServeTheirRequests : Prop :=
  ∀ (s : State) (c : Fin 12) (ecc : EccFact) (bank : Fin 256) (row : Option Nat), s.hostReady →
    (∀ (r : DramReq) (rest : List DramReq), s.host.dramQueue c.val = r :: rest →
      s.host.get (Reg.CST_CH_STATUS_STATE c.val) = 0 →
      (caEnd ≤ r.ca → Completes (.dramAccess c .clean bank row) s (fun t => t.host.resp = .errorResponse ∧
        t.host.dramQueue c.val = rest ∧
        t.host.get Reg.CST_DECODE_ERR_COUNT = satAdd (s.host.get Reg.CST_DECODE_ERR_COUNT) 1 Reg.CST_DECODE_ERR_COUNT.w ∧
        MemKept s t ∧ OnlyHost s t)) ∧
      (r.ca < caEnd → ∀ len, r.op = .read len →
        (s.host.store.anyPoison r.ca len = false → Completes (.dramAccess c .clean bank row) s (fun t =>
          t.host.resp = .bytes (s.host.store.bytes r.ca len) ∧ t.host.dramQueue c.val = rest ∧
          RegsKept [Reg.CST_CH_SLOTS_FREE c.val, Reg.CST_CH_SLOTS_QUEUED c.val, Reg.CST_CH_RH_NREF c.val] s t ∧
          MemKept s t ∧ OnlyHost s t)) ∧
        (s.host.store.anyPoison r.ca len = true → Completes (.dramAccess c .clean bank row) s (fun t =>
          t.host.resp = .errorResponse ∧ t.host.dramQueue c.val = rest ∧ MemKept s t ∧ OnlyHost s t)) ∧
        (∀ blk syn, Completes (.dramAccess c (.uncorrectable blk syn) bank row) s (fun t =>
          t.host.resp = .errorResponse ∧ t.host.dramQueue c.val = rest ∧
          t.host.store.poisoned (r.ca / 64 * 64 + 64 * blk) = true ∧
          t.host.get (Reg.CST_CH_ERR_UE c.val) =
            satAdd (s.host.get (Reg.CST_CH_ERR_UE c.val)) 1 (Reg.CST_CH_ERR_UE c.val).w ∧ MemKept s t ∧ OnlyHost s t))) ∧
      (r.ca < caEnd → ∀ bs, r.op = .write bs → r.ca % 64 = 0 → bs.length % 64 = 0 →
        Completes (.dramAccess c ecc bank row) s (fun t => t.host.resp = .none ∧ t.host.dramQueue c.val = rest ∧
          (∀ i, (h : i < bs.length) → t.host.store.byte (r.ca + i) = bs[i]) ∧
          (∀ a, a < r.ca ∨ r.ca + bs.length ≤ a → t.host.store.byte a = s.host.store.byte a) ∧ OnlyHost s t))) ∧
    (∀ block, block < channelBlocks → s.host.get (Reg.CST_CH_STATUS_ROLE c.val) ≠ 2 → s.host.dramQueue c.val = [] →
      tget 0 s.host.store.srPhase c.val ≠ 1 → s.host.get (Reg.CST_CH_STATUS_STATE c.val) = 0 →
      Completes (.patrolRead c block .clean) s (fun t =>
        tget 0 t.host.store.lastReq c.val = s.host.tb.raw.toNat ∧ (s.host.twinBody.autoRetire ≠ 1 → RegsKept [] s t) ∧
        MemKept s t ∧ OnlyHost s t) ∧
      Completes (.patrolRead c block .correctable) s (fun t =>
        t.host.get (Reg.CST_CH_ERR_CE c.val) =
          satAdd (s.host.get (Reg.CST_CH_ERR_CE c.val)) 1 (Reg.CST_CH_ERR_CE c.val).w ∧ MemKept s t ∧ OnlyHost s t) ∧
      (∀ blk syn, Completes (.patrolRead c block (.uncorrectable blk syn)) s (fun t =>
        t.host.get (Reg.CST_CH_ERR_UE c.val) =
          satAdd (s.host.get (Reg.CST_CH_ERR_UE c.val)) 1 (Reg.CST_CH_ERR_UE c.val).w ∧ MemKept s t ∧ OnlyHost s t))) ∧
    (s.host.get (Reg.CST_CH_STATUS_STATE c.val) ≠ 3 → Completes (.refresh c bank) s (fun t =>
      tget 0 t.host.store.refreshed (c.val * 256 + bank.val) = s.host.tb.raw.toNat ∧ RegsKept [] s t ∧ MemKept s t ∧
      OnlyHost s t)) ∧
    Completes (.refreshWindow) s (fun t => t.host.store.actTables = [] ∧ RegsKept [] s t ∧ MemKept s t ∧ OnlyHost s t)

/-- O23: An idle spare channel sleeps and wakes; a new rate trains; a channel in use keeps its rate (R299, R300, R301,
R302, R434, 13_central_store.md). -/
def Obligations.ChannelsSleepTrainAndPause : Prop :=
  ∀ (s : State) (who : Requester) (c : Fin 12) (v : Word) (ns : Fin 401), s.hostReady →
    (s.host.get (Reg.CST_CH_STATUS_ROLE c.val) ≠ 0 → s.host.get (Reg.CST_CH_STATUS_SR_EN c.val) = 1 →
      s.host.get (Reg.CST_CH_STATUS_STATE c.val) = 0 → s.host.dramQueue c.val = [] →
      tget 0 s.host.store.lastReq c.val + s.host.cfg.cst.srIdleUs * 400 ≤ s.host.tb.raw.toNat →
      Completes (.selfRefreshEntry c) s (fun t => t.host.get (Reg.CST_CH_STATUS_STATE c.val) = 2 ∧
        tget 0 t.host.store.srPhase c.val = 1 ∧ t.host.get (Reg.CST_CH_RH_SR_ENTRIES c.val) =
          satAdd (s.host.get (Reg.CST_CH_RH_SR_ENTRIES c.val)) 1 (Reg.CST_CH_RH_SR_ENTRIES c.val).w ∧
        RegsKept [Reg.CST_CH_STATUS_STATE c.val, Reg.CST_CH_RH_SR_ENTRIES c.val] s t ∧ MemKept s t ∧ OnlyHost s t)) ∧
    (tget 0 s.host.store.srPhase c.val = 2 → Completes (.selfRefreshExit c) s (fun t =>
      t.host.get (Reg.CST_CH_STATUS_STATE c.val) = 0 ∧ tget 0 t.host.store.srPhase c.val = 0 ∧
      RegsKept [Reg.CST_CH_STATUS_STATE c.val] s t ∧ MemKept s t ∧ OnlyHost s t)) ∧
    (s.host.get (Reg.CST_CH_STATUS_STATE c.val) = 0 →
      (tget 0 s.host.store.lastPause c.val = 0 ∨ tget 0 s.host.store.lastPause c.val + 51200 ≤ s.host.tb.raw.toNat) →
      Completes (.retrainPause c ns) s (fun t => tget 0 t.host.store.lastPause c.val = s.host.tb.raw.toNat ∧
        RegsKept [] s t ∧ MemKept s t ∧ OnlyHost s t)) ∧
    (s.host.barOpen who = true → s.host.rateInactive c.val = true → v.toNat % 4 ≠ 3 →
      v.toNat % 4 ≠ s.host.get (Reg.CST_CH_CTRL_RATE c.val) → Completes (.channelRateWrite who c v) s (fun t =>
        t.host.get (Reg.CST_CH_CTRL_RATE c.val) = v.toNat % 4 ∧ t.host.get (Reg.CST_CH_STATUS_STATE c.val) = 4 ∧
        RegsKept [Reg.CST_CH_CTRL_RATE c.val, Reg.CST_CH_STATUS_STATE c.val, Reg.CST_CH_RH_TRAIN_ABORT c.val] s t ∧
        MemKept s t ∧ OnlyHost s t)) ∧
    (s.host.barOpen who = true → s.host.rateInactive c.val = false → Completes (.channelRateWrite who c v) s (fun t =>
      RegsKept [] s t ∧ MemKept s t ∧ OnlyHost s t)) ∧
    (s.host.get (Reg.CST_CH_STATUS_STATE c.val) = 4 → Completes (.channelTrained c) s (fun t =>
      t.host.get (Reg.CST_CH_STATUS_RATE_NOW c.val) = s.host.get (Reg.CST_CH_CTRL_RATE c.val) % 4 ∧
      t.host.get (Reg.CST_CH_STATUS_STATE c.val) = 0 ∧
      RegsKept [Reg.CST_CH_STATUS_RATE_NOW c.val, Reg.CST_CH_STATUS_STATE c.val] s t ∧ MemKept s t ∧ OnlyHost s t))

/-- O24: A retirement wakes the spare, copies block by block, switches the slot and leaves the channel retired for
good (R303, R304, R289, 13_central_store.md). What it says of the points that log entry 8 settles is the model's own
choice or reading. -/
def Obligations.RetirementMovesASlot : Prop :=
  ∀ (s : State) (who : Requester) (ch : Fin 16) (sp n : Nat), s.hostReady →
    (s.host.barOpen who = true → who.isSecure = false → Completes (.channelRetire who ch) s (fun t =>
      t.host.get Reg.CST_SEC_VIOL_COUNT = satAdd (s.host.get Reg.CST_SEC_VIOL_COUNT) 1 Reg.CST_SEC_VIOL_COUNT.w ∧
      RegsKept [Reg.CST_SEC_VIOL_COUNT] s t ∧ MemKept s t ∧ OnlyHost s t)) ∧
    (s.host.barOpen who = true → who.isSecure = true →
      (s.host.spareCh = none → Completes (.channelRetire who ch) s (fun t =>
        t.host.get Reg.CST_STATUS_RETIRE_RESULT = 1 ∧ RegsKept [Reg.CST_STATUS_RETIRE_RESULT] s t ∧ MemKept s t ∧
        OnlyHost s t)) ∧
      (s.host.spareCh = some sp → (12 ≤ ch.val ∨ s.host.get (Reg.CST_CH_STATUS_ROLE ch.val) ≠ 0) →
        Completes (.channelRetire who ch) s (fun t => t.host.get Reg.CST_STATUS_RETIRE_RESULT = 2 ∧
          RegsKept [Reg.CST_STATUS_RETIRE_RESULT] s t ∧ MemKept s t ∧ OnlyHost s t)) ∧
      (s.host.spareCh = some sp → ch.val < 12 → s.host.get (Reg.CST_CH_STATUS_ROLE ch.val) = 0 →
        (s.host.retiringNow = true → Completes (.channelRetire who ch) s (fun t =>
          t.host.get Reg.CST_STATUS_RETIRE_RESULT = 3 ∧ RegsKept [Reg.CST_STATUS_RETIRE_RESULT] s t ∧ MemKept s t ∧
          OnlyHost s t)) ∧
        (s.host.retiringNow = false → Completes (.channelRetire who ch) s (fun t =>
          t.host.get Reg.CST_STATUS_RETIRE_RESULT = 0 ∧ t.host.get Reg.CST_STATUS_RETIRE_STATE = 1 ∧
          t.host.store.retiring = some ch.val ∧ t.host.store.copied = 0 ∧ MemKept s t ∧ OnlyHost s t)))) ∧
    (s.host.spareCh = some sp → s.host.get Reg.CST_STATUS_RETIRE_STATE = 1 →
      s.host.get (Reg.CST_CH_STATUS_STATE sp) = 0 → s.host.get (Reg.CST_CH_STATUS_RATE_NOW sp) = 0 →
      Completes (.retireWakeDone) s (fun t => t.host.get Reg.CST_STATUS_RETIRE_STATE = 2 ∧
        RegsKept [Reg.CST_STATUS_RETIRE_STATE] s t ∧ MemKept s t ∧ OnlyHost s t)) ∧
    (s.host.spareCh = some sp → s.host.store.retiring = some n → s.host.get Reg.CST_STATUS_RETIRE_STATE = 2 →
      (s.host.store.copied < channelBlocks → s.host.dramQueue n = [] → s.host.dramQueue sp = [] →
        s.host.get (Reg.CST_CH_STATUS_STATE n) = 0 → s.host.get (Reg.CST_CH_STATUS_STATE sp) = 0 → ∀ ecc,
        Completes (.retireCopyBlock ecc) s (fun t => t.host.store.copied = s.host.store.copied + 1 ∧
          t.host.get Reg.CST_RETIRE_PROGRESS_MIB = (s.host.store.copied + 1) / 16384 % 2 ^ 12 ∧ MemKept s t ∧
          OnlyHost s t)) ∧
      (s.host.store.copied = channelBlocks → Completes (.retireCopyDone) s (fun t =>
        t.host.get Reg.CST_STATUS_RETIRE_STATE = 3 ∧ t.host.get (Reg.CST_CH_STATUS_ROLE n) = 2 ∧
        t.host.get (Reg.CST_CH_STATUS_SLOT sp) = s.host.get (Reg.CST_CH_STATUS_SLOT n) % 16 ∧
        (sp % 12 ≠ n % 12 → t.host.get (Reg.CST_CH_STATUS_ROLE sp) = 0) ∧
        RegsKept [Reg.CST_STATUS_RETIRE_STATE, Reg.CST_CH_STATUS_ROLE n, Reg.CST_CH_STATUS_ROLE sp,
          Reg.CST_CH_STATUS_SLOT sp, Reg.CST_CH_STATUS_SR_EN sp] s t ∧ MemKept s t ∧ OnlyHost s t))) ∧
    (s.host.store.retiring = some n → s.host.get Reg.CST_STATUS_RETIRE_STATE = 3 → s.host.dramQueue n = [] →
      Completes (.retireDrainDone) s (fun t => t.host.get Reg.CST_STATUS_RETIRE_STATE = 4 ∧
        t.host.get Reg.CST_STATUS_RETIRED_VALID = 1 ∧ t.host.get Reg.CST_STATUS_RETIRED_CH = n % 16 ∧
        t.host.get Reg.CST_STATUS_SPARE_VALID = 0 ∧ t.host.store.retiring = none ∧ t.phys.retired = some n ∧
        MemKept s t ∧ t.field = s.field))

/-- O25: A release completes once no lease is left; a tag is written only while IDLE; a probe shows its surface (R141,
R149, R152, R153, R167, 06_composition.md). What it says of the points that log entry 69 settles is the model's own
choice or reading. -/
def Obligations.SurfacesAreReleasedAndProbed : Prop :=
  ∀ (s : State) (who : Requester) (sh : Fin 4096) (bell : Fin 64) (v : Word), s.reaches who →
    (∀ (retain : Bool) (c : Instr), c = (if retain then .surfaceReleaseRetain who sh bell else .surfaceRelease who sh bell) →
      (s.host.surface sh.val = none → Completes c s (fun t => t.host.get Reg.CMP_SURF_CMD_RESULT_RESULT = 2 ∧
        t.host.get Reg.CMP_SURF_CMD_RESULT_HANDLE = sh.val ∧ t.host.surface sh.val = none ∧
        RegsKept [Reg.CMP_SURF_CMD_RESULT_RESULT, Reg.CMP_SURF_CMD_RESULT_HANDLE] s t ∧ MemKept s t ∧ OnlyHost s t)) ∧
      (∀ x, s.host.surface sh.val = some x →
        (x.pending = true → Completes c s (fun t => t.host.get Reg.CMP_SURF_CMD_RESULT_RESULT = 3 ∧
          t.host.surface sh.val = some x ∧
          RegsKept [Reg.CMP_SURF_CMD_RESULT_RESULT, Reg.CMP_SURF_CMD_RESULT_HANDLE] s t ∧ MemKept s t ∧ OnlyHost s t)) ∧
        (x.pending = false → s.host.unleased sh.val = false → Completes c s (fun t =>
          t.host.get Reg.CMP_SURF_CMD_RESULT_RESULT = 1 ∧
          t.host.surface sh.val = some (s.host.recount sh.val
            { x with pending := true, retain := retain, bell := some bell.val }) ∧ MemKept s t ∧ OnlyHost s t)) ∧
        (x.pending = false → s.host.unleased sh.val = true → Completes c s (fun t =>
          t.host.get Reg.CMP_SURF_CMD_RESULT_RESULT = 1 ∧
          t.host.surface sh.val = (if retain then
            some (s.host.recount sh.val { x with pending := false, retain := false, bell := none }) else none) ∧
          MemKept s t ∧ OnlyHost s t)))) ∧
    (∀ k, k = s.host.get Reg.CMP_SURF_PROBE_HANDLE →
      (∀ x, s.host.surface k = some x → s.host.surfState k = 1 → Completes (.surfTagWrite who v) s (fun t =>
        t.host.surface k = some { x with tag := ⟨v, x.tag.cls, false, false, false⟩ } ∧
        t.host.get Reg.CMP_SURF_TAG_VT = v.toNat ∧ MemKept s t ∧ OnlyHost s t)) ∧
      (s.host.surfState k ≠ 1 → Completes (.surfTagWrite who v) s (fun t =>
        t.host.surface k = s.host.surface k ∧ k ∈ t.host.display.tagRefused ∧
        t.host.get Reg.CMP_SURF_STATUS_TAG_REFUSED = 1 ∧ MemKept s t ∧ OnlyHost s t))) ∧
    (∀ k, k = v.toNat % 4096 → Completes (.surfProbe who v) s (fun t => t.host.get Reg.CMP_SURF_PROBE_HANDLE = k ∧
      t.host.get Reg.CMP_SURF_STATUS_STATE = s.host.surfState k ∧
      (∀ x, s.host.surface k = some x → t.host.get Reg.CMP_SURF_TAG_VT = x.tag.vt.toNat ∧
        t.host.get Reg.CMP_SURF_STATUS_LEASES = min 0xFFFF x.leases) ∧
      (s.host.surface k = none → t.host.get Reg.CMP_SURF_STATUS_LEASES = 0) ∧
      t.host.get Reg.CMP_SURF_STATUS_TAG_REFUSED = b2n (s.host.display.tagRefused.contains k) ∧
      t.host.display = s.host.display ∧ MemKept s t ∧ OnlyHost s t)) ∧
    Completes (.relDoneRead who) s (fun t => t.host.display.relDone = s.host.display.relDone.drop 1 ∧
      t.host.resp = .data (s.host.get Reg.CMP_REL_DONE_HANDLE + 2 ^ 30 * s.host.get Reg.CMP_REL_DONE_LOST +
        2 ^ 31 * s.host.get Reg.CMP_REL_DONE_VALID) ∧ t.host.get Reg.CMP_REL_DONE_LOST = 0 ∧
      t.host.get Reg.CMP_REL_DONE_VALID = b2n (!(s.host.display.relDone.drop 1).isEmpty) ∧
      RegsKept [Reg.CMP_REL_DONE_LOST, Reg.CMP_REL_DONE_HANDLE, Reg.CMP_REL_DONE_VALID] s t ∧ MemKept s t ∧ OnlyHost s t)

/-- O26: UE_SEL shows its log entry; the window opens tiles on writes, closes them on FLUSH or a new handle, and is
refused on a lease (R295, R309, R310, R154, 13_central_store.md). What it says of the points that log entry 82 settles
is the model's own choice or reading. -/
def Obligations.TheErrorLogAndTheCodingWindow : Prop :=
  ∀ (s : State) (who : Requester) (v : Word) (hcc : Bool) (off : BitVec 29) (len : Nat) (b : Byte),
    (s.reaches who →
      (∀ e, tget none s.host.store.ueLog (v.toNat % 1024) = some e → Completes (.ueSelect who v) s (fun t =>
        t.host.get Reg.CST_UE_SEL_INDEX = v.toNat % 1024 ∧
        t.host.pair Reg.CST_UE_ADDR_LO_CA Reg.CST_UE_ADDR_HI_CA = e.ca % 2 ^ 64 ∧
        t.host.get Reg.CST_UE_INFO_CH = e.ch % 16 ∧ t.host.get Reg.CST_UE_INFO_KIND = e.kind % 4 ∧
        t.host.get Reg.CST_UE_INFO_SYNDROME = e.syndrome % 2 ^ 16 ∧
        RegsKept [Reg.CST_UE_SEL_INDEX, Reg.CST_UE_ADDR_LO_CA, Reg.CST_UE_ADDR_HI_CA, Reg.CST_UE_INFO_CH,
          Reg.CST_UE_INFO_KIND, Reg.CST_UE_INFO_PORT, Reg.CST_UE_INFO_SYNDROME, Reg.CST_UE_DT_LO_DT,
          Reg.CST_UE_DT_HI_DT] s t ∧ MemKept s t ∧ OnlyHost s t)) ∧
      (v.toNat % 4096 ≠ s.host.get Reg.CST_CWIN_CTRL_HANDLE → Completes (.cwinSelect who v) s (fun t =>
        t.host.get Reg.CST_CWIN_CTRL_HANDLE = v.toNat % 4096 ∧ t.host.store.openTiles = [] ∧
        t.host.get Reg.CST_CWIN_STATUS_OPEN = 0 ∧ OnlyHost s t)) ∧
      (v.toNat % 4096 = s.host.get Reg.CST_CWIN_CTRL_HANDLE → Completes (.cwinSelect who v) s (fun t =>
        t.host.get Reg.CST_CWIN_CTRL_HANDLE = v.toNat % 4096 ∧ t.host.store = s.host.store ∧
        t.host.get Reg.CST_CWIN_STATUS_BAD_HANDLE = b2n t.host.windowSurface.isNone ∧ MemKept s t ∧ OnlyHost s t)) ∧
      Completes (.cwinFlush who v) s (fun t =>
        t.host.get Reg.CST_CWIN_CTRL_HANDLE = v.toNat % 4096 ∧ t.host.store.openTiles = [] ∧
        t.host.get Reg.CST_CWIN_STATUS_OPEN = 0 ∧ OnlyHost s t)) ∧
    (s.hostReady → (hcc = true ∨ s.host.pcieUp = true) →
      Completes (.cwinRead hcc off len) s (fun t =>
        ((∀ x, s.host.windowSurface = some x → ∀ i, i < len → s.host.windowPoisoned x (off.toNat + i) = false) →
          ∃ bs, t.host.resp = .bytes bs ∧ bs.length = len ∧
            (s.host.windowSurface = none → bs = List.replicate len 0)) ∧
        (∀ x i, s.host.windowSurface = some x → i < len → s.host.windowPoisoned x (off.toNat + i) = true →
          t.host.resp = (if hcc then .busError else .completerAbort)) ∧
        RegsKept [] s t ∧ MemKept s t ∧ OnlyHost s t) ∧
      (s.host.windowSurface = none → Completes (.cwinWrite hcc off [b]) s (fun t => RegsKept [] s t ∧ MemKept s t ∧
        OnlyHost s t)) ∧
      (∀ x, s.host.windowSurface = some x →
        (∀ tx ty i, s.host.surfState (s.host.get Reg.CST_CWIN_CTRL_HANDLE) < 2 →
          viewTile x off.toNat = some (tx, ty, i) → s.host.store.openTiles.length < 64 →
          s.host.store.openTiles.find? (fun y => y.tx == tx && y.ty == ty) = none →
          Completes (.cwinWrite hcc off [b]) s (fun t =>
            t.host.store.openTiles = s.host.store.openTiles ++ [⟨tx, ty, [(i, some b)]⟩] ∧
            RegsKept [Reg.CST_CWIN_STATUS_OPEN, Reg.CST_CWIN_STATUS_BAD_HANDLE] s t ∧ MemKept s t ∧ OnlyHost s t)) ∧
        (2 ≤ s.host.surfState (s.host.get Reg.CST_CWIN_CTRL_HANDLE) → Completes (.cwinWrite hcc off [b]) s (fun t =>
          t.host.get Reg.CMP_WP_COUNT_COUNT = satAdd (s.host.get Reg.CMP_WP_COUNT_COUNT) 1 Reg.CMP_WP_COUNT_COUNT.w ∧
          t.host.store = s.host.store ∧ MemKept s t ∧ OnlyHost s t))))

/-- O27: A BAR2 request is served whole or refused whole: the MPU first, then the write protections (R292, R294, R328,
R329, R429, R154, 14_tartan_protection.md, 19_register_map.md). What it says of the points that log entries 37, 80,
215 settle is the model's own choice or reading. -/
def Obligations.Bar2ReachesOnlyWhatTheMpuAllows : Prop :=
  ∀ (s : State) (off : BitVec 32) (op : DramOp) (ca : Nat), s.hostReady → s.host.pcieUp = true →
    (s.host.mpuAllows 34 false false op.isWrite (s.host.bar2Ta off.toNat) op.length = false →
      Completes (.bar2Request off op) s (fun t =>
        t.host.get Reg.MPU_FAULT_COUNT_COUNT =
          satAdd (s.host.get Reg.MPU_FAULT_COUNT_COUNT) 1 Reg.MPU_FAULT_COUNT_COUNT.w ∧
        t.host.resp = (if op.isWrite then .discarded else .completerAbort) ∧ MemKept s t ∧ OnlyHost s t)) ∧
    (s.host.mpuAllows 34 false false op.isWrite (s.host.bar2Ta off.toNat) op.length = true →
      (∀ sh a, s.host.protection 34 (s.host.bar2Ta off.toNat) op = some (.surface sh, a) →
        Completes (.bar2Request off op) s (fun t =>
          t.host.get Reg.CMP_WP_COUNT_COUNT = satAdd (s.host.get Reg.CMP_WP_COUNT_COUNT) 1 Reg.CMP_WP_COUNT_COUNT.w ∧
          t.host.resp = .discarded ∧ MemKept s t ∧ OnlyHost s t)) ∧
      (off.toNat < 0xE0000000 → ca = s.host.windowBase + off.toNat → ca + op.length ≤ caEnd →
        s.host.store.anyPoison ca op.length = false →
        (∀ n, op = .read n → Completes (.bar2Request off op) s (fun t =>
          t.host.resp = .bytes (s.host.store.bytes ca n) ∧ RegsKept [] s t ∧ MemKept s t ∧ OnlyHost s t)) ∧
        (∀ bs, op = .write bs → s.host.protection 34 (s.host.bar2Ta off.toNat) op = none →
          Completes (.bar2Request off op) s (fun t => t.host.resp = .none ∧
            (∀ i, (h : i < bs.length) → t.host.store.byte (ca + i) = bs[i]) ∧
            (∀ a, a < ca ∨ ca + bs.length ≤ a → t.host.store.byte a = s.host.store.byte a) ∧
            t.host.tartan.sram = s.host.tartan.sram ∧ RegsKept [] s t ∧ OnlyHost s t))))

/-- O28: Lanes sleep, wake, train and are measured; what befalls them is recorded (R341, R351, R355, R356, R340, R343,
R345, R348, R354, 15_lanes.md). What it says of the points that log entry 31 settles is the model's own choice or
reading. -/
def Obligations.LanesTrainFailAndAreMeasured : Prop :=
  (∀ (s : State) (l : Fin 106),
      (l.val < 96 → s.hostReady →
        (s.host.get (Reg.LNE_STATUS_LOS l.val) ≠ 1 → Completes (.laneLos l) s (fun t =>
          t.host.get (Reg.LNE_STATUS_LOS l.val) = 1 ∧ tget 0 t.host.lanes.badAt l.val ≠ 0 ∧
          t.host.get (Reg.LNE_COUNTS_LOS_EVENTS l.val) = satAdd (s.host.get (Reg.LNE_COUNTS_LOS_EVENTS l.val)) 1 16 ∧
          (linkOfLane l.val = none →
            RegsKept [Reg.LNE_STATUS_LOS l.val, Reg.LNE_COUNTS_LOS_EVENTS l.val] s t) ∧
          (∀ k i, linkOfLane l.val = some (k, i) → s.host.linkUp k = true →
            bit (s.host.get (Reg.STC_STATUS_ACTIVE k)) i = true → clrBit (s.host.get (Reg.STC_STATUS_ACTIVE k)) i ≠ 0 →
            t.host.get (Reg.LNE_STATUS_STATE l.val) = 4 ∧ t.host.get (Reg.STC_STATUS_STATE k) = 5) ∧
          MemKept s t ∧ OnlyHost s t)) ∧
        (s.host.get (Reg.LNE_STATUS_LOS l.val) = 1 → Completes (.laneLos l) s (fun t => t = s)) ∧
        (s.host.get (Reg.LNE_STATUS_LOL l.val) ≠ 1 → Completes (.laneLol l) s (fun t =>
          t.host.get (Reg.LNE_STATUS_LOL l.val) = 1 ∧ tget 0 t.host.lanes.badAt l.val ≠ 0 ∧
          t.host.get (Reg.LNE_COUNTS_LOL_EVENTS l.val) = satAdd (s.host.get (Reg.LNE_COUNTS_LOL_EVENTS l.val)) 1 16 ∧
          (linkOfLane l.val = none →
            RegsKept [Reg.LNE_STATUS_LOL l.val, Reg.LNE_COUNTS_LOL_EVENTS l.val] s t) ∧ MemKept s t ∧ OnlyHost s t)) ∧
        Completes (.laneSignalReturn l) s (fun t => t.host.get (Reg.LNE_STATUS_LOS l.val) = 0 ∧
          t.host.get (Reg.LNE_STATUS_LOL l.val) = 0 ∧ tget 0 t.host.lanes.badAt l.val = 0 ∧
          RegsKept [Reg.LNE_STATUS_LOS l.val, Reg.LNE_STATUS_LOL l.val] s t ∧ MemKept s t ∧ OnlyHost s t) ∧
        Completes (.laneTxFault l) s (fun t => t.host.get (Reg.LNE_STATUS_TX_FAULT l.val) = 1 ∧
          RegsKept [Reg.LNE_STATUS_TX_FAULT l.val] s t ∧ MemKept s t ∧ OnlyHost s t)) ∧
      (96 ≤ l.val → s.fieldReady →
        Completes (.laneLos l) s (fun t => (t.field.lane (l.val - 96)).los = true ∧
          (t.field.lane (l.val - 96)).badAt ≠ none ∧ OnlyField s t) ∧
        Completes (.laneLol l) s (fun t => (t.field.lane (l.val - 96)).lol = true ∧
          (t.field.lane (l.val - 96)).badAt ≠ none ∧ OnlyField s t) ∧
        Completes (.laneSignalReturn l) s (fun t => (t.field.lane (l.val - 96)).los = false ∧
          (t.field.lane (l.val - 96)).lol = false ∧ (t.field.lane (l.val - 96)).badAt = none ∧ OnlyField s t) ∧
        Completes (.laneTxFault l) s (fun t => (t.field.lane (l.val - 96)).txFault = true ∧ OnlyField s t))) ∧
  (∀ (s : State) (l : Fin 96) (w e : BitVec 12) (b : TrainBlock), s.hostReady →
      (s.host.get (Reg.LNE_STATUS_STATE l.val) = 3 → Completes (.eyeMeasure ⟨l.val, by omega⟩ w e) s (fun t =>
        t.host.get (Reg.LNE_QUALITY_EYE_W l.val) = w.toNat ∧ t.host.get (Reg.LNE_QUALITY_EYE_H l.val) = e.toNat ∧
        t.host.get (Reg.LNE_QUALITY_VALID l.val) = 1 ∧ MemKept s t ∧ OnlyHost s t)) ∧
      (s.host.get (Reg.LNE_STATUS_STATE l.val) ≠ 3 → Completes (.eyeMeasure ⟨l.val, by omega⟩ w e) s (fun t => t = s)) ∧
      (∀ k i, linkOfLane l.val = some (k, i) → s.host.get (Reg.LNE_STATUS_STATE l.val) = 2 → s.host.ilm2400 k = false →
        (b.preset = none → Completes (.trainBlockRx l b) s (fun t =>
          t.host.get (Reg.LNE_TXEQ_PRE l.val) = (tapStep (s.host.get (Reg.LNE_TXEQ_PRE l.val)) 15 b.pre).1 % 2 ^ 4 ∧
          t.host.get (Reg.LNE_TXEQ_POST l.val) = (tapStep (s.host.get (Reg.LNE_TXEQ_POST l.val)) 31 b.post).1 % 2 ^ 5 ∧
          .train l.val (tapStep (s.host.get (Reg.LNE_TXEQ_PRE l.val)) 15 b.pre).2
            (tapStep (s.host.get (Reg.LNE_TXEQ_POST l.val)) 31 b.post).2 ∈ t.host.sent ∧
          t.host.get (Reg.LNE_STATUS_STATE l.val) = (if b.ready && b.eyeMet then 3 else 2) ∧ MemKept s t ∧
          OnlyHost s t)) ∧
        (b.preset ≠ none → Completes (.trainBlockRx l b) s (fun t => .train l.val 0 0 ∈ t.host.sent ∧
          t.host.get (Reg.LNE_STATUS_STATE l.val) = (if b.ready && b.eyeMet then 3 else 2) ∧ MemKept s t ∧
          OnlyHost s t))) ∧
      (∀ k i, linkOfLane l.val = some (k, i) → s.host.get (Reg.LNE_STATUS_STATE l.val) = 2 →
        Completes (.trainTimeout l) s (fun t => t.host.get (Reg.LNE_STATUS_STATE l.val) = 4 ∧
          RegsKept [Reg.LNE_STATUS_STATE l.val, Reg.STC_STATUS_STATE k, Reg.TWN_STATUS_TL0_UP, Reg.TWN_STATUS_TL1_UP] s t ∧
          MemKept s t ∧ OnlyHost s t)) ∧
      (s.host.laneWanted l.val = true →
        (linkOfLane l.val = none → s.host.get (Reg.LNE_STATUS_STATE l.val) = 0 →
          Completes (.laneDormantExit l) s (fun t =>
            t.host.get (Reg.LNE_STATUS_STATE l.val) = 3 ∧ MemKept s t ∧ OnlyHost s t)) ∧
        (∀ k i, linkOfLane l.val = some (k, i) →
          (s.host.get (Reg.LNE_STATUS_STATE l.val) = 0 ∨ s.host.get (Reg.LNE_STATUS_STATE l.val) = 1) →
          Completes (.laneDormantExit l) s (fun t =>
            t.host.get (Reg.LNE_STATUS_STATE l.val) = (if s.host.ilm2400 k then 3 else 2) ∧
            (s.host.ilm2400 k = false → s.host.get (Reg.STC_STATUS_STATE k) = 1 →
              t.host.get (Reg.STC_STATUS_STATE k) = 2) ∧ MemKept s t ∧ OnlyHost s t))))

/-- O29: A triggered spare takes over the lane it is armed for; the lane stays replaced (R347, R348, R349, R350, R365,
R388, 15_lanes.md, 16_twin_repair.md). -/
def Obligations.SparesTakeOverLanes : Prop :=
  ∀ (s : State) (who : Requester) (k : Fin 16) (l j : Nat),
    (s.reaches who → who.isSecure = true → s.host.get (Reg.LNE_SPARE_STATUS_ARMED k.val) = 1 →
      l = s.host.get (Reg.LNE_SPARE_CTRL_LANE k.val) → s.host.armedFor l = some j →
      s.host.get (Reg.LNE_STATUS_REPLACED l) ≠ 1 → Completes (.spareSwap who k) s (fun t =>
        t.host.get (Reg.LNE_STATUS_STATE l) = 4 ∧ t.host.get (Reg.LNE_STATUS_REPLACED l) = 1 ∧
        t.host.get (Reg.LNE_SPARE_STATUS_ARMED j) = 0 ∧ t.host.get (Reg.LNE_SPARE_STATUS_LANE j) = l % 2 ^ 7 ∧
        MemKept s t ∧ OnlyHost s t)) ∧
    (s.reaches who → (who.isSecure = false ∨ s.host.get (Reg.LNE_SPARE_STATUS_ARMED k.val) ≠ 1) →
      Completes (.spareSwap who k) s (fun t => RegsKept [] s t ∧ MemKept s t ∧ OnlyHost s t)) ∧
    (s.hostReady → s.host.get (Reg.LNE_SPARE_STATUS_ARMED k.val) = 1 → s.host.get (Reg.LNE_SPARE_CTRL_AUTO k.val) = 1 →
      l = s.host.get (Reg.LNE_SPARE_CTRL_LANE k.val) → s.host.laneFaulty l = true → s.host.armedFor l = some j →
      s.host.get (Reg.LNE_STATUS_REPLACED l) ≠ 1 → Completes (.spareAutoTrigger k) s (fun t =>
        t.host.get (Reg.LNE_STATUS_STATE l) = 4 ∧ t.host.get (Reg.LNE_STATUS_REPLACED l) = 1 ∧
        t.host.get (Reg.LNE_SPARE_STATUS_ARMED j) = 0 ∧ t.host.get (Reg.LNE_SPARE_STATUS_AUTO_FIRED j) = 1 ∧
        t.host.get (Reg.LNE_SPARE_STATUS_LANE j) = l % 2 ^ 7 ∧ MemKept s t ∧ OnlyHost s t)) ∧
    (∀ (sp : Fin 2) (p : Fin 8) (d : DT), s.fieldReady → p.val / 4 = sp.val →
      (∀ q, q < 8 → (s.field.lane q).spare ≠ some (8 + sp.val)) → (s.field.lane p.val).spare = none →
      (s.field.lane p.val).badAt = some d → 1000000 ≤ dtDiff s.field.now d →
      Completes (.fieldLaneSwap sp p) s (fun t => (t.field.lane p.val).state = 4 ∧
        (t.field.lane p.val).spare = some (8 + sp.val) ∧ (t.field.lane (8 + sp.val)).state = 3 ∧ OnlyField s t))

/-- O30: A link comes UP with its trained lanes and 256 credits, follows CREDIT, RECOVER and WIDTH_ACK, and sends peer
health (R351, R353, R354, R355, R356, R363, R365, 15_lanes.md). What it says of the points that log entries 57, 175
settle is the model's own choice or reading. -/
def Obligations.LinksRunOnCreditsAndRecover : Prop :=
  ∀ (s : State) (who : Requester) (k : Fin 6) (b : RecoverBlock), s.hostReady →
    (∀ (up : List Nat) (mask : Nat), up = (List.range 4).filter (fun i =>
        bit (s.host.wired k.val) i && s.host.get (Reg.LNE_STATUS_STATE (laneOfLink k.val i)) == 3) →
      mask = up.foldl (fun m i => if s.host.aligned k.val i then setBit m i else m) 0 →
      mask ≠ 0 → s.host.linkEnabled k.val = true → s.host.get (Reg.STC_STATUS_STATE k.val) = 3 →
      ((∀ i ∈ up, s.host.aligned k.val i = true) ∨ (s.host.link k.val).since + 40000 ≤ s.host.tb.raw.toNat) →
      Completes (.linkUp k) s (fun t => t.host.get (Reg.STC_STATUS_STATE k.val) = 4 ∧
        t.host.get (Reg.STC_STATUS_ACTIVE k.val) = mask % 16 ∧
        (s.host.stuck 4 k.val = false → t.host.get (Reg.STC_CREDITS_TX_CREDITS k.val) = 256) ∧
        t.host.get (Reg.STC_CREDITS_RX_FREE k.val) = 256 ∧
        (∀ i ∈ up, s.host.aligned k.val i = false → t.host.get (Reg.LNE_STATUS_STATE (laneOfLink k.val i)) = 4) ∧
        MemKept s t ∧ OnlyHost s t)) ∧
    (∀ (l : Fin 96) (i : Nat) (n : Fin 4) (m : Option (Fin 4)), linkOfLane l.val = some (k.val, i) →
      (s.host.get (Reg.STC_STATUS_STATE k.val) = 3 → s.host.get (Reg.LNE_STATUS_STATE l.val) = 3 →
        (n.val = i → Completes (.markerRx l (some n)) s (fun t =>
          tget 0 (t.host.link k.val).good i = tget 0 (s.host.link k.val).good i + 1 ∧ RegsKept [] s t ∧ MemKept s t ∧
          OnlyHost s t)) ∧
        (n.val ≠ i → Completes (.markerRx l (some n)) s (fun t => t.host.get (Reg.LNE_STATUS_STATE l.val) = 4 ∧
          RegsKept [Reg.LNE_STATUS_STATE l.val] s t ∧ MemKept s t ∧ OnlyHost s t))) ∧
      (s.host.get (Reg.STC_STATUS_STATE k.val) ≠ 3 →
        (n.val = i → Completes (.markerRx l (some n)) s (fun t => tget 0 (t.host.link k.val).misses i = 0 ∧
          RegsKept [] s t ∧ MemKept s t ∧ OnlyHost s t)) ∧
        (tget 0 (s.host.link k.val).misses i = 0 → Completes (.markerRx l none) s (fun t =>
          tget 0 (t.host.link k.val).misses i = 1 ∧ RegsKept [] s t ∧ MemKept s t ∧ OnlyHost s t)) ∧
        ((m = none ∧ tget 0 (s.host.link k.val).misses i = 1 ∨ ∃ x, m = some x ∧ x.val ≠ i) →
          s.host.linkUp k.val = true → bit (s.host.get (Reg.STC_STATUS_ACTIVE k.val)) i = true →
          clrBit (s.host.get (Reg.STC_STATUS_ACTIVE k.val)) i ≠ 0 → Completes (.markerRx l m) s (fun t =>
            t.host.get (Reg.LNE_STATUS_STATE l.val) = 4 ∧ t.host.get (Reg.STC_STATUS_STATE k.val) = 5 ∧ MemKept s t ∧
            OnlyHost s t)))) ∧
    (s.host.linkAlive k.val = true →
      (∀ c : CreditBlock, Completes (.creditBlockRx k c) s (fun t => (t.host.link k.val).credited = c.count.toNat ∧
        (k.val < 4 → (s.host.stuck 4 k.val = false → t.host.get (Reg.STC_CREDITS_TX_CREDITS k.val) =
            (256 - ((s.host.link k.val).sent + 65536 - c.count.toNat) % 65536) % 2 ^ 9) ∧
          RegsKept [Reg.STC_CREDITS_TX_CREDITS k.val] s t) ∧ MemKept s t ∧ OnlyHost s t)) ∧
      Completes (.recoverRx k b) s (fun t => .widthAck k.val b.mask.toNat ∈ t.host.sent ∧
        RegsKept [Reg.STC_CELLS_TX_COUNT k.val, Reg.STC_CREDITS_TX_CREDITS k.val] s t ∧ MemKept s t ∧ OnlyHost s t)) ∧
    (s.host.get (Reg.STC_STATUS_STATE k.val) = 5 → Completes (.widthAckRx k b) s (fun t =>
      t.host.get (Reg.STC_STATUS_STATE k.val) = 4 ∧ t.host.get (Reg.STC_STATUS_ACTIVE k.val) = b.mask.toNat % 16 ∧
      t.host.get (Reg.STC_ERRORS_REDUCTIONS k.val) = satAdd (s.host.get (Reg.STC_ERRORS_REDUCTIONS k.val)) 1 8 ∧
      MemKept s t ∧ OnlyHost s t)) ∧
    (s.host.get (Reg.STC_STATUS_STATE k.val) ≠ 5 → Completes (.widthAckRx k b) s (fun t => t = s)) ∧
    (s.host.barOpen who = true →
      (who.isSecure = true → s.host.linkUp k.val = true → Completes (.linkRetrain who k) s (fun t =>
        (∀ i, i < 4 → bit (s.host.wired k.val) i = true → bit (s.host.get (Reg.STC_STATUS_ACTIVE k.val)) i = false →
          t.host.get (Reg.LNE_STATUS_STATE (laneOfLink k.val i)) = (if s.host.ilm2400 k.val then 3 else 2) ∧
          (s.host.ilm2400 k.val = true → t.host.get (Reg.STC_STATUS_STATE k.val) = 5)) ∧
        (s.host.ilm2400 k.val = false →
          RegsKept ((List.range 4).map (fun i => Reg.LNE_STATUS_STATE (laneOfLink k.val i))) s t) ∧ MemKept s t ∧
        OnlyHost s t)) ∧
      (who.isSecure = false → Completes (.linkRetrain who k) s (fun t => RegsKept [] s t ∧ MemKept s t ∧ OnlyHost s t))) ∧
    (s.host.tb.due s.host.lanes.peerAt 4000000 = true → Completes (.peerHealthSend) s (fun t =>
      (∀ j, j < 4 → s.host.linkUp j = true → s.host.get (Reg.STC_CREDITS_TX_CREDITS j) ≠ 0 →
        t.host.get (Reg.STC_CELLS_TX_COUNT j) = (s.host.get (Reg.STC_CELLS_TX_COUNT j) + 1) % 2 ^ 32) ∧
      t.host.lanes.peerAt = s.host.tb.raw.toNat + 1 ∧
      RegsKept ((List.range 4).map Reg.STC_CELLS_TX_COUNT ++ (List.range 4).map Reg.STC_CREDITS_TX_CREDITS) s t ∧
      MemKept s t ∧ OnlyHost s t))

/-- O31: A link takes only sound cells in order, recovers from any other, and a stitch send goes slice by slice (R352,
R353, R355, R359, R360, R363, 15_lanes.md). What it says of the points that log entries 172, 176 settle is the model's
own choice or reading. -/
def Obligations.LinkCellsAreJudgedInOrder : Prop :=
  ∀ (s : State) (k : Fin 6) (c : LinkCell), s.hostReady →
    (s.host.linkUp k.val = true → s.host.get (Reg.STC_STATUS_ACTIVE k.val) ≠ 0 →
      (s.host.cellFate k.val c.bytes = .damaged → Completes (.linkCellRx k c) s (fun t =>
        t.host.get (Reg.STC_ERRORS_CRC_ERR k.val) = satAdd (s.host.get (Reg.STC_ERRORS_CRC_ERR k.val)) 1 12 ∧
        t.host.get (Reg.STC_STATUS_STATE k.val) = 5 ∧ MemKept s t ∧ OnlyHost s t)) ∧
      (s.host.cellFate k.val c.bytes = .early → Completes (.linkCellRx k c) s (fun t =>
        t.host.get (Reg.STC_STATUS_STATE k.val) = 5 ∧ MemKept s t ∧ OnlyHost s t)) ∧
      (s.host.cellFate k.val c.bytes = .held → Completes (.linkCellRx k c) s (fun t => t = s)) ∧
      (s.host.cellFate k.val c.bytes = .next_ → k.val < 4 → fieldAt c.bytes 0 1 = 4 → Completes (.linkCellRx k c) s (fun t =>
        t.host.get (Reg.STC_CELLS_RX_COUNT k.val) = (s.host.get (Reg.STC_CELLS_RX_COUNT k.val) + 1) % 2 ^ 32 ∧
        (t.host.link k.val).lastGood = fieldAt c.bytes 4 4 ∧
        (t.host.link k.val).freed = ((s.host.link k.val).freed + 1) % 65536 ∧
        t.host.get (Reg.STC_STATUS_PEER_SYNC_OK k.val) = b2n (bit (fieldAt (c.bytes.drop 40) 0 1) 0) ∧
        (t.host.link k.val).peerSync = bit (fieldAt (c.bytes.drop 40) 0 1) 0 ∧ OnlyHost s t)) ∧
      (s.host.cellFate k.val c.bytes = .next_ → (fieldAt c.bytes 0 1 = 0 ∨ 5 < fieldAt c.bytes 0 1) →
        Completes (.linkCellRx k c) s (fun t =>
          t.host.get (Reg.STC_ERRORS_CRC_ERR k.val) = satAdd (s.host.get (Reg.STC_ERRORS_CRC_ERR k.val)) 1 12 ∧
          (t.host.link k.val).lastGood = fieldAt c.bytes 4 4 ∧ RegsKept [Reg.STC_ERRORS_CRC_ERR k.val] s t ∧
          MemKept s t ∧ OnlyHost s t))) ∧
    (s.host.linkUp k.val = false → Completes (.linkCellRx k c) s (fun t => t = s)) ∧
    (∀ (i : Fin 64) (e : SendEntry) (p : Plan) (v : SendState),
      s.host.cfg.stitch.bind (fun x => x.sends[i.val]?) = some e →
      s.host.sendNext e (s.host.sendState i.val) = some (p, v) →
      ((s.host.readSlot e.head p v.next).1 = none → Completes (.stitchSend i) s (fun t =>
        (t.host.sendState i.val).next = e.slices.2 + 1 ∧ OnlyHost s t)) ∧
      (∀ r bytes, (s.host.readSlot e.head p v.next).1 = some r → bytes = v.carry ++ s.host.sendTiles e p v.next →
        s.host.linkUp e.link = true →
        (dataCells (v.next == e.slices.2) (bytes.length + 1) bytes).1.length + b2n (v.next == e.slices.2) ≤
          s.host.get (Reg.STC_CREDITS_TX_CREDITS e.link) → Completes (.stitchSend i) s (fun t =>
          (t.host.sendState i.val).next = v.next + 1 ∧ (t.host.sendState i.val).tags = v.tags ++ [r.tag] ∧
          MemKept s t ∧ OnlyHost s t)))

/-- O32: A write of a plain register sets each field by its access code and changes nothing else (R5, R8, R9, R10,
R328, R329, 00_scope.md). What it says of the points that log entries 5, 34, 191 settle is the model's own choice or
reading. -/
def Obligations.RegisterWritesFollowAccessCodes : Prop :=
  ∀ (s : State) (who : Requester) (core : Fin 8) (off size : Nat) (v : BitVec 64), s.reaches who →
    (s.host.barForbidden who true off 4 = false → off % 4 = 0 → plainOffset off = true →
      Completes (.registerWrite who core false 4 off v) s (fun t => t.host.resp = .none ∧
      (∀ d ∈ regFields off, ∀ x, x = bits (v.toNat % 2 ^ 32) d.lo d.w →
        (d.acc = .rw ∨ d.acc = .rwi → t.host.get (regFld off d) =
          if d.legal = [] ∨ x ∈ d.legal then x else s.host.get (regFld off d)) ∧
        (d.acc = .w1c → t.host.get (regFld off d) = clrMask (s.host.get (regFld off d)) x % 2 ^ d.w) ∧
        (d.acc = .ro ∨ d.acc = .wo ∨ d.acc = .w1s ∨ d.acc = .rc →
          t.host.get (regFld off d) = s.host.get (regFld off d))) ∧
      RegsKept ((regFields off).map (regFld off)) s t ∧ MemKept s t ∧ OnlyHost s t)) ∧
    (s.host.barForbidden who true off size = false → size ≠ 4 ∨ off % 4 ≠ 0 →
      Completes (.registerWrite who core false size off v) s (fun t =>
        t.host.resp = (if who.src = .pcie then .discarded else .busError) ∧ RegsKept [] s t ∧ MemKept s t ∧
        OnlyHost s t)) ∧
    (s.host.barForbidden who true off size = true → Completes (.registerWrite who core false size off v) s (fun t =>
      t.host.resp = (if who.port = 34 then .discarded else if who.port ≤ 36 then .busError else .errorResponse) ∧
      t.host.get Reg.MPU_FAULT_COUNT_COUNT =
        satAdd (s.host.get Reg.MPU_FAULT_COUNT_COUNT) 1 Reg.MPU_FAULT_COUNT_COUNT.w ∧
      t.host.get Reg.MPU_FAULT_VALID = 1 ∧ MemKept s t ∧ OnlyHost s t))

/-- O33: A BAR0 address that holds no register reads as 0 and ignores writes, and neither access raises an error (R7).
-/
def Obligations.AddressesWithoutRegistersReadZero : Prop :=
  ∀ (s : State) (who : Requester) (core : Fin 8) (off : Nat) (v : BitVec 64) (events : List Nat), s.reaches who →
    off % 4 = 0 → noRegister off = true → (∀ write, s.host.barForbidden who write off 4 = false) →
    Completes (.registerWrite who core false 4 off v) s (fun t =>
      t.host.resp = .none ∧ RegsKept [] s t ∧ MemKept s t ∧ OnlyHost s t) ∧
    Completes (.pairLowRead who ⟨core, 4, off⟩) s (fun t =>
      t.host.resp = .data 0 ∧ RegsKept [] s t ∧ MemKept s t ∧ OnlyHost s t) ∧
    Completes (.rcCounterRead who ⟨core, 4, off⟩ events) s (fun t =>
      t.host.resp = .data 0 ∧ RegsKept [] s t ∧ MemKept s t ∧ OnlyHost s t)

/-- O34: A read of a pair's lower word latches the upper one; any read clears the RC fields it reads and loses no
event (R5, R6, R10, R11, R249, R328, R329, 00_scope.md). What it says of the points that log entries 193, 196, 197
settle is the model's own choice or reading. -/
def Obligations.PairsLatchAndCountersClear : Prop :=
  ∀ (s : State) (who : Requester) (core : Fin 8) (off size : Nat) (events : List Nat), s.reaches who →
    (s.host.barForbidden who false off 4 = false → isPairLow off = true →
      Completes (.pairLowRead who ⟨core, 4, off⟩) s (fun t => t.host.resp = .data (s.host.readReg off) ∧
        tget (latchRst off) t.host.latch off = s.host.readReg (off + 4) ∧ RegsKept [] s t ∧ MemKept s t ∧
        OnlyHost s t)) ∧
    (s.host.barForbidden who false (off + 4) 4 = false → isPairLow off = true →
      Completes (.pairLowRead who ⟨core, 4, off + 4⟩) s (fun t =>
        t.host.resp = .data (tget (latchRst off) s.host.latch off) ∧ t.host.latch = s.host.latch ∧ RegsKept [] s t ∧
        MemKept s t ∧ OnlyHost s t)) ∧
    (s.host.barForbidden who false off 4 = false → off % 4 = 0 → isReg off = true → off ≠ 0x200018 → off ≠ 0x20000 →
      ackqAt off = none → instOf off 0x11000 4 256 = none → (secureRead off = true → who.isSecure = true) →
      Completes (.rcCounterRead who ⟨core, 4, off⟩ events) s (fun t => t.host.resp = .data (s.host.readValue off) ∧
        (∀ d ∈ regFields off, t.host.get (regFld off d) =
          if d.acc = .rc then
            if off = 0x14 ∨ off = 0x38000c then 0 else min (countOf events d.lo) (2 ^ d.w - 1)
          else s.host.get (regFld off d)) ∧
        RegsKept ((regFields off).map (regFld off)) s t ∧ MemKept s t ∧ OnlyHost s t) ∧
      Completes (.pairLowRead who ⟨core, 4, off⟩) s (fun t => t.host.resp = .data (s.host.readValue off) ∧
        (∀ d ∈ regFields off, t.host.get (regFld off d) = if d.acc = .rc then 0 else s.host.get (regFld off d)) ∧
        RegsKept ((regFields off).map (regFld off)) s t ∧ MemKept s t ∧ OnlyHost s t)) ∧
    (s.host.barForbidden who false off 4 = false → off % 4 = 0 → ackqAt off = none → secureRead off = true →
      who.isSecure = false →
      ∀ c ∈ [Instr.pairLowRead who ⟨core, 4, off⟩, .rcCounterRead who ⟨core, 4, off⟩ events], Completes c s (fun t =>
        t.host.resp = (if who.src = .pcie then .unsupportedRequest else .busError) ∧
        t.host.get Reg.MBX_SEC_VIOL_COUNT = satAdd (s.host.get Reg.MBX_SEC_VIOL_COUNT) 1 Reg.MBX_SEC_VIOL_COUNT.w ∧
        RegsKept [Reg.MBX_SEC_VIOL_COUNT] s t ∧ MemKept s t ∧ OnlyHost s t)) ∧
    (s.host.barForbidden who false off size = false → size ≠ 4 ∨ off % 4 ≠ 0 →
      ∀ c ∈ [Instr.pairLowRead who ⟨core, size, off⟩, .rcCounterRead who ⟨core, size, off⟩ events], Completes c s (fun t =>
        t.host.resp = (if who.src = .pcie then .unsupportedRequest else .busError) ∧ RegsKept [] s t ∧ MemKept s t ∧
        OnlyHost s t)) ∧
    (s.host.barForbidden who false off size = true →
      ∀ c ∈ [Instr.pairLowRead who ⟨core, size, off⟩, .rcCounterRead who ⟨core, size, off⟩ events], Completes c s (fun t =>
        t.host.resp = (if who.port = 34 then .completerAbort else if who.port ≤ 36 then .busError else .errorResponse) ∧
        t.host.get Reg.MPU_FAULT_COUNT_COUNT =
          satAdd (s.host.get Reg.MPU_FAULT_COUNT_COUNT) 1 Reg.MPU_FAULT_COUNT_COUNT.w ∧
        t.host.get Reg.MPU_FAULT_VALID = 1 ∧ MemKept s t ∧ OnlyHost s t))

/-- O35: A pending descriptor takes each field but a reserved encoding; an MSI-X entry takes each word and sends when
unmasked (R8, R9, R143, R430, 06_composition.md, 19_register_map.md). What it says of the points that log entries 5,
34, 191 settle is the model's own choice or reading. -/
def Obligations.DescriptorsAndMessageTableTakeWrites : Prop :=
  ∀ (s : State) (who : Requester) (core : Fin 8) (l w n : Nat) (v : BitVec 64), s.reaches who → v.toNat < 2 ^ 32 →
    (s.host.barForbidden who true (0x280000 + 0x80 * l + 4 * w) 4 = false → l < 1024 → w < 16 → Completes (.registerWrite who core false 4 (0x280000 + 0x80 * l + 4 * w) v) s (fun t =>
      (w = 0 → (∀ p ∈ [(0, 1), (1, 1), (2, 1), (8, 8), (16, 10)],
          bits (t.host.get (Reg.layerWord l 0)) p.1 p.2 = bits v.toNat p.1 p.2) ∧
        (∀ lo ∈ [3, 5], bits (t.host.get (Reg.layerWord l 0)) lo 2 =
          if bits v.toNat lo 2 = 3 then bits (s.host.get (Reg.layerWord l 0)) lo 2 else bits v.toNat lo 2)) ∧
      (w = 1 → t.host.get (Reg.layerWord l w) = v.toNat % 4096) ∧
      (2 ≤ w → w ≤ 6 → t.host.get (Reg.layerWord l w) = v.toNat) ∧
      (7 ≤ w → t.host.get (Reg.layerWord l w) = 0) ∧ t.host.resp = .none ∧
      RegsKept [Reg.layerWord l w] s t ∧ MemKept s t ∧ OnlyHost s t)) ∧
    (s.host.barForbidden who true (0x280000 + 0x80 * l + 4 * w) 4 = false → l < 1024 → 16 ≤ w → w < 32 → Completes (.registerWrite who core false 4 (0x280000 + 0x80 * l + 4 * w) v) s
      (fun t => RegsKept [] s t ∧ MemKept s t ∧ OnlyHost s t)) ∧
    (who.src = .pcie → n < 2048 →
      (∀ e, e = tget MsixEntry.reset s.host.msix n →
        Completes (.registerWrite who core true 4 (16 * n) v) s (fun t =>
          (tget MsixEntry.reset t.host.msix n).addr % 2 ^ 32 = v.toNat ∧ RegsKept [] s t ∧ MemKept s t ∧ OnlyHost s t) ∧
        Completes (.registerWrite who core true 4 (16 * n + 8) v) s (fun t =>
          tget MsixEntry.reset t.host.msix n = { e with data := v.toNat } ∧ RegsKept [] s t ∧ MemKept s t ∧
          OnlyHost s t) ∧
        Completes (.registerWrite who core true 4 (16 * n + 12) v) s (fun t =>
          tget MsixEntry.reset t.host.msix n = { e with masked := bit v.toNat 0 } ∧
          (∀ m, m ≠ n → tget MsixEntry.reset t.host.msix m = tget MsixEntry.reset s.host.msix m) ∧
          (bit v.toNat 0 = false → tget false s.host.msixPend n = true →
            t.host.sent = .msix n e.addr e.data :: s.host.sent ∧ tget false t.host.msixPend n = false) ∧
          RegsKept [] s t ∧ MemKept s t ∧ OnlyHost s t)))

/-- O36: A frame at a host port counts as unmatched, is rejected, or updates its stream; a query is answered by
reports (R107, R108, R109, R110, R116, 05_ingest_decode.md). What it says of the points that log entries 67, 90, 93,
194 settle is the model's own choice or reading. -/
def Obligations.FramesReachTheirStream : Prop :=
  ∀ (s : State) (port : Fin 4) (frame : NetFrame) (e : StreamEntry) (r : Rtp) (pk : Packing × Bool) (p8 : Fin 8)
    (v6 : Bool) (item : Fin 256),
    (s.hostReady → s.host.hnMode port.val = 0 ∨ s.host.hnMode port.val = 3 →
      Completes (.ingestFrame port frame) s (fun t => t = s)) ∧
    (s.hostReady → s.host.hnMode port.val ≠ 0 → s.host.hnMode port.val ≠ 3 →
      (s.host.matchStream port.val frame = none → Completes (.ingestFrame port frame) s (fun t =>
        t.host.get (Reg.ING_UNMATCHED_COUNT port.val) =
          satAdd (s.host.get (Reg.ING_UNMATCHED_COUNT port.val)) 1 (Reg.ING_UNMATCHED_COUNT port.val).w ∧
        RegsKept [Reg.ING_UNMATCHED_COUNT port.val] s t ∧ MemKept s t ∧ OnlyHost s t)) ∧
      (s.host.matchStream port.val frame = some e →
        (e.frer = 1 ∧ frame.rtag = none ∨ e.frer ≠ 1 ∧ isRtcp frame.payload = false ∧ parseRtp frame.payload = none →
          Completes (.ingestFrame port frame) s (fun t => t.host.get (Reg.ING_REJECT_COUNT e.stream) =
              satAdd (s.host.get (Reg.ING_REJECT_COUNT e.stream)) 1 (Reg.ING_REJECT_COUNT e.stream).w ∧
            t.host.streamState e.stream = s.host.streamState e.stream ∧
            RegsKept [Reg.ING_REJECT_COUNT e.stream, Reg.ING_STATUS_SSRC_LOCKED e.stream, Reg.ING_SSRC_SSRC e.stream,
              Reg.ING_STATUS_SR_VALID e.stream, Reg.ING_STATUS_SYNC_VALID e.stream, Reg.ING_SYNC_ATTEST_VALID e.stream,
              Reg.ING_STATUS_FRER_ACTIVE e.stream] s t ∧ MemKept s t ∧ OnlyHost s t)) ∧
        (e.frer ≠ 1 → isRtcp frame.payload = true → Completes (.ingestFrame port frame) s (fun t =>
          (∀ x ∈ senderReports frame.payload.length frame.payload, (s.host.streamState e.stream).ssrc = some x.1 →
            ⟨s.host.arrivalAt port.val, x.2.1, x.2.2⟩ ∈ (t.host.streamState e.stream).reports) ∧
          (t.host.streamState e.stream).packets = (s.host.streamState e.stream).packets ∧ MemKept s t ∧ OnlyHost s t)) ∧
        (e.frer ≠ 1 → isRtcp frame.payload = false → parseRtp frame.payload = some r →
          payloadKind (hevc e.codec) r.payload = some pk → r.pt = e.pt →
          (s.host.streamState e.stream).ssrc = none ∨ (s.host.streamState e.stream).ssrc = some r.ssrc →
          Completes (.ingestFrame port frame) s (fun t =>
            t.host.get (Reg.ING_RX_PKTS_COUNT e.stream) = (s.host.get (Reg.ING_RX_PKTS_COUNT e.stream) + 1) % 2 ^ 32 ∧
            t.host.get (Reg.ING_LAST_ARRIVAL_VT e.stream) = (vtOf (s.host.arrivalAt port.val)).toNat ∧
            (t.host.streamState e.stream).ssrc = some r.ssrc ∧ OnlyHost s t)))) ∧
    (s.hostReady → p8.val < 4 → s.host.hnMode p8.val ≠ 0 → Completes (.membershipQuery .host p8 v6) s (fun t =>
      (∀ x ∈ s.host.cfg.streams, x.enable = 1 → x.multicast = 1 → (x.ipv6 == 1) = v6 →
        (x.portA = p8.val ∨ (x.frer = 1 ∧ x.portB = p8.val)) → Sent.report p8.val x.addr v6 ∈ t.host.sent) ∧
      RegsKept [] s t ∧ MemKept s t ∧ OnlyHost s t)) ∧
    (s.fieldReady → Completes (.membershipQuery .field p8 v6) s (fun t =>
      (v6 = true → t = s) ∧
      (v6 = false → ∀ x ∈ s.field.fieldCfg.sources, x.enable = 1 → x.multicast = 1 →
        (x.portA = p8.val ∨ (x.frer = 1 ∧ x.portB = p8.val)) → ∀ pe, s.field.portEntry p8.val = some pe → pe.mode ≠ 0 →
        pe.cycleNs ≥ pe.takes pe.vid none (.igmp pe.ipv4 x.addr) + pe.winLenNs →
        ∃ y ∈ t.field.work.sent, y.port = p8.val ∧ y.body = .igmp pe.ipv4 x.addr) ∧ OnlyField s t)) ∧
    (s.hostReady → item.val < 128 → dtReached s.host.now (s.host.streamState item.val).frer.endAt = true →
      Completes (.frerResetTimeout .host item) s (fun t => (t.host.streamState item.val).frer.takeAny = true ∧
        MemKept s t ∧ OnlyHost s t)) ∧
    (s.fieldReady → dtReached s.field.now (s.field.src item.val).frer.endAt = true →
      Completes (.frerResetTimeout .field item) s (fun t => (t.field.src item.val).frer.takeAny = true ∧ OnlyField s t))

/-- O37: Attestation opens a stream's evidence window; revocation and time end it; held pictures leave when their hold
ends (R6, R113, R117, R118, R134, 05_ingest_decode.md). -/
def Obligations.SyncEvidenceIsAttestedAndEnds : Prop :=
  ∀ (s : State) (who : Requester) (n : Fin 128) (v : Word) (e : StreamEntry) (shown : List Fld),
    shown = [Reg.ING_STATUS_SSRC_LOCKED n.val, Reg.ING_SSRC_SSRC n.val, Reg.ING_STATUS_SR_VALID n.val,
      Reg.ING_STATUS_SYNC_VALID n.val, Reg.ING_SYNC_ATTEST_VALID n.val, Reg.ING_STATUS_FRER_ACTIVE n.val] →
    (s.reaches who → s.host.streamEntry n.val = some e →
      Completes (.syncAttest who n) s (fun t => t.host.resp = .none ∧
        (∃ w, (t.host.streamState n.val).attested = some w ∧ dtReached s.host.now w.start = true ∧
          w.stop = s.host.now + BitVec.ofNat 64 (e.syncHold * 1000000)) ∧
        (0 < e.syncHold → e.syncHold < 2 ^ 32 → t.host.get (Reg.ING_SYNC_ATTEST_VALID n.val) = 1) ∧
        RegsKept shown s t ∧ MemKept s t ∧ OnlyHost s t) ∧
      Completes (.syncRevoke who n) s (fun t => t.host.resp = .none ∧ (t.host.streamState n.val).attested = none ∧
        t.host.get (Reg.ING_SYNC_ATTEST_VALID n.val) = 0 ∧ RegsKept shown s t ∧ MemKept s t ∧ OnlyHost s t)) ∧
    (s.hostReady → Completes (.syncHoldExpiry n) s (fun t =>
      (∀ x, (s.host.streamState n.val).attested = some x → (t.host.streamState n.val).attested =
        if dtReached s.host.now x.start = true ∧ dtReached s.host.now x.stop = false then some x else none) ∧
      (∀ x, (s.host.streamState n.val).inband = some x → (t.host.streamState n.val).inband =
        if dtReached s.host.now x.start = true ∧ dtReached s.host.now x.stop = false then some x else none) ∧
      (t.host.streamState n.val).packets = (s.host.streamState n.val).packets ∧
      RegsKept shown s t ∧ MemKept s t ∧ OnlyHost s t)) ∧
    (s.reaches who → Completes (.tsOffsetWrite who v) s (fun t => t.host.resp = .none ∧
      t.host.video.tsOffset = s.host.get Reg.ING_TS_OFFSET_LO_OFFSET + 2 ^ 32 * v.toNat ∧
      t.host.get Reg.ING_TS_OFFSET_HI_OFFSET = v.toNat ∧ RegsKept [Reg.ING_TS_OFFSET_HI_OFFSET] s t ∧ MemKept s t ∧
      OnlyHost s t)) ∧
    (s.hostReady → s.host.streamEntry n.val = none ∨ (s.host.streamEntry n.val = some e ∧ e.enable ≠ 1) →
      Completes (.jbHoldExpiry n) s (fun t => t = s)) ∧
    (s.hostReady → s.host.streamEntry n.val = some e → e.enable = 1 → Completes (.jbHoldExpiry n) s (fun t =>
      (∀ ts p rest, (s.host.streamState n.val).pictureOf ts = p :: rest →
        dtReached s.host.now (p.arrival + BitVec.ofNat 64 (e.jbHold * 1000000)) = true →
        (t.host.streamState n.val).pictureOf ts = []) ∧ OnlyHost s t))

/-- O38: A core takes its oldest picture; damaged sets and excess needs change the context; a finished picture is
presented (R122, R123, R124, R126, R127, R128, R129, R131, R132, 05_ingest_decode.md). What it says of the points that
log entries 98, 99, 232 settle is the model's own choice or reading. -/
def Obligations.DecodersStartAndFinishPictures : Prop :=
  ∀ (s : State) (c : Fin 9) (f : PictureFacts) (g : DecodedFacts) (k : Core) (rel : Released) (rest : List Released)
    (e : StreamEntry) (d : Decoding) (p : Picture), s.hostReady → s.host.core c.val = k →
    (k.current = none → k.queue = rel :: rest → s.host.flag (Reg.DEC_CORE_STATUS_FAULTED c.val) = false →
      (c.val = 8 → s.host.video.dc8For = none) → s.host.streamEntry rel.stream = some e →
      s.host.coreOf rel.stream = some c.val →
      (s.host.get (Reg.DEC_CTX_STATUS_STATE rel.stream) ≠ 2 → f.irap = false →
        Completes (.decodeStart c f) s (fun t => t.host.core c.val = ⟨rest, none⟩ ∧
          RegsKept ([Reg.DEC_CORE_STATUS_BUSY c.val, Reg.DEC_CORE_STATUS_STREAM c.val, Reg.DEC_CORE_STATUS_QUEUED c.val,
            Reg.DEC_CTX_TOKENS_HELD rel.stream, Reg.DEC_CTX_TOKENS_FREE rel.stream,
            Reg.DEC_CTX_STATUS_CUR_ANCIENT rel.stream, Reg.DEC_CTX_STATUS_CUR_CONCEALED rel.stream,
            Reg.DEC_CTX_STATUS_CUR_FAULT rel.stream, Reg.DEC_CTX_STATUS_CUR_CLASS rel.stream,
            Reg.DEC_CTX_STATUS_TAINT_RUN rel.stream] ++ (List.range 9).map Reg.DEC_CORE_STATUS_ACTIVE) s t ∧
          MemKept s t ∧ OnlyHost s t)) ∧
      (f.irap = true ∨ s.host.get (Reg.DEC_CTX_STATUS_STATE rel.stream) = 2 → f.rasl = false →
        (f.params = none → Completes (.decodeStart c f) s (fun t => t.host.core c.val = ⟨rest, none⟩ ∧
          t.host.get (Reg.DEC_CTX_STATUS_STATE rel.stream) = 1 ∧
          t.host.get (Reg.DEC_CTX_ERR_SYNTAX rel.stream) = satAdd (s.host.get (Reg.DEC_CTX_ERR_SYNTAX rel.stream)) 1 8 ∧
          t.host.get (Reg.DEC_CTX_ERR_PARAM rel.stream) = satAdd (s.host.get (Reg.DEC_CTX_ERR_PARAM rel.stream)) 1 8 ∧
          t.host.get (Reg.DEC_CTX_STATUS_LAST_EVENT rel.stream) = 2 ∧ OnlyHost s t)) ∧
        (∀ q, f.params = some q →
          q.highTier = true ∨ q.chroma ≠ 1 ∨ e.level < q.level ∨ e.maxW < q.width ∨ e.maxH < q.height ∨
            e.tokens < q.need e + 2 →
          Completes (.decodeStart c f) s (fun t => t.host.core c.val = ⟨rest, none⟩ ∧
            t.host.get (Reg.DEC_CTX_STATUS_STATE rel.stream) = 3 ∧
            t.host.get (Reg.DEC_CTX_ERR_ENVELOPE rel.stream) =
              satAdd (s.host.get (Reg.DEC_CTX_ERR_ENVELOPE rel.stream)) 1 8 ∧
            t.host.get (Reg.DEC_CTX_STATUS_LAST_EVENT rel.stream) = 4 ∧ OnlyHost s t)) ∧
        (∀ q, f.params = some q → f.irap = true → q.outside e = false →
          ((s.host.setCore c.val ⟨rest, none⟩).pictureBoundary rel.stream).tokensHeld rel.stream + 1 ≤ e.tokens →
          Completes (.decodeStart c f) s (fun t => t.host.get (Reg.DEC_CTX_STATUS_STATE rel.stream) = 2 ∧
            t.host.core c.val = ⟨rest, some ⟨rel, s.host.video.nextPic, s.host.now, true,
              s.host.get (Reg.DEC_CTX_STATUS_STATE rel.stream) != 2, f.reference, [], q⟩⟩ ∧ MemKept s t ∧
            OnlyHost s t)))) ∧
    (k.current = some d → dtDiff s.host.now d.start < 100000000 → s.host.streamEntry d.rel.stream = some e →
      s.host.picture d.id = some p → ∀ w blocks, w = d.params.walk g.slices →
      blocks = s.host.concealed d (s.host.context d.rel.stream).prev w →
      (d.rel.missing + g.badNals + w.errors ≠ 0 → Completes (.pictureComplete c g) s (fun t =>
        t.host.get (Reg.DEC_CTX_ERR_SYNTAX d.rel.stream) =
          satAdd (s.host.get (Reg.DEC_CTX_ERR_SYNTAX d.rel.stream)) (d.rel.missing + g.badNals + w.errors) 8 ∧
        OnlyHost s t)) ∧
      (blocks ≠ [] → Completes (.pictureComplete c g) s (fun t => t.host.core c.val = ⟨k.queue, none⟩ ∧
        (t.host.context d.rel.stream).run = (s.host.context d.rel.stream).run + 1 ∧
        t.host.get (Reg.DEC_CTX_STATUS_TAINT_RUN d.rel.stream) =
          min 255 ((s.host.context d.rel.stream).run + 1) ∧
        (∃ q, t.host.picture d.id = some q ∧ q.tainted = true ∧ q.content = some g.content ∧
          q.patches = blocks.flatMap (s.host.patchesOf d.params) ∧ q.inDpb = d.keep) ∧ OnlyHost s t)) ∧
      (blocks = [] → d.refs = [] → Completes (.pictureComplete c g) s (fun t =>
        t.host.core c.val = ⟨k.queue, none⟩ ∧ (t.host.context d.rel.stream).run = 0 ∧
        t.host.get (Reg.DEC_CTX_STATUS_TAINT_RUN d.rel.stream) = 0 ∧
        t.host.picture d.id = some { p with
          tag := ⟨d.rel.vintage, d.rel.cls, false, false, g.memError⟩
          content := some g.content
          patches := []
          tainted := false
          inDpb := d.keep } ∧
        ((s.host.context d.rel.stream).curSeq ≠ (s.host.context d.rel.stream).sequence →
          (t.host.context d.rel.stream).current = some d.id ∧
          t.host.get (Reg.DEC_CTX_PICS_COUNT d.rel.stream) =
            (s.host.get (Reg.DEC_CTX_PICS_COUNT d.rel.stream) + 1) % 2 ^ 32) ∧ OnlyHost s t)))

/-- O39: A core that stalls or fails its check is marked faulted and abandons its work; DC8 takes over at its next
boundary (R42, R133, R134, R220, R387, 05_ingest_decode.md). What it says of the points that log entries 97, 98, 99,
232 settle is the model's own choice or reading. -/
def Obligations.FaultedCoresAreReplaced : Prop :=
  ∀ (s : State) (who : Requester) (c : Fin 9) (d : Decoding) (f : PictureFacts) (g : DecodedFacts) (v : Word), s.hostReady →
    (c.val ≠ 8 → s.host.flag (Reg.DEC_CORE_STATUS_FAULTED c.val) = false →
      ∀ i, i = Instr.coreSelftestFault false c ∨
          ((i = .decodeTimeout c ∨ i = .pictureComplete c g) ∧ (s.host.core c.val).current = some d ∧
            100000000 ≤ dtDiff s.host.now d.start) →
        ∃ t, exec i s = .next t ∧ t.pending = s.pending ∧ t.host.get (Reg.DEC_CORE_STATUS_FAULTED c.val) = 1 ∧
          (t.host.core c.val).current = none ∧
          (s.host.twinBody.autoDecoder = 1 → s.host.flag (Reg.DEC_CORE_STATUS_FAULTED 8) = false →
            s.host.video.dc8For = none → t.host.video.dc8For = some c.val ∧
            t.host.core c.val = ⟨(s.host.core c.val).queue, none⟩ ∧
            t.host.get Reg.RPR_STATUS_DC_REPLACES = c.val) ∧
          (s.host.twinBody.autoDecoder ≠ 1 ∨ s.host.flag (Reg.DEC_CORE_STATUS_FAULTED 8) = true →
            t.host.core c.val = Core.idle ∧ t.host.video.dc8For = s.host.video.dc8For) ∧ OnlyHost s t) ∧
    (s.host.video.dc8For = some c.val → c.val ≠ 8 → s.host.flag (Reg.DEC_CORE_STATUS_FAULTED 8) = false →
      (s.host.core 8).current = none → Completes (.decodeStart 8 f) s (fun t =>
        t.host.core c.val = Core.idle ∧
        (∀ x ∈ s.host.contextsOf c.val, t.host.get (Reg.DEC_CTX_STATUS_CORE x) = 8) ∧
        ((s.host.core c.val).queue = [] → (s.host.core 8).queue = [] →
          ∀ x ∈ s.host.contextsOf c.val, t.host.get (Reg.DEC_CTX_STATUS_STATE x) = 1) ∧ OnlyHost s t)) ∧
    (s.host.flag (Reg.DEC_CORE_STATUS_FAULTED c.val) = false → Completes (.coreSelftestFault false c) s (fun t =>
      t.host.get (Reg.DEC_CORE_STATUS_FAULTED c.val) = 1 ∧ OnlyHost s t)) ∧
    ((s.host.core c.val).current = some d → 100000000 ≤ dtDiff s.host.now d.start →
      s.host.flag (Reg.DEC_CORE_STATUS_FAULTED c.val) = false → Completes (.decodeTimeout c) s (fun t =>
        t.host.get (Reg.DEC_CORE_STATUS_FAULTED c.val) = 1 ∧ OnlyHost s t)) ∧
    ((s.host.core c.val).current = some d → dtDiff s.host.now d.start < 100000000 →
      Completes (.decodeTimeout c) s (fun t => t = s)) ∧
    (c.val < 2 → Completes (.coreSelftestFault true c) s (fun t =>
      t.host.get (Reg.ENC_CORE_STATUS_FAULTED c.val) = 1 ∧ t.host.encCore c.val = EncCore.idle ∧ MemKept s t ∧
      OnlyHost s t)) ∧
    (s.host.barOpen who = true → Completes (.wtProbe who v) s (fun t => t.host.resp = .none ∧
      t.host.get Reg.DEC_WT_PROBE_LAYER = v.toNat % 1024 ∧ t.host.get Reg.DEC_WT_PROBE_TILE = v.toNat / 1024 % 4 ∧
      t.host.get Reg.DEC_WT_PROBE_VALID = b2n (s.host.tile (v.toNat % 1024) (v.toNat / 1024 % 4)).hash.isSome ∧
      t.host.get Reg.DEC_WT_HASH_HASH = (s.host.tile (v.toNat % 1024) (v.toNat / 1024 % 4)).hash.getD 0 % 2 ^ 32 ∧
      RegsKept [Reg.DEC_WT_PROBE_LAYER, Reg.DEC_WT_PROBE_TILE, Reg.DEC_WT_PROBE_VALID, Reg.DEC_WT_HASH_HASH] s t ∧
      MemKept s t ∧ OnlyHost s t))

/-- O40: After a sweep no tag of content is both unmarked and 2^30 or more VT units old (R30, R141, R170, R176,
02_freshness.md). -/
def Obligations.SweepMarksOldContentAncient : Prop :=
  ∀ (s : State) (judged : Tag → Prop),
    (∀ g, judged g ↔ (g.ancient = true ∨ vtDiff s.host.vt g.vt < 2 ^ 30)) → s.hostReady →
    Completes .vintageSweep s (fun t =>
      (∀ n v, t.host.surface n = some v → judged v.tag) ∧
      (∀ n v, t.host.picture n = some v → judged v.tag) ∧
      (∀ n x, (tget Region.empty t.host.lanes.regions n).latest = some x → judged x.tag) ∧
      (∀ n, judged (t.host.widgetState n).tag) ∧
      (∀ m u i, t.host.mimicSurf m = some u → bit (tget Cell.static u.cells i).flags 5 = true ∨
        bit (tget Cell.static u.cells i).flags 2 = true ∨ vtDiff s.host.vt (tget Cell.static u.cells i).vt < 2 ^ 30) ∧
      t.host.tb = s.host.tb ∧ OnlyHost s t)

/-- O41: A batch draws each widget whose state changed, writes its cells, and ends with its latency; probes show what
is kept (R174, R175, R176, R177, R178, R180, R181, R182, R184, 07_mimic.md). What it says of the points that log
entries 56, 87, 257 settle is the model's own choice or reading. -/
def Obligations.TheSymbolEngineDrawsBatches : Prop :=
  ∀ (s : State) (who : Requester) (b : Batch) (rest : List Batch) (w : WidgetEntry) (ws : List WidgetEntry)
    (r : PointRead) (bz : Busy) (d : InDraw) (sf : MimicSurf) (facts : DrawFacts)
    (fresh : FreshFacts) (v : Word), s.hostReady →
    (s.host.mimic.busy = none → s.host.mimic.queue = b :: rest →
      (s.host.widgets.filter (fun w => w.live && b.points.contains w.point) = [] →
        Completes .mimicBatch s (fun t => t.host.mimic.queue = rest ∧ t.host.mimic.busy = none ∧
          t.host.get Reg.MIM_STATUS_BUSY = 0 ∧ t.host.get Reg.MIM_STATUS_QUEUED = min 255 rest.length ∧
          t.host.get Reg.MIM_BATCHES_COUNT = (s.host.get Reg.MIM_BATCHES_COUNT + 1) % 2 ^ 32 ∧
          t.host.get Reg.MIM_LAT_LAST_NS = s.host.tb.sinceNs b.at_ % 2 ^ 32 ∧ MemKept s t ∧ OnlyHost s t)) ∧
      (s.host.widgets.filter (fun w => w.live && b.points.contains w.point) = w :: ws →
        s.host.widget w.widget = some w → s.host.store.anyPoison (s.host.replicaBase + 32 * w.point) 32 = false →
        r = .ofBytes (s.host.store.bytes (s.host.replicaBase + 32 * w.point) 32) →
        (s.host.widgetState w.widget).last ≠ some (s.host.selectEntry w r) →
        Completes .mimicBatch s (fun t => t.host.mimic.queue = rest ∧
          t.host.mimic.busy = some ⟨b, ws.map (·.widget), w.w * w.h⟩ ∧
          t.host.mimic.drawing = some ⟨w.widget, w, s.host.surfPage w, s.host.selectEntry w r,
            widgetTag r (s.host.widgetState w.widget).tag.fault, true⟩ ∧
          t.host.get Reg.MIM_STATUS_BUSY = 1 ∧ MemKept s t ∧ OnlyHost s t)) ∧
      (s.host.widgets.filter (fun w => w.live && b.points.contains w.point) = w :: ws →
        s.host.widget w.widget = some w → s.host.store.anyPoison (s.host.replicaBase + 32 * w.point) 32 = false →
        r = .ofBytes (s.host.store.bytes (s.host.replicaBase + 32 * w.point) 32) →
        (s.host.widgetState w.widget).last = some (s.host.selectEntry w r) →
        (s.host.widgetState w.widget).tag.fault = false →
        Completes .mimicBatch s (fun t => t.host.mimic.queue = rest ∧
          t.host.mimic.busy = some ⟨b, ws.map (·.widget), 64⟩ ∧
          t.host.mimic.drawing = some ⟨w.widget, w, s.host.surfPage w, s.host.selectEntry w r, widgetTag r false, false⟩ ∧
          MemKept s t ∧ OnlyHost s t))) ∧
    (s.host.mimic.busy = some bz → bz.widgets = [] → s.host.mimic.drawing = some d →
      s.host.widget d.widget = some w → s.host.mimicSurf w.surface = some sf →
      w = d.record → s.host.surfPage w = d.page → d.draws = true →
      s.host.atlasPoisoned (s.host.drawingOf w sf.entry.bgColour d.entry none) = false → facts.atlas = 0 →
      Completes (.widgetDrawn facts) s (fun t => t.host.mimic.drawing = none ∧ t.host.mimic.busy = none ∧
        (t.host.widgetState d.widget).last = some d.entry ∧
        (w.bound = 1 → (t.host.widgetState d.widget).tag = { d.tag with fault := facts.surface != 0 }) ∧
        (facts.surface + facts.map ≠ 0 → t.host.get Reg.MIM_ERRORS_WRITE =
          satAdd (s.host.get Reg.MIM_ERRORS_WRITE) (facts.surface + facts.map) Reg.MIM_ERRORS_WRITE.w) ∧
        (∃ u, t.host.mimicSurf w.surface = some u ∧ (sf.initial = false → facts.map = 0 →
          ∀ i ∈ w.cells (sf.entry.width / 64), tget Cell.static u.cells i = t.host.cellEntry w.surface u i)) ∧
        OnlyHost s t)) ∧
    (s.host.mimic.busy = some bz → bz.widgets = [] → s.host.mimic.drawing = some d →
      s.host.widget d.widget = some w → s.host.mimicSurf w.surface = some sf →
      w = d.record → s.host.surfPage w = d.page → d.draws = false →
      Completes (.widgetDrawn facts) s (fun t => t.host.mimic.drawing = none ∧ t.host.mimic.busy = none ∧
        t.host.widgetState d.widget = { s.host.widgetState d.widget with tag := d.tag } ∧
        (facts.map ≠ 0 → t.host.get Reg.MIM_ERRORS_WRITE =
          satAdd (s.host.get Reg.MIM_ERRORS_WRITE) facts.map Reg.MIM_ERRORS_WRITE.w) ∧
        (∃ u, t.host.mimicSurf w.surface = some u ∧ (sf.initial = false → facts.map = 0 →
          ∀ i ∈ w.cells (sf.entry.width / 64), tget Cell.static u.cells i = t.host.cellEntry w.surface u i)) ∧
        OnlyHost s t)) ∧
    (s.host.mimic.busy = some bz → bz.widgets = [] → s.host.mimic.drawing = some d →
      s.host.widget d.widget = some w → w ≠ d.record ∨ s.host.surfPage w ≠ d.page →
      Completes (.widgetDrawn facts) s (fun t => t.host.mimic.drawing = none ∧ t.host.mimic.busy = none ∧
        t.host.mimic.widgets = s.host.mimic.widgets ∧ t.host.mimic.surfs = s.host.mimic.surfs ∧ OnlyHost s t)) ∧
    (s.host.mimicSurf fresh.surface.val = some sf → sf.initial = true → s.host.mimic.busy = none → s.host.mimic.queue = [] →
      Completes (.mimicDrawComplete fresh) s (fun t => t.host.get (Reg.MIM_SURF_STATUS_DRAWN fresh.surface.val) = 1 ∧
        (∃ u, t.host.mimicSurf fresh.surface.val = some u ∧ u.initial = false) ∧ OnlyHost s t)) ∧
    (s.host.barOpen who = true → Completes (.widgetProbe who v) s (fun t => t.host.resp = .none ∧
      t.host.get Reg.MIM_WIDGET_PROBE_WIDGET = v.toNat % 65536 ∧
      t.host.get Reg.MIM_WIDGET_STATE_ENTRY = (s.host.widgetState (v.toNat % 65536)).last.getD 0 % 16 ∧
      RegsKept [Reg.MIM_WIDGET_PROBE_WIDGET, Reg.MIM_WIDGET_STATE_ENTRY, Reg.MIM_WIDGET_STATE_ANCIENT,
        Reg.MIM_WIDGET_STATE_FAULT, Reg.MIM_WIDGET_STATE_CLASS, Reg.MIM_WIDGET_STATE_ENABLED, Reg.MIM_WIDGET_STATE_BOUND,
        Reg.MIM_WIDGET_STATE_SURFACE, Reg.MIM_WIDGET_VT_VT] s t ∧ MemKept s t ∧ OnlyHost s t)) ∧
    (s.host.barOpen who = true → Completes (.cellProbe who v) s (fun t => t.host.resp = .none ∧
      (∀ u, s.host.mimicSurf (v.toNat % 64) = some u → v.toNat / 65536 % 16384 < u.cellCount →
        t.host.get Reg.MIM_CELL_VT_VT = (tget Cell.static u.cells (v.toNat / 65536 % 16384)).vt.toNat ∧
        t.host.get Reg.MIM_CELL_STATE_FLAGS = (tget Cell.static u.cells (v.toNat / 65536 % 16384)).flags % 64) ∧
      RegsKept [Reg.MIM_CELL_PROBE_SURFACE, Reg.MIM_CELL_PROBE_CELL, Reg.MIM_CELL_STATE_FLAGS,
        Reg.MIM_CELL_STATE_WIDGETS, Reg.MIM_CELL_VT_VT] s t ∧ MemKept s t ∧ OnlyHost s t))

/-- O42: A context reads a frame's slices, submits rate-control sets, and its coded frames leave over RTP or into its
ring (R210, R211, R212, R214, R215, R216, R218, R219, 09_encode.md). What it says of the points that log entry 100
settles is the model's own choice or reading. -/
def Obligations.EncodersTakeAndSendFrames : Prop :=
  ∀ (s : State) (who : Requester) (x : Fin 16) (sl : Fin 128) (core : Fin 2) (e : EncodeEntry) (p : Plan) (i : EncInput)
    (slot : RingSlot) (f : EncFrame) (rest : List EncFrame) (d : EncCoding) (facts : EncodeFacts) (n : Nat),
    (s.hostReady → s.host.encEntry x.val = some e → s.host.flag (Reg.ENC_CORE_STATUS_FAULTED e.core) = false →
      (s.host.head e.head).time.isSome = true →
      ((s.host.encCtx x.val).reading = none → (s.host.head e.head).plan (s.host.head e.head).started = some p →
        p.frame % e.div = 0 → (s.host.encCtx x.val).last < p.no → sl.val = 0 →
        ((s.host.encCtx x.val).buffers < 3 →
          tget none s.host.display.rings (16 * e.head + ringSlotOf p 0) = some slot → slot.frame = p.f → slot.slice = 0 →
          p.time.entry.slices ≠ 1 → Completes (.encSliceRead x sl) s (fun t =>
            (t.host.encCtx x.val).reading = some ⟨p.f, p.start, p.no, 1, [slot.tag], worse 0 slot.worst,
              s.host.slotRows e.head p 0⟩ ∧
            (t.host.encCtx x.val).buffers = (s.host.encCtx x.val).buffers + 1 ∧
            RegsKept [Reg.ENC_CTX_STATUS_GO_PENDING x.val, Reg.ENC_CTX_STATUS_QP x.val] s t ∧ MemKept s t ∧
            OnlyHost s t)) ∧
        (3 ≤ (s.host.encCtx x.val).buffers → Completes (.encSliceRead x sl) s (fun t =>
          t.host.get (Reg.ENC_COUNTS_INPUT_SKIP x.val) = satAdd (s.host.get (Reg.ENC_COUNTS_INPUT_SKIP x.val)) 1 8 ∧
          (t.host.encCtx x.val).reading = none ∧ (t.host.encCtx x.val).last = p.no ∧ MemKept s t ∧ OnlyHost s t))) ∧
      ((s.host.encCtx x.val).reading = some i → sl.val = i.next → (s.host.head e.head).plan i.no = some p →
        tget none s.host.display.rings (16 * e.head + ringSlotOf p i.next) = none → Completes (.encSliceRead x sl) s
        (fun t => (t.host.encCtx x.val).reading = none ∧
          (t.host.encCtx x.val).buffers = (s.host.encCtx x.val).buffers - 1 ∧
          t.host.get (Reg.ENC_COUNTS_INPUT_LOST x.val) = satAdd (s.host.get (Reg.ENC_COUNTS_INPUT_LOST x.val)) 1 8 ∧
          MemKept s t ∧ OnlyHost s t))) ∧
    (s.hostReady → (s.host.encCore core.val).current = none → (s.host.encCore core.val).queue = f :: rest →
      s.host.encEntry f.ctx = some e → Completes (.encodeFrameStart core) s (fun t =>
        (∃ g, t.host.encCore core.val = ⟨rest, some g⟩ ∧ g.input = f ∧
          (∀ a at_, (s.host.encCtx f.ctx).accepted = some (a, at_) → at_ ≠ s.host.tb.raw.toNat → g.set = a) ∧
          (∀ a b, (s.host.encCtx f.ctx).accepted = some (a, s.host.tb.raw.toNat) →
            (s.host.encCtx f.ctx).earlier = some b → g.set = b) ∧
          ((s.host.encCtx f.ctx).accepted = none → g.set = { (s.host.encCtx f.ctx).applied with idr := false })) ∧
        t.host.get (Reg.ENC_CORE_STATUS_BUSY core.val) = 1 ∧ MemKept s t ∧ OnlyHost s t)) ∧
    (s.reaches who → s.host.encEntry x.val = some e → ∀ idr : Bool,
      (e.qpMin ≤ s.host.get (Reg.ENC_RC_CTRL_QP x.val) → s.host.get (Reg.ENC_RC_CTRL_QP x.val) ≤ e.qpMax →
        encFloor (s.host.encRect e).2.2.1 (s.host.encRect e).2.2.2 ≤ s.host.get (Reg.ENC_RC_CEIL_BITS x.val) →
        s.host.get (Reg.ENC_RC_CEIL_BITS x.val) ≤ e.maxFrameBits →
        s.host.get (Reg.ENC_RC_TARGET_BITS x.val) ≤ s.host.get (Reg.ENC_RC_CEIL_BITS x.val) →
        Completes (if idr then .rcSubmitIdr who x else .rcSubmit who x) s (fun t =>
          (t.host.encCtx x.val).accepted = some (⟨s.host.get (Reg.ENC_RC_CTRL_QP x.val),
            s.host.get (Reg.ENC_RC_CEIL_BITS x.val), s.host.get (Reg.ENC_RC_TARGET_BITS x.val), idr⟩,
            s.host.tb.raw.toNat) ∧ t.host.get (Reg.ENC_CTX_STATUS_GO_PENDING x.val) = 1 ∧
          RegsKept [Reg.ENC_CTX_STATUS_GO_PENDING x.val, Reg.ENC_CTX_STATUS_QP x.val] s t ∧ MemKept s t ∧
          OnlyHost s t)) ∧
      (s.host.get (Reg.ENC_RC_CTRL_QP x.val) < e.qpMin ∨ e.maxFrameBits < s.host.get (Reg.ENC_RC_CEIL_BITS x.val) →
        Completes (if idr then .rcSubmitIdr who x else .rcSubmit who x) s (fun t =>
          t.host.get (Reg.ENC_CTX_STATUS_RC_REFUSED x.val) = 1 ∧
          t.host.encCtx x.val = s.host.encCtx x.val ∧ RegsKept [Reg.ENC_CTX_STATUS_RC_REFUSED x.val] s t ∧
          MemKept s t ∧ OnlyHost s t))) ∧
    (s.reaches who → s.host.encEntry x.val = none →
      Completes (.rcSubmit who x) s (fun t => t.host.get (Reg.ENC_CTX_STATUS_RC_REFUSED x.val) = 1 ∧ OnlyHost s t) ∧
      Completes (.rcSubmitIdr who x) s (fun t => t.host.get (Reg.ENC_CTX_STATUS_RC_REFUSED x.val) = 1 ∧
        OnlyHost s t)) ∧
    (s.hostReady → (s.host.encCore core.val).current = some d → d.input.ctx < 16 →
      s.host.encEntry d.input.ctx = some e → n = facts.nals.foldl (fun n b => n + b.length) 0 → ∀ grid,
      grid = ctuGrid (s.host.encRect e).2.2.1 (s.host.encRect e).2.2.2 →
      (facts.sound (e.main10 == 1) (facts.run (e.rowAdapt == 1) d.set d.idr grid.1 grid.2) d.set.ceil d.idr grid.1
        grid.2 = false → Completes (.encodeFrameDone core facts) s (fun t => t = s)) ∧
      (facts.sound (e.main10 == 1) (facts.run (e.rowAdapt == 1) d.set d.idr grid.1 grid.2) d.set.ceil d.idr grid.1
        grid.2 = true → Completes (.encodeFrameDone core facts) s (fun t => (t.host.encCore core.val).current = none ∧
        t.host.get (Reg.ENC_LAST_BITS_BITS d.input.ctx) = n % 2 ^ 24 ∧
        t.host.get (Reg.ENC_LAST_INFO_IDR d.input.ctx) = b2n d.idr ∧
        (t.host.encCtx d.input.ctx).buffers = (s.host.encCtx d.input.ctx).buffers - 1 ∧
        bit (t.host.get Reg.ENC_DONE_CTX) d.input.ctx = true ∧
        (∀ c pad, c = (s.host.free (2 ^ facts.nals.length)).1 → pad = cdiv (annexB c facts.nals).length 32 * 32 →
          e.outPcie = 1 → ringPlace e.ringBytes (s.host.get (Reg.ENC_OUT_WR_OFFSET d.input.ctx))
            (s.host.get (Reg.ENC_OUT_RD_OFFSET d.input.ctx)) (32 + pad) = none →
          t.host.get (Reg.ENC_COUNTS_OUT_DROP d.input.ctx) =
            satAdd (s.host.get (Reg.ENC_COUNTS_OUT_DROP d.input.ctx)) 1 8 ∧
          (t.host.encCtx d.input.ctx).dropped = true ∧ MemKept s t) ∧
        (e.outPcie ≠ 1 → (t.host.encCtx d.input.ctx).dropped = false ∧ MemKept s t) ∧ OnlyHost s t)))

/-- O43: A UADP message updates mapped points or is dropped; silence and age change quality; an ARP request is
answered (R222, R225, R226, R229, R232, R233, R234, 10_field_points_commands.md). What it says of the points that log
entry 23 settles is the model's own choice or reading. -/
def Obligations.FieldMessagesUpdatePoints : Prop :=
  ∀ (s : State) (port : Fin 8) (m : UadpMessage) (on : SourceEntry → Bool) (e : SourceEntry) (d : UaDataSet)
    (x : UaField) (mp : MapEntry) (ip ask : BitVec 32) (mac : BitVec 48) (source : Fin 256), s.fieldReady →
    (∀ y, on y = (y.enable == 1 && y.modbus == 0 && (y.portA == port.val || (y.frer == 1 && y.portB == port.val)) &&
      y.l4Port == m.destPort.toNat && (if y.multicast = 1 then y.addr == m.destIp.toNat
        else ((s.field.portEntry port.val).map (·.ipv4)) == some m.destIp.toNat))) →
    (s.field.fieldCfg.sources.any on = false → Completes (.uadpMessage port m) s (fun t => t = s)) ∧
    (s.field.fieldCfg.sources.any on = true →
      m.version ≠ 1 ∨ m.payloadHeader = false ∨ m.refused = true ∨ m.msgs = [] ∨ 16 < m.msgs.length ∨
        (∃ y ∈ m.msgs, y.raw = true ∨ y.kind = .event) → Completes (.uadpMessage port m) s (fun t =>
        tget 0 t.field.work.drops port.val = tget 0 s.field.work.drops port.val + 1 ∧
        t.field.work.recs = s.field.work.recs ∧ t.field.work.sources = s.field.work.sources ∧ OnlyField s t)) ∧
    (s.field.fieldCfg.sources.find? (fun y => on y && m.publisher.map (·.toNat) == some y.publisherId) = some e →
      e.frer ≠ 1 → m.version = 1 → m.payloadHeader = true → m.refused = false → m.msgs = [d] → d.raw = false →
      d.valid = true →
      (d.kind = .keepAlive → Completes (.uadpMessage port m) s (fun t =>
        (t.field.src e.source).lastAct = s.field.now ∧ t.field.work.recs = s.field.work.recs ∧ OnlyField s t)) ∧
      (d.kind = .keyFrame ∨ d.kind = .deltaFrame → d.seq = none → d.fields = [x] → x.value ≠ .other →
        s.field.fieldCfg.maps.find? (fun y => y.source == e.source && y.key == d.writer && y.item == x.item) = some mp →
        (s.field.rec_ mp.point).type ≠ 0 → (s.field.rec_ mp.point).received = false →
        Completes (.uadpMessage port m) s (fun t => (t.field.src e.source).lastAct = s.field.now ∧
          (t.field.rec_ mp.point).received = true ∧ (t.field.rec_ mp.point).pending = true ∧
          (t.field.rec_ mp.point).seq = ((s.field.rec_ mp.point).seq + 1) % 65536 ∧
          (∀ p, p ≠ mp.point → t.field.rec_ p = s.field.rec_ p) ∧ OnlyField s t))) ∧
    (∀ pe, s.field.portEntry port.val = some pe →
      (pe.mode ≠ 0 → pe.ipv4 = ask.toNat → ∀ body, body = .arp pe.ipv4 ip.toNat mac.toNat →
        (∀ x, pe.otherStart (dtLater s.field.departure (tget none s.field.work.busyOther port.val)).toNat
            (pe.takes pe.vid none body) = some x → Completes (.arpRequest port ask ip mac) s (fun t =>
          t.field.work.sent = ⟨port.val, mac.toNat, pe.mac, pe.pcp, pe.vid, none, body, BitVec.ofNat 64 x⟩ ::
            s.field.work.sent ∧ OnlyField s t)) ∧
        (pe.otherStart (dtLater s.field.departure (tget none s.field.work.busyOther port.val)).toNat
            (pe.takes pe.vid none body) = none → Completes (.arpRequest port ask ip mac) s (fun t => t = s))) ∧
      (pe.mode = 0 ∨ pe.ipv4 ≠ ask.toNat → Completes (.arpRequest port ask ip mac) s (fun t => t = s))) ∧
    (s.field.sourceEntry source.val = some e → e.enable = 1 → e.silenceMs ≠ 0 →
      ((e.silenceMs * 1000000 : Int) ≤ dtDiff s.field.now (s.field.src source.val).lastAct →
        Completes (.sourceSilence source) s (fun t =>
          (∀ y ∈ s.field.fieldCfg.maps, y.source = source.val → (s.field.rec_ y.point).type ≠ 0 →
            (t.field.rec_ y.point).quality = 3) ∧ OnlyField s t)) ∧
      (dtDiff s.field.now (s.field.src source.val).lastAct < (e.silenceMs * 1000000 : Int) →
        Completes (.sourceSilence source) s (fun t => t = s))) ∧
    Completes .pointSweep s (fun t => (∀ p, (s.field.rec_ p).received = true →
      0x40000000 ≤ vtDiff s.field.vt (s.field.rec_ p).vintage →
      (t.field.rec_ p).quality = 4 ∧ (t.field.rec_ p).pending = true) ∧ OnlyField s t)

/-- O44: A due poll is sent outside the window or skipped; responses, timeouts and failures end the transaction (R222,
R223, R227, R228, 10_field_points_commands.md). What it says of the points that log entries 66, 68, 205 settle is the
model's own choice or reading. -/
def Obligations.ModbusSourcesArePolled : Prop :=
  ∀ (s : State) (poll : Fin 1024) (source : Fin 256) (p : PollEntry) (e : SourceEntry) (pe : PortEntry) (q k n : Nat)
    (sentAt : DT) (resp : ModbusBody), s.fieldReady →
    (s.field.fieldCfg.polls[poll.val]? = some p → s.field.sourceEntry p.source = some e → e.enable = 1 → e.modbus = 1 →
      0 ≤ dtDiff s.field.now (tget ⟨0, 0⟩ s.field.work.polls poll.val).due →
      ((s.field.src p.source).connected = true → (s.field.src p.source).outstanding = none →
        (s.field.src p.source).queue = [] → s.field.portEntry e.portA = some pe → pe.mode ≠ 0 →
        ∀ body, body = .tcp pe.ipv4 e.addr e.l4Port (modbusAdu (Config.modbusTxn p.source (s.field.src p.source).requests)
          e.unitId p.function p.start p.quantity) →
        (∀ x, pe.otherStart (dtLater s.field.departure (tget none s.field.work.busyOther e.portA)).toNat
            (pe.takes pe.vid none body) = some x → Completes (.modbusPollDue poll) s (fun t =>
          (t.field.src p.source).outstanding =
            some (poll.val, BitVec.ofNat 64 x, (s.field.src p.source).requests) ∧
          (t.field.src p.source).requests = (s.field.src p.source).requests + 1 ∧ (t.field.src p.source).queue = [] ∧
          t.field.work.sent = ⟨e.portA, e.mac, pe.mac, pe.pcp, pe.vid, none, body, BitVec.ofNat 64 x⟩ ::
            s.field.work.sent ∧
          (tget ⟨0, 0⟩ t.field.work.polls poll.val).due =
            (tget ⟨0, 0⟩ s.field.work.polls poll.val).due + BitVec.ofNat 64 (p.periodMs * 1000000) ∧ OnlyField s t)) ∧
        (pe.otherStart (dtLater s.field.departure (tget none s.field.work.busyOther e.portA)).toNat
            (pe.takes pe.vid none body) = none → Completes (.modbusPollDue poll) s (fun t =>
          (t.field.src p.source).outstanding = none ∧ (t.field.src p.source).queue = [poll.val] ∧
          t.field.work.sent = s.field.work.sent ∧ OnlyField s t))) ∧
      (poll.val ∈ (s.field.src p.source).queue ∨ ((s.field.src p.source).outstanding.map (·.1)) = some poll.val →
        Completes (.modbusPollDue poll) s (fun t =>
          (tget ⟨0, 0⟩ t.field.work.polls poll.val).skipped =
            (tget ⟨0, 0⟩ s.field.work.polls poll.val).skipped + 1 ∧
          (tget ⟨0, 0⟩ t.field.work.polls poll.val).due =
            (tget ⟨0, 0⟩ s.field.work.polls poll.val).due + BitVec.ofNat 64 (p.periodMs * 1000000) ∧
          t.field.work.sources = s.field.work.sources ∧ t.field.work.sent = s.field.work.sent ∧ OnlyField s t))) ∧
    (s.field.sourceEntry source.val = some e → (s.field.src source.val).connected = true →
      ((s.field.src source.val).outstanding = some (q, sentAt, k) → (s.field.src source.val).queue = [] → n = k →
        Completes (.modbusResponse source ⟨n, resp⟩) s (fun t => (t.field.src source.val).outstanding = none ∧
          (resp = .malformed ∨ (∃ y, s.field.fieldCfg.polls[q]? = some y ∧
              (y.timeoutMs * 1000000 : Int) ≤ dtDiff s.field.arrival sentAt) ∨
              (e.pathMax ≠ 0 ∧ (e.pathMax : Int) < dtDiff s.field.arrival sentAt) →
            (t.field.src source.val).discards = (s.field.src source.val).discards + 1 ∧
            t.field.work.recs = s.field.work.recs) ∧ OnlyField s t)) ∧
      ((s.field.src source.val).outstanding = none ∨
          ((s.field.src source.val).outstanding = some (q, sentAt, k) ∧ n ≠ k) →
        Completes (.modbusResponse source ⟨n, resp⟩) s (fun t =>
          (t.field.src source.val).outstanding = (s.field.src source.val).outstanding ∧
          (t.field.src source.val).discards = (s.field.src source.val).discards + 1 ∧
          t.field.work.recs = s.field.work.recs ∧ OnlyField s t))) ∧
    (s.field.fieldCfg.polls[poll.val]? = some p → (s.field.src p.source).outstanding = some (poll.val, sentAt, k) →
      ((p.timeoutMs * 1000000 : Int) ≤ dtDiff s.field.now sentAt → (s.field.src p.source).queue = [] →
        Completes (.modbusTimeout poll) s (fun t => (t.field.src p.source).outstanding = none ∧
          t.field.work.recs = s.field.work.recs ∧ OnlyField s t)) ∧
      (dtDiff s.field.now sentAt < (p.timeoutMs * 1000000 : Int) →
        Completes (.modbusTimeout poll) s (fun t => t = s))) ∧
    (s.field.sourceEntry source.val = some e → e.enable = 1 → e.modbus = 1 →
      (s.field.src source.val).connected = false →
      ((s.field.src source.val).retryAt = none ∨
        ∃ d, (s.field.src source.val).retryAt = some d ∧ dtReached s.field.now d = true) →
      Completes (.modbusReconnect source true) s (fun t => (t.field.src source.val).connected = true ∧
        (t.field.src source.val).retryAt = none ∧ OnlyField s t) ∧
      Completes (.modbusReconnect source false) s (fun t => (t.field.src source.val).connected = false ∧
        (t.field.src source.val).retryAt = some (s.field.now + 1000000000) ∧ OnlyField s t)) ∧
    ((s.field.src source.val).connected = true → Completes (.modbusConnectionFailure source) s (fun t =>
      (t.field.src source.val).connected = false ∧ (t.field.src source.val).outstanding = none ∧
      (t.field.src source.val).retryAt = some (s.field.now + 1000000000) ∧ OnlyField s t)) ∧
    ((s.field.src source.val).connected = false → Completes (.modbusConnectionFailure source) s (fun t => t = s))

/-- O45: A batch takes the points that are pending, and its records reach the host's replica and the symbol engine
(R177, R235, R236, 10_field_points_commands.md). What it says of the points that log entry 56 settles is the model's
own choice or reading. -/
def Obligations.BatchesCarryPendingPoints : Prop :=
  ∀ (s : State) (due : List (Nat × PointRec)) (p : Nat) (r : PointRec) (arrived : VT) (cells : List (List Byte))
    (rest : List (VT × List (List Byte))) (e : List Byte) (pc : PointsCfg),
    (s.fieldReady → due = s.field.work.recs.filter (fun x => x.2.pending &&
        decide (dtDiff x.2.pendAt (BitVec.ofNat 64 (s.field.now.toNat / 1000000 * 1000000)) < 0)) →
      (s.field.work.lastClose = s.field.now.toNat / 1000000 → Completes .batchClose s (fun t => t = s)) ∧
      (s.field.work.lastClose ≠ s.field.now.toNat / 1000000 →
        (due = [] ∨ s.field.xing.state < 2 → Completes .batchClose s (fun t => t.field.work.recs = s.field.work.recs ∧
          t.field.work.lastClose = s.field.now.toNat / 1000000 ∧ t.field.xing = s.field.xing ∧ OnlyField s t)) ∧
        (due ≠ [] → 2 ≤ s.field.xing.state →
          due.length ≤ 3 * (if s.field.fieldCfg.batchCells = 0 then 256 else s.field.fieldCfg.batchCells) →
          Completes .batchClose s (fun t => (∀ x ∈ due, (t.field.rec_ x.1).pending = false) ∧
            t.field.work.lastClose = s.field.now.toNat / 1000000 ∧ t.field.work.carry = s.field.work.carry % 2 ^ 32 ∧
            (due = [(p, r)] → s.field.work.outbox = [] → s.field.xing.canPush 9 = true →
              ∃ x, (t.field.xing.chan 9).flight = (s.field.xing.chan 9).flight ++ [x] ∧
                x.cell = patch (mkCell 3 7 ((s.field.now.toNat / 1000000 + 255) % 256) (batchEntry p r)) 1
                  (leBytes (s.field.xing.chan 9).cseq 1)) ∧ OnlyField s t)))) ∧
    (s.hostReady → s.host.xing.batches = (arrived, cells) :: rest →
      (s.host.cfg.points = none → Completes .pointBatchRx s (fun t => t.host.xing.batches = rest ∧
        t.host.mimic = s.host.mimic ∧ RegsKept [] s t ∧ MemKept s t ∧ OnlyHost s t)) ∧
      (s.host.cfg.points = some pc → Completes .pointBatchRx s (fun t => t.host.xing.batches = rest ∧
        t.host.mimic.queue = s.host.mimic.queue ++
          [⟨(batchEntries cells).map (fun e => bits (fieldAt e 0 4) 0 18), s.host.tb.raw.toNat⟩] ∧
        (batchEntries cells = [e] → e.length = 20 →
          s.host.store.anyPoison (s.host.replicaBase + 32 * bits (fieldAt e 0 4) 0 18) 32 = false →
          t.host.store.bytes (s.host.replicaBase + 32 * bits (fieldAt e 0 4) 0 18) 8 = slice e 4 8 ∧
          (∀ a, a < s.host.replicaBase + 32 * bits (fieldAt e 0 4) 0 18 ∨
              s.host.replicaBase + 32 * bits (fieldAt e 0 4) 0 18 + 32 ≤ a →
            t.host.store.byte a = s.host.store.byte a)) ∧ OnlyHost s t)))

/-- O46: A command request is refused at once or forwarded and awaited; its acknowledge or its limit answers the
console (R238, R246, R255, R261, R271, 10_field_points_commands.md). What it says of the points that log entries 66,
205 settle is the model's own choice or reading. -/
def Obligations.HostAnswersAndForwardsCommands : Prop :=
  ∀ (s : State) (c : List Byte) (rest : List (List Byte)) (req : BitVec 32) (a : Await) (left : List Await), s.hostReady →
    ((s.host.xing.chan 64).slots = c :: rest → cellType c = 1 → (s.host.xing.chan 64).acks = [] →
      (s.host.xing.chan 64).ackq.length < 16 →
      (∀ code, (s.host.authorised c = false ∧ code = 1) ∨
          (s.host.authorised c = true ∧ s.host.xing.state = 3 ∧ code = 2) ∨
          (s.host.authorised c = true ∧ s.host.xing.state < 2 ∧ code = 3) →
        Completes .cmdRequest s (fun t => (t.host.xing.chan 64).slots = rest ∧
          (t.host.xing.chan 64).ackq = (s.host.xing.chan 64).ackq ++ [⟨cellMsg c, code⟩] ∧
          t.host.uliska = s.host.uliska ∧ MemKept s t ∧ OnlyHost s t)) ∧
      (s.host.authorised c = true → s.host.xing.state = 2 → s.host.xing.canPush 0 = true →
        Completes .cmdRequest s (fun t => (t.host.xing.chan 64).slots = rest ∧
          (t.host.xing.chan 0).full = (s.host.xing.chan 0).full + 1 ∧
          t.host.uliska.await = s.host.uliska.await ++ [⟨fieldAt c 28 4, cellMsg c, t.host.xing.msg,
            dtAt c 12 + BitVec.ofNat 64 (fieldAt c 20 2 * 1000000 + 10000000)⟩] ∧ MemKept s t ∧ OnlyHost s t))) ∧
    (takeAwait req.toNat s.host.uliska.await = (some a, left) →
      (dtReached s.host.now a.deadline = true → (s.host.xing.chan 64).acks = [] →
        (s.host.xing.chan 64).ackq.length < 16 → Completes (.cmdNoAck req) s (fun t => t.host.uliska.await = left ∧
          (t.host.xing.chan 64).ackq = (s.host.xing.chan 64).ackq ++ [⟨a.msg, 4⟩] ∧ MemKept s t ∧ OnlyHost s t)) ∧
      (dtReached s.host.now a.deadline = false → Completes (.cmdNoAck req) s (fun t => t = s))) ∧
    ((s.host.xing.chan 8).slots = c :: rest → cellType c = 2 →
      (crcHolds c = false → Completes .cmdAckRx s (fun t => (t.host.xing.chan 8).slots = rest ∧
        t.host.uliska = s.host.uliska ∧ MemKept s t ∧ OnlyHost s t)) ∧
      (crcHolds c = true → takeAwait (fieldAt c 4 4) s.host.uliska.await = (some a, left) →
        (s.host.xing.chan 64).acks = [] → (s.host.xing.chan 64).ackq.length < 16 → Completes .cmdAckRx s (fun t =>
          (t.host.xing.chan 8).slots = rest ∧ t.host.uliska.await = left ∧
          (t.host.xing.chan 64).ackq = (s.host.xing.chan 64).ackq ++ [⟨a.msg, fieldAt c 8 1⟩] ∧ MemKept s t ∧
          OnlyHost s t)))

/-- O47: A command queues only when every check holds, launches only in its window with the gate open, and expires at
its deadline (R222, R223, R241, R242, R243, R244, R245, R246, R374, 10_field_points_commands.md). What it says of the
points that log entries 59, 207, 208, 251 settle is the model's own choice or reading. -/
def Obligations.FieldValidatesAndLaunchesCommands : Prop :=
  ∀ (s : State) (c : List Byte) (rest : List (List Byte)) (e : TargetEntry) (port : Fin 8) (q : Queued) (x y : FieldSent)
    (pe : PortEntry) (w r : Nat) (req : BitVec 32) (target : Fin 16384) (term : Fin 8) (g : GuardTerm), s.fieldReady →
    ((s.field.xing.chan 0).slots = c :: rest → cellType c = 1 →
      (s.field.xing.state = 3 → Completes .cmdReqRx s (fun t => (t.field.xing.chan 0).slots = rest ∧
        t.field.work = s.field.work ∧ OnlyField s t)) ∧
      (s.field.xing.state ≠ 3 →
        (crcHolds c = false → Completes .cmdReqRx s (fun t => (t.field.xing.chan 0).slots = rest ∧
          t.field.work.refused = (s.field.work.refused + 1) % 2 ^ 32 ∧ t.field.work.waiting = s.field.work.waiting ∧
          t.field.work.history = s.field.work.history ∧ OnlyField s t)) ∧
        (crcHolds c = true → s.field.il.gateOpen = false ∨ s.field.il.release ≠ none →
          Completes .cmdReqRx s (fun t => (t.field.xing.chan 0).slots = rest ∧
            t.field.work.refused = (s.field.work.refused + 1) % 2 ^ 32 ∧ t.field.work.waiting = s.field.work.waiting ∧
            ((∀ v ∈ s.field.work.history, v.1 ≠ fieldAt c 28 4) →
              (fieldAt c 28 4, some 7) ∈ t.field.work.history) ∧
            ((∃ v ∈ s.field.work.history, v.1 = fieldAt c 28 4) → t.field.work.history = s.field.work.history) ∧
            OnlyField s t)) ∧
        (crcHolds c = true → s.field.il.gateOpen = true → s.field.il.release = none → s.field.act.split = false →
          s.field.work.history.find? (fun x => x.1 == fieldAt c 28 4) = none →
          s.field.targetEntry (bits (fieldAt c 4 2) 0 14) = some e → e.enable ≠ 0 → fieldAt c 6 1 ≤ 15 →
          bit e.allowed (fieldAt c 6 1) = true → signed e.argMin 32 ≤ signed (fieldAt c 8 4) 32 →
          signed (fieldAt c 8 4) 32 ≤ signed e.argMax 32 → ∀ f, f = s.field.issueF (dtAt c 12) (fieldAt c 20 2) →
          dtDiff f s.field.now ≤ 1000000 → dtDiff s.field.now f < (fieldAt c 20 2 * 1000000 : Int) →
          s.field.guardFail e (fieldAt c 6 1) = none → s.field.rateFail e = none →
          Completes .cmdReqRx s (fun t => (t.field.xing.chan 0).slots = rest ∧
            t.field.work.refused = s.field.work.refused ∧
            (∃ x, t.field.work.waiting = s.field.work.waiting ++ [x] ∧ x.req = fieldAt c 28 4 ∧
              x.target = bits (fieldAt c 4 2) 0 14 ∧ x.action = fieldAt c 6 1 ∧ x.argument = fieldAt c 8 4 ∧
              x.launched = false ∧ x.deadline = f + BitVec.ofNat 64 (min (fieldAt c 20 2 * 1000000) e.launchMax)) ∧
            ⟨fieldAt c 28 4, false⟩ ∈ tget [] t.field.work.queues e.port ∧ OnlyField s t)))) ∧
    ((∀ v ∈ tget [] s.field.work.queues port.val, ∀ u ∈ s.field.work.waiting, u.req = v.req →
        0 ≤ dtDiff s.field.departure u.deadline) → Completes (.commandLaunch ⟨port, none⟩) s (fun t => t = s)) ∧
    (s.field.oldestQueued port.val = some q → s.field.portEntry port.val = some pe →
      s.field.targetEntry q.target = some e → x = s.field.commandFrame port.val e q s.field.departure →
      w = pe.takes x.vid x.rtag x.body →
      (0 ≤ dtDiff s.field.departure q.validated → s.field.mayBegin pe w = true →
        (s.field.il.gateOpen = true → Completes (.commandLaunch ⟨port, none⟩) s (fun t =>
          t.field.work.sent = x :: s.field.work.sent ∧
          t.field.work.launched =
            (if q.launched then s.field.work.launched else (s.field.work.launched + 1) % 2 ^ 32) ∧
          tget none t.field.work.busy port.val = some (s.field.departure + BitVec.ofNat 64 w) ∧
          (∀ x ∈ tget [] t.field.work.queues port.val, x.req ≠ q.req) ∧ OnlyField s t)) ∧
        (s.field.il.gateOpen = false → Completes (.commandLaunch ⟨port, none⟩) s (fun t =>
          t.field.work.sent = s.field.work.sent ∧ t.field.work.launched = s.field.work.launched ∧
          (∀ x ∈ tget [] t.field.work.queues port.val, x.req ≠ q.req) ∧ OnlyField s t))) ∧
      (dtDiff s.field.departure q.validated < 0 ∨ s.field.mayBegin pe w = false →
        Completes (.commandLaunch ⟨port, none⟩) s (fun t => t = s))) ∧
    (s.field.work.segments.find? (fun x => x.1 == req.toNat && x.2.port == port.val) = some (r, y) →
      s.field.portEntry port.val = some pe → w = pe.takes y.vid y.rtag y.body →
      (s.field.mayBegin pe w = true → s.field.il.gateOpen = true → Completes (.commandLaunch ⟨port, some req⟩) s (fun t =>
        t.field.work.sent = { y with at_ := s.field.departure } :: s.field.work.sent ∧
        t.field.work.launched = s.field.work.launched ∧ OnlyField s t)) ∧
      (s.field.mayBegin pe w = false ∨ s.field.il.gateOpen = false →
        Completes (.commandLaunch ⟨port, some req⟩) s (fun t => t = s))) ∧
    (s.field.work.waiting.find? (fun x => x.req == req.toNat) = some q →
      (0 ≤ dtDiff s.field.now q.deadline → q.launched = false →
        (∃ x ∈ tget [] s.field.work.queues port.val, x.req = req.toNat) → Completes (.commandDeadline port req) s
        (fun t => t.field.work.sent = s.field.work.sent ∧ (∀ x ∈ t.field.work.waiting, x.req ≠ req.toNat) ∧
          (∀ n, n < 8 → ∀ x ∈ tget [] t.field.work.queues n, x.req ≠ req.toNat) ∧ OnlyField s t)) ∧
      (0 ≤ dtDiff s.field.now q.deadline → q.launched = true →
        (∃ x ∈ tget [] s.field.work.queues port.val, x.req = req.toNat) → Completes (.commandDeadline port req) s
        (fun t => t.field.work.sent = s.field.work.sent ∧ t.field.work.launched = s.field.work.launched ∧
          (∀ x ∈ tget [] t.field.work.queues port.val, x.req ≠ req.toNat) ∧ OnlyField s t)) ∧
      (dtDiff s.field.now q.deadline < 0 ∨ (∀ x ∈ tget [] s.field.work.queues port.val, x.req ≠ req.toNat) →
        Completes (.commandDeadline port req) s (fun t => t = s))) ∧
    ((s.field.targetEntry target.val).bind (fun e => e.live.find? (fun x => x.2 == term.val)) = some (g, term.val) →
      ((msVt g.maxAgeMs : Int) ≤ vtDiff s.field.vt (s.field.rec_ g.point).vintage →
        Completes (.guardRunExpiry target term) s (fun t => t.field.run_ target.val term.val = none ∧
          (∀ n m, n * 8 + m ≠ target.val * 8 + term.val → t.field.run_ n m = s.field.run_ n m) ∧ OnlyField s t)) ∧
      (vtDiff s.field.vt (s.field.rec_ g.point).vintage < (msVt g.maxAgeMs : Int) →
        Completes (.guardRunExpiry target term) s (fun t => t = s)))

/-- O48: VERIFY ends in VERIFYING, ADMISSION or REFUSED; ARM, CANCEL and the override act before the commit point only
(R70, R71, R73, R78, R105, R106, 03_structure_image.md, 04_admission.md). What it says of the points that log entries
126, 150, 152, 154, 155, 203 settle is the model's own choice or reading. -/
def Obligations.StagingChecksArmsAndCancels : Prop :=
  ∀ (s : State) (who : Requester) (st : Staged) (n : Nat) (v : Word) (snd : Sending) (copy : List Byte) (e : DT),
    (s.reaches who → (n = s.host.get Reg.SIM_STATUS_STAGE) →
      (1 ≤ n → n ≤ 5 → Completes (.imageVerify who) s (fun t => t.host.get Reg.SIM_STATUS_CTRL_IGNORED = 1 ∧
        RegsKept [Reg.SIM_STATUS_CTRL_IGNORED] s t ∧ MemKept s t ∧ OnlyHost s t)) ∧
      (n = 0 ∨ 6 ≤ n →
        copy = s.host.copyOf (s.host.pair Reg.SIM_STAGE_ADDR_LO_ADDR Reg.SIM_STAGE_ADDR_HI_ADDR / 8 * 8)
          (s.host.get Reg.SIM_STAGE_LEN_LEN) →
        e = BitVec.ofNat 64 (s.host.pair Reg.SIM_EPOCH_LO_DT Reg.SIM_EPOCH_HI_DT) →
        Completes (.imageVerify who) s (fun t => t.host.get Reg.SIM_STATUS_OVERRIDE_ARMED = 0 ∧
          ((t.host.get Reg.SIM_STATUS_STAGE = 6 ∧ t.host.stage.staged = none) ∨
            ((t.host.get Reg.SIM_STATUS_STAGE = 1 ∨ t.host.get Reg.SIM_STATUS_STAGE = 2) ∧
              ∃ x, t.host.stage.staged = some x ∧ x.copy = copy ∧ x.epoch = e)) ∧
          (dtDiff e s.host.now ≤ 0 ∨ 3600000000000 < dtDiff e s.host.now →
            t.host.get Reg.SIM_STATUS_STAGE = 6 ∧ t.host.get Reg.SIM_REFUSAL_REASON = 0x11 ∧
            t.host.get Reg.SIM_REFUSAL_SECTION_NONE = 1) ∧ OnlyHost s t))) ∧
    (s.hostReady → s.host.stage.staged = some st → s.host.get Reg.SIM_STATUS_STAGE = 2 →
      (((s.host.askOf st).run).2 = none → Completes (.admissionComplete n) s (fun t =>
        t.host.get Reg.BCK_STATUS_RESULT = 2 ∧ t.host.get Reg.BCK_STATUS_RUN_TIME = min n 0xFFFF ∧
        t.host.get Reg.SIM_STATUS_STAGE = (if t.host.get Reg.TWN_RESYNC_STATE = 1 then 4 else 3) ∧
        t.host.stage.staged = some st ∧ t.host.stage.bounds = ((s.host.askOf st).run).1.bounds ∧ MemKept s t ∧
        OnlyHost s t)) ∧
      (∀ r, ((s.host.askOf st).run).2 = some r → Completes (.admissionComplete n) s (fun t =>
        t.host.get Reg.BCK_STATUS_RESULT = 3 ∧ t.host.get Reg.BCK_STATUS_CODE = r.code % 256 ∧
        t.host.get Reg.SIM_STATUS_STAGE = 6 ∧ t.host.get Reg.SIM_REFUSAL_REASON = 0x10 ∧
        t.host.stage.staged = none ∧ OnlyHost s t))) ∧
    (s.hostReady → s.host.stage.staged = some st → s.host.get Reg.SIM_STATUS_STAGE = 1 →
      s.host.xing.sending = some snd → snd.phase < 3 →
      (dtReached s.host.now snd.deadline = true → Completes .fieldConfigTimeout s (fun t =>
        t.host.get Reg.SIM_STATUS_STAGE = 6 ∧ t.host.get Reg.SIM_REFUSAL_REASON = 0x0F ∧ t.host.stage.staged = none ∧
        OnlyHost s t)) ∧
      (dtReached s.host.now snd.deadline = false → Completes .fieldConfigTimeout s (fun t => t = s))) ∧
    (s.reaches who → s.host.stage.staged = some st → n = s.host.get Reg.SIM_STATUS_STAGE →
      (n = 3 → dtReached s.host.now st.commitPoint = false → Completes (.imageArm who) s (fun t =>
        t.host.get Reg.SIM_STATUS_STAGE = 4 ∧ t.host.stage = s.host.stage ∧ RegsKept [Reg.SIM_STATUS_STAGE] s t ∧
        MemKept s t ∧ OnlyHost s t)) ∧
      (n ≠ 3 ∨ dtReached s.host.now st.commitPoint = true → Completes (.imageArm who) s (fun t =>
        t.host.get Reg.SIM_STATUS_CTRL_IGNORED = 1 ∧ t.host.stage = s.host.stage ∧
        RegsKept [Reg.SIM_STATUS_CTRL_IGNORED] s t ∧ MemKept s t ∧ OnlyHost s t)) ∧
      (1 ≤ n → n ≤ 4 → dtReached s.host.now st.commitPoint = false → Completes (.imageCancel who) s (fun t =>
        t.host.get Reg.SIM_STATUS_STAGE = 7 ∧ t.host.stage.staged = none ∧ t.host.cfg = s.host.cfg ∧ MemKept s t ∧
        OnlyHost s t)) ∧
      (n = 0 ∨ 5 ≤ n ∨ dtReached s.host.now st.commitPoint = true → Completes (.imageCancel who) s (fun t =>
        t.host.get Reg.SIM_STATUS_CTRL_IGNORED = 1 ∧ t.host.stage = s.host.stage ∧
        RegsKept [Reg.SIM_STATUS_CTRL_IGNORED] s t ∧ MemKept s t ∧ OnlyHost s t))) ∧
    (s.reaches who →
      (bits v.toNat 16 16 = 0x5EA1 → bit v.toNat 0 = true → s.host.get Reg.SIM_STATUS_STAGE = 0 →
        Completes (.overrideArm who v) s (fun t => t.host.get Reg.SIM_STATUS_OVERRIDE_ARMED = 1 ∧
          RegsKept [Reg.SIM_STATUS_OVERRIDE_ARMED] s t ∧ MemKept s t ∧ OnlyHost s t)) ∧
      (bits v.toNat 16 16 ≠ 0x5EA1 ∨ bit v.toNat 0 = false → Completes (.overrideArm who v) s (fun t =>
        RegsKept [] s t ∧ MemKept s t ∧ OnlyHost s t)) ∧
      Completes (.bckQuery who v) s (fun t => t.host.get Reg.BCK_QUERY_INDEX = v.toNat % 65536 ∧
        (∀ b, s.host.get Reg.BCK_STATUS_RESULT = 2 →
          s.host.stage.bounds.find? (fun b => b.1 == v.toNat % 65536) = some b →
          (b.2 < 2 ^ 31 → t.host.get Reg.BCK_QBOUND_BOUND = b.2) ∧ t.host.get Reg.BCK_QBOUND_VALID = 1) ∧
        (s.host.get Reg.BCK_STATUS_RESULT ≠ 2 → t.host.get Reg.BCK_QBOUND_BOUND = 0 ∧
          t.host.get Reg.BCK_QBOUND_VALID = 0) ∧
        RegsKept [Reg.BCK_QUERY_INDEX, Reg.BCK_QBOUND_BOUND, Reg.BCK_QBOUND_VALID] s t ∧ MemKept s t ∧ OnlyHost s t))

/-- O49: The commit point commits only an armed image that every member admits; E and the last switch instant complete
it (R73, R74, R203, R363, R382, 03_structure_image.md). What it says of the points that log entries 162, 172 settle is
the model's own choice or reading. -/
def Obligations.ImagesCommitAndActivate : Prop :=
  ∀ (s : State) (st : Staged) (n : Nat) (k : Fin 48) (id : BitVec 64) (e : DT) (admits : Bool) (m : Fin 8), s.hostReady →
    Completes (.peerImageMsg id e admits m) s (fun t =>
      t.host.stage.peers = ⟨m.val, admits, id.toNat, e⟩ :: s.host.stage.peers.filter (fun p => p.target != m.val) ∧
      (id ≠ 0 → s.host.stagedId = id.toNat → bit (t.host.get (if admits then Reg.SIM_PEER_ADMIT_ADMITTED
        else Reg.SIM_PEER_ADMIT_REFUSED)) m.val = true) ∧
      (s.host.get Reg.TWN_RESYNC_STATE ≠ 1 → MemKept s t) ∧
      (admits = false → m.val = twinOf s.host.ownTarget → s.host.get Reg.TWN_RESYNC_STATE = 1 →
        (∃ j, s.host.twin.joining = some j ∧ j.info = none) → t.host.get Reg.TWN_RESYNC_STATE = 3) ∧ OnlyHost s t) ∧
    (s.host.stage.staged = some st → n = s.host.get Reg.SIM_STATUS_STAGE →
      (dtReached s.host.now st.commitPoint = false → Completes .commitPoint s (fun t => t = s)) ∧
      (dtReached s.host.now st.commitPoint = true →
        (1 ≤ n → n ≤ 3 → Completes .commitPoint s (fun t => t.host.get Reg.SIM_STATUS_STAGE = 6 ∧
          t.host.get Reg.SIM_REFUSAL_REASON = 0x12 ∧ t.host.stage.staged = none ∧ t.host.cfg = s.host.cfg ∧
          OnlyHost s t)) ∧
        (n = 4 → (∀ r p, s.host.peersFail st = some (r, p) → Completes .commitPoint s (fun t =>
            t.host.get Reg.SIM_STATUS_STAGE = 6 ∧ t.host.get Reg.SIM_REFUSAL_REASON = r % 256 ∧
            t.host.get Reg.SIM_REFUSAL_PEER = p % 8 ∧ t.host.stage.staged = none ∧ t.host.cfg = s.host.cfg ∧
            OnlyHost s t)) ∧
          (s.host.peersFail st = none → Completes .commitPoint s (fun t =>
            t.host.get Reg.SIM_STATUS_STAGE = 5 ∧ t.host.stage.staged = some st ∧ t.host.stage.live = false ∧
            (s.host.get Reg.TWN_RESYNC_STATE ≠ 1 →
              ∀ x ∈ s.host.cfg.heads ++ st.cfg.heads, x.enable = 1 → x.head ∈ t.host.stage.switches) ∧
            t.host.cfg = s.host.cfg ∧ MemKept s t ∧ OnlyHost s t))))) ∧
    (s.host.stage.staged = some st → s.host.get Reg.SIM_STATUS_STAGE = 5 → s.host.get Reg.TWN_RESYNC_STATE ≠ 1 →
      (s.host.stage.live = false → dtReached s.host.now st.epoch = false →
        Completes .imageActivate s (fun t => t = s)) ∧
      (s.host.stage.live = false → dtReached s.host.now st.epoch = true →
        (s.host.stage.switches = [] → Completes .imageActivate s (fun t => t.host.get Reg.SIM_STATUS_STAGE = 0 ∧
          t.host.pair Reg.SIM_ACTIVE_ID_LO_ID Reg.SIM_ACTIVE_ID_HI_ID = st.imageId % 2 ^ 64 ∧
          t.host.pair Reg.SIM_ACTIVE_EPOCH_LO_DT Reg.SIM_ACTIVE_EPOCH_HI_DT = st.epoch.toNat ∧
          t.host.stage.staged = none ∧ t.host.cfg.streams = st.cfg.streams ∧ t.host.cfg.points = st.cfg.points ∧
          OnlyHost s t)) ∧
        (s.host.stage.switches ≠ [] → Completes .imageActivate s (fun t => t.host.get Reg.SIM_STATUS_STAGE = 5 ∧
          t.host.stage.live = true ∧ t.host.stage.switches = s.host.stage.switches ∧
          t.host.cfg.streams = st.cfg.streams ∧ t.host.cfg.points = st.cfg.points ∧ OnlyHost s t))) ∧
      (s.host.stage.live = true → k.val ∈ s.host.stage.switches →
        (dtReached s.host.now (s.host.switchAt k.val st.epoch) = false → Completes (.headSwitch k) s (fun t => t = s)) ∧
        (dtReached s.host.now (s.host.switchAt k.val st.epoch) = true → Completes (.headSwitch k) s (fun t =>
          (t.host.head k.val).time = s.host.newTiming k.val (s.host.switchAt k.val st.epoch) ∧
          t.host.get (Reg.HDS_STATUS_ENABLED k.val) =
            b2n (s.host.newTiming k.val (s.host.switchAt k.val st.epoch)).isSome ∧
          ((∃ j ∈ s.host.stage.switches, j ≠ k.val) →
            t.host.stage.switches = s.host.stage.switches.filter (· != k.val) ∧ t.host.stage.staged = some st) ∧
          ((∀ j ∈ s.host.stage.switches, j = k.val) → t.host.get Reg.SIM_STATUS_STAGE = 0 ∧
            t.host.pair Reg.SIM_ACTIVE_ID_LO_ID Reg.SIM_ACTIVE_ID_HI_ID = st.imageId % 2 ^ 64 ∧
            t.host.stage.staged = none) ∧ OnlyHost s t))))

/-- O50: FIELD_CONFIG and FW_STAGE content is taken in order, checked whole and answered message by message (R267,
R268, R256, R71, 11_crossing.md). What it says of the points that log entries 28, 29 settle is the model's own choice
or reading. -/
def Obligations.ContentTravelsInPieces : Prop :=
  ∀ (s : State) (c : List Byte) (rest : List (List Byte)) (r : Receiving) (verifies : Bool) (build : BitVec 32),
    (s.fieldReady → (s.field.xing.chan 2).slots = c :: rest → cellType c = 7 →
      (cellOp c = 1 → Completes .fieldConfigBegin s (fun t =>
        t.field.xing.cfgRx = some ⟨fieldAt c 8 8, fieldAt c 16 4, fieldAt c 20 4, []⟩ ∧ Answered c rest 0 s t ∧
        t.field.act = s.field.act ∧ OnlyField s t)) ∧
      (cellOp c = 2 → s.field.xing.cfgRx = some r →
        (fieldAt c 8 4 = r.content.length → r.content.length < r.total → Completes .fieldConfigData s (fun t =>
          t.field.xing.cfgRx =
            some { r with content := r.content ++ slice c 12 (min 52 (r.total - r.content.length)) } ∧
          Answered c rest 0 s t ∧ t.field.act = s.field.act ∧ OnlyField s t)) ∧
        (fieldAt c 8 4 ≠ r.content.length ∨ r.total ≤ r.content.length → Completes .fieldConfigData s (fun t =>
          t.field.xing.cfgRx = some r ∧ Answered c rest 1 s t ∧ t.field.act = s.field.act ∧ OnlyField s t))) ∧
      (cellOp c = 3 → s.field.xing.cfgRx = some r →
        (r.content.length < r.total ∨ fieldAt c 8 8 ≠ r.imageId → Completes .fieldConfigEnd s (fun t =>
          t.field.xing.cfgRx = none ∧ Answered c rest 1 s t ∧ t.field.act = s.field.act ∧ OnlyField s t)) ∧
        (r.total ≤ r.content.length → fieldAt c 8 8 = r.imageId →
          ((crc32 r.content).toNat ≠ r.crc → Completes .fieldConfigEnd s (fun t =>
            t.field.xing.cfgRx = none ∧ Answered c rest 2 s t ∧ t.field.act = s.field.act ∧ OnlyField s t)) ∧
          ((crc32 r.content).toNat = r.crc → contentOf r.content = none → Completes .fieldConfigEnd s (fun t =>
            t.field.xing.cfgRx = none ∧ Answered c rest 3 s t ∧ t.field.act = s.field.act ∧ OnlyField s t)) ∧
          (∀ x, (crc32 r.content).toNat = r.crc → contentOf r.content = some x → Completes .fieldConfigEnd s (fun t =>
            t.field.xing.cfgRx = none ∧ Answered c rest 0 s t ∧
            t.field.act = { s.field.act with held := some (r.imageId, r.content) } ∧ OnlyField s t)))) ∧
      (cellOp c = 4 → Completes .fieldConfigArm s (fun t => Answered c rest 0 s t ∧
        t.field.act = { s.field.act with armed := some (fieldAt c 8 8, dtAt c 24) } ∧ OnlyField s t)) ∧
      (cellOp c = 5 → Completes .fieldConfigCancel s (fun t => Answered c rest 0 s t ∧
        t.field.act = { s.field.act with held := none } ∧ OnlyField s t))) ∧
    (s.fieldReady → (s.field.xing.chan 2).slots = c :: rest → cellType c = 8 →
      (cellOp c = 1 → fieldAt c 16 4 ≤ 24 * 1048576 → Completes .fwStageBegin s (fun t =>
        t.field.xing.fwRx = some ⟨fieldAt c 8 8, fieldAt c 16 4, fieldAt c 20 4, []⟩ ∧ Answered c rest 0 s t ∧
        (t.phys.fieldPhys.bank (1 - s.field.bank)).verifies = false ∧
        (t.phys.fieldPhys.bank (1 - s.field.bank)).image = none ∧ t.field.act = s.field.act ∧ t.host = s.host)) ∧
      (cellOp c = 1 → 24 * 1048576 < fieldAt c 16 4 → Completes .fwStageBegin s (fun t =>
        t.field.xing.fwRx = s.field.xing.fwRx ∧ Answered c rest 4 s t ∧ t.field.act = s.field.act ∧ OnlyField s t)) ∧
      (cellOp c = 2 → s.field.xing.fwRx = some r →
        (fieldAt c 8 4 = r.content.length → r.content.length < r.total → Completes .fwStageData s (fun t =>
          t.field.xing.fwRx =
            some { r with content := r.content ++ slice c 12 (min 52 (r.total - r.content.length)) } ∧
          (t.phys.fieldPhys.bank (1 - s.field.bank)).image =
            some (r.content ++ slice c 12 (min 52 (r.total - r.content.length))) ∧
          Answered c rest 0 s t ∧ t.field.act = s.field.act ∧ t.host = s.host)) ∧
        (fieldAt c 8 4 ≠ r.content.length ∨ r.total ≤ r.content.length → Completes .fwStageData s (fun t =>
          t.field.xing.fwRx = some r ∧ (t.phys.fieldPhys.bank (1 - s.field.bank)).image = some r.content ∧
          Answered c rest 1 s t ∧ t.field.act = s.field.act ∧ t.host = s.host))) ∧
      (cellOp c = 3 → s.field.xing.fwRx = some r →
        (r.content.length < r.total → Completes (.fwStageEnd verifies build) s (fun t =>
          t.field.xing.fwRx = none ∧ Answered c rest 1 s t ∧ OnlyField s t)) ∧
        (r.total ≤ r.content.length → (crc32 r.content).toNat ≠ r.crc → Completes (.fwStageEnd verifies build) s (fun t =>
          t.field.xing.fwRx = none ∧ Answered c rest 2 s t ∧ OnlyField s t)) ∧
        (r.total ≤ r.content.length → (crc32 r.content).toNat = r.crc → Completes (.fwStageEnd verifies build) s (fun t =>
          t.field.xing.fwRx = none ∧ Answered c rest (if verifies then 0 else 3) s t ∧
          (t.phys.fieldPhys.bank (1 - s.field.bank)).verifies = verifies ∧
          (t.phys.fieldPhys.bank (1 - s.field.bank)).build = build.toNat ∧
          (t.phys.fieldPhys.bank (1 - s.field.bank)).image = some r.content ∧ t.field.act = s.field.act ∧
          t.host = s.host)))) ∧
    (∀ a as v st, s.hostReady → (s.host.xing.chan 2).ackq = a :: as → s.host.xing.sending = some v → v.phase < 3 →
      v.msg = a.msg → s.host.get Reg.SIM_STATUS_STAGE = 1 → s.host.stage.staged = some st →
      (a.code ≠ 0 → Completes .fieldConfigAck s (fun t => (t.host.xing.chan 2).ackq = as ∧
        t.host.get Reg.SIM_STATUS_STAGE = 6 ∧ t.host.get Reg.SIM_REFUSAL_REASON = 0x0F ∧ t.host.stage.staged = none ∧
        t.host.cfg = s.host.cfg ∧ OnlyHost s t)) ∧
      (a.code = 0 → v.phase = 2 → Completes .fieldConfigAck s (fun t => (t.host.xing.chan 2).ackq = as ∧
        t.host.get Reg.SIM_STATUS_STAGE = 2 ∧ t.host.get Reg.BCK_STATUS_RESULT = 1 ∧
        t.host.stage.staged = some { st with held := true } ∧ t.host.cfg = s.host.cfg ∧ MemKept s t ∧ OnlyHost s t)) ∧
      (a.code = 0 → v.phase < 2 → v.sent < v.content.length → Completes .fieldConfigAck s (fun t =>
        (t.host.xing.chan 2).ackq = as ∧ t.host.stage = s.host.stage ∧
        (∃ w, t.host.xing.sending = some w ∧ w.phase = 1 ∧ w.sent = min (v.sent + 52) v.content.length) ∧
        MemKept s t ∧ OnlyHost s t)))

/-- O51: At E the field side's active ID changes, and held content of that image takes effect; peeks and log records
are answered (R267, R76, R269, R82, 11_crossing.md). What it says of the points that log entries 64, 168, 169 settle
is the model's own choice or reading. -/
def Obligations.FieldContentTakesEffectAtE : Prop :=
  ∀ (s : State) (c : List Byte) (rest : List (List Byte)) (id : Nat) (e : DT), s.fieldReady →
    (s.field.act.armed = some (id, e) →
      (dtReached s.field.now e = false → Completes .fieldActivate s (fun t => t = s)) ∧
      (dtReached s.field.now e = true →
        (∀ bs x, s.field.act.held = some (id, bs) → contentOf bs = some x → Completes .fieldActivate s (fun t =>
          t.field.act.activeId = id ∧ t.field.act.contentId = id ∧ t.field.act.armed = none ∧ t.field.act.held = none ∧
          t.field.act.field = x.field ∧ t.field.act.points = x.points ∧ t.field.act.targets = x.targets ∧
          OnlyField s t)) ∧
        ((∀ bs, s.field.act.held ≠ some (id, bs)) → Completes .fieldActivate s (fun t =>
          t.field.act = { s.field.act with activeId := id, armed := none } ∧ t.field.work = s.field.work ∧
          OnlyField s t)))) ∧
    ((s.field.xing.chan 16).slots = c :: rest → s.field.work.exportBox = [] → s.field.xing.canPush 24 = true →
      (cellType c = 9 → Completes .fieldPeek s (fun t => (t.field.xing.chan 16).slots = rest ∧
        (∃ x, (t.field.xing.chan 24).flight = (s.field.xing.chan 24).flight ++ [x] ∧ cellType x.cell = 9 ∧
          cellMsg x.cell = cellMsg c ∧ fieldAt x.cell 4 4 = fieldAt c 4 4 ∧
          fieldAt x.cell 9 1 = peekCode (fieldAt c 4 4) (min 48 (fieldAt c 8 1))) ∧ t.field.work.exportBox = [] ∧
        t.field.act = s.field.act ∧ OnlyField s t)) ∧
      (∀ n ev, cellType c = 10 → n = fieldAt c 4 4 → fieldAt c 8 2 = 1 → s.field.work.log.reverse[n]? = some ev →
        Completes .logExport s (fun t => (t.field.xing.chan 16).slots = rest ∧
          (∃ x, (t.field.xing.chan 24).flight = (s.field.xing.chan 24).flight ++ [x] ∧ cellType x.cell = 10 ∧
            cellMsg x.cell = cellMsg c ∧ fieldAt x.cell 4 4 = n ∧ fieldAt x.cell 16 8 = ev.dt.toNat) ∧
          t.field.work.log = s.field.work.log ∧ t.field.act = s.field.act ∧ OnlyField s t)) ∧
      (cellType c = 10 → s.field.work.log.length ≤ fieldAt c 4 4 → Completes .logExport s (fun t =>
        (t.field.xing.chan 16).slots = rest ∧ (t.field.xing.chan 24).flight = (s.field.xing.chan 24).flight ∧
        OnlyField s t)))

/-- O52: INTLK_OUT rises only for an eligible standby with INTLK_IN low, and falls on withdrawal, lost eligibility and
release (R369, R370, R371, R372, R374, R391, R393, 16_twin_repair.md). What it says of the points that log entries
181, 182, 183, 184 settle is the model's own choice or reading. -/
def Obligations.TheInterlockHoldsAuthority : Prop :=
  ∀ s : State,
    (s.field.il.in_ = true → Completes .intlkInRise s (fun t => t = s)) ∧
    (s.field.il.in_ = false → s.field.run = true → s.field.il.out = true → s.field.role = true →
      Completes .intlkInRise s (fun t => t.field.il.in_ = true ∧ t.field.il.out = false ∧
        t.field.il.contention = none ∧ t.field.il.standbyAt = s.field.now ∧ t.field.act = s.field.act ∧
        t.field.work = s.field.work ∧ OnlyField s t)) ∧
    (s.field.il.in_ = false → s.field.run = false ∨ s.field.il.out = false ∨ s.field.role = false →
      Completes .intlkInRise s (fun t => t = { s with field := { s.field with il := { s.field.il with in_ := true } } })) ∧
    (s.field.il.in_ = false → Completes .intlkInFall s (fun t => t = s)) ∧
    (s.field.il.in_ = true → Completes .intlkInFall s (fun t => t.field.il.in_ = false ∧ t.field.il.fell = true ∧
      t.field.il.inLowAt = s.field.now ∧ t.field.il.out = s.field.il.out ∧ OnlyField s t)) ∧
    (s.fieldReady →
      (s.field.il.out = false → s.field.il.in_ = false → s.field.eligible = true →
        ((s.field.il.fell = true ∧ 10000 ≤ dtDiff s.field.now s.field.il.inLowAt) ∨ s.field.partnerSilent = true ∨
          (250000 ≤ dtDiff s.field.now s.field.il.inLowAt ∧ 250000 ≤ dtDiff s.field.now s.field.il.standbyAt)) →
        Completes .takeoverAssert s (fun t => t.field.il.out = true ∧ t.field.il.contention = some s.field.now ∧
          t.field.il.gateOpen = false ∧ t.field.work = s.field.work ∧ OnlyField s t)) ∧
      (s.field.il.out = true ∨ s.field.il.in_ = true ∨ s.field.eligible = false → Completes .takeoverAssert s (fun t =>
        t.field.il.out = s.field.il.out ∧ t.field.il.in_ = s.field.il.in_ ∧
        t.field.il.contention = s.field.il.contention ∧ OnlyField s t)) ∧
      (∀ x, s.field.il.contention = some x → dtDiff s.field.now x < 2000 →
        Completes .contentionEnd s (fun t => t = s)) ∧
      (∀ x, s.field.il.contention = some x → 2000 ≤ dtDiff s.field.now x → Completes .contentionEnd s (fun t =>
        t.field.il.contention = none ∧ t.field.il.gateOpen = (s.field.il.out && !s.field.il.in_) ∧
        t.field.work = s.field.work ∧ OnlyField s t)) ∧
      (s.field.il.out = true → s.field.eligible = false → Completes .eligibilityLoss s (fun t =>
        t.field.il.out = false ∧ t.field.il.contention = none ∧ t.field.work = s.field.work ∧ OnlyField s t)) ∧
      (s.field.il.out = false ∨ s.field.eligible = true → Completes .eligibilityLoss s (fun t => t = s)) ∧
      Completes .intlkWatchdogWrite s (fun t =>
        t = { s with field := { s.field with il := { s.field.il with watchdog := some s.field.now } } }) ∧
      (∀ x, s.field.il.out = true → s.field.il.release = some x →
        ((∀ p, p < 8 → tget [] s.field.work.queues p = []) ∨ 5000000 ≤ dtDiff s.field.now x →
          Completes .releaseDeassert s (fun t => t.field.il.out = false ∧ t.field.il.release = none ∧
            t.field.work = s.field.work ∧ t.field.xing.notes =
              (if s.field.xing.state = 0 then s.field.xing.notes else s.field.xing.notes ++ [.released]) ∧
            OnlyField s t)) ∧
        ((∃ p, p < 8 ∧ tget [] s.field.work.queues p ≠ []) → dtDiff s.field.now x < 5000000 →
          Completes .releaseDeassert s (fun t => t = s)))) ∧
    (s.host.run = true → s.host.get Reg.TWN_STATUS_HB_OK = 1 →
      (∀ x, s.host.twin.heard = some x → 250000 ≤ dtDiff s.host.now x → Completes .heartbeatTimeout s (fun t =>
        t.host.get Reg.TWN_STATUS_HB_OK = 0 ∧
        t.host.get Reg.TWN_COUNTS_HB_LOSSES = satAdd (s.host.get Reg.TWN_COUNTS_HB_LOSSES) 1 8 ∧
        RegsKept [Reg.TWN_STATUS_HB_OK, Reg.TWN_COUNTS_HB_LOSSES] s t ∧ MemKept s t ∧ t.phys = s.phys)) ∧
      (∀ x, s.host.twin.heard = some x → dtDiff s.host.now x < 250000 → Completes .heartbeatTimeout s (fun t =>
        t.host = s.host ∧ t.phys = s.phys))) ∧
    (s.field.run = true → s.field.xing.state ≠ 0 → s.field.il.out = false → s.field.il.in_ = true →
      s.field.partnerSilent = true → s.field.il.blocked = false → Completes .heartbeatTimeout s (fun t =>
        t.field.il = { s.field.il with blocked := true } ∧ t.field.xing.notes = s.field.xing.notes ++ [.blocked] ∧
        t.field.work.log = ⟨s.field.now, 3, 0, 0⟩ :: s.field.work.log ∧ t.phys = s.phys))

/-- O53: Kicks, heartbeats and HEALTH tell the partner; a release begins; a joining module asks for the retained set
(R370, R376, R377, R379, R380, R381, R382, R383, R391, R393, 16_twin_repair.md). What it says of the points that log
entries 166, 171, 172, 178, 179, 180, 184, 186, 208, 218 settle is the model's own choice or reading. -/
def Obligations.TwinMessagesTellAndAsk : Prop :=
  ∀ (s : State) (who : Requester) (link : Fin 2) (flags : BitVec 8) (m : TwinHealth) (info : ResyncInfo)
    (v : ImageData) (j : Joining) (ok : Bool),
    (s.reaches who →
      (who.isSecure = true → Completes (.twinKick who) s (fun t => bit (t.host.get Reg.MBX_DB_RING_LO_BITS) 0 = true ∧
        (s.host.linkUp 4 = true → s.host.get (Reg.STC_CREDITS_TX_CREDITS 4) ≠ 0 → s.host.linkUp 5 = false →
          ∃ c, t.host.sent = .cell 4 c :: s.host.sent ∧ fieldAt c 0 1 = 5 ∧ fieldAt c 40 1 = 1 ∧
            fieldAt c 48 8 = s.host.now.toNat) ∧
        (s.host.linkUp 4 = false → s.host.linkUp 5 = false → RegsKept [Reg.MBX_DB_RING_LO_BITS] s t) ∧ MemKept s t ∧
        OnlyHost s t)) ∧
      (who.isSecure = false → Completes (.twinKick who) s (fun t =>
        t.host.get Reg.TWN_COUNTS_SEC_VIOL = satAdd (s.host.get Reg.TWN_COUNTS_SEC_VIOL) 1 8 ∧
        RegsKept [Reg.TWN_COUNTS_SEC_VIOL] s t ∧ MemKept s t ∧ OnlyHost s t)) ∧
      (s.host.get Reg.TWN_STATUS_AUTHORITY = 1 → Completes (.twinRelease who) s (fun t => t.host.twin.releasing = true ∧
        bit (t.host.get Reg.MBX_DB_RING_LO_BITS) 1 = true ∧ RegsKept [Reg.MBX_DB_RING_LO_BITS] s t ∧ MemKept s t ∧
        OnlyHost s t)) ∧
      (s.host.get Reg.TWN_STATUS_AUTHORITY ≠ 1 → Completes (.twinRelease who) s (fun t =>
        t.host.get Reg.TWN_STATUS_RELEASE_IGNORED = 1 ∧ t.host.twin = s.host.twin ∧
        RegsKept [Reg.TWN_STATUS_RELEASE_IGNORED] s t ∧ MemKept s t ∧ OnlyHost s t))) ∧
    (s.hostReady →
      (s.host.get Reg.TWN_CTRL_ELIGIBLE = 1 → s.host.get Reg.TWN_STATUS_ROLE_CONFLICT = 0 →
        s.host.get Reg.TWN_RESYNC_STATE ≠ 1 → s.host.due s.host.twin.bell4At 2000000 = true →
        Completes .eligibleRing s (fun t => bit (t.host.get Reg.MBX_DB_RING_LO_BITS) 4 = true ∧
          t.host.twin.bell4At = s.host.tb.raw.toNat + 1 ∧ RegsKept [Reg.MBX_DB_RING_LO_BITS] s t ∧ MemKept s t ∧
          OnlyHost s t)) ∧
      (s.host.get Reg.TWN_STATUS_ROLE_CONFLICT = 1 → Completes .eligibleRing s (fun t => t = s)) ∧
      (s.host.linkUp (4 + link.val) = true → Completes (.heartbeatRx link flags) s (fun t =>
        t.host.get Reg.TWN_STATUS_HB_OK = 1 ∧ t.host.get Reg.TWN_HB_AGE_US = 0 ∧
        t.host.get Reg.TWN_STATUS_PARTNER_RELEASE = b2n (bit flags.toNat 0) ∧ t.host.twin.heard = some s.host.now ∧
        bit (t.host.get Reg.MBX_DB_RING_LO_BITS) 2 = true ∧
        (b2n (bit flags.toNat 1) = s.host.get Reg.TWN_STATUS_ROLE → t.host.get Reg.TWN_STATUS_ROLE_CONFLICT = 1) ∧
        (b2n (bit flags.toNat 1) ≠ s.host.get Reg.TWN_STATUS_ROLE →
          RegsKept [Reg.TWN_STATUS_HB_OK, Reg.TWN_HB_AGE_US, Reg.TWN_STATUS_PARTNER_RELEASE,
            Reg.MBX_DB_RING_LO_BITS] s t ∧ MemKept s t) ∧ OnlyHost s t)) ∧
      (s.host.due s.host.twin.healthAt 4000000 = true → s.host.linkUp 4 = true ∨ s.host.linkUp 5 = true →
        Completes .twinHealthSend s (fun t => t.host.twin.healthSeq = (s.host.twin.healthSeq + 1) % 2 ^ 32 ∧
          t.host.twin.healthAt = s.host.tb.raw.toNat + 1 ∧
          (s.host.ownVerdicts = [] → s.host.get (Reg.STC_CREDITS_TX_CREDITS s.host.twinLink) ≠ 0 →
            ∃ c, t.host.sent = .cell s.host.twinLink c :: s.host.sent ∧ fieldAt c 40 1 = 2 ∧
              fieldAt c 56 8 = s.host.activeId % 2 ^ 64 ∧ fieldAt c 72 4 = t.host.twin.healthSeq) ∧ MemKept s t ∧
          OnlyHost s t)) ∧
      (s.host.due s.host.twin.healthAt 4000000 = false → Completes .twinHealthSend s (fun t => t = s)) ∧
      (s.host.linkUp 4 = true ∨ s.host.linkUp 5 = true → Completes (.twinHealthRx m) s (fun t =>
        t.host.pair Reg.TWN_PARTNER_ID_LO_ID Reg.TWN_PARTNER_ID_HI_ID = m.activeId.toNat ∧
        t.host.get Reg.TWN_STATUS_ID_MATCH = b2n (m.activeId.toNat == s.host.activeId) ∧
        t.host.get Reg.TWN_STATUS_PARTNER_QUALIFIED = b2n (!bit m.flags.toNat 1) ∧
        (bit m.flags.toNat 1 = false → bit (t.host.get Reg.MBX_DB_RING_LO_BITS) 3 = true) ∧
        (b2n (bit m.flags.toNat 0) = s.host.get Reg.TWN_STATUS_ROLE → t.host.get Reg.TWN_STATUS_ROLE_CONFLICT = 1) ∧
        OnlyHost s t)) ∧
      (s.host.activeId = 0 → s.host.tb.syncOk = true → s.host.twin.heard.isSome = true →
        s.host.get Reg.TWN_RESYNC_STATE = 0 → 9 ≤ s.host.get Reg.SYS_BOOT_STATUS_STEP →
        s.host.linkUp 4 = true ∨ s.host.linkUp 5 = true → Completes .resyncStart s (fun t =>
          t.host.twin.joining = some ⟨none, 0, [], []⟩ ∧ t.host.get Reg.TWN_RESYNC_STATE = 1 ∧
          t.host.get Reg.TWN_RESYNC_DONE = 0 ∧ t.host.get Reg.TWN_RESYNC_TOTAL = 0 ∧ MemKept s t ∧ OnlyHost s t)) ∧
      (s.host.activeId ≠ 0 → Completes .resyncStart s (fun t => t = s)) ∧
      (s.host.linkUp 4 = true ∨ s.host.linkUp 5 = true →
        (s.host.twin.overflow = true → Completes .resyncReqRx s (fun t =>
          t.host.get Reg.TWN_STATUS_SET_OVERFLOW = 1 ∧ MemKept s t ∧ OnlyHost s t)) ∧
        (s.host.twin.overflow = false → s.host.twin.retained = [] → Completes .resyncReqRx s (fun t => t = s)) ∧
        (s.host.twin.overflow = false → s.host.twin.retained ≠ [] → s.host.twin.outbox = [] →
          s.host.get (Reg.STC_CREDITS_TX_CREDITS s.host.twinLink) ≠ 0 → Completes .resyncReqRx s (fun t =>
            (∃ later c, t.host.sent = later ++ .cell s.host.twinLink c :: s.host.sent ∧ fieldAt c 40 1 = 5 ∧
              fieldAt c 41 1 = s.host.twin.retained.length % 256) ∧ MemKept s t ∧ OnlyHost s t))) ∧
      (s.host.twin.joining = some j → s.host.get Reg.TWN_RESYNC_STATE = 1 →
        (j.info = none → Completes (.resyncInfoRx info) s (fun t =>
          t.host.twin.joining = some { j with info := some info.heads } ∧
          t.host.get Reg.TWN_RESYNC_TOTAL = info.images % 32 ∧ RegsKept [Reg.TWN_RESYNC_TOTAL] s t ∧ MemKept s t ∧
          OnlyHost s t)) ∧
        (j.info.isSome = true → v.index = j.index → v.offset = j.bytes.length →
          s.host.get Reg.TWN_RESYNC_DONE < s.host.get Reg.TWN_RESYNC_TOTAL →
          (j.bytes.length + v.data.length < v.total → j.waiting = [] → Completes (.imageDataRx v) s (fun t =>
            t.host.twin.joining = some { j with bytes := j.bytes ++ v.data } ∧ RegsKept [] s t ∧ MemKept s t ∧
            OnlyHost s t)) ∧
          (v.total ≤ j.bytes.length + v.data.length → 1 ≤ s.host.get Reg.SIM_STATUS_STAGE →
            s.host.get Reg.SIM_STATUS_STAGE ≤ 5 → Completes (.imageDataRx v) s (fun t =>
              t.host.twin.joining = some { j with
                index := j.index + 1, bytes := [], waiting := j.waiting ++ [(j.bytes ++ v.data).take v.total] } ∧
              RegsKept [] s t ∧ MemKept s t ∧ OnlyHost s t)) ∧
          (v.total ≤ j.bytes.length + v.data.length → j.waiting = [] → s.host.get Reg.SIM_STATUS_STAGE = 0 →
            Completes (.imageDataRx v) s (fun t =>
              t.host.pair Reg.SIM_EPOCH_LO_DT Reg.SIM_EPOCH_HI_DT = (s.host.now + 100000000).toNat ∧
              (t.host.get Reg.SIM_STATUS_STAGE = 6 ∨ t.host.get Reg.SIM_STATUS_STAGE = 1 ∨
                t.host.get Reg.SIM_STATUS_STAGE = 2) ∧ OnlyHost s t)))) ∧
      (s.host.twin.joining = none → Completes (.resyncInfoRx info) s (fun t => t = s) ∧
        Completes (.imageDataRx v) s (fun t => t = s))) ∧
    (s.fieldReady →
      (s.field.il.gateOpen = true ∨ s.field.tb.due s.field.work.dryAt 4000000 = false →
        Completes (.dryLaunch ok) s (fun t => t = s)) ∧
      (∀ e, s.field.il.gateOpen = false → s.field.tb.due s.field.work.dryAt 4000000 = true →
        s.field.nextDry = some e → Completes (.dryLaunch ok) s (fun t =>
        t.field.work.dryNext = e.target + 1 ∧ t.field.work.dryAt = s.field.tb.raw.toNat + 1 ∧
        t.field.xing.notes = (if s.field.xing.state = 0 then s.field.xing.notes
          else s.field.xing.notes ++ [.dryLaunch (ok && s.field.dryFits e)]) ∧
        t.field.work.log = (if ok && s.field.dryFits e then s.field.work.log
          else ⟨s.field.now, 2, e.target, 0⟩ :: s.field.work.log) ∧
        t.field.work.sent = s.field.work.sent ∧ t.field.work.queues = s.field.work.queues ∧ OnlyField s t)))

/-- O54: CE8 and DC8 sample in turn with comparison holds; equal hashes pass, mismatches count, a second one or a
fault marks (R384, R385, R386, R387, R389, R149, R153, R393, 16_twin_repair.md). What it says of the points that log
entries 84, 187, 188, 189, 212 settle is the model's own choice or reading. -/
def Obligations.SparesCheckAndReplace : Prop :=
  ∀ (s : State) (x : Sample) (f : CompareFacts) (e : Fin 9) (array row : Nat),
    (s.hostReady →
      (s.host.display.ce8For = none → s.host.get (Reg.CMP_ENGINE_STATUS_FAULTED 8) = 0 → s.host.twin.ce.sample = none →
        s.host.due s.host.twin.ce.at_ 2000000 = true →
        (s.host.nextSample = some x → Completes .ceSample s (fun t => t.host.twin.ce.sample = some x ∧
          t.host.twin.ce.at_ = s.host.tb.raw.toNat + 1 ∧
          t.host.display.compares = s.host.display.compares ++ x.bufs ∧ LeaseRegsOnly s t ∧ MemKept s t ∧ OnlyHost s t)) ∧
        (s.host.nextSample = none → Completes .ceSample s (fun t => t = s))) ∧
      (s.host.display.ce8For.isSome = true ∨ s.host.get (Reg.CMP_ENGINE_STATUS_FAULTED 8) = 1 ∨
        s.host.twin.ce.sample.isSome = true ∨ s.host.due s.host.twin.ce.at_ 2000000 = false →
        Completes .ceSample s (fun t => t = s)) ∧
      (s.host.twin.ce.sample = none → Completes (.ceCompare f) s (fun t => t = s)) ∧
      (s.host.twin.ce.sample = some x →
        Completes (.ceCompare f) s (fun t => t.host.twin.ce.sample = none ∧ t.host.twin.cePassed = f.same ∧
          t.host.get Reg.RPR_CE_COUNTS_SAMPLES = (s.host.get Reg.RPR_CE_COUNTS_SAMPLES + 1) % 2 ^ 24 ∧
          t.host.display.compares = x.bufs.foldl (fun l b => l.erase b) s.host.display.compares ∧
          (f.same = true → t.host.get Reg.RPR_CE_COUNTS_MISMATCHES = s.host.get Reg.RPR_CE_COUNTS_MISMATCHES ∧
            ∀ g, t.host.get (Reg.CMP_ENGINE_STATUS_FAULTED g) = s.host.get (Reg.CMP_ENGINE_STATUS_FAULTED g)) ∧
          (f.same = false → f.stable = false → t.host.get (Reg.CMP_ENGINE_STATUS_FAULTED 8) = 1) ∧
          (f.same = false → f.stable = true →
            t.host.get Reg.RPR_CE_COUNTS_MISMATCHES = satAdd (s.host.get Reg.RPR_CE_COUNTS_MISMATCHES) 1 8 ∧
            t.host.get Reg.RPR_LAST_MISMATCH_UNIT = x.unit % 16 ∧ t.host.get Reg.RPR_LAST_MISMATCH_DECODER = 0 ∧
            t.host.get Reg.RPR_LAST_MISMATCH_INDEX = x.index % 128 ∧
            t.host.get Reg.RPR_LAST_MISMATCH_SLICE = x.slice % 256 ∧ t.host.twin.ce.again = some (x.unit, 10) ∧
            (∀ d, tget none s.host.twin.ce.misses x.unit = some d → dtDiff s.host.now d < 1000000000 →
              t.host.get (Reg.CMP_ENGINE_STATUS_FAULTED x.unit) = 1) ∧
            (∀ d, tget none s.host.twin.ce.misses x.unit = some d → 1000000000 ≤ dtDiff s.host.now d →
              t.host.get (Reg.CMP_ENGINE_STATUS_FAULTED x.unit) =
                s.host.get (Reg.CMP_ENGINE_STATUS_FAULTED x.unit)) ∧
            (tget none s.host.twin.ce.misses x.unit = none → t.host.get (Reg.CMP_ENGINE_STATUS_FAULTED x.unit) =
              s.host.get (Reg.CMP_ENGINE_STATUS_FAULTED x.unit))) ∧ MemKept s t ∧ OnlyHost s t)) ∧
      (s.host.video.dc8For = none → s.host.get (Reg.DEC_CORE_STATUS_FAULTED 8) = 0 → s.host.twin.dc.sample = none →
        s.host.due s.host.twin.dc.at_ 40000000 = true →
        (s.host.sampleStreams ≠ [] → Completes .dcSample s (fun t => (∃ y, t.host.twin.dc.sample = some y ∧
          y.index ∈ s.host.sampleStreams ∧ s.host.coreOf y.index = some y.unit ∧
          t.host.display.compares = s.host.display.compares ++ y.bufs ∧ y.bufs ≠ []) ∧
          t.host.twin.dc.at_ = s.host.tb.raw.toNat + 1 ∧ LeaseRegsOnly s t ∧ MemKept s t ∧ OnlyHost s t)) ∧
        (s.host.sampleStreams = [] → Completes .dcSample s (fun t => t = s))) ∧
      (s.host.twin.dc.sample = none → Completes (.dcCompare f) s (fun t => t = s)) ∧
      (s.host.twin.dc.sample = some x →
        Completes (.dcCompare f) s (fun t => t.host.twin.dc.sample = none ∧ t.host.twin.dcPassed = f.same ∧
          t.host.get Reg.RPR_DC_COUNTS_SAMPLES = (s.host.get Reg.RPR_DC_COUNTS_SAMPLES + 1) % 2 ^ 24 ∧
          (f.same = true → t.host.get Reg.RPR_DC_COUNTS_MISMATCHES = s.host.get Reg.RPR_DC_COUNTS_MISMATCHES ∧
            t.host.video = s.host.video ∧ MemKept s t) ∧
          (f.same = false → f.stable = false → t.host.get (Reg.DEC_CORE_STATUS_FAULTED 8) = 1) ∧
          (f.same = false → f.stable = true →
            t.host.get Reg.RPR_DC_COUNTS_MISMATCHES = satAdd (s.host.get Reg.RPR_DC_COUNTS_MISMATCHES) 1 8 ∧
            t.host.get Reg.RPR_LAST_MISMATCH_UNIT = x.unit % 16 ∧ t.host.get Reg.RPR_LAST_MISMATCH_DECODER = 1 ∧
            t.host.get Reg.RPR_LAST_MISMATCH_INDEX = x.index % 128 ∧
            (∀ d, tget none s.host.twin.dc.misses x.unit = some d → dtDiff s.host.now d < 1000000000 →
              t.host.get (Reg.DEC_CORE_STATUS_FAULTED x.unit) = 1)) ∧ OnlyHost s t)) ∧
      (s.host.get (Reg.CMP_ENGINE_STATUS_FAULTED e.val) = 1 → Completes (.engineSelfCheckFault e) s (fun t => t = s)) ∧
      (s.host.get (Reg.CMP_ENGINE_STATUS_FAULTED e.val) = 0 → Completes (.engineSelfCheckFault e) s (fun t =>
        t.host.get (Reg.CMP_ENGINE_STATUS_FAULTED e.val) = 1 ∧
        (e.val ≠ 8 → s.host.twinBody.autoEngine = 1 → s.host.get (Reg.CMP_ENGINE_STATUS_FAULTED 8) = 0 →
          s.host.display.ce8For = none →
          t.host.display.ce8For = some e.val ∧ t.host.get Reg.RPR_STATUS_CE_REPLACES = e.val) ∧
        (e.val = 8 ∨ s.host.twinBody.autoEngine ≠ 1 → t.host.display.ce8For = s.host.display.ce8For) ∧
        (e.val = 8 → t.host.get Reg.RPR_STATUS_CE_SPARE_OK = 0) ∧
        RegsKept [Reg.CMP_ENGINE_STATUS_FAULTED e.val, Reg.RPR_STATUS_CE_SPARE_OK, Reg.RPR_STATUS_CE_REPLACES,
          Reg.CMP_ENGINE_STATUS_SPARE 8] s t ∧ MemKept s t ∧ OnlyHost s t)) ∧
      (s.host.repaired.contains (array, row) = true ∨ 8 ≤ rowsUsed s.host.repaired array →
        Completes (.sramRowRepair .host array row) s (fun t => t = s)) ∧
      (s.host.repaired.contains (array, row) = false → rowsUsed s.host.repaired array < 8 →
        Completes (.sramRowRepair .host array row) s (fun t => t.host.repaired = (array, row) :: s.host.repaired ∧
          t.host.get Reg.RPR_SRAM_REPAIRS = (s.host.get Reg.RPR_SRAM_REPAIRS + 1) % 2 ^ 16 ∧
          t.host.get Reg.RPR_SRAM_MIN_SPARES = minSpares t.host.repaired ∧
          RegsKept [Reg.RPR_SRAM_REPAIRS, Reg.RPR_SRAM_MIN_SPARES] s t ∧ MemKept s t ∧ OnlyHost s t))) ∧
    (s.fieldReady → s.field.repaired.contains (array, row) = false → rowsUsed s.field.repaired array < 8 →
      Completes (.sramRowRepair .field array row) s (fun t =>
        t = { s with field := { s.field with repaired := (array, row) :: s.field.repaired } }))

/-- O55: A Calico engine starts, continues, aborts and stops its jobs; engine 1 takes secure writes only; PACE is
covered (R394, R396, R397, R402, R403, 17_data_engines.md). What it says of the points that log entries 65, 108, 110,
111, 113 settle is the model's own choice or reading. -/
def Obligations.EnginesRunTheirJobs : Prop :=
  ∀ (s : State) (who : Requester) (e : Fin 2) (fin : Fin 4) (u : Fin 3) (v : Word) (facts : JobFacts),
    (s.reaches who → (e.val = 0 ∨ who.isSecure = true) →
      (s.host.get (Reg.DFL_STATUS_BUSY e.val) = 0 →
        Completes (.dflStart who e fin) s (fun t => t.host.get (Reg.DFL_STATUS_BUSY e.val) = 1 ∧
          t.host.get (Reg.DFL_STATUS_STREAM e.val) = 1 ∧ (t.host.engine e.val).fin = fin.val ∧
          (t.host.engine e.val).op = s.host.get (Reg.DFL_MODE_OP e.val) ∧
          (t.host.engine e.val).framing = s.host.get (Reg.DFL_MODE_FRAMING e.val) ∧ (t.host.engine e.val).fed = [] ∧
          RegsKept [Reg.DFL_STATUS_BUSY e.val, Reg.DFL_STATUS_STREAM e.val] s t ∧ MemKept s t ∧ OnlyHost s t) ∧
        (s.host.get (Reg.DFL_STATUS_STREAM e.val) = 1 → Completes (.dflContinue who e fin) s (fun t =>
          t.host.get (Reg.DFL_STATUS_BUSY e.val) = 1 ∧ t.host.engine e.val = { s.host.engine e.val with fin := fin.val } ∧
          RegsKept [Reg.DFL_STATUS_BUSY e.val] s t ∧ MemKept s t ∧ OnlyHost s t)) ∧
        Completes (.dflAbort who e) s (fun t => t.host.get (Reg.DFL_STATUS_STREAM e.val) = 0 ∧
          t.host.engine e.val = DflEngine.idle ∧ RegsKept [Reg.DFL_STATUS_STREAM e.val] s t ∧ MemKept s t ∧
          OnlyHost s t)) ∧
      (s.host.get (Reg.DFL_STATUS_BUSY e.val) = 0 → s.host.get (Reg.DFL_STATUS_STREAM e.val) = 0 →
        Completes (.dflContinue who e fin) s (fun t => t.host.get (Reg.DFL_STATUS_IGNORED e.val) = 1 ∧
          RegsKept [Reg.DFL_STATUS_IGNORED e.val] s t ∧ MemKept s t ∧ OnlyHost s t)) ∧
      (s.host.get (Reg.DFL_STATUS_BUSY e.val) = 1 →
        (∀ c, (c = .dflStart who e fin ∨ c = .dflContinue who e fin) → Completes c s (fun t =>
          t.host.get (Reg.DFL_STATUS_IGNORED e.val) = 1 ∧ t.host.engine e.val = s.host.engine e.val ∧
          RegsKept [Reg.DFL_STATUS_IGNORED e.val] s t ∧ MemKept s t ∧ OnlyHost s t)) ∧
        Completes (.dflAbort who e) s (fun t => t.host.get (Reg.DFL_STATUS_BUSY e.val) = 0 ∧
          t.host.get (Reg.DFL_STATUS_STREAM e.val) = 0 ∧ t.host.get (Reg.DFL_STATUS_RESULT e.val) = 8 ∧
          t.host.engine e.val = DflEngine.idle ∧ bit (t.host.get Reg.DFL_DONE_ENGINE) e.val = true ∧ OnlyHost s t))) ∧
    (s.reaches who → who.isSecure = false →
      ∀ c, (c = .dflStart who 1 fin ∨ c = .dflContinue who 1 fin ∨ c = .dflAbort who 1 ∨ c = .paceWrite who 1 v) →
        Completes c s (fun t =>
          t.host.get Reg.DFL_SEC_VIOL_COUNT = satAdd (s.host.get Reg.DFL_SEC_VIOL_COUNT) 1 16 ∧ t.host.dfl = s.host.dfl ∧
          RegsKept [Reg.DFL_SEC_VIOL_COUNT] s t ∧ MemKept s t ∧ OnlyHost s t)) ∧
    (s.hostReady → (s.host.get (Reg.DFL_STATUS_BUSY e.val) = 0 ∨ s.host.get (Reg.DFL_PACE_MBPS e.val) = 0) →
      Completes (.dflJobStop e facts) s (fun t => t = s)) ∧
    (∀ g src dst slen dlen bytes, s.hostReady → s.host.get (Reg.DFL_STATUS_BUSY e.val) = 1 →
      s.host.get (Reg.DFL_PACE_MBPS e.val) ≠ 0 → facts.memError = false → g = s.host.engine e.val →
      src = s.host.pair (Reg.DFL_SRC_LO_ADDR e.val) (Reg.DFL_SRC_HI_ADDR e.val) →
      dst = s.host.pair (Reg.DFL_DST_LO_ADDR e.val) (Reg.DFL_DST_HI_ADDR e.val) →
      slen = s.host.get (Reg.DFL_SRC_LEN_BYTES e.val) → dlen = s.host.get (Reg.DFL_DST_LEN_BYTES e.val) →
      bytes = s.host.store.bytes src slen →
      (∀ j, g.op = 0 → g.compressStop bytes slen dlen facts = some j →
        s.host.unitReads (43 + e.val) src j.taken = true → s.host.unitWrites (43 + e.val) dst j.wrote = true →
        Completes (.dflJobStop e facts) s (fun t => t.host.get (Reg.DFL_STATUS_BUSY e.val) = 0 ∧
          t.host.get (Reg.DFL_STATUS_RESULT e.val) = j.result % 16 ∧
          t.host.get (Reg.DFL_IN_DONE_BYTES e.val) = j.taken % 2 ^ 32 ∧
          t.host.get (Reg.DFL_OUT_DONE_BYTES e.val) = j.wrote.length % 2 ^ 32 ∧
          bit (t.host.get Reg.DFL_DONE_ENGINE) e.val = true ∧
          (∀ i, (h : i < j.wrote.length) → t.host.store.byte (dst + i) = j.wrote[i]) ∧
          (∀ a, a < dst ∨ dst + j.wrote.length ≤ a → t.host.store.byte a = s.host.store.byte a) ∧ OnlyHost s t)) ∧
      (∀ used plain, g.op = 1 → g.fed = [] → g.given = 0 → inflateStream g.framing bytes = (.ended used, plain) →
        plain.length ≤ dlen → s.host.unitReads (43 + e.val) src used = true →
        s.host.unitWrites (43 + e.val) dst plain = true →
        Completes (.dflJobStop e facts) s (fun t => t.host.get (Reg.DFL_STATUS_BUSY e.val) = 0 ∧
          t.host.get (Reg.DFL_STATUS_STREAM e.val) = 0 ∧ t.host.get (Reg.DFL_STATUS_RESULT e.val) = 2 ∧
          t.host.get (Reg.DFL_IN_DONE_BYTES e.val) = used % 2 ^ 32 ∧
          t.host.get (Reg.DFL_OUT_DONE_BYTES e.val) = plain.length % 2 ^ 32 ∧
          bit (t.host.get Reg.DFL_DONE_ENGINE) e.val = true ∧
          (∀ i, (h : i < plain.length) → t.host.store.byte (dst + i) = plain[i]) ∧
          (∀ a, a < dst ∨ dst + plain.length ≤ a → t.host.store.byte a = s.host.store.byte a) ∧
          RegsKept [Reg.DFL_SRC_LO_ADDR e.val, Reg.DFL_SRC_HI_ADDR e.val, Reg.DFL_SRC_LEN_BYTES e.val,
            Reg.DFL_DST_LO_ADDR e.val, Reg.DFL_DST_HI_ADDR e.val, Reg.DFL_DST_LEN_BYTES e.val,
            Reg.DFL_IN_DONE_BYTES e.val, Reg.DFL_OUT_DONE_BYTES e.val, Reg.DFL_CHECK_VALUE e.val,
            Reg.DFL_STATUS_RESULT e.val, Reg.DFL_STATUS_BUSY e.val, Reg.DFL_STATUS_STREAM e.val,
            Reg.DFL_DONE_ENGINE] s t ∧ OnlyHost s t))) ∧
    (∀ n, s.reaches who → (u.val ≠ 1 ∨ who.isSecure = true) → n = bits v.toNat 0 (if u.val = 2 then 14 else 13) →
      (n ≤ (if u.val = 2 then 8000 else 4000) → s.host.cfg.imageId = 0 ∨ s.host.paceSum u.val n ≤ s.host.cfg.paceLimit →
        Completes (.paceWrite who u v) s (fun t => t.host.get (paceReg u.val) = n ∧
          RegsKept [paceReg u.val, Reg.CRC_PACE_PACE_REFUSED] s t ∧ MemKept s t ∧ OnlyHost s t)) ∧
      ((if u.val = 2 then 8000 else 4000) < n ∨
          (s.host.cfg.imageId ≠ 0 ∧ s.host.cfg.paceLimit < s.host.paceSum u.val n) →
        Completes (.paceWrite who u v) s (fun t => t.host.get (paceRefusedReg u.val) = 1 ∧
          RegsKept [paceRefusedReg u.val] s t ∧ MemKept s t ∧ OnlyHost s t)))

/-- O56: A CRC unit starts with sound parameters only and delivers the parameterised CRC of the bytes it read (R394,
R396, R403, R404, R405, 17_data_engines.md). What it says of the points that log entry 110 settles is the model's own
choice or reading. -/
def Obligations.CrcUnitsComputeTheModel : Prop :=
  ∀ (s : State) (who : Requester) (u : Fin 8) (v : Word) (w : Nat),
    (s.reaches who → w = bits v.toNat 0 7 →
      (s.host.get (Reg.CRC_STATUS_BUSY u.val) = 0 →
        (bit v.toNat 30 = false → 8 ≤ w → w ≤ 64 →
          s.host.pair (Reg.CRC_POLY_LO_VALUE u.val) (Reg.CRC_POLY_HI_VALUE u.val) < 2 ^ w →
          s.host.pair (Reg.CRC_INIT_LO_VALUE u.val) (Reg.CRC_INIT_HI_VALUE u.val) < 2 ^ w →
          s.host.pair (Reg.CRC_XOROUT_LO_VALUE u.val) (Reg.CRC_XOROUT_HI_VALUE u.val) < 2 ^ w →
          Completes (.crcStart who u v) s (fun t => t.host.get (Reg.CRC_STATUS_BUSY u.val) = 1 ∧
            t.host.get (Reg.CRC_CTRL_WIDTH u.val) = w ∧
            t.host.get (Reg.CRC_CTRL_REFIN u.val) = b2n (bit v.toNat 7) ∧
            t.host.get (Reg.CRC_CTRL_REFOUT u.val) = b2n (bit v.toNat 8) ∧
            RegsKept [Reg.CRC_STATUS_BUSY u.val, Reg.CRC_CTRL_WIDTH u.val, Reg.CRC_CTRL_REFIN u.val,
              Reg.CRC_CTRL_REFOUT u.val] s t ∧ MemKept s t ∧ OnlyHost s t)) ∧
        (bit v.toNat 30 = true ∨ w < 8 ∨ 64 < w ∨
          2 ^ w ≤ s.host.pair (Reg.CRC_POLY_LO_VALUE u.val) (Reg.CRC_POLY_HI_VALUE u.val) ∨
          2 ^ w ≤ s.host.pair (Reg.CRC_INIT_LO_VALUE u.val) (Reg.CRC_INIT_HI_VALUE u.val) ∨
          2 ^ w ≤ s.host.pair (Reg.CRC_XOROUT_LO_VALUE u.val) (Reg.CRC_XOROUT_HI_VALUE u.val) →
          Completes (.crcStart who u v) s (fun t => t.host.get (Reg.CRC_STATUS_IGNORED u.val) = 1 ∧
            t.host.get (Reg.CRC_STATUS_BUSY u.val) = 0 ∧ t.host.get (Reg.CRC_CTRL_WIDTH u.val) = w ∧ MemKept s t ∧
            OnlyHost s t)) ∧
        Completes (.crcAbort who u) s (fun t => RegsKept [] s t ∧ MemKept s t ∧ OnlyHost s t)) ∧
      (s.host.get (Reg.CRC_STATUS_BUSY u.val) = 1 →
        (bit v.toNat 30 = false → Completes (.crcStart who u v) s (fun t =>
          t.host.get (Reg.CRC_STATUS_IGNORED u.val) = 1 ∧ RegsKept [Reg.CRC_STATUS_IGNORED u.val] s t ∧ MemKept s t ∧
          OnlyHost s t)) ∧
        Completes (.crcAbort who u) s (fun t => t.host.get (Reg.CRC_STATUS_BUSY u.val) = 0 ∧
          t.host.get (Reg.CRC_STATUS_RESULT u.val) = 3 ∧ bit (t.host.get Reg.CRC_DONE_UNIT) u.val = true ∧
          MemKept s t ∧ OnlyHost s t))) ∧
    (∀ ca n, s.hostReady → s.host.get (Reg.CRC_STATUS_BUSY u.val) = 1 → s.host.get Reg.CRC_PACE_MBPS ≠ 0 →
      ca = s.host.pair (Reg.CRC_ADDR_LO_VALUE u.val) (Reg.CRC_ADDR_HI_VALUE u.val) →
      n = s.host.get (Reg.CRC_LEN_BYTES u.val) →
      (s.host.unitReads 45 ca n = true → Completes (.crcJobDone u false) s (fun t =>
        t.host.get (Reg.CRC_STATUS_BUSY u.val) = 0 ∧ t.host.get (Reg.CRC_STATUS_RESULT u.val) = 1 ∧
        t.host.pair (Reg.CRC_RESULT_LO_VALUE u.val) (Reg.CRC_RESULT_HI_VALUE u.val) =
          crcModel (s.host.get (Reg.CRC_CTRL_WIDTH u.val))
            (s.host.pair (Reg.CRC_POLY_LO_VALUE u.val) (Reg.CRC_POLY_HI_VALUE u.val))
            (s.host.pair (Reg.CRC_INIT_LO_VALUE u.val) (Reg.CRC_INIT_HI_VALUE u.val))
            (s.host.pair (Reg.CRC_XOROUT_LO_VALUE u.val) (Reg.CRC_XOROUT_HI_VALUE u.val))
            (s.host.flag (Reg.CRC_CTRL_REFIN u.val)) (s.host.flag (Reg.CRC_CTRL_REFOUT u.val))
            (s.host.store.bytes ca n) % 2 ^ 64 ∧
        bit (t.host.get Reg.CRC_DONE_UNIT) u.val = true ∧
        RegsKept [Reg.CRC_STATUS_BUSY u.val, Reg.CRC_STATUS_RESULT u.val, Reg.CRC_RESULT_LO_VALUE u.val,
          Reg.CRC_RESULT_HI_VALUE u.val, Reg.CRC_DONE_UNIT] s t ∧ MemKept s t ∧ OnlyHost s t)) ∧
      Completes (.crcJobDone u true) s (fun t => t.host.get (Reg.CRC_STATUS_BUSY u.val) = 0 ∧
        t.host.get (Reg.CRC_STATUS_RESULT u.val) = 2 ∧
        t.host.pair (Reg.CRC_RESULT_LO_VALUE u.val) (Reg.CRC_RESULT_HI_VALUE u.val) = 0 ∧
        bit (t.host.get Reg.CRC_DONE_UNIT) u.val = true ∧ OnlyHost s t)) ∧
    (s.hostReady → s.host.get (Reg.CRC_STATUS_BUSY u.val) = 0 ∨ s.host.get Reg.CRC_PACE_MBPS = 0 →
      Completes (.crcJobDone u false) s (fun t => t = s) ∧ Completes (.crcJobDone u true) s (fun t => t = s))

/-- O57: A step runs the command at the front of the queue; on an empty queue the clocks tick (R272, 12_time.md). -/
def Obligations.StepRunsTheFrontCommand : Prop :=
  (∀ (s : State) (c : Instr) (rest : List Instr), s.pending = c :: rest → step s = exec c { s with pending := rest }) ∧
  (∀ s : State, s.pending = [] → ∃ t, step s = .next t ∧ t.pending = [] ∧ t.phys = s.phys ∧
    (s.host.run = true → t.host.tb.raw = s.host.tb.raw + 1 ∧
      t.host.tb.offset = s.host.tb.next.getD s.host.tb.offset ∧ t.host.tb.next = none ∧ t.host.corrOld = [] ∧
      (s.host.tb.next = none → RegsKept [Reg.TWN_HB_AGE_US] s t)) ∧
    (s.host.run = false → t.host = s.host) ∧
    (s.field.run = true → t.field = { s.field with tb := { s.field.tb with
      raw := s.field.tb.raw + 1, offset := s.field.tb.next.getD s.field.tb.offset, next := none } }) ∧
    (s.field.run = false → t.field = s.field) ∧ MemKept s t)

/-- O58: State.reset holds the reset values of the register tables, an empty queue and the invariant (R272, R274,
R260, R289, R393, R405, R417, R422, 18_module_electrical.md, 12_time.md). -/
def Obligations.ResetHoldsItsValuesAndTheInvariant : Prop :=
  State.reset.Inv ∧ State.reset.pending = [] ∧ State.reset.hostReady ∧ State.reset.fieldReady ∧
  State.reset.host.tb.raw = 0 ∧ State.reset.host.tb.incr = 0x28000000 ∧ State.reset.host.tb.offset = 0 ∧
  State.reset.field.tb.raw = 0 ∧ State.reset.field.tb.incr = 0x28000000 ∧ State.reset.field.boot.step = 1 ∧
  State.reset.host.xing.state = 0 ∧ State.reset.field.xing.state = 0 ∧ State.reset.field.il.out = false ∧
  State.reset.host.store.mem = [] ∧ State.reset.host.tartan.sram = [] ∧
  State.reset.host.get Reg.SYS_BOOT_STATUS_STEP = 1 ∧ State.reset.host.get Reg.SYS_RESET_CAUSE_POWER = 1 ∧
  State.reset.host.get Reg.SYS_RESET_CAUSE_PIN = 1 ∧ State.reset.host.get Reg.TWN_HB_AGE_US = 0xFFFFFF ∧
  State.reset.host.get Reg.CST_STATUS_SPARE_VALID = 1 ∧ State.reset.host.get (Reg.CST_CH_STATUS_ROLE 11) = 1 ∧
  State.reset.host.get (Reg.CRC_CTRL_WIDTH 3) = 32 ∧ State.reset.host.get Reg.RPR_SRAM_MIN_SPARES = 8 ∧
  ∀ f : Fld, f.key ≠ Reg.SYS_RESET_CAUSE_POWER.key → f.key ≠ Reg.SYS_RESET_CAUSE_PIN.key → State.reset.host.get f = f.rst

/-- O59: Every step keeps the invariant of power, reset, lock and endpoint, from every state that has it (R4, R14,
R260, R262, R413, R417, R418, R419, R424, 18_module_electrical.md, 11_crossing.md). -/
def Obligations.TheInvariantIsKeptByEveryStep : Prop :=
  ∀ s t : State, s.Inv → step s = .next t → t.Inv

/-- O60: Every command completes from every state; only what crosses the barrier changes both sides, every other
leaves one as it was (R12, R248, R258, 01_architecture.md, 11_crossing.md). -/
def Obligations.ACommandActsOnOneSideOfTheBarrier : Prop :=
  ∀ (c : Instr) (s : State), Completes c s (fun t => Crosses c = false → t.host = s.host ∨ t.field = s.field)
end

