-- ==== Sys2Proof/Laws/State.lean ====
section
/-! SUPPORT. One lemma per field and update of the state, each true by unfolding the update: later proofs never unfold one. -/

namespace Sys2Proof.Machine

/-! ## `HostSide.put` -/

@[simp] theorem HostSide.put_run (h : HostSide) (f : Fld) (v : Nat) : (h.put f v).run = h.run := rfl
@[simp] theorem HostSide.put_freeN (h : HostSide) (f : Fld) (v : Nat) : (h.put f v).freeN = h.freeN := rfl
@[simp] theorem HostSide.put_latch (h : HostSide) (f : Fld) (v : Nat) : (h.put f v).latch = h.latch := rfl
@[simp] theorem HostSide.put_resp (h : HostSide) (f : Fld) (v : Nat) : (h.put f v).resp = h.resp := rfl
@[simp] theorem HostSide.put_tb (h : HostSide) (f : Fld) (v : Nat) : (h.put f v).tb = h.tb := rfl
@[simp] theorem HostSide.put_heldLo (h : HostSide) (f : Fld) (v : Nat) : (h.put f v).heldLo = h.heldLo := rfl
@[simp] theorem HostSide.put_corrOld (h : HostSide) (f : Fld) (v : Nat) : (h.put f v).corrOld = h.corrOld := rfl
@[simp] theorem HostSide.put_shiftNew (h : HostSide) (f : Fld) (v : Nat) : (h.put f v).shiftNew = h.shiftNew := rfl
@[simp] theorem HostSide.put_shift (h : HostSide) (f : Fld) (v : Nat) : (h.put f v).shift = h.shift := rfl
@[simp] theorem HostSide.put_boot (h : HostSide) (f : Fld) (v : Nat) : (h.put f v).boot = h.boot := rfl
@[simp] theorem HostSide.put_fwOp (h : HostSide) (f : Fld) (v : Nat) : (h.put f v).fwOp = h.fwOp := rfl
@[simp] theorem HostSide.put_fresh (h : HostSide) (f : Fld) (v : Nat) : (h.put f v).fresh = h.fresh := rfl
@[simp] theorem HostSide.put_store (h : HostSide) (f : Fld) (v : Nat) : (h.put f v).store = h.store := rfl
@[simp] theorem HostSide.put_tartan (h : HostSide) (f : Fld) (v : Nat) : (h.put f v).tartan = h.tartan := rfl
@[simp] theorem HostSide.put_cfg (h : HostSide) (f : Fld) (v : Nat) : (h.put f v).cfg = h.cfg := rfl
@[simp] theorem HostSide.put_msix (h : HostSide) (f : Fld) (v : Nat) : (h.put f v).msix = h.msix := rfl
@[simp] theorem HostSide.put_msixPend (h : HostSide) (f : Fld) (v : Nat) : (h.put f v).msixPend = h.msixPend := rfl
@[simp] theorem HostSide.put_sent (h : HostSide) (f : Fld) (v : Nat) : (h.put f v).sent = h.sent := rfl
@[simp] theorem HostSide.put_pcieUp (h : HostSide) (f : Fld) (v : Nat) : (h.put f v).pcieUp = h.pcieUp := rfl
@[simp] theorem HostSide.put_xing (h : HostSide) (f : Fld) (v : Nat) : (h.put f v).xing = h.xing := rfl
@[simp] theorem HostSide.put_lanes (h : HostSide) (f : Fld) (v : Nat) : (h.put f v).lanes = h.lanes := rfl
@[simp] theorem HostSide.put_stage (h : HostSide) (f : Fld) (v : Nat) : (h.put f v).stage = h.stage := rfl
@[simp] theorem HostSide.put_twin (h : HostSide) (f : Fld) (v : Nat) : (h.put f v).twin = h.twin := rfl
@[simp] theorem HostSide.put_uliska (h : HostSide) (f : Fld) (v : Nat) : (h.put f v).uliska = h.uliska := rfl
@[simp] theorem HostSide.put_display (h : HostSide) (f : Fld) (v : Nat) : (h.put f v).display = h.display := rfl
@[simp] theorem HostSide.put_video (h : HostSide) (f : Fld) (v : Nat) : (h.put f v).video = h.video := rfl
@[simp] theorem HostSide.put_mimic (h : HostSide) (f : Fld) (v : Nat) : (h.put f v).mimic = h.mimic := rfl
@[simp] theorem HostSide.put_encode (h : HostSide) (f : Fld) (v : Nat) : (h.put f v).encode = h.encode := rfl
@[simp] theorem HostSide.put_dfl (h : HostSide) (f : Fld) (v : Nat) : (h.put f v).dfl = h.dfl := rfl
@[simp] theorem HostSide.put_repaired (h : HostSide) (f : Fld) (v : Nat) : (h.put f v).repaired = h.repaired := rfl
@[simp] theorem HostSide.put_conserve (h : HostSide) (f : Fld) (v : Nat) : (h.put f v).conserve = h.conserve := rfl

/-! ## `HostSide.putB` -/

@[simp] theorem HostSide.putB_run (h : HostSide) (f : Fld) (b : Bool) : (h.putB f b).run = h.run := rfl
@[simp] theorem HostSide.putB_freeN (h : HostSide) (f : Fld) (b : Bool) : (h.putB f b).freeN = h.freeN := rfl
@[simp] theorem HostSide.putB_latch (h : HostSide) (f : Fld) (b : Bool) : (h.putB f b).latch = h.latch := rfl
@[simp] theorem HostSide.putB_resp (h : HostSide) (f : Fld) (b : Bool) : (h.putB f b).resp = h.resp := rfl
@[simp] theorem HostSide.putB_tb (h : HostSide) (f : Fld) (b : Bool) : (h.putB f b).tb = h.tb := rfl
@[simp] theorem HostSide.putB_heldLo (h : HostSide) (f : Fld) (b : Bool) : (h.putB f b).heldLo = h.heldLo := rfl
@[simp] theorem HostSide.putB_corrOld (h : HostSide) (f : Fld) (b : Bool) : (h.putB f b).corrOld = h.corrOld := rfl
@[simp] theorem HostSide.putB_shiftNew (h : HostSide) (f : Fld) (b : Bool) : (h.putB f b).shiftNew = h.shiftNew := rfl
@[simp] theorem HostSide.putB_shift (h : HostSide) (f : Fld) (b : Bool) : (h.putB f b).shift = h.shift := rfl
@[simp] theorem HostSide.putB_boot (h : HostSide) (f : Fld) (b : Bool) : (h.putB f b).boot = h.boot := rfl
@[simp] theorem HostSide.putB_fwOp (h : HostSide) (f : Fld) (b : Bool) : (h.putB f b).fwOp = h.fwOp := rfl
@[simp] theorem HostSide.putB_fresh (h : HostSide) (f : Fld) (b : Bool) : (h.putB f b).fresh = h.fresh := rfl
@[simp] theorem HostSide.putB_store (h : HostSide) (f : Fld) (b : Bool) : (h.putB f b).store = h.store := rfl
@[simp] theorem HostSide.putB_tartan (h : HostSide) (f : Fld) (b : Bool) : (h.putB f b).tartan = h.tartan := rfl
@[simp] theorem HostSide.putB_cfg (h : HostSide) (f : Fld) (b : Bool) : (h.putB f b).cfg = h.cfg := rfl
@[simp] theorem HostSide.putB_msix (h : HostSide) (f : Fld) (b : Bool) : (h.putB f b).msix = h.msix := rfl
@[simp] theorem HostSide.putB_msixPend (h : HostSide) (f : Fld) (b : Bool) : (h.putB f b).msixPend = h.msixPend := rfl
@[simp] theorem HostSide.putB_sent (h : HostSide) (f : Fld) (b : Bool) : (h.putB f b).sent = h.sent := rfl
@[simp] theorem HostSide.putB_pcieUp (h : HostSide) (f : Fld) (b : Bool) : (h.putB f b).pcieUp = h.pcieUp := rfl
@[simp] theorem HostSide.putB_xing (h : HostSide) (f : Fld) (b : Bool) : (h.putB f b).xing = h.xing := rfl
@[simp] theorem HostSide.putB_lanes (h : HostSide) (f : Fld) (b : Bool) : (h.putB f b).lanes = h.lanes := rfl
@[simp] theorem HostSide.putB_stage (h : HostSide) (f : Fld) (b : Bool) : (h.putB f b).stage = h.stage := rfl
@[simp] theorem HostSide.putB_twin (h : HostSide) (f : Fld) (b : Bool) : (h.putB f b).twin = h.twin := rfl
@[simp] theorem HostSide.putB_uliska (h : HostSide) (f : Fld) (b : Bool) : (h.putB f b).uliska = h.uliska := rfl
@[simp] theorem HostSide.putB_display (h : HostSide) (f : Fld) (b : Bool) : (h.putB f b).display = h.display := rfl
@[simp] theorem HostSide.putB_video (h : HostSide) (f : Fld) (b : Bool) : (h.putB f b).video = h.video := rfl
@[simp] theorem HostSide.putB_mimic (h : HostSide) (f : Fld) (b : Bool) : (h.putB f b).mimic = h.mimic := rfl
@[simp] theorem HostSide.putB_encode (h : HostSide) (f : Fld) (b : Bool) : (h.putB f b).encode = h.encode := rfl
@[simp] theorem HostSide.putB_dfl (h : HostSide) (f : Fld) (b : Bool) : (h.putB f b).dfl = h.dfl := rfl
@[simp] theorem HostSide.putB_repaired (h : HostSide) (f : Fld) (b : Bool) : (h.putB f b).repaired = h.repaired := rfl
@[simp] theorem HostSide.putB_conserve (h : HostSide) (f : Fld) (b : Bool) : (h.putB f b).conserve = h.conserve := rfl

/-! ## `HostSide.toReset` -/

@[simp] theorem HostSide.toReset_run (h : HostSide) (f : Fld) : (h.toReset f).run = h.run := rfl
@[simp] theorem HostSide.toReset_freeN (h : HostSide) (f : Fld) : (h.toReset f).freeN = h.freeN := rfl
@[simp] theorem HostSide.toReset_latch (h : HostSide) (f : Fld) : (h.toReset f).latch = h.latch := rfl
@[simp] theorem HostSide.toReset_resp (h : HostSide) (f : Fld) : (h.toReset f).resp = h.resp := rfl
@[simp] theorem HostSide.toReset_tb (h : HostSide) (f : Fld) : (h.toReset f).tb = h.tb := rfl
@[simp] theorem HostSide.toReset_heldLo (h : HostSide) (f : Fld) : (h.toReset f).heldLo = h.heldLo := rfl
@[simp] theorem HostSide.toReset_corrOld (h : HostSide) (f : Fld) : (h.toReset f).corrOld = h.corrOld := rfl
@[simp] theorem HostSide.toReset_shiftNew (h : HostSide) (f : Fld) : (h.toReset f).shiftNew = h.shiftNew := rfl
@[simp] theorem HostSide.toReset_shift (h : HostSide) (f : Fld) : (h.toReset f).shift = h.shift := rfl
@[simp] theorem HostSide.toReset_boot (h : HostSide) (f : Fld) : (h.toReset f).boot = h.boot := rfl
@[simp] theorem HostSide.toReset_fwOp (h : HostSide) (f : Fld) : (h.toReset f).fwOp = h.fwOp := rfl
@[simp] theorem HostSide.toReset_fresh (h : HostSide) (f : Fld) : (h.toReset f).fresh = h.fresh := rfl
@[simp] theorem HostSide.toReset_store (h : HostSide) (f : Fld) : (h.toReset f).store = h.store := rfl
@[simp] theorem HostSide.toReset_tartan (h : HostSide) (f : Fld) : (h.toReset f).tartan = h.tartan := rfl
@[simp] theorem HostSide.toReset_cfg (h : HostSide) (f : Fld) : (h.toReset f).cfg = h.cfg := rfl
@[simp] theorem HostSide.toReset_msix (h : HostSide) (f : Fld) : (h.toReset f).msix = h.msix := rfl
@[simp] theorem HostSide.toReset_msixPend (h : HostSide) (f : Fld) : (h.toReset f).msixPend = h.msixPend := rfl
@[simp] theorem HostSide.toReset_sent (h : HostSide) (f : Fld) : (h.toReset f).sent = h.sent := rfl
@[simp] theorem HostSide.toReset_pcieUp (h : HostSide) (f : Fld) : (h.toReset f).pcieUp = h.pcieUp := rfl
@[simp] theorem HostSide.toReset_xing (h : HostSide) (f : Fld) : (h.toReset f).xing = h.xing := rfl
@[simp] theorem HostSide.toReset_lanes (h : HostSide) (f : Fld) : (h.toReset f).lanes = h.lanes := rfl
@[simp] theorem HostSide.toReset_stage (h : HostSide) (f : Fld) : (h.toReset f).stage = h.stage := rfl
@[simp] theorem HostSide.toReset_twin (h : HostSide) (f : Fld) : (h.toReset f).twin = h.twin := rfl
@[simp] theorem HostSide.toReset_uliska (h : HostSide) (f : Fld) : (h.toReset f).uliska = h.uliska := rfl
@[simp] theorem HostSide.toReset_display (h : HostSide) (f : Fld) : (h.toReset f).display = h.display := rfl
@[simp] theorem HostSide.toReset_video (h : HostSide) (f : Fld) : (h.toReset f).video = h.video := rfl
@[simp] theorem HostSide.toReset_mimic (h : HostSide) (f : Fld) : (h.toReset f).mimic = h.mimic := rfl
@[simp] theorem HostSide.toReset_encode (h : HostSide) (f : Fld) : (h.toReset f).encode = h.encode := rfl
@[simp] theorem HostSide.toReset_dfl (h : HostSide) (f : Fld) : (h.toReset f).dfl = h.dfl := rfl
@[simp] theorem HostSide.toReset_repaired (h : HostSide) (f : Fld) : (h.toReset f).repaired = h.repaired := rfl
@[simp] theorem HostSide.toReset_conserve (h : HostSide) (f : Fld) : (h.toReset f).conserve = h.conserve := rfl

/-! ## `HostSide.putPair` -/

@[simp] theorem HostSide.putPair_run (h : HostSide) (lo hi : Fld) (v : Nat) : (h.putPair lo hi v).run = h.run := rfl
@[simp] theorem HostSide.putPair_freeN (h : HostSide) (lo hi : Fld) (v : Nat) : (h.putPair lo hi v).freeN = h.freeN := rfl
@[simp] theorem HostSide.putPair_latch (h : HostSide) (lo hi : Fld) (v : Nat) : (h.putPair lo hi v).latch = h.latch := rfl
@[simp] theorem HostSide.putPair_resp (h : HostSide) (lo hi : Fld) (v : Nat) : (h.putPair lo hi v).resp = h.resp := rfl
@[simp] theorem HostSide.putPair_tb (h : HostSide) (lo hi : Fld) (v : Nat) : (h.putPair lo hi v).tb = h.tb := rfl
@[simp] theorem HostSide.putPair_heldLo (h : HostSide) (lo hi : Fld) (v : Nat) : (h.putPair lo hi v).heldLo = h.heldLo := rfl
@[simp] theorem HostSide.putPair_corrOld (h : HostSide) (lo hi : Fld) (v : Nat) : (h.putPair lo hi v).corrOld = h.corrOld := rfl
@[simp] theorem HostSide.putPair_shiftNew (h : HostSide) (lo hi : Fld) (v : Nat) : (h.putPair lo hi v).shiftNew = h.shiftNew := rfl
@[simp] theorem HostSide.putPair_shift (h : HostSide) (lo hi : Fld) (v : Nat) : (h.putPair lo hi v).shift = h.shift := rfl
@[simp] theorem HostSide.putPair_boot (h : HostSide) (lo hi : Fld) (v : Nat) : (h.putPair lo hi v).boot = h.boot := rfl
@[simp] theorem HostSide.putPair_fwOp (h : HostSide) (lo hi : Fld) (v : Nat) : (h.putPair lo hi v).fwOp = h.fwOp := rfl
@[simp] theorem HostSide.putPair_fresh (h : HostSide) (lo hi : Fld) (v : Nat) : (h.putPair lo hi v).fresh = h.fresh := rfl
@[simp] theorem HostSide.putPair_store (h : HostSide) (lo hi : Fld) (v : Nat) : (h.putPair lo hi v).store = h.store := rfl
@[simp] theorem HostSide.putPair_tartan (h : HostSide) (lo hi : Fld) (v : Nat) : (h.putPair lo hi v).tartan = h.tartan := rfl
@[simp] theorem HostSide.putPair_cfg (h : HostSide) (lo hi : Fld) (v : Nat) : (h.putPair lo hi v).cfg = h.cfg := rfl
@[simp] theorem HostSide.putPair_msix (h : HostSide) (lo hi : Fld) (v : Nat) : (h.putPair lo hi v).msix = h.msix := rfl
@[simp] theorem HostSide.putPair_msixPend (h : HostSide) (lo hi : Fld) (v : Nat) : (h.putPair lo hi v).msixPend = h.msixPend := rfl
@[simp] theorem HostSide.putPair_sent (h : HostSide) (lo hi : Fld) (v : Nat) : (h.putPair lo hi v).sent = h.sent := rfl
@[simp] theorem HostSide.putPair_pcieUp (h : HostSide) (lo hi : Fld) (v : Nat) : (h.putPair lo hi v).pcieUp = h.pcieUp := rfl
@[simp] theorem HostSide.putPair_xing (h : HostSide) (lo hi : Fld) (v : Nat) : (h.putPair lo hi v).xing = h.xing := rfl
@[simp] theorem HostSide.putPair_lanes (h : HostSide) (lo hi : Fld) (v : Nat) : (h.putPair lo hi v).lanes = h.lanes := rfl
@[simp] theorem HostSide.putPair_stage (h : HostSide) (lo hi : Fld) (v : Nat) : (h.putPair lo hi v).stage = h.stage := rfl
@[simp] theorem HostSide.putPair_twin (h : HostSide) (lo hi : Fld) (v : Nat) : (h.putPair lo hi v).twin = h.twin := rfl
@[simp] theorem HostSide.putPair_uliska (h : HostSide) (lo hi : Fld) (v : Nat) : (h.putPair lo hi v).uliska = h.uliska := rfl
@[simp] theorem HostSide.putPair_display (h : HostSide) (lo hi : Fld) (v : Nat) : (h.putPair lo hi v).display = h.display := rfl
@[simp] theorem HostSide.putPair_video (h : HostSide) (lo hi : Fld) (v : Nat) : (h.putPair lo hi v).video = h.video := rfl
@[simp] theorem HostSide.putPair_mimic (h : HostSide) (lo hi : Fld) (v : Nat) : (h.putPair lo hi v).mimic = h.mimic := rfl
@[simp] theorem HostSide.putPair_encode (h : HostSide) (lo hi : Fld) (v : Nat) : (h.putPair lo hi v).encode = h.encode := rfl
@[simp] theorem HostSide.putPair_dfl (h : HostSide) (lo hi : Fld) (v : Nat) : (h.putPair lo hi v).dfl = h.dfl := rfl
@[simp] theorem HostSide.putPair_repaired (h : HostSide) (lo hi : Fld) (v : Nat) : (h.putPair lo hi v).repaired = h.repaired := rfl
@[simp] theorem HostSide.putPair_conserve (h : HostSide) (lo hi : Fld) (v : Nat) : (h.putPair lo hi v).conserve = h.conserve := rfl

/-! ## `HostSide.setBitOf` -/

@[simp] theorem HostSide.setBitOf_run (h : HostSide) (f : Fld) (i : Nat) : (h.setBitOf f i).run = h.run := rfl
@[simp] theorem HostSide.setBitOf_freeN (h : HostSide) (f : Fld) (i : Nat) : (h.setBitOf f i).freeN = h.freeN := rfl
@[simp] theorem HostSide.setBitOf_latch (h : HostSide) (f : Fld) (i : Nat) : (h.setBitOf f i).latch = h.latch := rfl
@[simp] theorem HostSide.setBitOf_resp (h : HostSide) (f : Fld) (i : Nat) : (h.setBitOf f i).resp = h.resp := rfl
@[simp] theorem HostSide.setBitOf_tb (h : HostSide) (f : Fld) (i : Nat) : (h.setBitOf f i).tb = h.tb := rfl
@[simp] theorem HostSide.setBitOf_heldLo (h : HostSide) (f : Fld) (i : Nat) : (h.setBitOf f i).heldLo = h.heldLo := rfl
@[simp] theorem HostSide.setBitOf_corrOld (h : HostSide) (f : Fld) (i : Nat) : (h.setBitOf f i).corrOld = h.corrOld := rfl
@[simp] theorem HostSide.setBitOf_shiftNew (h : HostSide) (f : Fld) (i : Nat) : (h.setBitOf f i).shiftNew = h.shiftNew := rfl
@[simp] theorem HostSide.setBitOf_shift (h : HostSide) (f : Fld) (i : Nat) : (h.setBitOf f i).shift = h.shift := rfl
@[simp] theorem HostSide.setBitOf_boot (h : HostSide) (f : Fld) (i : Nat) : (h.setBitOf f i).boot = h.boot := rfl
@[simp] theorem HostSide.setBitOf_fwOp (h : HostSide) (f : Fld) (i : Nat) : (h.setBitOf f i).fwOp = h.fwOp := rfl
@[simp] theorem HostSide.setBitOf_fresh (h : HostSide) (f : Fld) (i : Nat) : (h.setBitOf f i).fresh = h.fresh := rfl
@[simp] theorem HostSide.setBitOf_store (h : HostSide) (f : Fld) (i : Nat) : (h.setBitOf f i).store = h.store := rfl
@[simp] theorem HostSide.setBitOf_tartan (h : HostSide) (f : Fld) (i : Nat) : (h.setBitOf f i).tartan = h.tartan := rfl
@[simp] theorem HostSide.setBitOf_cfg (h : HostSide) (f : Fld) (i : Nat) : (h.setBitOf f i).cfg = h.cfg := rfl
@[simp] theorem HostSide.setBitOf_msix (h : HostSide) (f : Fld) (i : Nat) : (h.setBitOf f i).msix = h.msix := rfl
@[simp] theorem HostSide.setBitOf_msixPend (h : HostSide) (f : Fld) (i : Nat) : (h.setBitOf f i).msixPend = h.msixPend := rfl
@[simp] theorem HostSide.setBitOf_sent (h : HostSide) (f : Fld) (i : Nat) : (h.setBitOf f i).sent = h.sent := rfl
@[simp] theorem HostSide.setBitOf_pcieUp (h : HostSide) (f : Fld) (i : Nat) : (h.setBitOf f i).pcieUp = h.pcieUp := rfl
@[simp] theorem HostSide.setBitOf_xing (h : HostSide) (f : Fld) (i : Nat) : (h.setBitOf f i).xing = h.xing := rfl
@[simp] theorem HostSide.setBitOf_lanes (h : HostSide) (f : Fld) (i : Nat) : (h.setBitOf f i).lanes = h.lanes := rfl
@[simp] theorem HostSide.setBitOf_stage (h : HostSide) (f : Fld) (i : Nat) : (h.setBitOf f i).stage = h.stage := rfl
@[simp] theorem HostSide.setBitOf_twin (h : HostSide) (f : Fld) (i : Nat) : (h.setBitOf f i).twin = h.twin := rfl
@[simp] theorem HostSide.setBitOf_uliska (h : HostSide) (f : Fld) (i : Nat) : (h.setBitOf f i).uliska = h.uliska := rfl
@[simp] theorem HostSide.setBitOf_display (h : HostSide) (f : Fld) (i : Nat) : (h.setBitOf f i).display = h.display := rfl
@[simp] theorem HostSide.setBitOf_video (h : HostSide) (f : Fld) (i : Nat) : (h.setBitOf f i).video = h.video := rfl
@[simp] theorem HostSide.setBitOf_mimic (h : HostSide) (f : Fld) (i : Nat) : (h.setBitOf f i).mimic = h.mimic := rfl
@[simp] theorem HostSide.setBitOf_encode (h : HostSide) (f : Fld) (i : Nat) : (h.setBitOf f i).encode = h.encode := rfl
@[simp] theorem HostSide.setBitOf_dfl (h : HostSide) (f : Fld) (i : Nat) : (h.setBitOf f i).dfl = h.dfl := rfl
@[simp] theorem HostSide.setBitOf_repaired (h : HostSide) (f : Fld) (i : Nat) : (h.setBitOf f i).repaired = h.repaired := rfl
@[simp] theorem HostSide.setBitOf_conserve (h : HostSide) (f : Fld) (i : Nat) : (h.setBitOf f i).conserve = h.conserve := rfl

/-! ## `HostSide.bump` -/

@[simp] theorem HostSide.bump_run (h : HostSide) (f : Fld) (n : Nat) : (h.bump f n).run = h.run := rfl
@[simp] theorem HostSide.bump_freeN (h : HostSide) (f : Fld) (n : Nat) : (h.bump f n).freeN = h.freeN := rfl
@[simp] theorem HostSide.bump_latch (h : HostSide) (f : Fld) (n : Nat) : (h.bump f n).latch = h.latch := rfl
@[simp] theorem HostSide.bump_resp (h : HostSide) (f : Fld) (n : Nat) : (h.bump f n).resp = h.resp := rfl
@[simp] theorem HostSide.bump_tb (h : HostSide) (f : Fld) (n : Nat) : (h.bump f n).tb = h.tb := rfl
@[simp] theorem HostSide.bump_heldLo (h : HostSide) (f : Fld) (n : Nat) : (h.bump f n).heldLo = h.heldLo := rfl
@[simp] theorem HostSide.bump_corrOld (h : HostSide) (f : Fld) (n : Nat) : (h.bump f n).corrOld = h.corrOld := rfl
@[simp] theorem HostSide.bump_shiftNew (h : HostSide) (f : Fld) (n : Nat) : (h.bump f n).shiftNew = h.shiftNew := rfl
@[simp] theorem HostSide.bump_shift (h : HostSide) (f : Fld) (n : Nat) : (h.bump f n).shift = h.shift := rfl
@[simp] theorem HostSide.bump_boot (h : HostSide) (f : Fld) (n : Nat) : (h.bump f n).boot = h.boot := rfl
@[simp] theorem HostSide.bump_fwOp (h : HostSide) (f : Fld) (n : Nat) : (h.bump f n).fwOp = h.fwOp := rfl
@[simp] theorem HostSide.bump_fresh (h : HostSide) (f : Fld) (n : Nat) : (h.bump f n).fresh = h.fresh := rfl
@[simp] theorem HostSide.bump_store (h : HostSide) (f : Fld) (n : Nat) : (h.bump f n).store = h.store := rfl
@[simp] theorem HostSide.bump_tartan (h : HostSide) (f : Fld) (n : Nat) : (h.bump f n).tartan = h.tartan := rfl
@[simp] theorem HostSide.bump_cfg (h : HostSide) (f : Fld) (n : Nat) : (h.bump f n).cfg = h.cfg := rfl
@[simp] theorem HostSide.bump_msix (h : HostSide) (f : Fld) (n : Nat) : (h.bump f n).msix = h.msix := rfl
@[simp] theorem HostSide.bump_msixPend (h : HostSide) (f : Fld) (n : Nat) : (h.bump f n).msixPend = h.msixPend := rfl
@[simp] theorem HostSide.bump_sent (h : HostSide) (f : Fld) (n : Nat) : (h.bump f n).sent = h.sent := rfl
@[simp] theorem HostSide.bump_pcieUp (h : HostSide) (f : Fld) (n : Nat) : (h.bump f n).pcieUp = h.pcieUp := rfl
@[simp] theorem HostSide.bump_xing (h : HostSide) (f : Fld) (n : Nat) : (h.bump f n).xing = h.xing := rfl
@[simp] theorem HostSide.bump_lanes (h : HostSide) (f : Fld) (n : Nat) : (h.bump f n).lanes = h.lanes := rfl
@[simp] theorem HostSide.bump_stage (h : HostSide) (f : Fld) (n : Nat) : (h.bump f n).stage = h.stage := rfl
@[simp] theorem HostSide.bump_twin (h : HostSide) (f : Fld) (n : Nat) : (h.bump f n).twin = h.twin := rfl
@[simp] theorem HostSide.bump_uliska (h : HostSide) (f : Fld) (n : Nat) : (h.bump f n).uliska = h.uliska := rfl
@[simp] theorem HostSide.bump_display (h : HostSide) (f : Fld) (n : Nat) : (h.bump f n).display = h.display := rfl
@[simp] theorem HostSide.bump_video (h : HostSide) (f : Fld) (n : Nat) : (h.bump f n).video = h.video := rfl
@[simp] theorem HostSide.bump_mimic (h : HostSide) (f : Fld) (n : Nat) : (h.bump f n).mimic = h.mimic := rfl
@[simp] theorem HostSide.bump_encode (h : HostSide) (f : Fld) (n : Nat) : (h.bump f n).encode = h.encode := rfl
@[simp] theorem HostSide.bump_dfl (h : HostSide) (f : Fld) (n : Nat) : (h.bump f n).dfl = h.dfl := rfl
@[simp] theorem HostSide.bump_repaired (h : HostSide) (f : Fld) (n : Nat) : (h.bump f n).repaired = h.repaired := rfl
@[simp] theorem HostSide.bump_conserve (h : HostSide) (f : Fld) (n : Nat) : (h.bump f n).conserve = h.conserve := rfl

/-! ## `HostSide.answer` -/

@[simp] theorem HostSide.answer_run (h : HostSide) (r : Resp) : (h.answer r).run = h.run := rfl
@[simp] theorem HostSide.answer_freeN (h : HostSide) (r : Resp) : (h.answer r).freeN = h.freeN := rfl
@[simp] theorem HostSide.answer_regs (h : HostSide) (r : Resp) : (h.answer r).regs = h.regs := rfl
@[simp] theorem HostSide.answer_latch (h : HostSide) (r : Resp) : (h.answer r).latch = h.latch := rfl
@[simp] theorem HostSide.answer_tb (h : HostSide) (r : Resp) : (h.answer r).tb = h.tb := rfl
@[simp] theorem HostSide.answer_heldLo (h : HostSide) (r : Resp) : (h.answer r).heldLo = h.heldLo := rfl
@[simp] theorem HostSide.answer_corrOld (h : HostSide) (r : Resp) : (h.answer r).corrOld = h.corrOld := rfl
@[simp] theorem HostSide.answer_shiftNew (h : HostSide) (r : Resp) : (h.answer r).shiftNew = h.shiftNew := rfl
@[simp] theorem HostSide.answer_shift (h : HostSide) (r : Resp) : (h.answer r).shift = h.shift := rfl
@[simp] theorem HostSide.answer_boot (h : HostSide) (r : Resp) : (h.answer r).boot = h.boot := rfl
@[simp] theorem HostSide.answer_fwOp (h : HostSide) (r : Resp) : (h.answer r).fwOp = h.fwOp := rfl
@[simp] theorem HostSide.answer_fresh (h : HostSide) (r : Resp) : (h.answer r).fresh = h.fresh := rfl
@[simp] theorem HostSide.answer_store (h : HostSide) (r : Resp) : (h.answer r).store = h.store := rfl
@[simp] theorem HostSide.answer_tartan (h : HostSide) (r : Resp) : (h.answer r).tartan = h.tartan := rfl
@[simp] theorem HostSide.answer_cfg (h : HostSide) (r : Resp) : (h.answer r).cfg = h.cfg := rfl
@[simp] theorem HostSide.answer_msix (h : HostSide) (r : Resp) : (h.answer r).msix = h.msix := rfl
@[simp] theorem HostSide.answer_msixPend (h : HostSide) (r : Resp) : (h.answer r).msixPend = h.msixPend := rfl
@[simp] theorem HostSide.answer_sent (h : HostSide) (r : Resp) : (h.answer r).sent = h.sent := rfl
@[simp] theorem HostSide.answer_pcieUp (h : HostSide) (r : Resp) : (h.answer r).pcieUp = h.pcieUp := rfl
@[simp] theorem HostSide.answer_xing (h : HostSide) (r : Resp) : (h.answer r).xing = h.xing := rfl
@[simp] theorem HostSide.answer_lanes (h : HostSide) (r : Resp) : (h.answer r).lanes = h.lanes := rfl
@[simp] theorem HostSide.answer_stage (h : HostSide) (r : Resp) : (h.answer r).stage = h.stage := rfl
@[simp] theorem HostSide.answer_twin (h : HostSide) (r : Resp) : (h.answer r).twin = h.twin := rfl
@[simp] theorem HostSide.answer_uliska (h : HostSide) (r : Resp) : (h.answer r).uliska = h.uliska := rfl
@[simp] theorem HostSide.answer_display (h : HostSide) (r : Resp) : (h.answer r).display = h.display := rfl
@[simp] theorem HostSide.answer_video (h : HostSide) (r : Resp) : (h.answer r).video = h.video := rfl
@[simp] theorem HostSide.answer_mimic (h : HostSide) (r : Resp) : (h.answer r).mimic = h.mimic := rfl
@[simp] theorem HostSide.answer_encode (h : HostSide) (r : Resp) : (h.answer r).encode = h.encode := rfl
@[simp] theorem HostSide.answer_dfl (h : HostSide) (r : Resp) : (h.answer r).dfl = h.dfl := rfl
@[simp] theorem HostSide.answer_repaired (h : HostSide) (r : Resp) : (h.answer r).repaired = h.repaired := rfl
@[simp] theorem HostSide.answer_conserve (h : HostSide) (r : Resp) : (h.answer r).conserve = h.conserve := rfl

/-! ## `HostSide.send` -/

@[simp] theorem HostSide.send_run (h : HostSide) (x : Sent) : (h.send x).run = h.run := rfl
@[simp] theorem HostSide.send_freeN (h : HostSide) (x : Sent) : (h.send x).freeN = h.freeN := rfl
@[simp] theorem HostSide.send_regs (h : HostSide) (x : Sent) : (h.send x).regs = h.regs := rfl
@[simp] theorem HostSide.send_latch (h : HostSide) (x : Sent) : (h.send x).latch = h.latch := rfl
@[simp] theorem HostSide.send_resp (h : HostSide) (x : Sent) : (h.send x).resp = h.resp := rfl
@[simp] theorem HostSide.send_tb (h : HostSide) (x : Sent) : (h.send x).tb = h.tb := rfl
@[simp] theorem HostSide.send_heldLo (h : HostSide) (x : Sent) : (h.send x).heldLo = h.heldLo := rfl
@[simp] theorem HostSide.send_corrOld (h : HostSide) (x : Sent) : (h.send x).corrOld = h.corrOld := rfl
@[simp] theorem HostSide.send_shiftNew (h : HostSide) (x : Sent) : (h.send x).shiftNew = h.shiftNew := rfl
@[simp] theorem HostSide.send_shift (h : HostSide) (x : Sent) : (h.send x).shift = h.shift := rfl
@[simp] theorem HostSide.send_boot (h : HostSide) (x : Sent) : (h.send x).boot = h.boot := rfl
@[simp] theorem HostSide.send_fwOp (h : HostSide) (x : Sent) : (h.send x).fwOp = h.fwOp := rfl
@[simp] theorem HostSide.send_fresh (h : HostSide) (x : Sent) : (h.send x).fresh = h.fresh := rfl
@[simp] theorem HostSide.send_store (h : HostSide) (x : Sent) : (h.send x).store = h.store := rfl
@[simp] theorem HostSide.send_tartan (h : HostSide) (x : Sent) : (h.send x).tartan = h.tartan := rfl
@[simp] theorem HostSide.send_cfg (h : HostSide) (x : Sent) : (h.send x).cfg = h.cfg := rfl
@[simp] theorem HostSide.send_msix (h : HostSide) (x : Sent) : (h.send x).msix = h.msix := rfl
@[simp] theorem HostSide.send_msixPend (h : HostSide) (x : Sent) : (h.send x).msixPend = h.msixPend := rfl
@[simp] theorem HostSide.send_pcieUp (h : HostSide) (x : Sent) : (h.send x).pcieUp = h.pcieUp := rfl
@[simp] theorem HostSide.send_xing (h : HostSide) (x : Sent) : (h.send x).xing = h.xing := rfl
@[simp] theorem HostSide.send_lanes (h : HostSide) (x : Sent) : (h.send x).lanes = h.lanes := rfl
@[simp] theorem HostSide.send_stage (h : HostSide) (x : Sent) : (h.send x).stage = h.stage := rfl
@[simp] theorem HostSide.send_twin (h : HostSide) (x : Sent) : (h.send x).twin = h.twin := rfl
@[simp] theorem HostSide.send_uliska (h : HostSide) (x : Sent) : (h.send x).uliska = h.uliska := rfl
@[simp] theorem HostSide.send_display (h : HostSide) (x : Sent) : (h.send x).display = h.display := rfl
@[simp] theorem HostSide.send_video (h : HostSide) (x : Sent) : (h.send x).video = h.video := rfl
@[simp] theorem HostSide.send_mimic (h : HostSide) (x : Sent) : (h.send x).mimic = h.mimic := rfl
@[simp] theorem HostSide.send_encode (h : HostSide) (x : Sent) : (h.send x).encode = h.encode := rfl
@[simp] theorem HostSide.send_dfl (h : HostSide) (x : Sent) : (h.send x).dfl = h.dfl := rfl
@[simp] theorem HostSide.send_repaired (h : HostSide) (x : Sent) : (h.send x).repaired = h.repaired := rfl
@[simp] theorem HostSide.send_conserve (h : HostSide) (x : Sent) : (h.send x).conserve = h.conserve := rfl

@[simp] theorem HostSide.answer_resp (h : HostSide) (r : Resp) : (h.answer r).resp = r := rfl
@[simp] theorem HostSide.send_sent (h : HostSide) (x : Sent) : (h.send x).sent = x :: h.sent := rfl

/-! ## `HostSide.count`, whose value may be open -/

@[simp] theorem HostSide.count_run (h : HostSide) (f : Fld) (n : Nat) : (h.count f n).run = h.run := by
  unfold HostSide.count; split <;> rfl
@[simp] theorem HostSide.count_freeN (h : HostSide) (f : Fld) (n : Nat) : (h.count f n).freeN = h.freeN := by
  unfold HostSide.count; split <;> rfl
@[simp] theorem HostSide.count_latch (h : HostSide) (f : Fld) (n : Nat) : (h.count f n).latch = h.latch := by
  unfold HostSide.count; split <;> rfl
@[simp] theorem HostSide.count_resp (h : HostSide) (f : Fld) (n : Nat) : (h.count f n).resp = h.resp := by
  unfold HostSide.count; split <;> rfl
@[simp] theorem HostSide.count_tb (h : HostSide) (f : Fld) (n : Nat) : (h.count f n).tb = h.tb := by
  unfold HostSide.count; split <;> rfl
@[simp] theorem HostSide.count_heldLo (h : HostSide) (f : Fld) (n : Nat) : (h.count f n).heldLo = h.heldLo := by
  unfold HostSide.count; split <;> rfl
@[simp] theorem HostSide.count_corrOld (h : HostSide) (f : Fld) (n : Nat) : (h.count f n).corrOld = h.corrOld := by
  unfold HostSide.count; split <;> rfl
@[simp] theorem HostSide.count_shiftNew (h : HostSide) (f : Fld) (n : Nat) : (h.count f n).shiftNew = h.shiftNew := by
  unfold HostSide.count; split <;> rfl
@[simp] theorem HostSide.count_shift (h : HostSide) (f : Fld) (n : Nat) : (h.count f n).shift = h.shift := by
  unfold HostSide.count; split <;> rfl
@[simp] theorem HostSide.count_boot (h : HostSide) (f : Fld) (n : Nat) : (h.count f n).boot = h.boot := by
  unfold HostSide.count; split <;> rfl
@[simp] theorem HostSide.count_fwOp (h : HostSide) (f : Fld) (n : Nat) : (h.count f n).fwOp = h.fwOp := by
  unfold HostSide.count; split <;> rfl
@[simp] theorem HostSide.count_fresh (h : HostSide) (f : Fld) (n : Nat) : (h.count f n).fresh = h.fresh := by
  unfold HostSide.count; split <;> rfl
@[simp] theorem HostSide.count_store (h : HostSide) (f : Fld) (n : Nat) : (h.count f n).store = h.store := by
  unfold HostSide.count; split <;> rfl
@[simp] theorem HostSide.count_tartan (h : HostSide) (f : Fld) (n : Nat) : (h.count f n).tartan = h.tartan := by
  unfold HostSide.count; split <;> rfl
@[simp] theorem HostSide.count_cfg (h : HostSide) (f : Fld) (n : Nat) : (h.count f n).cfg = h.cfg := by
  unfold HostSide.count; split <;> rfl
@[simp] theorem HostSide.count_msix (h : HostSide) (f : Fld) (n : Nat) : (h.count f n).msix = h.msix := by
  unfold HostSide.count; split <;> rfl
@[simp] theorem HostSide.count_msixPend (h : HostSide) (f : Fld) (n : Nat) : (h.count f n).msixPend = h.msixPend := by
  unfold HostSide.count; split <;> rfl
@[simp] theorem HostSide.count_sent (h : HostSide) (f : Fld) (n : Nat) : (h.count f n).sent = h.sent := by
  unfold HostSide.count; split <;> rfl
@[simp] theorem HostSide.count_pcieUp (h : HostSide) (f : Fld) (n : Nat) : (h.count f n).pcieUp = h.pcieUp := by
  unfold HostSide.count; split <;> rfl
@[simp] theorem HostSide.count_xing (h : HostSide) (f : Fld) (n : Nat) : (h.count f n).xing = h.xing := by
  unfold HostSide.count; split <;> rfl
@[simp] theorem HostSide.count_lanes (h : HostSide) (f : Fld) (n : Nat) : (h.count f n).lanes = h.lanes := by
  unfold HostSide.count; split <;> rfl
@[simp] theorem HostSide.count_stage (h : HostSide) (f : Fld) (n : Nat) : (h.count f n).stage = h.stage := by
  unfold HostSide.count; split <;> rfl
@[simp] theorem HostSide.count_twin (h : HostSide) (f : Fld) (n : Nat) : (h.count f n).twin = h.twin := by
  unfold HostSide.count; split <;> rfl
@[simp] theorem HostSide.count_uliska (h : HostSide) (f : Fld) (n : Nat) : (h.count f n).uliska = h.uliska := by
  unfold HostSide.count; split <;> rfl
@[simp] theorem HostSide.count_display (h : HostSide) (f : Fld) (n : Nat) : (h.count f n).display = h.display := by
  unfold HostSide.count; split <;> rfl
@[simp] theorem HostSide.count_video (h : HostSide) (f : Fld) (n : Nat) : (h.count f n).video = h.video := by
  unfold HostSide.count; split <;> rfl
@[simp] theorem HostSide.count_mimic (h : HostSide) (f : Fld) (n : Nat) : (h.count f n).mimic = h.mimic := by
  unfold HostSide.count; split <;> rfl
@[simp] theorem HostSide.count_encode (h : HostSide) (f : Fld) (n : Nat) : (h.count f n).encode = h.encode := by
  unfold HostSide.count; split <;> rfl
@[simp] theorem HostSide.count_dfl (h : HostSide) (f : Fld) (n : Nat) : (h.count f n).dfl = h.dfl := by
  unfold HostSide.count; split <;> rfl
@[simp] theorem HostSide.count_repaired (h : HostSide) (f : Fld) (n : Nat) : (h.count f n).repaired = h.repaired := by
  unfold HostSide.count; split <;> rfl
@[simp] theorem HostSide.count_conserve (h : HostSide) (f : Fld) (n : Nat) : (h.count f n).conserve = h.conserve := by
  unfold HostSide.count; split <;> rfl

/-! ## What `State.held` keeps and passes on -/

@[simp] theorem State.held_pending (s t : State) : (s.held t).pending = s.pending := rfl
@[simp] theorem State.held_phys (s t : State) : (s.held t).phys = t.phys := rfl
@[simp] theorem State.held_host_run (s t : State) : (s.held t).host.run = s.host.run := rfl
@[simp] theorem State.held_host_freeN (s t : State) : (s.held t).host.freeN = t.host.freeN := rfl
@[simp] theorem State.held_host_regs (s t : State) : (s.held t).host.regs = t.host.regs := rfl
@[simp] theorem State.held_host_latch (s t : State) : (s.held t).host.latch = t.host.latch := rfl
@[simp] theorem State.held_host_resp (s t : State) : (s.held t).host.resp = t.host.resp := rfl
@[simp] theorem State.held_host_tb (s t : State) : (s.held t).host.tb = t.host.tb := rfl
@[simp] theorem State.held_host_heldLo (s t : State) : (s.held t).host.heldLo = t.host.heldLo := rfl
@[simp] theorem State.held_host_corrOld (s t : State) : (s.held t).host.corrOld = t.host.corrOld := rfl
@[simp] theorem State.held_host_shiftNew (s t : State) : (s.held t).host.shiftNew = t.host.shiftNew := rfl
@[simp] theorem State.held_host_shift (s t : State) : (s.held t).host.shift = t.host.shift := rfl
@[simp] theorem State.held_host_boot (s t : State) : (s.held t).host.boot = t.host.boot := rfl
@[simp] theorem State.held_host_fwOp (s t : State) : (s.held t).host.fwOp = t.host.fwOp := rfl
@[simp] theorem State.held_host_fresh (s t : State) : (s.held t).host.fresh = t.host.fresh := rfl
@[simp] theorem State.held_host_store (s t : State) : (s.held t).host.store = t.host.store := rfl
@[simp] theorem State.held_host_tartan (s t : State) : (s.held t).host.tartan = t.host.tartan := rfl
@[simp] theorem State.held_host_cfg (s t : State) : (s.held t).host.cfg = t.host.cfg := rfl
@[simp] theorem State.held_host_msix (s t : State) : (s.held t).host.msix = t.host.msix := rfl
@[simp] theorem State.held_host_msixPend (s t : State) : (s.held t).host.msixPend = t.host.msixPend := rfl
@[simp] theorem State.held_host_sent (s t : State) : (s.held t).host.sent = t.host.sent := rfl
@[simp] theorem State.held_host_pcieUp (s t : State) : (s.held t).host.pcieUp = s.host.pcieUp := rfl
@[simp] theorem State.held_host_xing (s t : State) : (s.held t).host.xing = t.host.xing := rfl
@[simp] theorem State.held_host_lanes (s t : State) : (s.held t).host.lanes = t.host.lanes := rfl
@[simp] theorem State.held_host_stage (s t : State) : (s.held t).host.stage = t.host.stage := rfl
@[simp] theorem State.held_host_twin (s t : State) : (s.held t).host.twin = t.host.twin := rfl
@[simp] theorem State.held_host_uliska (s t : State) : (s.held t).host.uliska = t.host.uliska := rfl
@[simp] theorem State.held_host_display (s t : State) : (s.held t).host.display = t.host.display := rfl
@[simp] theorem State.held_host_video (s t : State) : (s.held t).host.video = t.host.video := rfl
@[simp] theorem State.held_host_mimic (s t : State) : (s.held t).host.mimic = t.host.mimic := rfl
@[simp] theorem State.held_host_encode (s t : State) : (s.held t).host.encode = t.host.encode := rfl
@[simp] theorem State.held_host_dfl (s t : State) : (s.held t).host.dfl = t.host.dfl := rfl
@[simp] theorem State.held_host_repaired (s t : State) : (s.held t).host.repaired = t.host.repaired := rfl
@[simp] theorem State.held_host_conserve (s t : State) : (s.held t).host.conserve = t.host.conserve := rfl
@[simp] theorem State.held_field_run (s t : State) : (s.held t).field.run = s.field.run := rfl
@[simp] theorem State.held_field_freeN (s t : State) : (s.held t).field.freeN = t.field.freeN := rfl
@[simp] theorem State.held_field_tb (s t : State) : (s.held t).field.tb = t.field.tb := rfl
@[simp] theorem State.held_field_boot (s t : State) : (s.held t).field.boot = t.field.boot := rfl
@[simp] theorem State.held_field_role (s t : State) : (s.held t).field.role = t.field.role := rfl
@[simp] theorem State.held_field_faultPin (s t : State) : (s.held t).field.faultPin = t.field.faultPin := rfl
@[simp] theorem State.held_field_bank (s t : State) : (s.held t).field.bank = t.field.bank := rfl
@[simp] theorem State.held_field_fallback (s t : State) : (s.held t).field.fallback = t.field.fallback := rfl
@[simp] theorem State.held_field_build (s t : State) : (s.held t).field.build = t.field.build := rfl
@[simp] theorem State.held_field_temp (s t : State) : (s.held t).field.temp = t.field.temp := rfl
@[simp] theorem State.held_field_zref (s t : State) : (s.held t).field.zref = t.field.zref := rfl
@[simp] theorem State.held_field_lanes (s t : State) : (s.held t).field.lanes = t.field.lanes := rfl
@[simp] theorem State.held_field_xing (s t : State) : (s.held t).field.xing = t.field.xing := rfl
@[simp] theorem State.held_field_act (s t : State) : (s.held t).field.act = t.field.act := rfl
@[simp] theorem State.held_field_work (s t : State) : (s.held t).field.work = t.field.work := rfl
@[simp] theorem State.held_field_il (s t : State) : (s.held t).field.il = t.field.il := rfl
@[simp] theorem State.held_field_latIn (s t : State) : (s.held t).field.latIn = t.field.latIn := rfl
@[simp] theorem State.held_field_latOut (s t : State) : (s.held t).field.latOut = t.field.latOut := rfl
@[simp] theorem State.held_field_syncLimit (s t : State) : (s.held t).field.syncLimit = t.field.syncLimit := rfl
@[simp] theorem State.held_field_repaired (s t : State) : (s.held t).field.repaired = t.field.repaired := rfl

end Sys2Proof.Machine
end

