-- ==== Sys2Proof/Laws/Table.lean ====
section
/-! SUPPORT. Laws of sparse tables: what a key holds after a write, and that writes keep the canonical form. -/

namespace Sys2Proof.Machine

@[simp] theorem tget_nil {α : Type} (d : α) (k : Nat) : tget d [] k = d := rfl

theorem tget_tdel_self {α : Type} (d : α) (t : Table α) (k : Nat) : tget d (tdel t k) k = d := by
  induction t with
  | nil => rfl
  | cons p t ih =>
    obtain ⟨a, v⟩ := p
    by_cases h : a = k <;> simp_all [tdel, tget]

theorem tget_tdel_ne {α : Type} (d : α) (t : Table α) {k j : Nat} (h : j ≠ k) : tget d (tdel t k) j = tget d t j := by
  induction t with
  | nil => rfl
  | cons p t ih =>
    obtain ⟨a, v⟩ := p
    by_cases ha : a = k
    · have : a ≠ j := fun e => h (e ▸ ha)
      simp_all [tdel, tget]
    · by_cases hj : a = j <;> simp_all [tdel, tget]

theorem tget_tins_self {α : Type} (d : α) (t : Table α) (k : Nat) (v : α) (h : ∀ p ∈ t, p.1 ≠ k) :
    tget d (tins t k v) k = v := by
  induction t with
  | nil => simp [tins, tget]
  | cons p t ih =>
    obtain ⟨a, w⟩ := p
    have ha : a ≠ k := h (a, w) (by simp)
    by_cases hk : k < a
    · simp [tins, tget, hk]
    · simp only [tins, hk, if_false, tget, ha]
      exact ih (fun p hp => h p (by simp [hp]))

theorem tget_tins_ne {α : Type} (d : α) (t : Table α) {k j : Nat} (v : α) (h : j ≠ k) :
    tget d (tins t k v) j = tget d t j := by
  induction t with
  | nil => simp [tins, tget, Ne.symm h]
  | cons p t ih =>
    obtain ⟨a, w⟩ := p
    by_cases hk : k < a
    · simp [tins, tget, hk, Ne.symm h]
    · simp only [tins, hk, if_false, tget, ih]

/-- A written key holds what was written. -/
@[simp] theorem tget_tput_self {α : Type} [DecidableEq α] (d : α) (t : Table α) (k : Nat) (v : α) :
    tget d (tput d t k v) k = v := by
  unfold tput
  split
  · rename_i h; rw [tget_tdel_self, h]
  · exact tget_tins_self d _ k v (by intro p hp; simp [tdel] at hp; exact hp.2)

/-- A write leaves every other key alone, whatever an unlisted key reads as. -/
theorem tget_tput_ne {α : Type} [DecidableEq α] (d e : α) (t : Table α) {k j : Nat} (v : α) (h : j ≠ k) :
    tget d (tput e t k v) j = tget d t j := by
  unfold tput
  split
  · exact tget_tdel_ne d t h
  · rw [tget_tins_ne d _ v h, tget_tdel_ne d t h]

/-- What a key holds after a write, at any key. -/
theorem tget_tput {α : Type} [DecidableEq α] (d : α) (t : Table α) (k j : Nat) (v : α) :
    tget d (tput d t k v) j = if j = k then v else tget d t j := by
  split
  · rename_i h; rw [h, tget_tput_self]
  · rename_i h; exact tget_tput_ne d d t v h

/-- Every key of a table is above a bound. -/
def keysAbove {α : Type} (b : Nat) (t : Table α) : Prop := ∀ p ∈ t, b < p.1

theorem twf_keysAbove {α : Type} [DecidableEq α] (d : α) (a : Nat) (v : α) (t : Table α)
    (h : twf d ((a, v) :: t) = true) : keysAbove a t := by
  induction t generalizing a v with
  | nil => intro p hp; simp at hp
  | cons q t ih =>
    obtain ⟨b, w⟩ := q
    simp only [twf, tabove, Bool.and_eq_true, decide_eq_true_eq] at h
    intro p hp
    rcases List.mem_cons.1 hp with rfl | hp
    · exact h.1.2
    · exact Nat.lt_trans h.1.2 (ih b w (by simp only [twf, Bool.and_eq_true, decide_eq_true_eq]; exact h.2) p hp)

theorem twf_cons {α : Type} [DecidableEq α] (d : α) (a : Nat) (v : α) (t : Table α) :
    twf d ((a, v) :: t) = true ↔ v ≠ d ∧ keysAbove a t ∧ twf d t = true := by
  constructor
  · intro h
    have hk := twf_keysAbove d a v t h
    simp only [twf, Bool.and_eq_true, decide_eq_true_eq] at h
    exact ⟨h.1.1, hk, h.2⟩
  · intro ⟨h1, h2, h3⟩
    simp only [twf, Bool.and_eq_true, decide_eq_true_eq]
    refine ⟨⟨h1, ?_⟩, h3⟩
    cases t with
    | nil => rfl
    | cons q t => exact decide_eq_true (h2 q (by simp))

theorem twf_tdel {α : Type} [DecidableEq α] (d : α) (t : Table α) (k : Nat) (h : twf d t = true) :
    twf d (tdel t k) = true := by
  induction t with
  | nil => rfl
  | cons p t ih =>
    obtain ⟨a, v⟩ := p
    rw [twf_cons] at h
    by_cases ha : a = k
    · simpa [tdel, List.filter_cons, ha] using ih h.2.2
    · have : tdel ((a, v) :: t) k = (a, v) :: tdel t k := by simp [tdel, ha]
      rw [this, twf_cons]
      exact ⟨h.1, fun p hp => h.2.1 p (List.mem_filter.1 hp).1, ih h.2.2⟩

theorem mem_tins {α : Type} (t : Table α) (k : Nat) (v : α) (p : Nat × α) (h : p ∈ tins t k v) : p = (k, v) ∨ p ∈ t := by
  induction t with
  | nil => simpa [tins] using h
  | cons q t ih =>
    obtain ⟨a, w⟩ := q
    by_cases hk : k < a
    · simpa [tins, hk] using h
    · simp only [tins, hk, if_false, List.mem_cons] at h
      rcases h with h | h
      · exact .inr (by simp [h])
      · exact (ih h).imp id (fun h => by simp [h])

theorem twf_tins {α : Type} [DecidableEq α] (d : α) (t : Table α) (k : Nat) (v : α) (h : twf d t = true) (hv : v ≠ d)
    (hk : ∀ p ∈ t, p.1 ≠ k) : twf d (tins t k v) = true := by
  induction t with
  | nil => simp [tins, twf, tabove, hv]
  | cons p t ih =>
    obtain ⟨a, w⟩ := p
    have hw := (twf_cons d a w t).1 h
    by_cases hka : k < a
    · simp only [tins, hka, if_true]
      rw [twf_cons]
      refine ⟨hv, fun p hp => ?_, h⟩
      rcases List.mem_cons.1 hp with rfl | hp
      · exact hka
      · exact Nat.lt_trans hka (hw.2.1 p hp)
    · simp only [tins, hka, if_false]
      have ha : a ≠ k := hk (a, w) (by simp)
      rw [twf_cons]
      refine ⟨hw.1, fun p hp => ?_, ih hw.2.2 (fun p hp => hk p (by simp [hp]))⟩
      rcases mem_tins t k v p hp with rfl | hp
      · show a < k
        omega
      · exact hw.2.1 p hp

/-- A write keeps the canonical form. -/
theorem twf_tput {α : Type} [DecidableEq α] (d : α) (t : Table α) (k : Nat) (v : α) (h : twf d t = true) :
    twf d (tput d t k v) = true := by
  unfold tput
  split
  · exact twf_tdel d t k h
  · rename_i hv
    exact twf_tins d _ k v (twf_tdel d t k h) hv (by intro p hp; simp [tdel] at hp; exact hp.2)

theorem tfind_tset_self {α : Type} (t : Table α) (k : Nat) (v : α) : tfind (tset t k v) k = some v := by
  induction t with
  | nil => simp [tset, tfind]
  | cons p t ih =>
    obtain ⟨a, w⟩ := p
    by_cases h1 : k < a
    · simp [tset, h1, tfind]
    · by_cases h2 : k = a
      · simp [tset, h2, tfind]
      · have h3 : a ≠ k := fun e => h2 e.symm
        have : tfind ((a, w) :: tset t k v) k = tfind (tset t k v) k := by simp [tfind, h3]
        simp only [tset, h1, h2, if_false, this, ih]

theorem tfind_tset_ne {α : Type} (t : Table α) {k j : Nat} (v : α) (h : j ≠ k) : tfind (tset t k v) j = tfind t j := by
  induction t with
  | nil => simp [tset, tfind, Ne.symm h]
  | cons p t ih =>
    obtain ⟨a, w⟩ := p
    by_cases h1 : k < a
    · simp [tset, h1, tfind, Ne.symm h]
    · by_cases h2 : k = a
      · have : a ≠ j := fun e => h (h2.symm ▸ e.symm)
        simp [tset, h2, tfind, this]
      · simp only [tset, h1, h2, if_false]
        by_cases h3 : a = j
        · simp [tfind, h3]
        · have e1 : ∀ l : Table α, tfind ((a, w) :: l) j = tfind l j := by intro l; simp [tfind, h3]
          rw [e1, e1, ih]

end Sys2Proof.Machine
end

