-- ==== Sys2Proof/Laws/Regs.lean ====
section
/-! SUPPORT. Laws of the register fields: what a field reads after a write to it, to another field, or to the rest of the
host side. -/

namespace Sys2Proof.Machine

/-- A written field reads the low bits of what was written. -/
@[simp] theorem HostSide.get_put_self (h : HostSide) (f : Fld) (v : Nat) : (h.put f v).get f = v % 2 ^ f.w := by
  simp [HostSide.get, HostSide.put]

/-- A write to one field leaves every field with another key alone. -/
theorem HostSide.get_put_ne (h : HostSide) {f g : Fld} (v : Nat) (hk : g.key ≠ f.key) : (h.put f v).get g = h.get g :=
  tget_tput_ne _ _ _ _ hk

@[simp] theorem HostSide.get_putB_self (h : HostSide) (f : Fld) (b : Bool) : (h.putB f b).get f = b2n b % 2 ^ f.w :=
  h.get_put_self f _

theorem HostSide.get_putB_ne (h : HostSide) {f g : Fld} (b : Bool) (hk : g.key ≠ f.key) : (h.putB f b).get g = h.get g :=
  h.get_put_ne _ hk

@[simp] theorem HostSide.get_toReset_self (h : HostSide) (f : Fld) : (h.toReset f).get f = f.rst := by
  simp [HostSide.get, HostSide.toReset]

theorem HostSide.get_toReset_ne (h : HostSide) {f g : Fld} (hk : g.key ≠ f.key) : (h.toReset f).get g = h.get g :=
  tget_tput_ne _ _ _ _ hk

theorem HostSide.get_bump_ne (h : HostSide) {f g : Fld} (n : Nat) (hk : g.key ≠ f.key) : (h.bump f n).get g = h.get g :=
  h.get_put_ne _ hk

/-- A counter that saturates holds at most its largest value. -/
theorem HostSide.get_bump_self (h : HostSide) (f : Fld) (n : Nat) : (h.bump f n).get f = satAdd (h.get f) n f.w := by
  unfold HostSide.bump
  rw [HostSide.get_put_self]
  refine Nat.mod_eq_of_lt ?_
  unfold satAdd
  have := Nat.two_pow_pos f.w
  omega

theorem HostSide.get_count_ne (h : HostSide) {f g : Fld} (n : Nat) (hk : g.key ≠ f.key) : (h.count f n).get g = h.get g := by
  unfold HostSide.count
  split <;> exact h.get_put_ne _ hk

@[simp] theorem HostSide.get_answer (h : HostSide) (r : Resp) (f : Fld) : (h.answer r).get f = h.get f := rfl
@[simp] theorem HostSide.get_send (h : HostSide) (x : Sent) (f : Fld) : (h.send x).get f = h.get f := rfl
@[simp] theorem State.get_held (s t : State) (f : Fld) : (s.held t).host.get f = t.host.get f := rfl

/-- A pair reads what was written to it. -/
theorem HostSide.pair_putPair (h : HostSide) (lo hi : Fld) (v : Nat) (hk : lo.key ≠ hi.key) (hl : lo.w = 32)
    (hh : hi.w = 32) : (h.putPair lo hi v).pair lo hi = v % 2 ^ 64 := by
  unfold HostSide.pair HostSide.putPair
  rw [HostSide.get_put_self, HostSide.get_put_ne _ _ hk, HostSide.get_put_self, hl, hh]
  omega

/-- The host table stays a table of fields: a write keeps every other key. -/
theorem HostSide.regs_put (h : HostSide) (f : Fld) (v : Nat) :
    (h.put f v).regs = tput f.rst h.regs f.key (v % 2 ^ f.w) := rfl

end Sys2Proof.Machine
end

