-- ==== Sys2Proof/Laws/Guard.lean ====
section
/-! SUPPORT. Everything that a guarded command can do: the side's reset and the openness of BAR0 decide, and
nothing but the stated effect follows. -/

namespace Sys2Proof.Machine

/-- A host-side effect: the effect where the side runs, nothing where it does not. -/
theorem hostState_eq (s : State) (f : State → State) :
    hostState s f = .next (if s.host.run then s.held (f s) else s) := by
  unfold hostState
  split <;> rfl

/-- A field-side effect. -/
theorem fieldState_eq (s : State) (f : State → State) :
    fieldState s f = .next (if s.field.run then s.held (f s) else s) := by
  unfold fieldState
  split <;> rfl

/-- A host-side effect while the side runs. -/
theorem hostState_run (s : State) (f : State → State) (h2 : s.host.run = true) :
    hostState s f = .next (s.held (f s)) := by simp [hostState_eq, h2]

theorem fieldState_run (s : State) (f : State → State) (h2 : s.field.run = true) :
    fieldState s f = .next (s.held (f s)) := by simp [fieldState_eq, h2]

theorem hostCmd_run (s : State) (f : HostSide → HostSide) (h2 : s.host.run = true) :
    hostCmd s f = .next (s.held { s with host := f s.host }) := hostState_run s _ h2

theorem fieldCmd_run (s : State) (f : FieldSide → FieldSide) (h2 : s.field.run = true) :
    fieldCmd s f = .next (s.held { s with field := f s.field }) := fieldState_run s _ h2

/-- A register access that reaches its register. -/
theorem regCmd_open (s : State) (who : Requester) (f : HostSide → HostSide) (h2 : s.host.run = true)
    (h3 : s.host.barOpen who = true) :
    regCmd s who f = .next (s.held { s with host := f s.host }) := by
  unfold regCmd regState
  rw [hostState_run s _ h2, if_pos h3]

/-- A register access while BAR0 is closed has no effect (R424). -/
theorem regCmd_closed (s : State) (who : Requester) (f : HostSide → HostSide)
    (h3 : s.host.barOpen who = false) : regCmd s who f = .next s := by
  unfold regCmd regState
  rw [hostState_eq]
  split
  · simp [h3, State.held]
  · rfl

theorem readCmd_open (s : State) (who : Requester) (f : HostSide → HostSide) (h2 : s.host.run = true)
    (h3 : s.host.barOpen who = true) :
    readCmd s who f = .next (s.held { s with host := f s.host }) := by
  unfold readCmd
  rw [hostCmd_run s _ h2, if_pos h3]

/-- A guarded effect on one side never reaches the other side, the queue or the physical module. -/
theorem hostCmd_frame (s t : State) (f : HostSide → HostSide) (h : hostCmd s f = .next t) :
    t.pending = s.pending ∧ t.field = s.field ∧ t.phys = s.phys ∧ t.host.run = s.host.run := by
  unfold hostCmd at h
  rw [hostState_eq] at h
  injection h with h
  subst h
  split <;> exact ⟨rfl, rfl, rfl, rfl⟩

theorem fieldCmd_frame (s t : State) (f : FieldSide → FieldSide) (h : fieldCmd s f = .next t) :
    t.pending = s.pending ∧ t.host = s.host ∧ t.phys = s.phys ∧ t.field.run = s.field.run := by
  unfold fieldCmd at h
  rw [fieldState_eq] at h
  injection h with h
  subst h
  split <;> exact ⟨rfl, rfl, rfl, rfl⟩

end Sys2Proof.Machine
end

