-- ==== Sys2Proof/Laws/Memory.lean ====
section
/-! SUPPORT. Laws of the two memories, the central store (13_central_store.md) and the control-core SRAM: what a byte reads
after a store, and that a store keeps the canonical form. -/

namespace Sys2Proof.Machine

/-- A store leaves every byte outside its range alone. -/
theorem byte_store_outside (st : Store) (ca : Nat) (bs : List Byte) (a : Nat) (h : a < ca ∨ ca + bs.length ≤ a) :
    (st.store ca bs).byte a = st.byte a := by
  induction bs generalizing st ca with
  | nil => rfl
  | cons b bs ih =>
    rw [Store.store, ih]
    · simp only [Store.byte]
      exact tget_tput_ne 0 0 _ _ (by simp only [List.length_cons] at h; omega)
    · simp only [List.length_cons] at h; omega

/-- A store puts its bytes at its addresses in order. -/
theorem byte_store_inside (st : Store) (ca : Nat) (bs : List Byte) (i : Nat) (h : i < bs.length) :
    (st.store ca bs).byte (ca + i) = bs[i] := by
  induction bs generalizing st ca i with
  | nil => simp at h
  | cons b bs ih =>
    rw [Store.store]
    cases i with
    | zero =>
      rw [byte_store_outside _ _ _ _ (by omega)]
      simp [Store.byte]
    | succ i =>
      have := ih (st := { st with mem := tput 0 st.mem ca b }) (ca := ca + 1) (i := i) (by simpa using h)
      simpa [Nat.add_assoc, Nat.add_comm 1 i] using this

/-- A store keeps the central store's canonical form. -/
theorem store_wf (st : Store) (ca : Nat) (bs : List Byte) (h : Memory.wf st.mem = true) :
    Memory.wf (st.store ca bs).mem = true := by
  induction bs generalizing st ca with
  | nil => exact h
  | cons b bs ih => exact ih _ _ (twf_tput 0 _ _ _ h)

/-- A store changes nothing of the central store but its bytes. -/
theorem store_rest (st : Store) (ca : Nat) (bs : List Byte) : st.store ca bs = { st with mem := (st.store ca bs).mem } := by
  induction bs generalizing st ca with
  | nil => rfl
  | cons b bs ih => rw [Store.store, ih]

/-- Dropping a range of bytes, as a change of page owners does, keeps the canonical form. -/
theorem filter_wf (m : Table Byte) (p : Nat × Byte → Bool) (h : Memory.wf m = true) : Memory.wf (m.filter p) = true := by
  induction m with
  | nil => rfl
  | cons q m ih =>
    obtain ⟨a, b⟩ := q
    have hw := (twf_cons 0 a b m).1 h
    by_cases hp : p (a, b) = true
    · rw [List.filter_cons_of_pos hp]
      exact (twf_cons 0 a b _).2 ⟨hw.1, fun q hq => hw.2.1 q (List.mem_filter.1 hq).1, ih hw.2.2⟩
    · rw [List.filter_cons_of_neg hp]
      exact ih hw.2.2

/-- A store to the control-core SRAM keeps its canonical form. -/
theorem sram_store_wf (t : Tartan) (o : Nat) (bs : List Byte) (h : Memory.wf t.sram = true) :
    Memory.wf (t.store o bs).sram = true := by
  induction bs generalizing t o with
  | nil => exact h
  | cons b bs ih => exact ih _ _ (twf_tput 0 _ _ _ h)

/-- A range of memory that moves keeps the canonical form. -/
theorem moveRange_wf (m : Table Byte) (len src dst : Nat) (h : Memory.wf m = true) :
    Memory.wf (moveRange 0 len src dst m) = true := by
  have key (l : Table Byte) (u : Table Byte) (hu : Memory.wf u = true) :
      Memory.wf (l.foldl (fun u p => tput 0 u (p.1 - src + dst) p.2) u) = true := by
    induction l generalizing u with
    | nil => exact hu
    | cons p l ih => exact ih _ (twf_tput 0 u _ _ hu)
  exact key _ _ (filter_wf m _ h)

end Sys2Proof.Machine
end

