-- ==== Sys2Proof/Laws/Parts.lean ====
section
/-! SUPPORT. Laws of the updates of one entry of a part of a side: what reads that entry after the update, what reads the
others, and one lemma per field of the side that the update leaves alone. -/

namespace Sys2Proof.Machine

/-! ## `HostSide.setHead` -/

@[simp] theorem HostSide.head_setHead_self (h : HostSide) (k : Nat) (v : HeadState) : (h.setHead k v).head k = v :=
  tget_tput_self _ _ _ _
theorem HostSide.head_setHead_ne (h : HostSide) {k j : Nat} (v : HeadState) (hk : j ≠ k) : (h.setHead k v).head j = h.head j :=
  tget_tput_ne _ _ _ _ hk
@[simp] theorem HostSide.get_setHead (h : HostSide) (k : Nat) (v : HeadState) (f : Fld) : (h.setHead k v).get f = h.get f := rfl
@[simp] theorem HostSide.setHead_run (h : HostSide) (k : Nat) (v : HeadState) : (h.setHead k v).run = h.run := rfl
@[simp] theorem HostSide.setHead_freeN (h : HostSide) (k : Nat) (v : HeadState) : (h.setHead k v).freeN = h.freeN := rfl
@[simp] theorem HostSide.setHead_regs (h : HostSide) (k : Nat) (v : HeadState) : (h.setHead k v).regs = h.regs := rfl
@[simp] theorem HostSide.setHead_latch (h : HostSide) (k : Nat) (v : HeadState) : (h.setHead k v).latch = h.latch := rfl
@[simp] theorem HostSide.setHead_resp (h : HostSide) (k : Nat) (v : HeadState) : (h.setHead k v).resp = h.resp := rfl
@[simp] theorem HostSide.setHead_tb (h : HostSide) (k : Nat) (v : HeadState) : (h.setHead k v).tb = h.tb := rfl
@[simp] theorem HostSide.setHead_heldLo (h : HostSide) (k : Nat) (v : HeadState) : (h.setHead k v).heldLo = h.heldLo := rfl
@[simp] theorem HostSide.setHead_corrOld (h : HostSide) (k : Nat) (v : HeadState) : (h.setHead k v).corrOld = h.corrOld := rfl
@[simp] theorem HostSide.setHead_shiftNew (h : HostSide) (k : Nat) (v : HeadState) : (h.setHead k v).shiftNew = h.shiftNew := rfl
@[simp] theorem HostSide.setHead_shift (h : HostSide) (k : Nat) (v : HeadState) : (h.setHead k v).shift = h.shift := rfl
@[simp] theorem HostSide.setHead_boot (h : HostSide) (k : Nat) (v : HeadState) : (h.setHead k v).boot = h.boot := rfl
@[simp] theorem HostSide.setHead_fwOp (h : HostSide) (k : Nat) (v : HeadState) : (h.setHead k v).fwOp = h.fwOp := rfl
@[simp] theorem HostSide.setHead_fresh (h : HostSide) (k : Nat) (v : HeadState) : (h.setHead k v).fresh = h.fresh := rfl
@[simp] theorem HostSide.setHead_store (h : HostSide) (k : Nat) (v : HeadState) : (h.setHead k v).store = h.store := rfl
@[simp] theorem HostSide.setHead_tartan (h : HostSide) (k : Nat) (v : HeadState) : (h.setHead k v).tartan = h.tartan := rfl
@[simp] theorem HostSide.setHead_cfg (h : HostSide) (k : Nat) (v : HeadState) : (h.setHead k v).cfg = h.cfg := rfl
@[simp] theorem HostSide.setHead_msix (h : HostSide) (k : Nat) (v : HeadState) : (h.setHead k v).msix = h.msix := rfl
@[simp] theorem HostSide.setHead_msixPend (h : HostSide) (k : Nat) (v : HeadState) : (h.setHead k v).msixPend = h.msixPend := rfl
@[simp] theorem HostSide.setHead_sent (h : HostSide) (k : Nat) (v : HeadState) : (h.setHead k v).sent = h.sent := rfl
@[simp] theorem HostSide.setHead_pcieUp (h : HostSide) (k : Nat) (v : HeadState) : (h.setHead k v).pcieUp = h.pcieUp := rfl
@[simp] theorem HostSide.setHead_xing (h : HostSide) (k : Nat) (v : HeadState) : (h.setHead k v).xing = h.xing := rfl
@[simp] theorem HostSide.setHead_lanes (h : HostSide) (k : Nat) (v : HeadState) : (h.setHead k v).lanes = h.lanes := rfl
@[simp] theorem HostSide.setHead_stage (h : HostSide) (k : Nat) (v : HeadState) : (h.setHead k v).stage = h.stage := rfl
@[simp] theorem HostSide.setHead_twin (h : HostSide) (k : Nat) (v : HeadState) : (h.setHead k v).twin = h.twin := rfl
@[simp] theorem HostSide.setHead_uliska (h : HostSide) (k : Nat) (v : HeadState) : (h.setHead k v).uliska = h.uliska := rfl
@[simp] theorem HostSide.setHead_video (h : HostSide) (k : Nat) (v : HeadState) : (h.setHead k v).video = h.video := rfl
@[simp] theorem HostSide.setHead_mimic (h : HostSide) (k : Nat) (v : HeadState) : (h.setHead k v).mimic = h.mimic := rfl
@[simp] theorem HostSide.setHead_encode (h : HostSide) (k : Nat) (v : HeadState) : (h.setHead k v).encode = h.encode := rfl
@[simp] theorem HostSide.setHead_dfl (h : HostSide) (k : Nat) (v : HeadState) : (h.setHead k v).dfl = h.dfl := rfl
@[simp] theorem HostSide.setHead_repaired (h : HostSide) (k : Nat) (v : HeadState) : (h.setHead k v).repaired = h.repaired := rfl
@[simp] theorem HostSide.setHead_conserve (h : HostSide) (k : Nat) (v : HeadState) : (h.setHead k v).conserve = h.conserve := rfl

/-! ## `HostSide.setSurface` -/

@[simp] theorem HostSide.surface_setSurface_self (h : HostSide) (k : Nat) (v : Option Surface) : (h.setSurface k v).surface k = v :=
  tget_tput_self _ _ _ _
theorem HostSide.surface_setSurface_ne (h : HostSide) {k j : Nat} (v : Option Surface) (hk : j ≠ k) : (h.setSurface k v).surface j = h.surface j :=
  tget_tput_ne _ _ _ _ hk
@[simp] theorem HostSide.get_setSurface (h : HostSide) (k : Nat) (v : Option Surface) (f : Fld) : (h.setSurface k v).get f = h.get f := rfl
@[simp] theorem HostSide.setSurface_run (h : HostSide) (k : Nat) (v : Option Surface) : (h.setSurface k v).run = h.run := rfl
@[simp] theorem HostSide.setSurface_freeN (h : HostSide) (k : Nat) (v : Option Surface) : (h.setSurface k v).freeN = h.freeN := rfl
@[simp] theorem HostSide.setSurface_regs (h : HostSide) (k : Nat) (v : Option Surface) : (h.setSurface k v).regs = h.regs := rfl
@[simp] theorem HostSide.setSurface_latch (h : HostSide) (k : Nat) (v : Option Surface) : (h.setSurface k v).latch = h.latch := rfl
@[simp] theorem HostSide.setSurface_resp (h : HostSide) (k : Nat) (v : Option Surface) : (h.setSurface k v).resp = h.resp := rfl
@[simp] theorem HostSide.setSurface_tb (h : HostSide) (k : Nat) (v : Option Surface) : (h.setSurface k v).tb = h.tb := rfl
@[simp] theorem HostSide.setSurface_heldLo (h : HostSide) (k : Nat) (v : Option Surface) : (h.setSurface k v).heldLo = h.heldLo := rfl
@[simp] theorem HostSide.setSurface_corrOld (h : HostSide) (k : Nat) (v : Option Surface) : (h.setSurface k v).corrOld = h.corrOld := rfl
@[simp] theorem HostSide.setSurface_shiftNew (h : HostSide) (k : Nat) (v : Option Surface) : (h.setSurface k v).shiftNew = h.shiftNew := rfl
@[simp] theorem HostSide.setSurface_shift (h : HostSide) (k : Nat) (v : Option Surface) : (h.setSurface k v).shift = h.shift := rfl
@[simp] theorem HostSide.setSurface_boot (h : HostSide) (k : Nat) (v : Option Surface) : (h.setSurface k v).boot = h.boot := rfl
@[simp] theorem HostSide.setSurface_fwOp (h : HostSide) (k : Nat) (v : Option Surface) : (h.setSurface k v).fwOp = h.fwOp := rfl
@[simp] theorem HostSide.setSurface_fresh (h : HostSide) (k : Nat) (v : Option Surface) : (h.setSurface k v).fresh = h.fresh := rfl
@[simp] theorem HostSide.setSurface_store (h : HostSide) (k : Nat) (v : Option Surface) : (h.setSurface k v).store = h.store := rfl
@[simp] theorem HostSide.setSurface_tartan (h : HostSide) (k : Nat) (v : Option Surface) : (h.setSurface k v).tartan = h.tartan := rfl
@[simp] theorem HostSide.setSurface_cfg (h : HostSide) (k : Nat) (v : Option Surface) : (h.setSurface k v).cfg = h.cfg := rfl
@[simp] theorem HostSide.setSurface_msix (h : HostSide) (k : Nat) (v : Option Surface) : (h.setSurface k v).msix = h.msix := rfl
@[simp] theorem HostSide.setSurface_msixPend (h : HostSide) (k : Nat) (v : Option Surface) : (h.setSurface k v).msixPend = h.msixPend := rfl
@[simp] theorem HostSide.setSurface_sent (h : HostSide) (k : Nat) (v : Option Surface) : (h.setSurface k v).sent = h.sent := rfl
@[simp] theorem HostSide.setSurface_pcieUp (h : HostSide) (k : Nat) (v : Option Surface) : (h.setSurface k v).pcieUp = h.pcieUp := rfl
@[simp] theorem HostSide.setSurface_xing (h : HostSide) (k : Nat) (v : Option Surface) : (h.setSurface k v).xing = h.xing := rfl
@[simp] theorem HostSide.setSurface_lanes (h : HostSide) (k : Nat) (v : Option Surface) : (h.setSurface k v).lanes = h.lanes := rfl
@[simp] theorem HostSide.setSurface_stage (h : HostSide) (k : Nat) (v : Option Surface) : (h.setSurface k v).stage = h.stage := rfl
@[simp] theorem HostSide.setSurface_twin (h : HostSide) (k : Nat) (v : Option Surface) : (h.setSurface k v).twin = h.twin := rfl
@[simp] theorem HostSide.setSurface_uliska (h : HostSide) (k : Nat) (v : Option Surface) : (h.setSurface k v).uliska = h.uliska := rfl
@[simp] theorem HostSide.setSurface_video (h : HostSide) (k : Nat) (v : Option Surface) : (h.setSurface k v).video = h.video := rfl
@[simp] theorem HostSide.setSurface_mimic (h : HostSide) (k : Nat) (v : Option Surface) : (h.setSurface k v).mimic = h.mimic := rfl
@[simp] theorem HostSide.setSurface_encode (h : HostSide) (k : Nat) (v : Option Surface) : (h.setSurface k v).encode = h.encode := rfl
@[simp] theorem HostSide.setSurface_dfl (h : HostSide) (k : Nat) (v : Option Surface) : (h.setSurface k v).dfl = h.dfl := rfl
@[simp] theorem HostSide.setSurface_repaired (h : HostSide) (k : Nat) (v : Option Surface) : (h.setSurface k v).repaired = h.repaired := rfl
@[simp] theorem HostSide.setSurface_conserve (h : HostSide) (k : Nat) (v : Option Surface) : (h.setSurface k v).conserve = h.conserve := rfl

/-! ## `HostSide.setStreamState` -/

@[simp] theorem HostSide.streamState_setStreamState_self (h : HostSide) (k : Nat) (v : StreamState) : (h.setStreamState k v).streamState k = v :=
  tget_tput_self _ _ _ _
theorem HostSide.streamState_setStreamState_ne (h : HostSide) {k j : Nat} (v : StreamState) (hk : j ≠ k) : (h.setStreamState k v).streamState j = h.streamState j :=
  tget_tput_ne _ _ _ _ hk
@[simp] theorem HostSide.get_setStreamState (h : HostSide) (k : Nat) (v : StreamState) (f : Fld) : (h.setStreamState k v).get f = h.get f := rfl
@[simp] theorem HostSide.setStreamState_run (h : HostSide) (k : Nat) (v : StreamState) : (h.setStreamState k v).run = h.run := rfl
@[simp] theorem HostSide.setStreamState_freeN (h : HostSide) (k : Nat) (v : StreamState) : (h.setStreamState k v).freeN = h.freeN := rfl
@[simp] theorem HostSide.setStreamState_regs (h : HostSide) (k : Nat) (v : StreamState) : (h.setStreamState k v).regs = h.regs := rfl
@[simp] theorem HostSide.setStreamState_latch (h : HostSide) (k : Nat) (v : StreamState) : (h.setStreamState k v).latch = h.latch := rfl
@[simp] theorem HostSide.setStreamState_resp (h : HostSide) (k : Nat) (v : StreamState) : (h.setStreamState k v).resp = h.resp := rfl
@[simp] theorem HostSide.setStreamState_tb (h : HostSide) (k : Nat) (v : StreamState) : (h.setStreamState k v).tb = h.tb := rfl
@[simp] theorem HostSide.setStreamState_heldLo (h : HostSide) (k : Nat) (v : StreamState) : (h.setStreamState k v).heldLo = h.heldLo := rfl
@[simp] theorem HostSide.setStreamState_corrOld (h : HostSide) (k : Nat) (v : StreamState) : (h.setStreamState k v).corrOld = h.corrOld := rfl
@[simp] theorem HostSide.setStreamState_shiftNew (h : HostSide) (k : Nat) (v : StreamState) : (h.setStreamState k v).shiftNew = h.shiftNew := rfl
@[simp] theorem HostSide.setStreamState_shift (h : HostSide) (k : Nat) (v : StreamState) : (h.setStreamState k v).shift = h.shift := rfl
@[simp] theorem HostSide.setStreamState_boot (h : HostSide) (k : Nat) (v : StreamState) : (h.setStreamState k v).boot = h.boot := rfl
@[simp] theorem HostSide.setStreamState_fwOp (h : HostSide) (k : Nat) (v : StreamState) : (h.setStreamState k v).fwOp = h.fwOp := rfl
@[simp] theorem HostSide.setStreamState_fresh (h : HostSide) (k : Nat) (v : StreamState) : (h.setStreamState k v).fresh = h.fresh := rfl
@[simp] theorem HostSide.setStreamState_store (h : HostSide) (k : Nat) (v : StreamState) : (h.setStreamState k v).store = h.store := rfl
@[simp] theorem HostSide.setStreamState_tartan (h : HostSide) (k : Nat) (v : StreamState) : (h.setStreamState k v).tartan = h.tartan := rfl
@[simp] theorem HostSide.setStreamState_cfg (h : HostSide) (k : Nat) (v : StreamState) : (h.setStreamState k v).cfg = h.cfg := rfl
@[simp] theorem HostSide.setStreamState_msix (h : HostSide) (k : Nat) (v : StreamState) : (h.setStreamState k v).msix = h.msix := rfl
@[simp] theorem HostSide.setStreamState_msixPend (h : HostSide) (k : Nat) (v : StreamState) : (h.setStreamState k v).msixPend = h.msixPend := rfl
@[simp] theorem HostSide.setStreamState_sent (h : HostSide) (k : Nat) (v : StreamState) : (h.setStreamState k v).sent = h.sent := rfl
@[simp] theorem HostSide.setStreamState_pcieUp (h : HostSide) (k : Nat) (v : StreamState) : (h.setStreamState k v).pcieUp = h.pcieUp := rfl
@[simp] theorem HostSide.setStreamState_xing (h : HostSide) (k : Nat) (v : StreamState) : (h.setStreamState k v).xing = h.xing := rfl
@[simp] theorem HostSide.setStreamState_lanes (h : HostSide) (k : Nat) (v : StreamState) : (h.setStreamState k v).lanes = h.lanes := rfl
@[simp] theorem HostSide.setStreamState_stage (h : HostSide) (k : Nat) (v : StreamState) : (h.setStreamState k v).stage = h.stage := rfl
@[simp] theorem HostSide.setStreamState_twin (h : HostSide) (k : Nat) (v : StreamState) : (h.setStreamState k v).twin = h.twin := rfl
@[simp] theorem HostSide.setStreamState_uliska (h : HostSide) (k : Nat) (v : StreamState) : (h.setStreamState k v).uliska = h.uliska := rfl
@[simp] theorem HostSide.setStreamState_display (h : HostSide) (k : Nat) (v : StreamState) : (h.setStreamState k v).display = h.display := rfl
@[simp] theorem HostSide.setStreamState_mimic (h : HostSide) (k : Nat) (v : StreamState) : (h.setStreamState k v).mimic = h.mimic := rfl
@[simp] theorem HostSide.setStreamState_encode (h : HostSide) (k : Nat) (v : StreamState) : (h.setStreamState k v).encode = h.encode := rfl
@[simp] theorem HostSide.setStreamState_dfl (h : HostSide) (k : Nat) (v : StreamState) : (h.setStreamState k v).dfl = h.dfl := rfl
@[simp] theorem HostSide.setStreamState_repaired (h : HostSide) (k : Nat) (v : StreamState) : (h.setStreamState k v).repaired = h.repaired := rfl
@[simp] theorem HostSide.setStreamState_conserve (h : HostSide) (k : Nat) (v : StreamState) : (h.setStreamState k v).conserve = h.conserve := rfl

/-! ## `HostSide.setContext` -/

@[simp] theorem HostSide.context_setContext_self (h : HostSide) (k : Nat) (v : Context) : (h.setContext k v).context k = v :=
  tget_tput_self _ _ _ _
theorem HostSide.context_setContext_ne (h : HostSide) {k j : Nat} (v : Context) (hk : j ≠ k) : (h.setContext k v).context j = h.context j :=
  tget_tput_ne _ _ _ _ hk
@[simp] theorem HostSide.get_setContext (h : HostSide) (k : Nat) (v : Context) (f : Fld) : (h.setContext k v).get f = h.get f := rfl
@[simp] theorem HostSide.setContext_run (h : HostSide) (k : Nat) (v : Context) : (h.setContext k v).run = h.run := rfl
@[simp] theorem HostSide.setContext_freeN (h : HostSide) (k : Nat) (v : Context) : (h.setContext k v).freeN = h.freeN := rfl
@[simp] theorem HostSide.setContext_regs (h : HostSide) (k : Nat) (v : Context) : (h.setContext k v).regs = h.regs := rfl
@[simp] theorem HostSide.setContext_latch (h : HostSide) (k : Nat) (v : Context) : (h.setContext k v).latch = h.latch := rfl
@[simp] theorem HostSide.setContext_resp (h : HostSide) (k : Nat) (v : Context) : (h.setContext k v).resp = h.resp := rfl
@[simp] theorem HostSide.setContext_tb (h : HostSide) (k : Nat) (v : Context) : (h.setContext k v).tb = h.tb := rfl
@[simp] theorem HostSide.setContext_heldLo (h : HostSide) (k : Nat) (v : Context) : (h.setContext k v).heldLo = h.heldLo := rfl
@[simp] theorem HostSide.setContext_corrOld (h : HostSide) (k : Nat) (v : Context) : (h.setContext k v).corrOld = h.corrOld := rfl
@[simp] theorem HostSide.setContext_shiftNew (h : HostSide) (k : Nat) (v : Context) : (h.setContext k v).shiftNew = h.shiftNew := rfl
@[simp] theorem HostSide.setContext_shift (h : HostSide) (k : Nat) (v : Context) : (h.setContext k v).shift = h.shift := rfl
@[simp] theorem HostSide.setContext_boot (h : HostSide) (k : Nat) (v : Context) : (h.setContext k v).boot = h.boot := rfl
@[simp] theorem HostSide.setContext_fwOp (h : HostSide) (k : Nat) (v : Context) : (h.setContext k v).fwOp = h.fwOp := rfl
@[simp] theorem HostSide.setContext_fresh (h : HostSide) (k : Nat) (v : Context) : (h.setContext k v).fresh = h.fresh := rfl
@[simp] theorem HostSide.setContext_store (h : HostSide) (k : Nat) (v : Context) : (h.setContext k v).store = h.store := rfl
@[simp] theorem HostSide.setContext_tartan (h : HostSide) (k : Nat) (v : Context) : (h.setContext k v).tartan = h.tartan := rfl
@[simp] theorem HostSide.setContext_cfg (h : HostSide) (k : Nat) (v : Context) : (h.setContext k v).cfg = h.cfg := rfl
@[simp] theorem HostSide.setContext_msix (h : HostSide) (k : Nat) (v : Context) : (h.setContext k v).msix = h.msix := rfl
@[simp] theorem HostSide.setContext_msixPend (h : HostSide) (k : Nat) (v : Context) : (h.setContext k v).msixPend = h.msixPend := rfl
@[simp] theorem HostSide.setContext_sent (h : HostSide) (k : Nat) (v : Context) : (h.setContext k v).sent = h.sent := rfl
@[simp] theorem HostSide.setContext_pcieUp (h : HostSide) (k : Nat) (v : Context) : (h.setContext k v).pcieUp = h.pcieUp := rfl
@[simp] theorem HostSide.setContext_xing (h : HostSide) (k : Nat) (v : Context) : (h.setContext k v).xing = h.xing := rfl
@[simp] theorem HostSide.setContext_lanes (h : HostSide) (k : Nat) (v : Context) : (h.setContext k v).lanes = h.lanes := rfl
@[simp] theorem HostSide.setContext_stage (h : HostSide) (k : Nat) (v : Context) : (h.setContext k v).stage = h.stage := rfl
@[simp] theorem HostSide.setContext_twin (h : HostSide) (k : Nat) (v : Context) : (h.setContext k v).twin = h.twin := rfl
@[simp] theorem HostSide.setContext_uliska (h : HostSide) (k : Nat) (v : Context) : (h.setContext k v).uliska = h.uliska := rfl
@[simp] theorem HostSide.setContext_display (h : HostSide) (k : Nat) (v : Context) : (h.setContext k v).display = h.display := rfl
@[simp] theorem HostSide.setContext_mimic (h : HostSide) (k : Nat) (v : Context) : (h.setContext k v).mimic = h.mimic := rfl
@[simp] theorem HostSide.setContext_encode (h : HostSide) (k : Nat) (v : Context) : (h.setContext k v).encode = h.encode := rfl
@[simp] theorem HostSide.setContext_dfl (h : HostSide) (k : Nat) (v : Context) : (h.setContext k v).dfl = h.dfl := rfl
@[simp] theorem HostSide.setContext_repaired (h : HostSide) (k : Nat) (v : Context) : (h.setContext k v).repaired = h.repaired := rfl
@[simp] theorem HostSide.setContext_conserve (h : HostSide) (k : Nat) (v : Context) : (h.setContext k v).conserve = h.conserve := rfl

/-! ## `HostSide.setPicture` -/

@[simp] theorem HostSide.picture_setPicture_self (h : HostSide) (k : Nat) (v : Option Picture) : (h.setPicture k v).picture k = v :=
  tget_tput_self _ _ _ _
theorem HostSide.picture_setPicture_ne (h : HostSide) {k j : Nat} (v : Option Picture) (hk : j ≠ k) : (h.setPicture k v).picture j = h.picture j :=
  tget_tput_ne _ _ _ _ hk
@[simp] theorem HostSide.get_setPicture (h : HostSide) (k : Nat) (v : Option Picture) (f : Fld) : (h.setPicture k v).get f = h.get f := rfl
@[simp] theorem HostSide.setPicture_run (h : HostSide) (k : Nat) (v : Option Picture) : (h.setPicture k v).run = h.run := rfl
@[simp] theorem HostSide.setPicture_freeN (h : HostSide) (k : Nat) (v : Option Picture) : (h.setPicture k v).freeN = h.freeN := rfl
@[simp] theorem HostSide.setPicture_regs (h : HostSide) (k : Nat) (v : Option Picture) : (h.setPicture k v).regs = h.regs := rfl
@[simp] theorem HostSide.setPicture_latch (h : HostSide) (k : Nat) (v : Option Picture) : (h.setPicture k v).latch = h.latch := rfl
@[simp] theorem HostSide.setPicture_resp (h : HostSide) (k : Nat) (v : Option Picture) : (h.setPicture k v).resp = h.resp := rfl
@[simp] theorem HostSide.setPicture_tb (h : HostSide) (k : Nat) (v : Option Picture) : (h.setPicture k v).tb = h.tb := rfl
@[simp] theorem HostSide.setPicture_heldLo (h : HostSide) (k : Nat) (v : Option Picture) : (h.setPicture k v).heldLo = h.heldLo := rfl
@[simp] theorem HostSide.setPicture_corrOld (h : HostSide) (k : Nat) (v : Option Picture) : (h.setPicture k v).corrOld = h.corrOld := rfl
@[simp] theorem HostSide.setPicture_shiftNew (h : HostSide) (k : Nat) (v : Option Picture) : (h.setPicture k v).shiftNew = h.shiftNew := rfl
@[simp] theorem HostSide.setPicture_shift (h : HostSide) (k : Nat) (v : Option Picture) : (h.setPicture k v).shift = h.shift := rfl
@[simp] theorem HostSide.setPicture_boot (h : HostSide) (k : Nat) (v : Option Picture) : (h.setPicture k v).boot = h.boot := rfl
@[simp] theorem HostSide.setPicture_fwOp (h : HostSide) (k : Nat) (v : Option Picture) : (h.setPicture k v).fwOp = h.fwOp := rfl
@[simp] theorem HostSide.setPicture_fresh (h : HostSide) (k : Nat) (v : Option Picture) : (h.setPicture k v).fresh = h.fresh := rfl
@[simp] theorem HostSide.setPicture_store (h : HostSide) (k : Nat) (v : Option Picture) : (h.setPicture k v).store = h.store := rfl
@[simp] theorem HostSide.setPicture_tartan (h : HostSide) (k : Nat) (v : Option Picture) : (h.setPicture k v).tartan = h.tartan := rfl
@[simp] theorem HostSide.setPicture_cfg (h : HostSide) (k : Nat) (v : Option Picture) : (h.setPicture k v).cfg = h.cfg := rfl
@[simp] theorem HostSide.setPicture_msix (h : HostSide) (k : Nat) (v : Option Picture) : (h.setPicture k v).msix = h.msix := rfl
@[simp] theorem HostSide.setPicture_msixPend (h : HostSide) (k : Nat) (v : Option Picture) : (h.setPicture k v).msixPend = h.msixPend := rfl
@[simp] theorem HostSide.setPicture_sent (h : HostSide) (k : Nat) (v : Option Picture) : (h.setPicture k v).sent = h.sent := rfl
@[simp] theorem HostSide.setPicture_pcieUp (h : HostSide) (k : Nat) (v : Option Picture) : (h.setPicture k v).pcieUp = h.pcieUp := rfl
@[simp] theorem HostSide.setPicture_xing (h : HostSide) (k : Nat) (v : Option Picture) : (h.setPicture k v).xing = h.xing := rfl
@[simp] theorem HostSide.setPicture_lanes (h : HostSide) (k : Nat) (v : Option Picture) : (h.setPicture k v).lanes = h.lanes := rfl
@[simp] theorem HostSide.setPicture_stage (h : HostSide) (k : Nat) (v : Option Picture) : (h.setPicture k v).stage = h.stage := rfl
@[simp] theorem HostSide.setPicture_twin (h : HostSide) (k : Nat) (v : Option Picture) : (h.setPicture k v).twin = h.twin := rfl
@[simp] theorem HostSide.setPicture_uliska (h : HostSide) (k : Nat) (v : Option Picture) : (h.setPicture k v).uliska = h.uliska := rfl
@[simp] theorem HostSide.setPicture_display (h : HostSide) (k : Nat) (v : Option Picture) : (h.setPicture k v).display = h.display := rfl
@[simp] theorem HostSide.setPicture_mimic (h : HostSide) (k : Nat) (v : Option Picture) : (h.setPicture k v).mimic = h.mimic := rfl
@[simp] theorem HostSide.setPicture_encode (h : HostSide) (k : Nat) (v : Option Picture) : (h.setPicture k v).encode = h.encode := rfl
@[simp] theorem HostSide.setPicture_dfl (h : HostSide) (k : Nat) (v : Option Picture) : (h.setPicture k v).dfl = h.dfl := rfl
@[simp] theorem HostSide.setPicture_repaired (h : HostSide) (k : Nat) (v : Option Picture) : (h.setPicture k v).repaired = h.repaired := rfl
@[simp] theorem HostSide.setPicture_conserve (h : HostSide) (k : Nat) (v : Option Picture) : (h.setPicture k v).conserve = h.conserve := rfl

/-! ## `HostSide.setLink` -/

@[simp] theorem HostSide.link_setLink_self (h : HostSide) (k : Nat) (v : LinkState) : (h.setLink k v).link k = v :=
  tget_tput_self _ _ _ _
theorem HostSide.link_setLink_ne (h : HostSide) {k j : Nat} (v : LinkState) (hk : j ≠ k) : (h.setLink k v).link j = h.link j :=
  tget_tput_ne _ _ _ _ hk
@[simp] theorem HostSide.get_setLink (h : HostSide) (k : Nat) (v : LinkState) (f : Fld) : (h.setLink k v).get f = h.get f := rfl
@[simp] theorem HostSide.setLink_run (h : HostSide) (k : Nat) (v : LinkState) : (h.setLink k v).run = h.run := rfl
@[simp] theorem HostSide.setLink_freeN (h : HostSide) (k : Nat) (v : LinkState) : (h.setLink k v).freeN = h.freeN := rfl
@[simp] theorem HostSide.setLink_regs (h : HostSide) (k : Nat) (v : LinkState) : (h.setLink k v).regs = h.regs := rfl
@[simp] theorem HostSide.setLink_latch (h : HostSide) (k : Nat) (v : LinkState) : (h.setLink k v).latch = h.latch := rfl
@[simp] theorem HostSide.setLink_resp (h : HostSide) (k : Nat) (v : LinkState) : (h.setLink k v).resp = h.resp := rfl
@[simp] theorem HostSide.setLink_tb (h : HostSide) (k : Nat) (v : LinkState) : (h.setLink k v).tb = h.tb := rfl
@[simp] theorem HostSide.setLink_heldLo (h : HostSide) (k : Nat) (v : LinkState) : (h.setLink k v).heldLo = h.heldLo := rfl
@[simp] theorem HostSide.setLink_corrOld (h : HostSide) (k : Nat) (v : LinkState) : (h.setLink k v).corrOld = h.corrOld := rfl
@[simp] theorem HostSide.setLink_shiftNew (h : HostSide) (k : Nat) (v : LinkState) : (h.setLink k v).shiftNew = h.shiftNew := rfl
@[simp] theorem HostSide.setLink_shift (h : HostSide) (k : Nat) (v : LinkState) : (h.setLink k v).shift = h.shift := rfl
@[simp] theorem HostSide.setLink_boot (h : HostSide) (k : Nat) (v : LinkState) : (h.setLink k v).boot = h.boot := rfl
@[simp] theorem HostSide.setLink_fwOp (h : HostSide) (k : Nat) (v : LinkState) : (h.setLink k v).fwOp = h.fwOp := rfl
@[simp] theorem HostSide.setLink_fresh (h : HostSide) (k : Nat) (v : LinkState) : (h.setLink k v).fresh = h.fresh := rfl
@[simp] theorem HostSide.setLink_store (h : HostSide) (k : Nat) (v : LinkState) : (h.setLink k v).store = h.store := rfl
@[simp] theorem HostSide.setLink_tartan (h : HostSide) (k : Nat) (v : LinkState) : (h.setLink k v).tartan = h.tartan := rfl
@[simp] theorem HostSide.setLink_cfg (h : HostSide) (k : Nat) (v : LinkState) : (h.setLink k v).cfg = h.cfg := rfl
@[simp] theorem HostSide.setLink_msix (h : HostSide) (k : Nat) (v : LinkState) : (h.setLink k v).msix = h.msix := rfl
@[simp] theorem HostSide.setLink_msixPend (h : HostSide) (k : Nat) (v : LinkState) : (h.setLink k v).msixPend = h.msixPend := rfl
@[simp] theorem HostSide.setLink_sent (h : HostSide) (k : Nat) (v : LinkState) : (h.setLink k v).sent = h.sent := rfl
@[simp] theorem HostSide.setLink_pcieUp (h : HostSide) (k : Nat) (v : LinkState) : (h.setLink k v).pcieUp = h.pcieUp := rfl
@[simp] theorem HostSide.setLink_xing (h : HostSide) (k : Nat) (v : LinkState) : (h.setLink k v).xing = h.xing := rfl
@[simp] theorem HostSide.setLink_stage (h : HostSide) (k : Nat) (v : LinkState) : (h.setLink k v).stage = h.stage := rfl
@[simp] theorem HostSide.setLink_twin (h : HostSide) (k : Nat) (v : LinkState) : (h.setLink k v).twin = h.twin := rfl
@[simp] theorem HostSide.setLink_uliska (h : HostSide) (k : Nat) (v : LinkState) : (h.setLink k v).uliska = h.uliska := rfl
@[simp] theorem HostSide.setLink_display (h : HostSide) (k : Nat) (v : LinkState) : (h.setLink k v).display = h.display := rfl
@[simp] theorem HostSide.setLink_video (h : HostSide) (k : Nat) (v : LinkState) : (h.setLink k v).video = h.video := rfl
@[simp] theorem HostSide.setLink_mimic (h : HostSide) (k : Nat) (v : LinkState) : (h.setLink k v).mimic = h.mimic := rfl
@[simp] theorem HostSide.setLink_encode (h : HostSide) (k : Nat) (v : LinkState) : (h.setLink k v).encode = h.encode := rfl
@[simp] theorem HostSide.setLink_dfl (h : HostSide) (k : Nat) (v : LinkState) : (h.setLink k v).dfl = h.dfl := rfl
@[simp] theorem HostSide.setLink_repaired (h : HostSide) (k : Nat) (v : LinkState) : (h.setLink k v).repaired = h.repaired := rfl
@[simp] theorem HostSide.setLink_conserve (h : HostSide) (k : Nat) (v : LinkState) : (h.setLink k v).conserve = h.conserve := rfl

/-! ## `HostSide.setRegion` -/

@[simp] theorem HostSide.region_setRegion_self (h : HostSide) (k : Nat) (v : Region) : (h.setRegion k v).region k = v :=
  tget_tput_self _ _ _ _
theorem HostSide.region_setRegion_ne (h : HostSide) {k j : Nat} (v : Region) (hk : j ≠ k) : (h.setRegion k v).region j = h.region j :=
  tget_tput_ne _ _ _ _ hk
@[simp] theorem HostSide.get_setRegion (h : HostSide) (k : Nat) (v : Region) (f : Fld) : (h.setRegion k v).get f = h.get f := rfl
@[simp] theorem HostSide.setRegion_run (h : HostSide) (k : Nat) (v : Region) : (h.setRegion k v).run = h.run := rfl
@[simp] theorem HostSide.setRegion_freeN (h : HostSide) (k : Nat) (v : Region) : (h.setRegion k v).freeN = h.freeN := rfl
@[simp] theorem HostSide.setRegion_regs (h : HostSide) (k : Nat) (v : Region) : (h.setRegion k v).regs = h.regs := rfl
@[simp] theorem HostSide.setRegion_latch (h : HostSide) (k : Nat) (v : Region) : (h.setRegion k v).latch = h.latch := rfl
@[simp] theorem HostSide.setRegion_resp (h : HostSide) (k : Nat) (v : Region) : (h.setRegion k v).resp = h.resp := rfl
@[simp] theorem HostSide.setRegion_tb (h : HostSide) (k : Nat) (v : Region) : (h.setRegion k v).tb = h.tb := rfl
@[simp] theorem HostSide.setRegion_heldLo (h : HostSide) (k : Nat) (v : Region) : (h.setRegion k v).heldLo = h.heldLo := rfl
@[simp] theorem HostSide.setRegion_corrOld (h : HostSide) (k : Nat) (v : Region) : (h.setRegion k v).corrOld = h.corrOld := rfl
@[simp] theorem HostSide.setRegion_shiftNew (h : HostSide) (k : Nat) (v : Region) : (h.setRegion k v).shiftNew = h.shiftNew := rfl
@[simp] theorem HostSide.setRegion_shift (h : HostSide) (k : Nat) (v : Region) : (h.setRegion k v).shift = h.shift := rfl
@[simp] theorem HostSide.setRegion_boot (h : HostSide) (k : Nat) (v : Region) : (h.setRegion k v).boot = h.boot := rfl
@[simp] theorem HostSide.setRegion_fwOp (h : HostSide) (k : Nat) (v : Region) : (h.setRegion k v).fwOp = h.fwOp := rfl
@[simp] theorem HostSide.setRegion_fresh (h : HostSide) (k : Nat) (v : Region) : (h.setRegion k v).fresh = h.fresh := rfl
@[simp] theorem HostSide.setRegion_store (h : HostSide) (k : Nat) (v : Region) : (h.setRegion k v).store = h.store := rfl
@[simp] theorem HostSide.setRegion_tartan (h : HostSide) (k : Nat) (v : Region) : (h.setRegion k v).tartan = h.tartan := rfl
@[simp] theorem HostSide.setRegion_cfg (h : HostSide) (k : Nat) (v : Region) : (h.setRegion k v).cfg = h.cfg := rfl
@[simp] theorem HostSide.setRegion_msix (h : HostSide) (k : Nat) (v : Region) : (h.setRegion k v).msix = h.msix := rfl
@[simp] theorem HostSide.setRegion_msixPend (h : HostSide) (k : Nat) (v : Region) : (h.setRegion k v).msixPend = h.msixPend := rfl
@[simp] theorem HostSide.setRegion_sent (h : HostSide) (k : Nat) (v : Region) : (h.setRegion k v).sent = h.sent := rfl
@[simp] theorem HostSide.setRegion_pcieUp (h : HostSide) (k : Nat) (v : Region) : (h.setRegion k v).pcieUp = h.pcieUp := rfl
@[simp] theorem HostSide.setRegion_xing (h : HostSide) (k : Nat) (v : Region) : (h.setRegion k v).xing = h.xing := rfl
@[simp] theorem HostSide.setRegion_stage (h : HostSide) (k : Nat) (v : Region) : (h.setRegion k v).stage = h.stage := rfl
@[simp] theorem HostSide.setRegion_twin (h : HostSide) (k : Nat) (v : Region) : (h.setRegion k v).twin = h.twin := rfl
@[simp] theorem HostSide.setRegion_uliska (h : HostSide) (k : Nat) (v : Region) : (h.setRegion k v).uliska = h.uliska := rfl
@[simp] theorem HostSide.setRegion_display (h : HostSide) (k : Nat) (v : Region) : (h.setRegion k v).display = h.display := rfl
@[simp] theorem HostSide.setRegion_video (h : HostSide) (k : Nat) (v : Region) : (h.setRegion k v).video = h.video := rfl
@[simp] theorem HostSide.setRegion_mimic (h : HostSide) (k : Nat) (v : Region) : (h.setRegion k v).mimic = h.mimic := rfl
@[simp] theorem HostSide.setRegion_encode (h : HostSide) (k : Nat) (v : Region) : (h.setRegion k v).encode = h.encode := rfl
@[simp] theorem HostSide.setRegion_dfl (h : HostSide) (k : Nat) (v : Region) : (h.setRegion k v).dfl = h.dfl := rfl
@[simp] theorem HostSide.setRegion_repaired (h : HostSide) (k : Nat) (v : Region) : (h.setRegion k v).repaired = h.repaired := rfl
@[simp] theorem HostSide.setRegion_conserve (h : HostSide) (k : Nat) (v : Region) : (h.setRegion k v).conserve = h.conserve := rfl

/-! ## `HostSide.setSend` -/

@[simp] theorem HostSide.sendState_setSend_self (h : HostSide) (k : Nat) (v : SendState) : (h.setSend k v).sendState k = v :=
  tget_tput_self _ _ _ _
theorem HostSide.sendState_setSend_ne (h : HostSide) {k j : Nat} (v : SendState) (hk : j ≠ k) : (h.setSend k v).sendState j = h.sendState j :=
  tget_tput_ne _ _ _ _ hk
@[simp] theorem HostSide.get_setSend (h : HostSide) (k : Nat) (v : SendState) (f : Fld) : (h.setSend k v).get f = h.get f := rfl
@[simp] theorem HostSide.setSend_run (h : HostSide) (k : Nat) (v : SendState) : (h.setSend k v).run = h.run := rfl
@[simp] theorem HostSide.setSend_freeN (h : HostSide) (k : Nat) (v : SendState) : (h.setSend k v).freeN = h.freeN := rfl
@[simp] theorem HostSide.setSend_regs (h : HostSide) (k : Nat) (v : SendState) : (h.setSend k v).regs = h.regs := rfl
@[simp] theorem HostSide.setSend_latch (h : HostSide) (k : Nat) (v : SendState) : (h.setSend k v).latch = h.latch := rfl
@[simp] theorem HostSide.setSend_resp (h : HostSide) (k : Nat) (v : SendState) : (h.setSend k v).resp = h.resp := rfl
@[simp] theorem HostSide.setSend_tb (h : HostSide) (k : Nat) (v : SendState) : (h.setSend k v).tb = h.tb := rfl
@[simp] theorem HostSide.setSend_heldLo (h : HostSide) (k : Nat) (v : SendState) : (h.setSend k v).heldLo = h.heldLo := rfl
@[simp] theorem HostSide.setSend_corrOld (h : HostSide) (k : Nat) (v : SendState) : (h.setSend k v).corrOld = h.corrOld := rfl
@[simp] theorem HostSide.setSend_shiftNew (h : HostSide) (k : Nat) (v : SendState) : (h.setSend k v).shiftNew = h.shiftNew := rfl
@[simp] theorem HostSide.setSend_shift (h : HostSide) (k : Nat) (v : SendState) : (h.setSend k v).shift = h.shift := rfl
@[simp] theorem HostSide.setSend_boot (h : HostSide) (k : Nat) (v : SendState) : (h.setSend k v).boot = h.boot := rfl
@[simp] theorem HostSide.setSend_fwOp (h : HostSide) (k : Nat) (v : SendState) : (h.setSend k v).fwOp = h.fwOp := rfl
@[simp] theorem HostSide.setSend_fresh (h : HostSide) (k : Nat) (v : SendState) : (h.setSend k v).fresh = h.fresh := rfl
@[simp] theorem HostSide.setSend_store (h : HostSide) (k : Nat) (v : SendState) : (h.setSend k v).store = h.store := rfl
@[simp] theorem HostSide.setSend_tartan (h : HostSide) (k : Nat) (v : SendState) : (h.setSend k v).tartan = h.tartan := rfl
@[simp] theorem HostSide.setSend_cfg (h : HostSide) (k : Nat) (v : SendState) : (h.setSend k v).cfg = h.cfg := rfl
@[simp] theorem HostSide.setSend_msix (h : HostSide) (k : Nat) (v : SendState) : (h.setSend k v).msix = h.msix := rfl
@[simp] theorem HostSide.setSend_msixPend (h : HostSide) (k : Nat) (v : SendState) : (h.setSend k v).msixPend = h.msixPend := rfl
@[simp] theorem HostSide.setSend_sent (h : HostSide) (k : Nat) (v : SendState) : (h.setSend k v).sent = h.sent := rfl
@[simp] theorem HostSide.setSend_pcieUp (h : HostSide) (k : Nat) (v : SendState) : (h.setSend k v).pcieUp = h.pcieUp := rfl
@[simp] theorem HostSide.setSend_xing (h : HostSide) (k : Nat) (v : SendState) : (h.setSend k v).xing = h.xing := rfl
@[simp] theorem HostSide.setSend_stage (h : HostSide) (k : Nat) (v : SendState) : (h.setSend k v).stage = h.stage := rfl
@[simp] theorem HostSide.setSend_twin (h : HostSide) (k : Nat) (v : SendState) : (h.setSend k v).twin = h.twin := rfl
@[simp] theorem HostSide.setSend_uliska (h : HostSide) (k : Nat) (v : SendState) : (h.setSend k v).uliska = h.uliska := rfl
@[simp] theorem HostSide.setSend_display (h : HostSide) (k : Nat) (v : SendState) : (h.setSend k v).display = h.display := rfl
@[simp] theorem HostSide.setSend_video (h : HostSide) (k : Nat) (v : SendState) : (h.setSend k v).video = h.video := rfl
@[simp] theorem HostSide.setSend_mimic (h : HostSide) (k : Nat) (v : SendState) : (h.setSend k v).mimic = h.mimic := rfl
@[simp] theorem HostSide.setSend_encode (h : HostSide) (k : Nat) (v : SendState) : (h.setSend k v).encode = h.encode := rfl
@[simp] theorem HostSide.setSend_dfl (h : HostSide) (k : Nat) (v : SendState) : (h.setSend k v).dfl = h.dfl := rfl
@[simp] theorem HostSide.setSend_repaired (h : HostSide) (k : Nat) (v : SendState) : (h.setSend k v).repaired = h.repaired := rfl
@[simp] theorem HostSide.setSend_conserve (h : HostSide) (k : Nat) (v : SendState) : (h.setSend k v).conserve = h.conserve := rfl

/-! ## `HostSide.setEngine` -/

@[simp] theorem HostSide.engine_setEngine_self (h : HostSide) (k : Nat) (v : DflEngine) : (h.setEngine k v).engine k = v :=
  tget_tput_self _ _ _ _
theorem HostSide.engine_setEngine_ne (h : HostSide) {k j : Nat} (v : DflEngine) (hk : j ≠ k) : (h.setEngine k v).engine j = h.engine j :=
  tget_tput_ne _ _ _ _ hk
@[simp] theorem HostSide.get_setEngine (h : HostSide) (k : Nat) (v : DflEngine) (f : Fld) : (h.setEngine k v).get f = h.get f := rfl
@[simp] theorem HostSide.setEngine_run (h : HostSide) (k : Nat) (v : DflEngine) : (h.setEngine k v).run = h.run := rfl
@[simp] theorem HostSide.setEngine_freeN (h : HostSide) (k : Nat) (v : DflEngine) : (h.setEngine k v).freeN = h.freeN := rfl
@[simp] theorem HostSide.setEngine_regs (h : HostSide) (k : Nat) (v : DflEngine) : (h.setEngine k v).regs = h.regs := rfl
@[simp] theorem HostSide.setEngine_latch (h : HostSide) (k : Nat) (v : DflEngine) : (h.setEngine k v).latch = h.latch := rfl
@[simp] theorem HostSide.setEngine_resp (h : HostSide) (k : Nat) (v : DflEngine) : (h.setEngine k v).resp = h.resp := rfl
@[simp] theorem HostSide.setEngine_tb (h : HostSide) (k : Nat) (v : DflEngine) : (h.setEngine k v).tb = h.tb := rfl
@[simp] theorem HostSide.setEngine_heldLo (h : HostSide) (k : Nat) (v : DflEngine) : (h.setEngine k v).heldLo = h.heldLo := rfl
@[simp] theorem HostSide.setEngine_corrOld (h : HostSide) (k : Nat) (v : DflEngine) : (h.setEngine k v).corrOld = h.corrOld := rfl
@[simp] theorem HostSide.setEngine_shiftNew (h : HostSide) (k : Nat) (v : DflEngine) : (h.setEngine k v).shiftNew = h.shiftNew := rfl
@[simp] theorem HostSide.setEngine_shift (h : HostSide) (k : Nat) (v : DflEngine) : (h.setEngine k v).shift = h.shift := rfl
@[simp] theorem HostSide.setEngine_boot (h : HostSide) (k : Nat) (v : DflEngine) : (h.setEngine k v).boot = h.boot := rfl
@[simp] theorem HostSide.setEngine_fwOp (h : HostSide) (k : Nat) (v : DflEngine) : (h.setEngine k v).fwOp = h.fwOp := rfl
@[simp] theorem HostSide.setEngine_fresh (h : HostSide) (k : Nat) (v : DflEngine) : (h.setEngine k v).fresh = h.fresh := rfl
@[simp] theorem HostSide.setEngine_store (h : HostSide) (k : Nat) (v : DflEngine) : (h.setEngine k v).store = h.store := rfl
@[simp] theorem HostSide.setEngine_tartan (h : HostSide) (k : Nat) (v : DflEngine) : (h.setEngine k v).tartan = h.tartan := rfl
@[simp] theorem HostSide.setEngine_cfg (h : HostSide) (k : Nat) (v : DflEngine) : (h.setEngine k v).cfg = h.cfg := rfl
@[simp] theorem HostSide.setEngine_msix (h : HostSide) (k : Nat) (v : DflEngine) : (h.setEngine k v).msix = h.msix := rfl
@[simp] theorem HostSide.setEngine_msixPend (h : HostSide) (k : Nat) (v : DflEngine) : (h.setEngine k v).msixPend = h.msixPend := rfl
@[simp] theorem HostSide.setEngine_sent (h : HostSide) (k : Nat) (v : DflEngine) : (h.setEngine k v).sent = h.sent := rfl
@[simp] theorem HostSide.setEngine_pcieUp (h : HostSide) (k : Nat) (v : DflEngine) : (h.setEngine k v).pcieUp = h.pcieUp := rfl
@[simp] theorem HostSide.setEngine_xing (h : HostSide) (k : Nat) (v : DflEngine) : (h.setEngine k v).xing = h.xing := rfl
@[simp] theorem HostSide.setEngine_lanes (h : HostSide) (k : Nat) (v : DflEngine) : (h.setEngine k v).lanes = h.lanes := rfl
@[simp] theorem HostSide.setEngine_stage (h : HostSide) (k : Nat) (v : DflEngine) : (h.setEngine k v).stage = h.stage := rfl
@[simp] theorem HostSide.setEngine_twin (h : HostSide) (k : Nat) (v : DflEngine) : (h.setEngine k v).twin = h.twin := rfl
@[simp] theorem HostSide.setEngine_uliska (h : HostSide) (k : Nat) (v : DflEngine) : (h.setEngine k v).uliska = h.uliska := rfl
@[simp] theorem HostSide.setEngine_display (h : HostSide) (k : Nat) (v : DflEngine) : (h.setEngine k v).display = h.display := rfl
@[simp] theorem HostSide.setEngine_video (h : HostSide) (k : Nat) (v : DflEngine) : (h.setEngine k v).video = h.video := rfl
@[simp] theorem HostSide.setEngine_mimic (h : HostSide) (k : Nat) (v : DflEngine) : (h.setEngine k v).mimic = h.mimic := rfl
@[simp] theorem HostSide.setEngine_encode (h : HostSide) (k : Nat) (v : DflEngine) : (h.setEngine k v).encode = h.encode := rfl
@[simp] theorem HostSide.setEngine_repaired (h : HostSide) (k : Nat) (v : DflEngine) : (h.setEngine k v).repaired = h.repaired := rfl
@[simp] theorem HostSide.setEngine_conserve (h : HostSide) (k : Nat) (v : DflEngine) : (h.setEngine k v).conserve = h.conserve := rfl

/-! ## `HostSide.setWidget` -/

@[simp] theorem HostSide.widgetState_setWidget_self (h : HostSide) (k : Nat) (v : WidgetState) : (h.setWidget k v).widgetState k = v :=
  tget_tput_self _ _ _ _
theorem HostSide.widgetState_setWidget_ne (h : HostSide) {k j : Nat} (v : WidgetState) (hk : j ≠ k) : (h.setWidget k v).widgetState j = h.widgetState j :=
  tget_tput_ne _ _ _ _ hk
@[simp] theorem HostSide.get_setWidget (h : HostSide) (k : Nat) (v : WidgetState) (f : Fld) : (h.setWidget k v).get f = h.get f := rfl
@[simp] theorem HostSide.setWidget_run (h : HostSide) (k : Nat) (v : WidgetState) : (h.setWidget k v).run = h.run := rfl
@[simp] theorem HostSide.setWidget_freeN (h : HostSide) (k : Nat) (v : WidgetState) : (h.setWidget k v).freeN = h.freeN := rfl
@[simp] theorem HostSide.setWidget_regs (h : HostSide) (k : Nat) (v : WidgetState) : (h.setWidget k v).regs = h.regs := rfl
@[simp] theorem HostSide.setWidget_latch (h : HostSide) (k : Nat) (v : WidgetState) : (h.setWidget k v).latch = h.latch := rfl
@[simp] theorem HostSide.setWidget_resp (h : HostSide) (k : Nat) (v : WidgetState) : (h.setWidget k v).resp = h.resp := rfl
@[simp] theorem HostSide.setWidget_tb (h : HostSide) (k : Nat) (v : WidgetState) : (h.setWidget k v).tb = h.tb := rfl
@[simp] theorem HostSide.setWidget_heldLo (h : HostSide) (k : Nat) (v : WidgetState) : (h.setWidget k v).heldLo = h.heldLo := rfl
@[simp] theorem HostSide.setWidget_corrOld (h : HostSide) (k : Nat) (v : WidgetState) : (h.setWidget k v).corrOld = h.corrOld := rfl
@[simp] theorem HostSide.setWidget_shiftNew (h : HostSide) (k : Nat) (v : WidgetState) : (h.setWidget k v).shiftNew = h.shiftNew := rfl
@[simp] theorem HostSide.setWidget_shift (h : HostSide) (k : Nat) (v : WidgetState) : (h.setWidget k v).shift = h.shift := rfl
@[simp] theorem HostSide.setWidget_boot (h : HostSide) (k : Nat) (v : WidgetState) : (h.setWidget k v).boot = h.boot := rfl
@[simp] theorem HostSide.setWidget_fwOp (h : HostSide) (k : Nat) (v : WidgetState) : (h.setWidget k v).fwOp = h.fwOp := rfl
@[simp] theorem HostSide.setWidget_fresh (h : HostSide) (k : Nat) (v : WidgetState) : (h.setWidget k v).fresh = h.fresh := rfl
@[simp] theorem HostSide.setWidget_store (h : HostSide) (k : Nat) (v : WidgetState) : (h.setWidget k v).store = h.store := rfl
@[simp] theorem HostSide.setWidget_tartan (h : HostSide) (k : Nat) (v : WidgetState) : (h.setWidget k v).tartan = h.tartan := rfl
@[simp] theorem HostSide.setWidget_cfg (h : HostSide) (k : Nat) (v : WidgetState) : (h.setWidget k v).cfg = h.cfg := rfl
@[simp] theorem HostSide.setWidget_msix (h : HostSide) (k : Nat) (v : WidgetState) : (h.setWidget k v).msix = h.msix := rfl
@[simp] theorem HostSide.setWidget_msixPend (h : HostSide) (k : Nat) (v : WidgetState) : (h.setWidget k v).msixPend = h.msixPend := rfl
@[simp] theorem HostSide.setWidget_sent (h : HostSide) (k : Nat) (v : WidgetState) : (h.setWidget k v).sent = h.sent := rfl
@[simp] theorem HostSide.setWidget_pcieUp (h : HostSide) (k : Nat) (v : WidgetState) : (h.setWidget k v).pcieUp = h.pcieUp := rfl
@[simp] theorem HostSide.setWidget_xing (h : HostSide) (k : Nat) (v : WidgetState) : (h.setWidget k v).xing = h.xing := rfl
@[simp] theorem HostSide.setWidget_lanes (h : HostSide) (k : Nat) (v : WidgetState) : (h.setWidget k v).lanes = h.lanes := rfl
@[simp] theorem HostSide.setWidget_stage (h : HostSide) (k : Nat) (v : WidgetState) : (h.setWidget k v).stage = h.stage := rfl
@[simp] theorem HostSide.setWidget_twin (h : HostSide) (k : Nat) (v : WidgetState) : (h.setWidget k v).twin = h.twin := rfl
@[simp] theorem HostSide.setWidget_uliska (h : HostSide) (k : Nat) (v : WidgetState) : (h.setWidget k v).uliska = h.uliska := rfl
@[simp] theorem HostSide.setWidget_display (h : HostSide) (k : Nat) (v : WidgetState) : (h.setWidget k v).display = h.display := rfl
@[simp] theorem HostSide.setWidget_video (h : HostSide) (k : Nat) (v : WidgetState) : (h.setWidget k v).video = h.video := rfl
@[simp] theorem HostSide.setWidget_encode (h : HostSide) (k : Nat) (v : WidgetState) : (h.setWidget k v).encode = h.encode := rfl
@[simp] theorem HostSide.setWidget_dfl (h : HostSide) (k : Nat) (v : WidgetState) : (h.setWidget k v).dfl = h.dfl := rfl
@[simp] theorem HostSide.setWidget_repaired (h : HostSide) (k : Nat) (v : WidgetState) : (h.setWidget k v).repaired = h.repaired := rfl
@[simp] theorem HostSide.setWidget_conserve (h : HostSide) (k : Nat) (v : WidgetState) : (h.setWidget k v).conserve = h.conserve := rfl

/-! ## `HostSide.setMimicSurf` -/

@[simp] theorem HostSide.mimicSurf_setMimicSurf_self (h : HostSide) (k : Nat) (v : Option MimicSurf) : (h.setMimicSurf k v).mimicSurf k = v :=
  tget_tput_self _ _ _ _
theorem HostSide.mimicSurf_setMimicSurf_ne (h : HostSide) {k j : Nat} (v : Option MimicSurf) (hk : j ≠ k) : (h.setMimicSurf k v).mimicSurf j = h.mimicSurf j :=
  tget_tput_ne _ _ _ _ hk
@[simp] theorem HostSide.get_setMimicSurf (h : HostSide) (k : Nat) (v : Option MimicSurf) (f : Fld) : (h.setMimicSurf k v).get f = h.get f := rfl
@[simp] theorem HostSide.setMimicSurf_run (h : HostSide) (k : Nat) (v : Option MimicSurf) : (h.setMimicSurf k v).run = h.run := rfl
@[simp] theorem HostSide.setMimicSurf_freeN (h : HostSide) (k : Nat) (v : Option MimicSurf) : (h.setMimicSurf k v).freeN = h.freeN := rfl
@[simp] theorem HostSide.setMimicSurf_regs (h : HostSide) (k : Nat) (v : Option MimicSurf) : (h.setMimicSurf k v).regs = h.regs := rfl
@[simp] theorem HostSide.setMimicSurf_latch (h : HostSide) (k : Nat) (v : Option MimicSurf) : (h.setMimicSurf k v).latch = h.latch := rfl
@[simp] theorem HostSide.setMimicSurf_resp (h : HostSide) (k : Nat) (v : Option MimicSurf) : (h.setMimicSurf k v).resp = h.resp := rfl
@[simp] theorem HostSide.setMimicSurf_tb (h : HostSide) (k : Nat) (v : Option MimicSurf) : (h.setMimicSurf k v).tb = h.tb := rfl
@[simp] theorem HostSide.setMimicSurf_heldLo (h : HostSide) (k : Nat) (v : Option MimicSurf) : (h.setMimicSurf k v).heldLo = h.heldLo := rfl
@[simp] theorem HostSide.setMimicSurf_corrOld (h : HostSide) (k : Nat) (v : Option MimicSurf) : (h.setMimicSurf k v).corrOld = h.corrOld := rfl
@[simp] theorem HostSide.setMimicSurf_shiftNew (h : HostSide) (k : Nat) (v : Option MimicSurf) : (h.setMimicSurf k v).shiftNew = h.shiftNew := rfl
@[simp] theorem HostSide.setMimicSurf_shift (h : HostSide) (k : Nat) (v : Option MimicSurf) : (h.setMimicSurf k v).shift = h.shift := rfl
@[simp] theorem HostSide.setMimicSurf_boot (h : HostSide) (k : Nat) (v : Option MimicSurf) : (h.setMimicSurf k v).boot = h.boot := rfl
@[simp] theorem HostSide.setMimicSurf_fwOp (h : HostSide) (k : Nat) (v : Option MimicSurf) : (h.setMimicSurf k v).fwOp = h.fwOp := rfl
@[simp] theorem HostSide.setMimicSurf_fresh (h : HostSide) (k : Nat) (v : Option MimicSurf) : (h.setMimicSurf k v).fresh = h.fresh := rfl
@[simp] theorem HostSide.setMimicSurf_store (h : HostSide) (k : Nat) (v : Option MimicSurf) : (h.setMimicSurf k v).store = h.store := rfl
@[simp] theorem HostSide.setMimicSurf_tartan (h : HostSide) (k : Nat) (v : Option MimicSurf) : (h.setMimicSurf k v).tartan = h.tartan := rfl
@[simp] theorem HostSide.setMimicSurf_cfg (h : HostSide) (k : Nat) (v : Option MimicSurf) : (h.setMimicSurf k v).cfg = h.cfg := rfl
@[simp] theorem HostSide.setMimicSurf_msix (h : HostSide) (k : Nat) (v : Option MimicSurf) : (h.setMimicSurf k v).msix = h.msix := rfl
@[simp] theorem HostSide.setMimicSurf_msixPend (h : HostSide) (k : Nat) (v : Option MimicSurf) : (h.setMimicSurf k v).msixPend = h.msixPend := rfl
@[simp] theorem HostSide.setMimicSurf_sent (h : HostSide) (k : Nat) (v : Option MimicSurf) : (h.setMimicSurf k v).sent = h.sent := rfl
@[simp] theorem HostSide.setMimicSurf_pcieUp (h : HostSide) (k : Nat) (v : Option MimicSurf) : (h.setMimicSurf k v).pcieUp = h.pcieUp := rfl
@[simp] theorem HostSide.setMimicSurf_xing (h : HostSide) (k : Nat) (v : Option MimicSurf) : (h.setMimicSurf k v).xing = h.xing := rfl
@[simp] theorem HostSide.setMimicSurf_lanes (h : HostSide) (k : Nat) (v : Option MimicSurf) : (h.setMimicSurf k v).lanes = h.lanes := rfl
@[simp] theorem HostSide.setMimicSurf_stage (h : HostSide) (k : Nat) (v : Option MimicSurf) : (h.setMimicSurf k v).stage = h.stage := rfl
@[simp] theorem HostSide.setMimicSurf_twin (h : HostSide) (k : Nat) (v : Option MimicSurf) : (h.setMimicSurf k v).twin = h.twin := rfl
@[simp] theorem HostSide.setMimicSurf_uliska (h : HostSide) (k : Nat) (v : Option MimicSurf) : (h.setMimicSurf k v).uliska = h.uliska := rfl
@[simp] theorem HostSide.setMimicSurf_display (h : HostSide) (k : Nat) (v : Option MimicSurf) : (h.setMimicSurf k v).display = h.display := rfl
@[simp] theorem HostSide.setMimicSurf_video (h : HostSide) (k : Nat) (v : Option MimicSurf) : (h.setMimicSurf k v).video = h.video := rfl
@[simp] theorem HostSide.setMimicSurf_encode (h : HostSide) (k : Nat) (v : Option MimicSurf) : (h.setMimicSurf k v).encode = h.encode := rfl
@[simp] theorem HostSide.setMimicSurf_dfl (h : HostSide) (k : Nat) (v : Option MimicSurf) : (h.setMimicSurf k v).dfl = h.dfl := rfl
@[simp] theorem HostSide.setMimicSurf_repaired (h : HostSide) (k : Nat) (v : Option MimicSurf) : (h.setMimicSurf k v).repaired = h.repaired := rfl
@[simp] theorem HostSide.setMimicSurf_conserve (h : HostSide) (k : Nat) (v : Option MimicSurf) : (h.setMimicSurf k v).conserve = h.conserve := rfl

/-! ## `FieldSide.setWork` -/

@[simp] theorem FieldSide.setWork_work (f : FieldSide) (w : FieldWork) : (f.setWork w).work = w := rfl
@[simp] theorem FieldSide.setWork_run (f : FieldSide) (w : FieldWork) : (f.setWork w).run = f.run := rfl
@[simp] theorem FieldSide.setWork_freeN (f : FieldSide) (w : FieldWork) : (f.setWork w).freeN = f.freeN := rfl
@[simp] theorem FieldSide.setWork_tb (f : FieldSide) (w : FieldWork) : (f.setWork w).tb = f.tb := rfl
@[simp] theorem FieldSide.setWork_boot (f : FieldSide) (w : FieldWork) : (f.setWork w).boot = f.boot := rfl
@[simp] theorem FieldSide.setWork_role (f : FieldSide) (w : FieldWork) : (f.setWork w).role = f.role := rfl
@[simp] theorem FieldSide.setWork_faultPin (f : FieldSide) (w : FieldWork) : (f.setWork w).faultPin = f.faultPin := rfl
@[simp] theorem FieldSide.setWork_bank (f : FieldSide) (w : FieldWork) : (f.setWork w).bank = f.bank := rfl
@[simp] theorem FieldSide.setWork_fallback (f : FieldSide) (w : FieldWork) : (f.setWork w).fallback = f.fallback := rfl
@[simp] theorem FieldSide.setWork_build (f : FieldSide) (w : FieldWork) : (f.setWork w).build = f.build := rfl
@[simp] theorem FieldSide.setWork_temp (f : FieldSide) (w : FieldWork) : (f.setWork w).temp = f.temp := rfl
@[simp] theorem FieldSide.setWork_zref (f : FieldSide) (w : FieldWork) : (f.setWork w).zref = f.zref := rfl
@[simp] theorem FieldSide.setWork_lanes (f : FieldSide) (w : FieldWork) : (f.setWork w).lanes = f.lanes := rfl
@[simp] theorem FieldSide.setWork_xing (f : FieldSide) (w : FieldWork) : (f.setWork w).xing = f.xing := rfl
@[simp] theorem FieldSide.setWork_act (f : FieldSide) (w : FieldWork) : (f.setWork w).act = f.act := rfl
@[simp] theorem FieldSide.setWork_il (f : FieldSide) (w : FieldWork) : (f.setWork w).il = f.il := rfl
@[simp] theorem FieldSide.setWork_latIn (f : FieldSide) (w : FieldWork) : (f.setWork w).latIn = f.latIn := rfl
@[simp] theorem FieldSide.setWork_latOut (f : FieldSide) (w : FieldWork) : (f.setWork w).latOut = f.latOut := rfl
@[simp] theorem FieldSide.setWork_syncLimit (f : FieldSide) (w : FieldWork) : (f.setWork w).syncLimit = f.syncLimit := rfl
@[simp] theorem FieldSide.setWork_repaired (f : FieldSide) (w : FieldWork) : (f.setWork w).repaired = f.repaired := rfl

/-! ## `FieldSide.setRec` -/

@[simp] theorem FieldSide.rec_setRec_self (f : FieldSide) (k : Nat) (v : PointRec) : (f.setRec k v).rec_ k = v :=
  tget_tput_self _ _ _ _
theorem FieldSide.rec_setRec_ne (f : FieldSide) {k j : Nat} (v : PointRec) (hk : j ≠ k) : (f.setRec k v).rec_ j = f.rec_ j :=
  tget_tput_ne _ _ _ _ hk
@[simp] theorem FieldSide.setRec_run (f : FieldSide) (k : Nat) (v : PointRec) : (f.setRec k v).run = f.run := rfl
@[simp] theorem FieldSide.setRec_freeN (f : FieldSide) (k : Nat) (v : PointRec) : (f.setRec k v).freeN = f.freeN := rfl
@[simp] theorem FieldSide.setRec_tb (f : FieldSide) (k : Nat) (v : PointRec) : (f.setRec k v).tb = f.tb := rfl
@[simp] theorem FieldSide.setRec_boot (f : FieldSide) (k : Nat) (v : PointRec) : (f.setRec k v).boot = f.boot := rfl
@[simp] theorem FieldSide.setRec_role (f : FieldSide) (k : Nat) (v : PointRec) : (f.setRec k v).role = f.role := rfl
@[simp] theorem FieldSide.setRec_faultPin (f : FieldSide) (k : Nat) (v : PointRec) : (f.setRec k v).faultPin = f.faultPin := rfl
@[simp] theorem FieldSide.setRec_bank (f : FieldSide) (k : Nat) (v : PointRec) : (f.setRec k v).bank = f.bank := rfl
@[simp] theorem FieldSide.setRec_fallback (f : FieldSide) (k : Nat) (v : PointRec) : (f.setRec k v).fallback = f.fallback := rfl
@[simp] theorem FieldSide.setRec_build (f : FieldSide) (k : Nat) (v : PointRec) : (f.setRec k v).build = f.build := rfl
@[simp] theorem FieldSide.setRec_temp (f : FieldSide) (k : Nat) (v : PointRec) : (f.setRec k v).temp = f.temp := rfl
@[simp] theorem FieldSide.setRec_zref (f : FieldSide) (k : Nat) (v : PointRec) : (f.setRec k v).zref = f.zref := rfl
@[simp] theorem FieldSide.setRec_lanes (f : FieldSide) (k : Nat) (v : PointRec) : (f.setRec k v).lanes = f.lanes := rfl
@[simp] theorem FieldSide.setRec_xing (f : FieldSide) (k : Nat) (v : PointRec) : (f.setRec k v).xing = f.xing := rfl
@[simp] theorem FieldSide.setRec_act (f : FieldSide) (k : Nat) (v : PointRec) : (f.setRec k v).act = f.act := rfl
@[simp] theorem FieldSide.setRec_il (f : FieldSide) (k : Nat) (v : PointRec) : (f.setRec k v).il = f.il := rfl
@[simp] theorem FieldSide.setRec_latIn (f : FieldSide) (k : Nat) (v : PointRec) : (f.setRec k v).latIn = f.latIn := rfl
@[simp] theorem FieldSide.setRec_latOut (f : FieldSide) (k : Nat) (v : PointRec) : (f.setRec k v).latOut = f.latOut := rfl
@[simp] theorem FieldSide.setRec_syncLimit (f : FieldSide) (k : Nat) (v : PointRec) : (f.setRec k v).syncLimit = f.syncLimit := rfl
@[simp] theorem FieldSide.setRec_repaired (f : FieldSide) (k : Nat) (v : PointRec) : (f.setRec k v).repaired = f.repaired := rfl

/-! ## `FieldSide.setSrc` -/

@[simp] theorem FieldSide.src_setSrc_self (f : FieldSide) (k : Nat) (v : SourceState) : (f.setSrc k v).src k = v :=
  tget_tput_self _ _ _ _
theorem FieldSide.src_setSrc_ne (f : FieldSide) {k j : Nat} (v : SourceState) (hk : j ≠ k) : (f.setSrc k v).src j = f.src j :=
  tget_tput_ne _ _ _ _ hk
@[simp] theorem FieldSide.setSrc_run (f : FieldSide) (k : Nat) (v : SourceState) : (f.setSrc k v).run = f.run := rfl
@[simp] theorem FieldSide.setSrc_freeN (f : FieldSide) (k : Nat) (v : SourceState) : (f.setSrc k v).freeN = f.freeN := rfl
@[simp] theorem FieldSide.setSrc_tb (f : FieldSide) (k : Nat) (v : SourceState) : (f.setSrc k v).tb = f.tb := rfl
@[simp] theorem FieldSide.setSrc_boot (f : FieldSide) (k : Nat) (v : SourceState) : (f.setSrc k v).boot = f.boot := rfl
@[simp] theorem FieldSide.setSrc_role (f : FieldSide) (k : Nat) (v : SourceState) : (f.setSrc k v).role = f.role := rfl
@[simp] theorem FieldSide.setSrc_faultPin (f : FieldSide) (k : Nat) (v : SourceState) : (f.setSrc k v).faultPin = f.faultPin := rfl
@[simp] theorem FieldSide.setSrc_bank (f : FieldSide) (k : Nat) (v : SourceState) : (f.setSrc k v).bank = f.bank := rfl
@[simp] theorem FieldSide.setSrc_fallback (f : FieldSide) (k : Nat) (v : SourceState) : (f.setSrc k v).fallback = f.fallback := rfl
@[simp] theorem FieldSide.setSrc_build (f : FieldSide) (k : Nat) (v : SourceState) : (f.setSrc k v).build = f.build := rfl
@[simp] theorem FieldSide.setSrc_temp (f : FieldSide) (k : Nat) (v : SourceState) : (f.setSrc k v).temp = f.temp := rfl
@[simp] theorem FieldSide.setSrc_zref (f : FieldSide) (k : Nat) (v : SourceState) : (f.setSrc k v).zref = f.zref := rfl
@[simp] theorem FieldSide.setSrc_lanes (f : FieldSide) (k : Nat) (v : SourceState) : (f.setSrc k v).lanes = f.lanes := rfl
@[simp] theorem FieldSide.setSrc_xing (f : FieldSide) (k : Nat) (v : SourceState) : (f.setSrc k v).xing = f.xing := rfl
@[simp] theorem FieldSide.setSrc_act (f : FieldSide) (k : Nat) (v : SourceState) : (f.setSrc k v).act = f.act := rfl
@[simp] theorem FieldSide.setSrc_il (f : FieldSide) (k : Nat) (v : SourceState) : (f.setSrc k v).il = f.il := rfl
@[simp] theorem FieldSide.setSrc_latIn (f : FieldSide) (k : Nat) (v : SourceState) : (f.setSrc k v).latIn = f.latIn := rfl
@[simp] theorem FieldSide.setSrc_latOut (f : FieldSide) (k : Nat) (v : SourceState) : (f.setSrc k v).latOut = f.latOut := rfl
@[simp] theorem FieldSide.setSrc_syncLimit (f : FieldSide) (k : Nat) (v : SourceState) : (f.setSrc k v).syncLimit = f.syncLimit := rfl
@[simp] theorem FieldSide.setSrc_repaired (f : FieldSide) (k : Nat) (v : SourceState) : (f.setSrc k v).repaired = f.repaired := rfl

/-! ## `FieldSide.setLane` -/

@[simp] theorem FieldSide.lane_setLane_self (f : FieldSide) (k : Nat) (v : FieldLane) : (f.setLane k v).lane k = v :=
  tget_tput_self _ _ _ _
theorem FieldSide.lane_setLane_ne (f : FieldSide) {k j : Nat} (v : FieldLane) (hk : j ≠ k) : (f.setLane k v).lane j = f.lane j :=
  tget_tput_ne _ _ _ _ hk
@[simp] theorem FieldSide.setLane_run (f : FieldSide) (k : Nat) (v : FieldLane) : (f.setLane k v).run = f.run := rfl
@[simp] theorem FieldSide.setLane_freeN (f : FieldSide) (k : Nat) (v : FieldLane) : (f.setLane k v).freeN = f.freeN := rfl
@[simp] theorem FieldSide.setLane_tb (f : FieldSide) (k : Nat) (v : FieldLane) : (f.setLane k v).tb = f.tb := rfl
@[simp] theorem FieldSide.setLane_boot (f : FieldSide) (k : Nat) (v : FieldLane) : (f.setLane k v).boot = f.boot := rfl
@[simp] theorem FieldSide.setLane_role (f : FieldSide) (k : Nat) (v : FieldLane) : (f.setLane k v).role = f.role := rfl
@[simp] theorem FieldSide.setLane_faultPin (f : FieldSide) (k : Nat) (v : FieldLane) : (f.setLane k v).faultPin = f.faultPin := rfl
@[simp] theorem FieldSide.setLane_bank (f : FieldSide) (k : Nat) (v : FieldLane) : (f.setLane k v).bank = f.bank := rfl
@[simp] theorem FieldSide.setLane_fallback (f : FieldSide) (k : Nat) (v : FieldLane) : (f.setLane k v).fallback = f.fallback := rfl
@[simp] theorem FieldSide.setLane_build (f : FieldSide) (k : Nat) (v : FieldLane) : (f.setLane k v).build = f.build := rfl
@[simp] theorem FieldSide.setLane_temp (f : FieldSide) (k : Nat) (v : FieldLane) : (f.setLane k v).temp = f.temp := rfl
@[simp] theorem FieldSide.setLane_zref (f : FieldSide) (k : Nat) (v : FieldLane) : (f.setLane k v).zref = f.zref := rfl
@[simp] theorem FieldSide.setLane_xing (f : FieldSide) (k : Nat) (v : FieldLane) : (f.setLane k v).xing = f.xing := rfl
@[simp] theorem FieldSide.setLane_act (f : FieldSide) (k : Nat) (v : FieldLane) : (f.setLane k v).act = f.act := rfl
@[simp] theorem FieldSide.setLane_work (f : FieldSide) (k : Nat) (v : FieldLane) : (f.setLane k v).work = f.work := rfl
@[simp] theorem FieldSide.setLane_il (f : FieldSide) (k : Nat) (v : FieldLane) : (f.setLane k v).il = f.il := rfl
@[simp] theorem FieldSide.setLane_latIn (f : FieldSide) (k : Nat) (v : FieldLane) : (f.setLane k v).latIn = f.latIn := rfl
@[simp] theorem FieldSide.setLane_latOut (f : FieldSide) (k : Nat) (v : FieldLane) : (f.setLane k v).latOut = f.latOut := rfl
@[simp] theorem FieldSide.setLane_syncLimit (f : FieldSide) (k : Nat) (v : FieldLane) : (f.setLane k v).syncLimit = f.syncLimit := rfl
@[simp] theorem FieldSide.setLane_repaired (f : FieldSide) (k : Nat) (v : FieldLane) : (f.setLane k v).repaired = f.repaired := rfl

end Sys2Proof.Machine
end

