-- ==== Sys2Proof/Laws/Sending.lean ====
section
/-! SUPPORT. Everything that the two shared senders can do: a field frame that is no command, and a link cell. -/

namespace Sys2Proof.Machine

/-- A field frame is not sent and nothing changes, or it is sent from an enabled port at the instant that its gate gives,
and the port is busy from then on. -/
theorem FieldSide.sendOther_cases (f : FieldSide) (port dest : Nat) (body : FieldBody) :
    f.sendOther port dest body = (none, f) ∨
    ∃ e x, f.portEntry port = some e ∧ e.mode ≠ 0 ∧
      e.otherStart (dtLater f.departure (tget none f.work.busyOther port)).toNat (e.takes (e.vidOf body) none body) = some x ∧
      f.sendOther port dest body = (some (BitVec.ofNat 64 x), f.setWork { f.work with
        busyOther := tput none f.work.busyOther port
          (some (BitVec.ofNat 64 x + BitVec.ofNat 64 (e.takes (e.vidOf body) none body)))
        sent := ⟨port, dest, e.mac, e.pcp, e.vidOf body, none, body, BitVec.ofNat 64 x⟩ :: f.work.sent }) := by
  unfold FieldSide.sendOther
  split
  · exact .inl rfl
  · rename_i e he
    by_cases hm : e.mode = 0
    · simp [hm]
    · simp only [hm, if_false]
      split
      · exact .inl rfl
      · rename_i x hx
        exact .inr ⟨e, x, he, hm, hx, rfl⟩

/-- A port that is disabled or has no entry sends nothing. -/
theorem FieldSide.sendOther_off (f : FieldSide) (port dest : Nat) (body : FieldBody)
    (h : ∀ e, f.portEntry port = some e → e.mode = 0) : f.sendOther port dest body = (none, f) := by
  obtain h' | ⟨e, -, he, hm, -⟩ := f.sendOther_cases port dest body
  · exact h'
  · exact absurd (h e he) hm

/-- Without an UP link or a credit no cell is sent and nothing changes. -/
theorem HostSide.sendLink_shut (h : HostSide) (k : Nat) (a b : List Byte)
    (hs : h.linkUp k = false ∨ h.get (Reg.STC_CREDITS_TX_CREDITS k) = 0) : h.sendLink k a b = (h, false) := by
  unfold HostSide.sendLink
  rw [if_pos (by rcases hs with hs | hs <;> simp [hs])]

/-- Sending a cell leaves the central store alone, whether the cell leaves or not. -/
@[simp] theorem HostSide.sendLink_store (h : HostSide) (k : Nat) (a b : List Byte) :
    (h.sendLink k a b).1.store = h.store := by
  unfold HostSide.sendLink
  split
  · rfl
  · simp only [HostSide.showCredits]
    repeat' split
    all_goals rfl

@[simp] theorem HostSide.sendMessage_store (h : HostSide) (k ty : Nat) (p : List Byte) :
    (h.sendMessage k ty p).store = h.store := h.sendLink_store _ _ _

end Sys2Proof.Machine
end

