-- ==== Sys2Proof/WellFormed.lean ====
section
/-! DEFINITION. Which commands the module's interfaces can carry: the ranges of operands that are plain numbers and the
lengths of operands that are byte strings. Every meaning is total on every command; these checks say which commands a
sender can form. -/

namespace Sys2Proof

open Sys2Proof.Machine

/-- An access of `size` bytes at `off` lies within a window of `span` bytes. -/
def inSpan (off size span : Nat) : Bool := decide (off + size ≤ span)

/-- A size that a register access can have: 1, 2, 4 or 8 bytes. -/
def accessSize (size : Nat) : Bool := size == 1 || size == 2 || size == 4 || size == 8

/-- A size that a register write can have, the value no wider. -/
def sizeOk (size : Nat) (v : BitVec 64) : Bool := accessSize size && decide (v.toNat < 2 ^ (8 * size))

/-- Lane calibrations name one of 106 lanes and carry 6-bit codes (15_lanes.md R342, LNE.CAL). -/
def calsOk (cals : List LaneCal) : Bool := cals.all (fun c => decide (c.lane < 106 ∧ c.term < 64 ∧ c.offset < 64))

/-- A link cell: a 40-byte header and at most 1,024 payload bytes (15_lanes.md R352). -/
def cellOk (c : LinkCell) : Bool := decide (40 ≤ c.bytes.length ∧ c.bytes.length ≤ 1064)

/-- A request at the central store moves at least one byte. -/
def opOk (op : DramOp) : Bool :=
  match op with
  | .read n => decide (0 < n)
  | .write bs => decide (0 < bs.length)

/-- Verdicts of a partner name a layer and one of its tiles (16_twin_repair.md Table 16.3). -/
def verdictsOk (m : TwinHealth) : Bool := m.verdicts.all (fun v => decide (v.1 < 1024 ∧ v.2.1 < 4))

/-- The values of a Modbus response are bits or 16-bit registers. -/
def modbusOk (r : ModbusBody) : Bool :=
  match r with
  | .data vs => vs.all (fun v => decide (v < 65536))
  | .malformed => true
  | .exception_ => true

/-- The interfaces can carry the command. Log entry 199 (DEDUCED). -/
def Instr.wellFormed (i : Instr) : Bool :=
  match i with
  | .registerWrite _ _ bar4 size off v => sizeOk size v && inSpan off size (if bar4 then 0x10000 else 0x4000000)
  | .pairLowRead _ r => accessSize r.size && inSpan r.off r.size 0x4000000
  | .rcCounterRead _ r events =>
    accessSize r.size && inSpan r.off r.size 0x4000000 && events.all (fun lo => decide (lo < 32))
  | .startupStepDone work => calsOk work.cal
  | .fieldStartupStepDone work => calsOk work.cal
  | .linkCellRx _ cell => cellOk cell
  | .patrolRead _ block _ => decide (block < 58720256)
  | .bar2Request off op => opOk op && inSpan off.toNat (match op with | .read n => n | .write bs => bs.length) (2 ^ 32)
  | .tartanRequest req => opOk req.op && decide (req.route.length ≤ 3)
  | .cwinRead _ off len => decide (0 < len) && inSpan off.toNat len (2 ^ 29)
  | .cwinWrite _ off data => decide (0 < data.length) && inSpan off.toNat data.length (2 ^ 29)
  | .twinHealthRx msg => verdictsOk msg
  | .resyncInfoRx info => decide (info.heads.length = 48)
  | .modbusResponse _ resp => modbusOk resp.body
  | _ => true

end Sys2Proof
end

