-- ==== Sys2Proof/Tests/Slice0.lean ====
section
/-! SUPPORT. Small tests: ill-formed commands are refused, concrete states meet the hypotheses of every statement, and a
few commands give the results that the specification's own words give. -/

namespace Sys2Proof.Tests

open Sys2Proof Sys2Proof.Machine

/-! ## Builders -/

/-- A secure, privileged control core; a non-secure one, user and privileged; the PCIe endpoint. -/
def sec : Requester := ⟨.hcc 0, true, true⟩
def core : Requester := ⟨.hcc 1, false, false⟩
def priv : Requester := ⟨.hcc 1, true, false⟩
def pcie : Requester := ⟨.pcie, false, false⟩

/-- The reset state with a change of one side. -/
def onHost (f : HostSide → HostSide) : State := { State.reset with host := f State.reset.host }
def onField (f : FieldSide → FieldSide) : State := { State.reset with field := f State.reset.field }

/-- The reset state with some register fields set. -/
def regs (rs : List (Fld × Nat)) : State := onHost (fun h => rs.foldl (fun h r => h.put r.1 r.2) h)

/-- The reset state with a channel of the crossing as given, at one end. -/
def hostChan (c : Nat) (v : Chan) : State := onHost (fun h => { h with xing := { h.xing.setChan c v with state := 2 } })
def fieldChan (c : Nat) (v : Chan) : State := onField (fun f => { f with xing := { f.xing.setChan c v with state := 2 } })

/-- A cell of this TYPE with these payload bytes. -/
def cell (ty : Nat) (bs : List Byte) : List Byte := oneCell ty 7 bs

/-- The command answers a next state with this property. -/
def gives (c : Instr) (s : State) (p : State → Bool) : Bool :=
  match exec c s with
  | .next t => p t
  | _ => false

/-! ## Ill-formed commands are refused -/

theorem test_wf_write_size : Instr.wellFormed (.registerWrite sec 0 false 3 0 0) = false := by decide
theorem test_wf_write_value : Instr.wellFormed (.registerWrite sec 0 false 1 0 256) = false := by decide
theorem test_wf_write_window : Instr.wellFormed (.registerWrite sec 0 true 4 0x10000 0) = false := by decide
theorem test_wf_write_bar0 : Instr.wellFormed (.registerWrite sec 0 false 4 0x3fffffd 0) = false := by decide
theorem test_wf_pair_window : Instr.wellFormed (.pairLowRead sec ⟨0, 4, 0x4000000⟩) = false := by decide
theorem test_wf_rc_window : Instr.wellFormed (.rcCounterRead sec ⟨0, 4, 0x4000000⟩ []) = false := by decide
theorem test_wf_rc_events : Instr.wellFormed (.rcCounterRead sec ⟨0, 4, 0⟩ [32]) = false := by decide
theorem test_wf_read_size : Instr.wellFormed (.pairLowRead sec ⟨0, 3, 0⟩) = false := by decide
theorem test_wf_cal_lane : Instr.wellFormed (.startupStepDone ⟨true, 0, [⟨106, 0, 0⟩], [], []⟩) = false := by decide
theorem test_wf_cal_code : Instr.wellFormed (.fieldStartupStepDone ⟨true, 0, [⟨0, 64, 0⟩], [], []⟩) = false := by decide
theorem test_wf_cell_short : Instr.wellFormed (.linkCellRx 0 ⟨[]⟩) = false := by decide
theorem test_wf_patrol_block : Instr.wellFormed (.patrolRead 0 58720256 .clean) = false := by decide
theorem test_wf_bar2_empty : Instr.wellFormed (.bar2Request 0 (.read 0)) = false := by decide
theorem test_wf_bar2_window : Instr.wellFormed (.bar2Request 0xFFFFFFFF (.write [0, 0])) = false := by decide
theorem test_wf_cwin_read : Instr.wellFormed (.cwinRead true 0 0) = false := by decide
theorem test_wf_cwin_write : Instr.wellFormed (.cwinWrite true 0x1FFFFFFF [0, 0]) = false := by decide
theorem test_wf_verdict : Instr.wellFormed (.twinHealthRx ⟨0, 0, 0, 0, 0, 0, 0, 0, [(1024, 0, 0)]⟩) = false := by decide
theorem test_wf_resync_heads : Instr.wellFormed (.resyncInfoRx ⟨1, []⟩) = false := by decide
theorem test_wf_modbus : Instr.wellFormed (.modbusResponse 0 ⟨0, .data [65536]⟩) = false := by decide
theorem test_wf_good : Instr.wellFormed (.registerWrite pcie 0 false 4 0x3fffffc 0xFFFFFFFF) = true := by decide

/-! ## Hypotheses of the statements are met -/

/-- The module with its supplies out of range; with a side in reset; with a side held by a thermal trip. -/
def dark : State := { State.reset with phys := { State.reset.phys with
  hostPhys := { State.reset.phys.hostPhys with supply := .outOfRange }
  fieldPhys := { State.reset.phys.fieldPhys with supply := .outOfRange } } }
def stopped : State := { State.reset with
  host := { State.reset.host with run := false }, field := { State.reset.field with run := false } }
def tripped : State := { stopped with phys := { stopped.phys with
  hostPhys := { stopped.phys.hostPhys with tripHeld := true }
  fieldPhys := { stopped.phys.fieldPhys with tripHeld := true } } }
def R : State := State.reset

/-- The die of each side above and below 125 °C; a host bank that verifies, in each place. -/
def good : FlashBank := ⟨none, true, 0, true, 5, [], false⟩
def banked (a b : FlashBank) : State := { State.reset with phys := { State.reset.phys with
  hostPhys := { State.reset.phys.hostPhys with bankA := a, bankB := b }
  fieldPhys := { State.reset.phys.fieldPhys with bankA := a, bankB := b } } }

theorem wit_SuppliesAndTripsHoldASide : dark.phys.hostPhys.supply = .outOfRange ∧
    dark.phys.fieldPhys.supply = .outOfRange ∧ R.phys.hostPhys.supply = .inRange ∧
    R.phys.fieldPhys.supply = .inRange ∧ stopped.host.run = false ∧ stopped.field.run = false ∧
    125 ≤ (125 : BitVec 8).toInt ∧ (124 : BitVec 8).toInt < 125 ∧ R.hostReady ∧ R.fieldReady := by decide

theorem wit_ResetPinsStopAndStart : R.phys.hostPhys.supply = .inRange ∧ R.phys.fieldPhys.supply = .inRange ∧
    10 ≤ 10 ∧ 9 < 10 ∧ (stopped.host.run = false ∧ stopped.phys.hostPhys.tripHeld = false) ∧
    (tripped.host.run = false ∧ tripped.phys.hostPhys.tripHeld = true) ∧
    (stopped.field.run = false ∧ stopped.phys.fieldPhys.tripHeld = false) ∧
    (tripped.field.run = false ∧ tripped.phys.fieldPhys.tripHeld = true) ∧ R.hostReady ∧
    (regs [(Reg.SYS_BOOT_STATUS_STEP, 4)]).host.get Reg.SYS_BOOT_STATUS_STEP < 5 := by decide

theorem test_rst_short : gives (.hostRstAssert 9) R (fun t => t.host == R.host && t.field == R.field) = true := by decide
theorem test_rst_release : gives (.hostRstRelease 3 true) stopped (fun t => t.host.run &&
    t.host.get Reg.SYS_STRAPS_TARGET == 7 && t.host.get Reg.SYS_RESET_CAUSE_PIN == 1) = true := by decide

/-- At a start-up step, its time over or not; synchronised or not. -/
def atStep (n : Nat) (raw : BitVec 64) : State :=
  onHost (fun h => { h.put Reg.SYS_BOOT_STATUS_STEP n with tb := { h.tb with raw := raw, syncUntil := some 10 } })
def fieldAtStep (n : Nat) : State := onField (fun f => { f with boot := { f.boot with step := n, failed := false } })

theorem wit_StartupStepsAdvance : R.hostReady ∧ R.host.get Reg.SYS_BOOT_STATUS_FAILED = 0 ∧
    (∀ n ∈ [1, 2, 3, 4, 5, 8, 9, 10, 11, 12], (atStep n 0).host.get Reg.SYS_BOOT_STATUS_STEP = n ∧
      (atStep n 0).host.stepLate R.phys.hostPhys n = false) ∧
    R.phys.hostPhys.chooseBank = none ∧ (banked good R.phys.hostPhys.bankB).phys.hostPhys.chooseBank = some (0, false) ∧
    (banked good { good with generation := 1 }).phys.hostPhys.chooseBank = some (1, false) ∧
    (banked { good with verifies := false } good).phys.fieldPhys.chooseBank = some (1, true) ∧
    (atStep 8 0).host.tb.syncOk = true ∧
    (∀ r ∈ [true, false], let s := { hostChan 0 .idle with field := { R.field with role := r } }
      s.field.run = true ∧ 2 ≤ s.host.xing.state ∧ (s.field.role = s.host.flag Reg.SYS_STRAPS_ROLE ↔ r = false)) ∧
    (regs [(Reg.SIM_STATUS_STAGE, 2)]).host.imageUnderWay = true ∧
    (onHost (fun h => { h with cfg := { h.cfg with imageId := 1 } })).host.cfg.imageId ≠ 0 ∧
    R.host.get Reg.TWN_RESYNC_STATE ≠ 1 ∧
    (∀ n ∈ [1, 4, 6, 12], (atStep n (BitVec.ofNat 64 (2 ^ 62))).host.stepLate R.phys.hostPhys n = true) ∧
    stepBound 8 1 < (atStep 8 (BitVec.ofNat 64 (2 ^ 62))).host.tb.sinceNs R.host.boot.stepEntry ∧ R.fieldReady ∧
    R.field.boot.failed = false ∧ (∀ n ∈ [1, 2, 3, 4, 6], (fieldAtStep n).field.boot.step = n) := by decide

theorem wit_SoftResetsRestartTheirSides : R.reaches sec ∧ R.host.xing.state = 0 ∧
    ((hostChan 0 .idle).reaches core ∧ (hostChan 0 .idle).host.xing.state ≠ 0 ∧ (hostChan 0 .idle).field.run = true) := by
  decide

theorem wit_FirmwareOperationsRun : R.reaches sec ∧ R.host.get Reg.SYS_FW_STATUS_STATE ≠ 1 ∧
    R.host.get Reg.SYS_FW_LEN_BYTES ≤ 24 * 1048576 ∧ 2 ≤ (hostChan 0 .idle).host.xing.state ∧
    (regs [(Reg.SYS_FW_STATUS_STATE, 1)]).host.get Reg.SYS_FW_STATUS_STATE = 1 ∧
    (regs [(Reg.SYS_FW_LEN_BYTES, 128 * 1048576)]).host.get Reg.SYS_FW_LEN_BYTES ≤ 128 * 1048576 ∧
    (onHost (fun h => { h with fwOp := some ⟨1, 0, 64⟩ })).host.fwOp = some ⟨1, 0, 64⟩ ∧
    (R.phys.hostPhys.bank (R.host.get Reg.SYS_BOOT_STATUS_HOST_BANK)).generation + 1 < 2 ^ 32 := by decide

theorem wit_RegisterWritesFollowAccessCodes : R.reaches sec ∧ R.host.barForbidden sec true 0x14 4 = false ∧ 0x14 % 4 = 0 ∧
    plainOffset 0x14 = true ∧ plainOffset 0x301004 = false ∧ plainOffset 0x300000 = true ∧
    R.host.barForbidden sec true 0 8 = false ∧ (8 ≠ 4 ∨ 0 % 4 ≠ 0) ∧ (4 ≠ 4 ∨ 2 % 4 ≠ 0) ∧
    (R.reaches core ∧ R.host.barForbidden core true 0x14 4 = true) := by decide

theorem wit_AddressesWithoutRegistersReadZero : R.reaches sec ∧ 0x64 % 4 = 0 ∧ noRegister 0x64 = true ∧
    noRegister 0x60 = false ∧ noRegister 0x3fffffc = true ∧ noRegister 0x280000 = false ∧
    (∀ w ∈ [true, false], R.host.barForbidden sec w 0x64 4 = false) := by decide +kernel

theorem wit_PairsLatchAndCountersClear : R.reaches sec ∧ isPairLow 0x400008 = true ∧
    (∀ off ∈ [0x400008, 0x40000c, 0x60, 0x411000], R.host.barForbidden sec false off 4 = false) ∧
    (0x60 % 4 = 0 ∧ isReg 0x60 = true ∧ 0x60 ≠ 0x200018 ∧ 0x60 ≠ 0x20000 ∧ ackqAt 0x60 = none ∧
      instOf 0x60 0x11000 4 256 = none ∧ secureRead 0x60 = false) ∧
    (R.reaches priv ∧ R.host.barForbidden priv false 0x418010 4 = false ∧ 0x418010 % 4 = 0 ∧ ackqAt 0x418010 = none ∧
      secureRead 0x418010 = true ∧ priv.isSecure = false) ∧
    (R.host.barForbidden sec false 0x61 4 = false ∧ 0x61 % 4 ≠ 0) ∧
    (R.reaches core ∧ R.host.barForbidden core false 0x60 4 = true) := by decide +kernel

theorem wit_DescriptorsAndMessageTableTakeWrites : R.reaches sec ∧ (0xFFFFFFFF : BitVec 64).toNat < 2 ^ 32 ∧
    (1023 < 1024 ∧ 15 < 16 ∧ 16 ≤ 16 ∧ 31 < 32) ∧
    (∀ w ∈ [15, 31], R.host.barForbidden sec true (0x280000 + 0x80 * 1023 + 4 * w) 4 = false) ∧
    (atStep 5 0).reaches pcie ∧ pcie.src = .pcie ∧ 2047 < 2048 := by decide

theorem test_pair_latch : gives (.pairLowRead sec ⟨0, 4, 0x400008⟩)
    (onHost (fun h => { h with tb := { h.tb with offset := 0x123456789 } }))
    (fun t => t.host.resp == .data 0x23456789 && tget 0 t.host.latch 0x400008 == 1) = true := by decide
theorem test_read_size : gives (.pairLowRead sec ⟨0, 8, 0x400008⟩) R (fun t => t.host.resp == .busError) = true := by decide

/-! ### Heads -/

/-- A head of 64 lines in a frame of 80, 16 ms, at epoch 10^8, its first frame latched. -/
def entry1 : HeadEntry :=
  ⟨0, 1, 0, 0, 0, 0, 64, 64, 80, 80, 4, 16000000, 0, 0, 0, 0, 0, 0, 0, 0, 1, 0, 0, 0, 0⟩
def time1 : HeadTime := ⟨entry1, 100000000⟩
def plan1 : Plan := ⟨1, time1, 0, 0, 0, 0, [], Cfg.blank.gingham, none, 0⟩
def slice1 : SliceRec := ⟨1, 0, 0, 0, [], [], [], []⟩
def idle1 : HeadState := { HeadState.idle with time := some time1, nextFrame := 1, latches := 1, plans := [plan1] }

/-- Head 0 in a state at an instant. -/
def head0 (v : HeadState) (now : DT) : State := onHost (fun h => ({ h with tb := { h.tb with offset := now } }).setHead 0 v)

theorem wit_handover : (head0 { idle1 with composing := [slice1] } 99999984).hostReady ∧
    ((head0 { idle1 with composing := [slice1] } 99999984).host.head 0).oldest = some (slice1, idle1) ∧
    ((head0 { idle1 with filling := [slice1] } 99999984).host.head 0).oldest = some (slice1, idle1) ∧
    idle1.filling.length + idle1.handed.length < 2 ∧ slice1.drawn.length ≤ 32 ∧
    (∀ ca, (head0 idle1 99999984).host.ringCa 0 64 0 = some ca → R.host.store.anyPoison ca (ringSlotBytes 64) = false) ∧
    idle1.plan slice1.no = some plan1 ∧ idle1.isMissed 1 0 = false ∧
    dtDiff (head0 idle1 99999984).host.now (plan1.emit 0) ≤ -16  := by decide
theorem wit_miss : (idle1.plans.find? (fun q => q.f == 0 % 2 ^ 32 && decide (idle1.doneNo ≤ q.no))) = some plan1 ∧
    0 < plan1.time.entry.slices ∧ -16 < dtDiff (head0 idle1 99999985).host.now (plan1.emit 0) ∧
    idle1.isMissed plan1.no 0 = false ∧ idle1.handed.any (fun r => r.no == plan1.no && r.slice == 0) = false := by decide
def emitting (n : Nat) : HeadState := { idle1 with started := 1, emitPkt := n }
/-- At an instant, with no egress correction of head 0's port in force. -/
def exact (now : DT) : State := let s := head0 idle1 now
  { s with host := { s.host with corrOld := [((Reg.TIM_PORT_EGRESS_NS 4).off, 1)] } }
theorem wit_packets : (∀ n ∈ [0, 127], (emitting n).planFrom (emitting n).emitNo = some plan1 ∧
    n = (if plan1.no = (emitting n).emitNo then (emitting n).emitPkt else 0)) ∧
    (-2 ≤ dtDiff ((exact 99999998).host.egressAt 4) (plan1.pkt 0) ∧
      dtDiff ((exact 99999998).host.egressAt 4) (plan1.pkt 0) ≤ 0) ∧
    0 < dtDiff ((exact 100000001).host.egressAt 4) (plan1.pkt 0) ∧ 0 + 1 ≠ plan1.time.entry.packets ∧
    127 + 1 = plan1.time.entry.packets ∧ 127 % 64 ≠ 0 := by decide +kernel
def leaving (i : Nat) : HeadState := { idle1 with doneSlice := i, emitPkt := 64 * (i + 1) }
theorem wit_emitted : (∀ i ∈ [0, 1], (leaving i).planFrom (leaving i).doneNo = some plan1 ∧
    i = (if plan1.no = (leaving i).doneNo then (leaving i).doneSlice else 0) ∧ (leaving i).emitNo = plan1.no ∧
    min (64 * (i + 1)) plan1.time.entry.packets ≤ (leaving i).emitPkt) ∧
    0 + 1 ≠ plan1.time.entry.slices ∧ 1 + 1 = plan1.time.entry.slices := by decide

def latching : State := head0 { idle1 with commit := some 1 } 115200000
theorem wit_latch : (∃ n, latching.host.nextLatch 0 = some n ∧ dtReached latching.host.now n.at_ = true ∧ n.first = false ∧
    (latching.host.head 0).commit = some 1 ∧ 1 ≤ n.frame) := ⟨⟨time1, 1, 115200000, 0, false⟩, by decide⟩
theorem wit_frame_start : (idle1.planFrom (idle1.started + 1)) = some plan1 ∧ (∃ u, idle1.time = some u ∧ (u = plan1.time ∨ timingDiffers u.entry plan1.time.entry = false)) ∧
    dtReached (head0 idle1 100000000).host.now plan1.start = true :=
  ⟨by decide, ⟨time1, by decide⟩, by decide⟩
def composing0 : State := head0 idle1 87200000
theorem wit_compose : composing0.hostReady ∧ composing0.host.nextSlice 0 0 = some (plan1, true) ∧
    dtReached composing0.host.now (plan1.composeAt 0) = true ∧ dtReached composing0.host.now (plan1.emit 0) = false ∧
    ((composing0.host.takeOver 0 entry1).finishSlices ((composing0.host.takeOver 0 entry1).engineOf 0 entry1)).isSome = true ∧
    (composing0.host.takeOver 0 entry1).get (Reg.CMP_ENGINE_STATUS_FAULTED
      ((composing0.host.takeOver 0 entry1).engineOf 0 entry1)) = 0 ∧
    (composing0.host.takeOver 0 entry1).firstInOrder 0 (plan1.emit 0)
      ((composing0.host.takeOver 0 entry1).engineOf 0 entry1) = true := by decide

def running0 : State := { latching with host := latching.host.put (Reg.HDS_STATUS_ENABLED 0) 1 }
theorem wit_commits : R.reaches sec ∧ R.host.get (Reg.HDS_STATUS_ENABLED 0) ≠ 1 ∧ running0.reaches sec ∧
    running0.host.get (Reg.HDS_STATUS_ENABLED 0) = 1 ∧ running0.host.committed = false ∧
    running0.host.stage.chHeads.contains 0 = false ∧
    0 ≤ signed (running0.host.followingLatch 0 + 256 - running0.host.followingLatch 0 % 256) 8 ∧
    signed (running0.host.followingLatch 0 - 1 + 256 - running0.host.followingLatch 0 % 256) 8 < 0 := by decide

/-- A report of FRAME 0 that scans at its start. -/
def report0 : List Byte :=
  [0x10, 0, 1, 0] ++ leBytes 0 4 ++ leBytes 100000000 8 ++ List.replicate 12 0
def report : TeReport := ⟨0, report0 ++ leBytes (crc32c report0).toNat 4⟩
def started0 : State := onHost (fun h => (h.put (Reg.HDS_TE_CTRL_TE_EN 0) 1).setHead 0 { idle1 with started := 1 })
theorem wit_report : R.host.get (Reg.HDS_TE_CTRL_TE_EN 0) ≠ 1 ∧ started0.hostReady ∧
    (started0.host.head 0).plan (started0.host.head 0).started = some plan1 ∧
    (started0.host.head 0).plans.find? (fun q => q.time.same plan1.time && q.f == plan1.f &&
      decide (q.no ≤ (started0.host.head 0).started)) = some plan1 ∧
    (started0.host.head 0).report = none ∧ started0.host.get (Reg.HDS_TE_CTRL_TE_EN 0) = 1 ∧
    report.payload.length = 32 ∧ bits (fieldAt report.payload 0 1) 4 4 = 1 ∧ bits (fieldAt report.payload 1 1) 0 6 = 0 ∧
    bit (fieldAt report.payload 2 2) 0 = true ∧ (crc32c (report.payload.take 28)).toNat = fieldAt report.payload 28 4 ∧
    report.dest.toNat = started0.host.get Reg.HDS_TE_DA_HI_ADDR * 2 ^ 32 + started0.host.get Reg.HDS_TE_DA_LO_ADDR ∧
    fieldAt report.payload 4 4 = plan1.f ∧
    (dtDiff (BitVec.ofNat 64 (fieldAt report.payload 8 8)) plan1.start).natAbs * 2 ^ 24 < plan1.time.entry.pq := by
  decide +kernel

/-- A layer of head 0 with a budget of 100 µs. -/
def layer0 : LayerEntry := ⟨0, 0, 1, 0, 1, 0, 100, 0, 0, 64, 64, 64, 64, 1, 1, []⟩
def configured (c : Cfg → Cfg) : State := onHost (fun h => { h with cfg := c h.cfg })
theorem wit_ReadIndicesStayOnTheSpan : R.reaches sec ∧
    onSpan 4096 (R.host.get Reg.FRS_EVT_RD_INDEX) (R.host.get Reg.FRS_EVT_WR_INDEX) 0 = true ∧
    onSpan 4096 (R.host.get Reg.FRS_EVT_RD_INDEX) (R.host.get Reg.FRS_EVT_WR_INDEX) 1 = false ∧
    onSpan (configured (fun c => { c with log := ⟨0, 0, 16⟩ })).host.cfg.log.modCount 0 0 0 = true ∧
    onSpan R.host.cfg.log.modCount 0 0 0 = false ∧
    (∀ b ∈ [1, 100], 1 ≤ b ∧ b ≤ (((configured (fun c => { c with layers := [layer0] })).host.layerEntry 0).map
      (·.budget)).getD 0) ∧ ((R.host.layerEntry 0).map (·.budget)).getD 0 < 1 := by decide

theorem wit_InvariantsAreCheckedAndCleared : R.reaches sec ∧
    (∃ s, s = regs [(Reg.SIM_ACTIVE_ID_LO_ID, 1), (Reg.TRT_MASTER_FREE 0, 5)] ∧ s.hostReady ∧ s.host.activeId ≠ 0 ∧
      s.host.checkDue = true ∧ s.host.get Reg.SYS_INVAR_STATUS_VALID = 0 ∧ s.host.conserve.cleared ≠ some s.host.tb.raw ∧
      s.host.lowestHead = none ∧ s.host.get (Reg.TRT_MASTER_FREE 0) + s.host.get (Reg.TRT_MASTER_IN_FLIGHT 0) ≠ 128) :=
  ⟨by decide, _, rfl, by decide⟩

/-! ### Crossing -/

/-- Both isolation channels locked; or only the first. -/
def lockedState (a b : Bool) : State := { State.reset with phys := { State.reset.phys with lock0 := a, lock1 := b } }
/-- Both sides' start-up has reached the crossing. -/
def started1 : State := { atStep 4 0 with field := (fieldAtStep 6).field }
theorem wit_IsolationLocksGovernTheCrossing : (lockedState true true).locked 0 = true ∧ (lockedState true true).locked 1 = true ∧
    (lockedState false true).locked 0 = false ∧ R.host.run = true ∧ R.field.run = true ∧ started1.locked 0 = false ∧
    started1.locked 1 = false ∧ 4 ≤ started1.host.get Reg.SYS_BOOT_STATUS_STEP ∧ 6 ≤ started1.field.boot.step ∧
    started1.host.xing.state = 0 ∧ started1.field.xing.state = 0 ∧ (started1.field.xing.chan 10).full < 16 := by decide

/-- A channel with every slot full; with an acknowledge; with a cell received; with a cell in flight. -/
def fullChan : Chan := { Chan.idle with full := 16 }
def ackedChan : Chan := { Chan.idle with ackq := [⟨5, 3⟩] }
def gotChan (c : List Byte) : Chan := { Chan.idle with slots := [c] }
def flyChan : Chan := { Chan.idle with full := 1, flight := [⟨cell 8 [], 0⟩] }
def someCell : List Byte := cell 8 []

theorem wit_ChannelsPushPopAndAcknowledge : (hostChan 2 .idle).reaches sec ∧ hostSends 2 = true ∧ hostSends 79 = true ∧
    (hostChan 2 .idle).host.xing.canPush 2 = true ∧ (hostChan 2 fullChan).host.xing.canPush 2 = false ∧
    (hostChan 79 .idle).host.xing.canPush 79 = true ∧
    ((hostChan 2 ackedChan).host.xing.chan 2).ackq = ⟨5, 3⟩ :: [] ∧ ((hostChan 2 .idle).host.xing.chan 2).ackq = [] ∧
    hostReceives 9 = true ∧ hostReceives 64 = true ∧
    ((hostChan 9 (gotChan someCell)).host.xing.chan 9).slots = someCell :: [] ∧
    ((hostChan 9 .idle).host.xing.chan 9).slots = [] ∧ bit (0x80000000 : Word).toNat 31 = true ∧
    bit (0x7fffffff : Word).toNat 31 = false ∧ ((hostChan 64 .idle).host.xing.chan 64).acks = [] ∧
    ((hostChan 64 .idle).host.xing.chan 64).ackq.length < 16 ∧ secureChan 1 = true ∧ hostSends 1 = true ∧
    secureChan 10 = true ∧ hostReceives 10 = true ∧ core.isSecure = false ∧ sec.isSecure = true ∧
    (hostChan 64 .idle).host.stuck 1 64 = false := by decide

theorem wit_CellsArriveWhole : R.hostReady ∧ R.fieldReady ∧
    ((hostChan 64 flyChan).host.xing.chan 64).flight = ⟨cell 8 [], 0⟩ :: [] ∧ (hostChan 64 flyChan).hostReady ∧
    (∀ c ∈ [9, 10], hostReceives c = true ∧ (fieldChan c flyChan).hostReady ∧
      ((fieldChan c flyChan).field.xing.chan c).flight = ⟨cell 8 [], 0⟩ :: [] ∧
      (fieldChan c flyChan).field.xing.mayArrive c = true) ∧
    hostSends 2 = true ∧ (hostChan 2 flyChan).fieldReady ∧
    ((hostChan 2 flyChan).host.xing.chan 2).flight = ⟨cell 8 [], 0⟩ :: [] ∧
    (hostChan 2 flyChan).host.xing.mayArrive 2 = true := by decide

/-- Ends with something for a link cell, and with a link cell in flight. -/
def poppedChan : Chan := { Chan.idle with popped := 1 }
def hostLink (p : LinkPayload) : State := onHost (fun h => { h with xing := { h.xing with link := [p] } })
def fieldLink (p : LinkPayload) : State := onField (fun f => { f with xing := { f.xing with link := [p] } })
theorem wit_LinkCellsCarryNoticesAndBells : (hostChan 9 poppedChan).hostReady ∧ (hostChan 9 poppedChan).host.xing.state ≠ 0 ∧
    ((hostChan 9 poppedChan).host.xing.linkWaiting (hostChan 9 poppedChan).host.ringing
      (hostChan 9 poppedChan).host.now).waiting = true ∧
    (hostChan 9 poppedChan).host.xing.linkDue (hostChan 9 poppedChan).host.tb.raw.toNat = true ∧
    (fieldChan 2 poppedChan).fieldReady ∧ (fieldChan 2 poppedChan).field.xing.state ≠ 0 ∧
    ((fieldChan 2 poppedChan).field.xing.linkWaiting (fieldChan 2 poppedChan).field.xing.ring
      (fieldChan 2 poppedChan).field.now).waiting = true ∧
    (fieldChan 2 poppedChan).field.xing.linkDue (fieldChan 2 poppedChan).field.tb.raw.toNat = true ∧
    (∀ ns ∈ [[], [.dryLaunch true], [.blocked], [.released]],
      (fieldLink ⟨[(2, 1)], [], 0, ns, 0⟩).field.xing.link = ⟨[(2, 1)], [], 0, ns, 0⟩ :: []) ∧ R.host.stuck 1 2 = false ∧
    (hostLink ⟨[], [], 31, [], 0⟩).host.xing.link = ⟨[], [], 31, [], 0⟩ :: [] ∧ bit 31 5 = false ∧
    (hostLink ⟨[], [], 32, [], 0⟩).host.xing.link = ⟨[], [], 32, [], 0⟩ :: [] ∧ bit 32 5 = true ∧
    (hostLink ⟨[], [], 32, [], 0⟩).fieldReady ∧
    R.reaches core ∧ R.reaches sec ∧ (1 : Word) ≠ 0 := by decide

/-- HELLO and HEALTH cells; ends in HELLO; ends silent for 50 ms. -/
def helloCell : List Byte := cell 6 []
def healthCell : List Byte := cell 5 []
def inHello (s : State) : State := { s with
  host := { s.host with xing := { s.host.xing with state := 1 } }
  field := { s.field with xing := { s.field.xing with state := 1 } } }
def silent (n : DT) : State := { State.reset with
  host := { (hostChan 0 .idle).host with tb := { State.reset.host.tb with offset := n } }
  field := { (fieldChan 0 .idle).field with tb := { State.reset.field.tb with offset := n } } }
theorem wit_HelloAndHealthSetTheCrossing : (inHello (hostChan 10 (gotChan helloCell))).hostReady ∧
    ((inHello (hostChan 10 (gotChan helloCell))).host.xing.chan 10).slots = helloCell :: [] ∧ cellType helloCell = 6 ∧
    (inHello (hostChan 10 (gotChan helloCell))).host.xing.state = 1 ∧
    ((inHello (hostChan 10 (gotChan helloCell))).host.xing.chan 1).full < 16 ∧
    (inHello (fieldChan 1 (gotChan helloCell))).fieldReady ∧
    ((inHello (fieldChan 1 (gotChan helloCell))).field.xing.chan 1).slots = helloCell :: [] ∧
    (inHello (fieldChan 1 (gotChan helloCell))).field.xing.state = 1 ∧
    (silent 50000000).hostReady ∧ (silent 50000000).fieldReady ∧ (silent 50000000).host.xing.state ≠ 0 ∧
    (silent 50000000).field.xing.state ≠ 0 ∧
    50000000 ≤ dtDiff (silent 50000000).host.now (silent 50000000).host.xing.lastHealth ∧
    50000000 ≤ dtDiff (silent 50000000).field.now (silent 50000000).field.xing.lastHealth ∧
    dtDiff (silent 49999999).host.now (silent 49999999).host.xing.lastHealth < 50000000 ∧
    2 ≤ (silent 0).host.xing.state ∧ (silent 0).host.xing.healthDue 0 = true ∧
    (silent 0).field.xing.healthDue 0 = true ∧ ((silent 0).host.xing.chan 1).full < 16 ∧ 2 ≤ (silent 0).field.xing.state ∧
    ((silent 0).field.xing.chan 10).full < 16 ∧
    ((hostChan 10 (gotChan healthCell)).host.xing.chan 10).slots = healthCell :: [] ∧ cellType healthCell = 5 ∧
    ((fieldChan 1 (gotChan healthCell)).field.xing.chan 1).slots = healthCell :: [] := by decide

/-- Replies with a round trip of 3 µs and of one more. -/
def xferCell (t4 : Nat) : List Byte := cell 4 (leBytes 0 4 ++ leBytes 0 8 ++ leBytes t4 8 ++ leBytes 0 8 ++ leBytes 0 8)
def sentAt (n : DT) (now : DT) : State := onHost (fun h =>
  { h with tb := { h.tb with offset := now }, xing := { h.xing with state := 2, xfer := { h.xing.xfer with lastSent := some n } } })
theorem wit_TimeTransferFeedsTheMapping : (hostChan 0 .idle).hostReady ∧ 2 ≤ (hostChan 0 .idle).host.xing.state ∧
    (hostChan 0 .idle).host.xing.xfer.lastSent = none ∧
    (sentAt 5 2000005).host.xing.xfer.lastSent = some 5 ∧ 2000000 ≤ dtDiff (sentAt 5 2000005).host.now 5 ∧
    cellType (xferCell 3000) = 4 ∧ ((fieldChan 1 (gotChan (xferCell 3000))).field.xing.chan 1).slots = xferCell 3000 :: [] ∧
    ((hostChan 10 (gotChan (xferCell 3000))).host.xing.chan 10).slots = xferCell 3000 :: [] ∧
    fieldAt (xferCell 3000) 4 4 = (hostChan 10 (gotChan (xferCell 3000))).host.xing.xfer.xseq ∧
    dtDiff (dtAt (xferCell 3000) 16) (dtAt (xferCell 3000) 24) -
      dtDiff (dtAt (xferCell 3000) 8) (dtAt (xferCell 3000) 32) ≤ 3000 ∧
    3000 < dtDiff (dtAt (xferCell 3001) 16) (dtAt (xferCell 3001) 24) -
      dtDiff (dtAt (xferCell 3001) 8) (dtAt (xferCell 3001) 32) := by decide

/-- A HEALTH goes out 10 ms after the last and not before. -/
theorem test_health_period : ({ R.host.xing with healthSent := some 0 }).healthDue 9999999 = false ∧
    ({ R.host.xing with healthSent := some 0 }).healthDue 10000000 = true := by decide +kernel
theorem test_lock_second : gives (.isolationLockLost 0) (lockedState true false) (fun t => t.host.xing.state == 0) = true := by
  decide
theorem test_push_no_slot : gives (.mbxPush sec 2) (hostChan 2 fullChan)
    (fun t => t.host.get (Reg.MBX_TXSTAT_REJECTED 2) == 1) = true := by decide
theorem test_ack_read : gives (.ackqRead sec 2) (hostChan 2 ackedChan) (fun t => t.host.resp == .data 0x80000305) = true := by
  decide

/-! ### Time and the matrix -/

/-- The time bases with a slave port, the servo locked or not, gPTP on at every port. -/
def slaved (locked : Bool) : State := { State.reset with
  host := { (State.reset.host.put Reg.TIM_GPTP_CTRL_HN_EN 15) with
    tb := { State.reset.host.tb with slave := some 3, locked := locked } }
  field := { State.reset.field with tb := { State.reset.field.tb with slave := some 7, locked := locked } } }
def window (e now : DT) : State := { State.reset with
  host := { State.reset.host with tb := { State.reset.host.tb with offset := now, syncUntil := some e } }
  field := { State.reset.field with tb := { State.reset.field.tb with offset := now, syncUntil := some e } } }

theorem wit_TimeBasesStepAndSynchronise : R.reaches sec ∧ sec.isSecure = true ∧ core.isSecure = false ∧ R.reaches core ∧
    incrOk 0 = false ∧ (∀ v ∈ [0x27F5C290, 0x280A3D70], incrOk v = true) ∧ incrOk 0x27F5C28F = false ∧ incrOk 0x280A3D71 = false ∧
    (window 5 5).host.tb.syncUntil = some 5 ∧ dtReached (window 5 5).host.now 5 = true ∧
    (window 5 5).field.tb.syncUntil = some 5 ∧ dtReached (window 5 5).field.now 5 = true ∧ (window 5 5).hostReady ∧
    (window 5 5).fieldReady ∧ tget 0 R.host.heldLo Reg.TIM_OFFSET_LO_OFFSET.off = 0 ∧
    tget 0 (onHost (fun h => { h with heldLo := [(Reg.TIM_OFFSET_LO_OFFSET.off, 6)] })).host.heldLo
      Reg.TIM_OFFSET_LO_OFFSET.off - 1 = 5 ∧ R.host.tb.next = none ∧ (R.host.tb.step 7).next ≠ none ∧
    R.host.tb.mayConfirm (R.host.get Reg.TIM_SYNC_LIMIT_LIMIT) = false ∧
    ({ (slaved true).host.tb with offsets := List.replicate 8 999 }).mayConfirm 1000 = true ∧
    ({ (slaved true).host.tb with offsets := List.replicate 8 1000 }).mayConfirm 1000 = false := by decide

def ports (ps : List PortEntry) : State := onField (fun f => { f with act := { f.act with field := some ⟨0, 0, ps, [], [], []⟩ } })
def port7 : PortEntry := ⟨7, 1, 1, 0, 0, 0, 0, 1000000, 0, 100000⟩
theorem wit_GptpServoStepsOrSlews : (slaved true).hostReady ∧
    (∀ p ∈ [0, 3], bit ((slaved true).host.get Reg.TIM_GPTP_CTRL_HN_EN) p = true ∧
      bit (R.host.get Reg.TIM_GPTP_CTRL_HN_EN) p = false) ∧
    (0 : BitVec 8).toNat = (slaved true).host.get Reg.TIM_GPTP_CTRL_DOMAIN ∧
    (slaved true).host.tb.slave = some 3 ∧ (slaved true).host.shift = 0 ∧ (slaved true).host.shiftNew = false ∧
    (slaved true).host.tb.locked = true ∧ (slaved false).host.tb.locked = false ∧
    (onHost (fun h => { h with shiftNew := true })).host.shiftNew = true ∧
    ((slaved true).host.tb.offsetOf 3 1000000 0 0).natAbs ≤ 1000000 ∧
    1000000 < ((slaved true).host.tb.offsetOf 3 1000001 0 0).natAbs ∧
    ({ (slaved true).host.tb with gptp := { (slaved true).host.tb.gptp with syncAt := some (3, 5) } }).gptp.syncAt = some (3, 5) ∧
    ((slaved true).host.gptpOn 3 = true ∧
      (regs [(Reg.TIM_GPTP_CTRL_HEAD_MASTER, 1), (Reg.HDS_STATUS_ENABLED 47, 1)]).host.gptpOn 51 = true) ∧
    (∀ k ∈ [GptpSend.sync, .announce, .pdelayReq], R.host.tb.sendDue 51 k 1000000000 = true) ∧
    (regs [(Reg.TIM_GPTP_CTRL_HEAD_MASTER, 1), (Reg.HDS_STATUS_ENABLED 47, 1)]).host.get Reg.TIM_GPTP_CTRL_HEAD_MASTER = 1 ∧
    (regs [(Reg.TIM_GPTP_CTRL_HEAD_MASTER, 1), (Reg.HDS_STATUS_ENABLED 47, 1)]).host.get (Reg.HDS_STATUS_ENABLED 47) = 1 ∧
    (slaved true).field.tb.slave = some 7 ∧ (slaved true).fieldReady ∧
    (ports [port7]).fieldReady ∧ (ports [port7]).field.gptpOn 7 = true ∧
    (ports [port7]).field.tb.sendDue 7 .pdelayReq 1000000000 = true ∧
    ((ports [port7]).field.gptpOut 7 .pdelayReq).1.isSome = true := by decide +kernel

def owned (n : Nat) (who : Requester) : State := regs [(Reg.TRT_LK_BUSY n, 1), (Reg.TRT_LK_OWNER n, who.lockId 1)]
theorem wit_LocksAreAcquiredByReading : R.reaches core ∧ R.reaches sec ∧ R.hostReady ∧
    (∀ n ∈ [0, 255], (owned n core).host.get (Reg.TRT_LK_BUSY n) = 1 ∧
      (owned n core).host.get (Reg.TRT_LK_OWNER n) = core.lockId 1 ∧ R.host.get (Reg.TRT_LK_BUSY n) ≠ 1 ∧
      (owned n core).host.get (Reg.TRT_LK_OWNER n) ≠ pcie.lockId 1) ∧ (1 : Word) ≠ 0 ∧ sec.isSecurePriv = true ∧
    (∀ m < 256, (owned 255 core).host.get (Reg.TRT_LK_BUSY m) ≤ 1) := by decide +kernel

/-- A read of 64 bytes by a secure privileged control core, in the map and outside it. -/
def treq (ta : BitVec 38) (secure : Bool) : TReq := ⟨35, 0, 0, ta, .read 64, true, secure, []⟩
theorem test_wf_route : Instr.wellFormed (.tartanRequest { treq 0 true with
    route := [⟨0, true⟩, ⟨1, true⟩, ⟨2, true⟩, ⟨3, true⟩] }) = false := by decide
theorem test_wf_burst : Instr.wellFormed (.tartanRequest { treq 0 true with op := .read 0 }) = false := by decide

/-- Every address from TA 0x60000000 on allowed to privileged reads of port 35. -/
def outside : State := regs [(Reg.mpuWord 35 31 0, 0x1800000), (Reg.mpuWord 35 31 1, 0xFFFFFFFF), (Reg.mpuWord 35 31 2, 0x9),
  (Reg.TRT_MASTER_FREE 35, 1)]
def waiting (left : List Hop) : Waiting := ⟨1, { treq 0x400000 true with port := 46 }, left, 12, 3, 0⟩
def matrix (p : ArbPoint) (left : List Hop) : State := onHost (fun h => { h.put (Reg.TRT_MASTER_FREE 46) 1 with
  tartan := { h.tartan with points := [(p, { PointState.idle with queue := [waiting left] })] } })
def winner (s : State) (p : ArbPoint) : Option Waiting :=
  (s.host.arbitrate (s.host.tartan.point p) ((s.host.tartan.point p).presented.filter
    (s.host.eligible p (s.host.tartan.point p))).length ((s.host.tartan.point p).presented.filter
    (s.host.eligible p (s.host.tartan.point p)))).1
def granted1 : State := onHost (fun h => { h with tartan := { h.tartan with inFlight := [⟨1, (waiting []).req, 12⟩] } })
theorem wit_MatrixRequestsAreJudgedAndServed : outside.hostReady ∧ outside.host.burstOk (treq 0x400000 true) = true ∧
    outside.host.get (Reg.TRT_MASTER_FREE 35) ≠ 0 ∧
    outside.host.mpuAllows 35 true true false 0x5fffffc0 64 = false ∧
    outside.host.mpuAllows 35 true true false 0x60000000 64 = true ∧ outside.host.targetOf 0x60000000 = none ∧
    outside.host.protection 35 0x60000000 (.read 64) = none ∧ outside.host.mpuAllows 35 true true false 0x400000 64 = true ∧
    outside.host.targetOf 0x400000 = some 12 ∧ winner (matrix (.target 12) []) (.target 12) = some (waiting []) ∧
    winner (matrix (.link 3) [⟨3, true⟩]) (.link 3) = some (waiting [⟨3, true⟩]) ∧
    (∀ p ∈ [ArbPoint.target 12, .link 3], ((matrix p []).host.arbCycle ((matrix p []).host.tartan.point p)).isSome = true) ∧
    (∃ x ∈ granted1.host.tartan.inFlight, x.serial = 1 ∧ x.req.port.val = 46 ∧
      granted1.host.tartan.earlierOpen x = false) ∧ granted1.host.stuck 0 46 = false ∧
    (onHost (fun h => { h with conserve := { h.conserve with stuck := [(0, 46)] } })).host.stuck 0 46 = true ∧
    (∀ c < 12, ∀ r ∈ granted1.host.dramQueue c, r.serial ≠ 1) ∧ R.host.barOpen sec = true ∧ sec.isSecurePriv = true ∧
    core.isSecurePriv = false := by decide +kernel

theorem wit_RegionWordsApplyTogether : R.reaches sec ∧ R.reaches core ∧ 1503 = 32 * 46 + 31 ∧
    (onHost (fun h => { h with tartan := { h.tartan with heldWords := [(1503 * 2 + 1, 8)] } })).host.tartan.heldWords =
      [(1503 * 2 + 1, 7 + 1)] ∧ R.host.tartan.syncWait = [] ∧
    (onHost (fun h => { h with tartan := { h.tartan with syncWait := [4] } })).host.tartan.syncWait ≠ [] := by decide

theorem test_release_not_owner : gives (.lockRelease sec 0 255 0) (owned 255 core)
    (fun t => t.host.get Reg.TRT_LOCK_VIOL_COUNT == 1 && t.host.get (Reg.TRT_LK_BUSY 255) == 1) = true := by decide
theorem test_mpu_word2 : gives (.mpuRegionWrite sec 46 31 2 0xFFFFFFFF) R
    (fun t => t.host.get (Reg.mpuWord 46 31 2) == 63) = true := by decide

/-! ### Central store -/

/-- The reset state with the central store changed. -/
def onStore (g : Store → Store) : State := onHost (fun h => { h with store := g h.store })
/-- Channel 11 with one request. -/
def asked (ca : Nat) (op : DramOp) : State := onHost (fun h => { h.put (Reg.CST_CH_STATUS_STATE 11) 0 with
  store := { h.store with heldReqs := [(11, [⟨35, ca, op, 0⟩])] } })
/-- Block 1 poisoned and asked for. -/
def poisonedRead : State := { R with host := { (asked 64 (.read 64)).host with
  store := { (asked 64 (.read 64)).host.store with poison := [(1, true)] } } }
theorem wit_ChannelsServeTheirRequests : (asked caEnd (.read 64)).hostReady ∧
    (asked caEnd (.read 64)).host.dramQueue 11 = ⟨35, caEnd, .read 64, 0⟩ :: [] ∧
    (asked 0 (.read 64)).host.get (Reg.CST_CH_STATUS_STATE 11) = 0 ∧ caEnd ≤ caEnd ∧ caEnd - 64 < caEnd ∧
    (asked (caEnd - 64) (.read 64)).host.store.anyPoison (caEnd - 64) 64 = false ∧
    poisonedRead.host.store.anyPoison 64 64 = true ∧ poisonedRead.host.dramQueue 11 = ⟨35, 64, .read 64, 0⟩ :: [] ∧
    (caEnd - 64) % 64 = 0 ∧ (List.replicate 64 (0 : Byte)).length % 64 = 0 ∧ 58720255 < channelBlocks ∧
    R.host.get (Reg.CST_CH_STATUS_ROLE 0) ≠ 2 ∧ (regs [(Reg.CST_CH_STATUS_STATE 0, 0)]).host.get (Reg.CST_CH_STATUS_STATE 0) = 0 ∧
    (onHost (fun h => { h with cfg := { h.cfg with twin := some ⟨0, 1, 1, 0, 1, 256⟩ } })).host.twinBody.autoRetire ≠ 1 ∧
     R.host.dramQueue 0 = [] ∧ tget 0 R.host.store.srPhase 0 ≠ 1 ∧
    R.host.get (Reg.CST_CH_STATUS_STATE 11) ≠ 3 := by decide

def idleSpare : State := regs [(Reg.CST_CH_STATUS_SR_EN 11, 1), (Reg.CST_CH_STATUS_STATE 11, 0)]
def noIdle : State := { idleSpare with host := { idleSpare.host with cfg := { idleSpare.host.cfg with
  cst := { idleSpare.host.cfg.cst with srIdleUs := 0 } } } }
def withImage (s : State) : State := { s with host := { s.host with cfg := { s.host.cfg with imageId := 1 } } }
theorem wit_ChannelsSleepTrainAndPause : noIdle.hostReady ∧ noIdle.host.get (Reg.CST_CH_STATUS_ROLE 11) ≠ 0 ∧
    noIdle.host.get (Reg.CST_CH_STATUS_SR_EN 11) = 1 ∧ noIdle.host.get (Reg.CST_CH_STATUS_STATE 11) = 0 ∧
    noIdle.host.dramQueue 11 = [] ∧
    tget 0 noIdle.host.store.lastReq 11 + noIdle.host.cfg.cst.srIdleUs * 400 ≤ noIdle.host.tb.raw.toNat ∧
    tget 0 (onStore (fun m => { m with srPhase := [(11, 2)] })).host.store.srPhase 11 = 2 ∧
    tget 0 R.host.store.lastPause 11 = 0 ∧ R.host.barOpen sec = true ∧ R.host.rateInactive 11 = true ∧
    (1 : Word).toNat % 4 ≠ 3 ∧ (1 : Word).toNat % 4 ≠ R.host.get (Reg.CST_CH_CTRL_RATE 11) ∧
    (withImage R).host.rateInactive 0 = false ∧ (withImage R).host.rateInactive 11 = true ∧
    (regs [(Reg.CST_CH_STATUS_STATE 11, 4)]).host.get (Reg.CST_CH_STATUS_STATE 11) = 4 := by decide

/-- Retirement of channel 0 in a state, so many blocks copied. -/
def retiringAt (st n : Nat) : State := onHost (fun h => {
  ((h.put Reg.CST_STATUS_RETIRE_STATE st).put (Reg.CST_CH_STATUS_STATE 0) 0).put (Reg.CST_CH_STATUS_STATE 11) 0 with
  store := { h.store with retiring := some 0, copied := n } })
theorem wit_RetirementMovesASlot : R.hostReady ∧ R.host.barOpen core = true ∧ core.isSecure = false ∧
    R.host.barOpen sec = true ∧ sec.isSecure = true ∧ R.host.spareCh = some 11 ∧
    (regs [(Reg.CST_STATUS_SPARE_VALID, 0)]).host.spareCh = none ∧ R.host.get (Reg.CST_CH_STATUS_ROLE 11) ≠ 0 ∧
    R.host.get (Reg.CST_CH_STATUS_ROLE 0) = 0 ∧ R.host.retiringNow = false ∧ (retiringAt 1 0).host.retiringNow = true ∧
    (retiringAt 3 0).host.retiringNow = true ∧ (retiringAt 1 0).host.spareCh = some 11 ∧
    (retiringAt 1 0).host.get Reg.CST_STATUS_RETIRE_STATE = 1 ∧ (retiringAt 1 0).host.get (Reg.CST_CH_STATUS_STATE 11) = 0 ∧
    (retiringAt 1 0).host.get (Reg.CST_CH_STATUS_RATE_NOW 11) = 0 ∧ (retiringAt 2 0).host.store.retiring = some 0 ∧
    (retiringAt 2 0).host.get Reg.CST_STATUS_RETIRE_STATE = 2 ∧
    (retiringAt 2 (channelBlocks - 1)).host.store.copied < channelBlocks ∧ (retiringAt 2 0).host.dramQueue 0 = [] ∧
    (retiringAt 2 0).host.get (Reg.CST_CH_STATUS_STATE 0) = 0 ∧ (retiringAt 2 0).host.get (Reg.CST_CH_STATUS_STATE 11) = 0 ∧
    (retiringAt 2 0).host.dramQueue 11 = [] ∧ (retiringAt 2 channelBlocks).host.store.copied = channelBlocks ∧
    (retiringAt 3 channelBlocks).host.get Reg.CST_STATUS_RETIRE_STATE = 3 := by decide

/-- Surface 4095 of one page at page 100, coded or not, with a release pending or not, leased or not. -/
def surf (coding : Nat) (pending : Bool) : Surface := ⟨100, 0, coding, 0, 64, 64, 0, Tag.absent, pending, false, none, 0⟩
def shown (x : Surface) (leased : Bool) : State := onHost (fun h =>
  { (h.put Reg.CMP_SURF_PROBE_HANDLE 4095).put Reg.CST_CWIN_CTRL_HANDLE 4095 with display := { h.display with
    surfaces := [(4095, some x)], compares := if leased then [.surface 4095] else [] } })
theorem wit_SurfacesAreReleasedAndProbed : R.reaches core ∧ R.host.surface 4095 = none ∧
    (shown (surf 0 true) true).host.surface 4095 = some (surf 0 true) ∧ (surf 0 true).pending = true ∧
    (surf 0 false).pending = false ∧ (shown (surf 0 false) true).host.unleased 4095 = false ∧
    (shown (surf 0 false) false).host.unleased 4095 = true ∧
    (shown (surf 0 false) false).host.get Reg.CMP_SURF_PROBE_HANDLE = 4095 ∧
    (shown (surf 0 false) false).host.surfState 4095 = 1 ∧ (shown (surf 0 false) true).host.surfState 4095 ≠ 1 ∧
    (0xFFFFFFFF : Word).toNat % 4096 = 4095 := by decide

def ue1 : UeEntry := ⟨caEnd - 64, 11, 3, 46, 0xFFFF, 0⟩
/-- The shown coded surface with the block of its first slot's trailer and its data poisoned. -/
def badSlot : State := { shown (surf 1 false) false with host := { (shown (surf 1 false) false).host with
  store := { R.host.store with poison := [(102400, true)] } } }
theorem wit_TheErrorLogAndTheCodingWindow : R.reaches sec ∧
    tget none (onStore (fun m => { m with ueLog := [(1023, some ue1)] })).host.store.ueLog ((0xFFFF : Word).toNat % 1024) =
      some ue1 ∧ (1 : Word).toNat % 4096 ≠ R.host.get Reg.CST_CWIN_CTRL_HANDLE ∧
    (0 : Word).toNat % 4096 = R.host.get Reg.CST_CWIN_CTRL_HANDLE ∧ R.hostReady ∧
    R.host.windowSurface = none ∧ (shown (surf 1 false) false).host.windowPoisoned (surf 1 false) 0 = false ∧
    badSlot.host.windowSurface = some (surf 1 false) ∧ badSlot.host.windowPoisoned (surf 1 false) 0 = true ∧ (shown (surf 1 false) false).host.windowSurface = some (surf 1 false) ∧
    (shown (surf 1 false) false).host.surfState ((shown (surf 1 false) false).host.get Reg.CST_CWIN_CTRL_HANDLE) < 2 ∧
    viewTile (surf 1 false) 0 = some (0, 0, 0) ∧ viewTile (surf 1 false) (64 * 256 - 1) = some (7, 15, 127) ∧
    viewTile (surf 1 false) (64 * 256) = none ∧
    (shown (surf 1 false) false).host.store.openTiles.length < 64 ∧
    (shown (surf 1 false) false).host.store.openTiles.find? (fun y => y.tx == 0 && y.ty == 0) = none ∧
    2 ≤ (shown (surf 1 false) true).host.surfState ((shown (surf 1 false) true).host.get Reg.CST_CWIN_CTRL_HANDLE) := by
  decide

/-- PCIe out of reset; the coding window closed to port 34. -/
def opened (s : State) : State := { s with host := { s.host with pcieUp := true }.put (Reg.mpuWord 34 2 2) 0 }
theorem wit_Bar2ReachesOnlyWhatTheMpuAllows : (opened R).hostReady ∧ (opened R).host.pcieUp = true ∧
    (opened R).host.mpuAllows 34 false false false ((opened R).host.bar2Ta 0xE0000000) 4 = false ∧
    (opened R).host.mpuAllows 34 false false true ((opened R).host.bar2Ta 6553600) 4 = true ∧
    (opened (shown (surf 0 false) true)).host.protection 34 ((opened R).host.bar2Ta 6553600) (.write [1]) =
      some (.surface 4095, 6553600) ∧
    (opened R).host.mpuAllows 34 false false false ((opened R).host.bar2Ta 0xDFFFFFFF) 1 = true ∧
    (0xDFFFFFFF : BitVec 32).toNat < 0xE0000000 ∧ (opened R).host.windowBase + 0xDFFFFFFF + 1 ≤ caEnd ∧
    (opened R).host.store.anyPoison ((opened R).host.windowBase + 0xDFFFFFFF) 1 = false ∧
    (opened R).host.protection 34 ((opened R).host.bar2Ta 0xDFFFFFFF) (.write [1]) = none := by decide +kernel

theorem test_retire_spare : gives (.channelRetire sec 11) R (fun t => t.host.get Reg.CST_STATUS_RETIRE_RESULT == 2) = true := by
  decide
theorem test_release_free : gives (.surfaceRelease core 7 0) R
    (fun t => t.host.get Reg.CMP_SURF_CMD_RESULT_RESULT == 2) = true := by decide
theorem test_decode_error : gives (.dramAccess 11 .clean 0 none) (asked caEnd (.read 64))
    (fun t => t.host.resp == .errorResponse && t.host.get Reg.CST_DECODE_ERR_COUNT == 1) = true := by decide

/-! ### Lanes and links -/

def link0 : LinkEntry := ⟨0, 1, 0, 15⟩
def send0 : SendEntry := ⟨0, 0, 0, 0, 0, 64, 64⟩
/-- The reset state with stitch link 0 enabled and wired, and one send entry. -/
def stitched (rs : List (Fld × Nat)) : State :=
  onHost (fun h => { rs.foldl (fun h r => h.put r.1 r.2) h with cfg := { h.cfg with stitch := some ⟨[link0], [send0], []⟩ } })
/-- UP on lanes 0 and 1, that is 56 and 57. -/
def up2 : State := stitched [(Reg.STC_STATUS_STATE 0, 4), (Reg.STC_STATUS_ACTIVE 0, 3), (Reg.STC_CREDITS_TX_CREDITS 0, 256),
  (Reg.LNE_STATUS_STATE 56, 3), (Reg.LNE_STATUS_STATE 57, 3)]
def idleBlock : TrainBlock := ⟨.hold, .hold, none, true, true⟩
theorem wit_LanesTrainFailAndAreMeasured : R.hostReady ∧ R.fieldReady ∧ R.host.get (Reg.LNE_STATUS_LOS 95) ≠ 1 ∧
    (regs [(Reg.LNE_STATUS_LOS 95, 1)]).host.get (Reg.LNE_STATUS_LOS 95) = 1 ∧
    R.host.get (Reg.LNE_STATUS_LOL 0) ≠ 1 ∧ linkOfLane 0 = none ∧ linkOfLane 56 = some (0, 0) ∧ linkOfLane 79 = some (5, 3) ∧
    linkOfLane 80 = none ∧ up2.host.linkUp 0 = true ∧ bit (up2.host.get (Reg.STC_STATUS_ACTIVE 0)) 0 = true ∧
    clrBit (up2.host.get (Reg.STC_STATUS_ACTIVE 0)) 0 ≠ 0 ∧
    (regs [(Reg.LNE_STATUS_STATE 0, 3)]).host.get (Reg.LNE_STATUS_STATE 0) = 3 ∧ R.host.get (Reg.LNE_STATUS_STATE 0) ≠ 3 ∧
    (stitched [(Reg.LNE_STATUS_STATE 56, 2)]).host.get (Reg.LNE_STATUS_STATE 56) = 2 ∧
    (stitched []).host.ilm2400 0 = false ∧ idleBlock.preset = none ∧ R.host.get (Reg.LNE_STATUS_STATE 0) = 0 ∧
    R.host.laneWanted 0 = true ∧ (stitched []).host.laneWanted 56 = true ∧
    (stitched []).host.get (Reg.LNE_STATUS_STATE 56) = 0 := by decide

/-- Spare 15 armed for lane 47 with AUTO, the lane's signal lost for 4 µs. -/
def armed : State := onHost (fun h => { (([(Reg.LNE_SPARE_STATUS_ARMED 15, 1), (Reg.LNE_SPARE_CTRL_LANE 15, 47),
  (Reg.LNE_SPARE_CTRL_AUTO 15, 1)] : List (Fld × Nat)).foldl (fun h r => h.put r.1 r.2) h) with
  lanes := { h.lanes with badAt := [(47, 1)] }, tb := { h.tb with raw := 1600 } })
def fieldBad (now : DT) : State := onField (fun f =>
  { f with tb := { f.tb with offset := now }, lanes := [(7, { FieldLane.reset with badAt := some 0 })] })
theorem wit_SparesTakeOverLanes : armed.reaches sec ∧ sec.isSecure = true ∧ core.isSecure = false ∧
    armed.host.get (Reg.LNE_SPARE_STATUS_ARMED 15) = 1 ∧ armed.host.get (Reg.LNE_SPARE_CTRL_LANE 15) = 47 ∧
    armed.host.armedFor 47 = some 15 ∧ armed.host.get (Reg.LNE_STATUS_REPLACED 47) ≠ 1 ∧
    R.host.get (Reg.LNE_SPARE_STATUS_ARMED 0) ≠ 1 ∧ R.reaches sec ∧ armed.host.get (Reg.LNE_SPARE_CTRL_AUTO 15) = 1 ∧
    armed.host.laneFaulty 47 = true ∧ (fieldBad 1000000).fieldReady ∧ 7 / 4 = 1 ∧
    (∀ q < 8, ((fieldBad 1000000).field.lane q).spare ≠ some (8 + 1)) ∧
    ((fieldBad 1000000).field.lane 7).spare = none ∧ ((fieldBad 1000000).field.lane 7).badAt = some 0 ∧
    1000000 ≤ dtDiff (fieldBad 1000000).field.now 0 := by decide

/-- Link 0 in ALIGN with lanes 0 and 1 trained, good markers of some lanes, at a raw count. -/
def bringUp (good : List (Nat × Nat)) (raw : Nat) : State :=
  let s := stitched [(Reg.STC_STATUS_STATE 0, 3), (Reg.LNE_STATUS_STATE 56, 3), (Reg.LNE_STATUS_STATE 57, 3)]
  { s with host := ({ s.host with tb := { s.host.tb with raw := raw } }).setLink 0 { LinkState.down with good := good } }
/-- Every trained lane has had two good markers. -/
def alignedAll : State := bringUp [(0, 2), (1, 2)] 0
/-- Lane 1 has had one, and 100 µs have passed. -/
def alignedLate : State := bringUp [(0, 2), (1, 1)] 40000
/-- UP with one miss of lane 0. -/
def missed1 : State := { up2 with host := up2.host.setLink 0 { up2.host.link 0 with misses := [(0, 1)] } }
/-- UP at the 2,400 grade. -/
def up24 : State := onHost (fun h => { h.put (Reg.STC_STATUS_STATE 0) 4 with cfg := { h.cfg with stitch := some ⟨[⟨0, 1, 1, 15⟩], [], []⟩ } })
/-- The lanes of link 0 in UP, and those of them that are aligned. -/
def trained (s : State) : List Nat :=
  (List.range 4).filter (fun i => bit (s.host.wired 0) i && s.host.get (Reg.LNE_STATUS_STATE (laneOfLink 0 i)) == 3)
def alignedMask (s : State) : Nat := (trained s).foldl (fun m i => if s.host.aligned 0 i then setBit m i else m) 0
theorem wit_LinksAlign : alignedAll.hostReady ∧ alignedMask alignedAll = 3 ∧ alignedMask alignedLate = 1 ∧
    alignedAll.host.linkEnabled 0 = true ∧ alignedLate.host.linkEnabled 0 = true ∧
    alignedAll.host.get (Reg.STC_STATUS_STATE 0) = 3 ∧ alignedLate.host.get (Reg.STC_STATUS_STATE 0) = 3 ∧
    (∀ i ∈ trained alignedAll, alignedAll.host.aligned 0 i = true) ∧ trained alignedLate = [0, 1] ∧
    alignedLate.host.aligned 0 1 = false ∧
    (alignedLate.host.link 0).since + 40000 ≤ alignedLate.host.tb.raw.toNat ∧ alignedAll.host.stuck 4 0 = false ∧
    alignedAll.host.get (Reg.LNE_STATUS_STATE 56) = 3 ∧ linkOfLane 57 = some (0, 1) ∧
    up24.host.linkUp 0 = true ∧ up24.host.ilm2400 0 = true ∧ up2.host.ilm2400 0 = false ∧
    up2.host.tb.due up2.host.lanes.peerAt 4000000 = true := by decide
theorem wit_LinksRunOnCreditsAndRecover :
    linkOfLane 56 = some (0, 0) ∧ tget 0 (up2.host.link 0).misses 0 = 0 ∧ tget 0 (missed1.host.link 0).misses 0 = 1 ∧
    missed1.host.linkUp 0 = true ∧ bit (missed1.host.get (Reg.STC_STATUS_ACTIVE 0)) 0 = true ∧
    clrBit (missed1.host.get (Reg.STC_STATUS_ACTIVE 0)) 0 ≠ 0 ∧ up2.host.linkAlive 0 = true ∧
    (stitched [(Reg.STC_STATUS_STATE 0, 5)]).host.get (Reg.STC_STATUS_STATE 0) = 5 ∧
    up2.host.get (Reg.STC_STATUS_STATE 0) ≠ 5 ∧ R.host.barOpen sec = true ∧ R.host.barOpen core = true ∧
    bit (up2.host.wired 0) 3 = true ∧ bit (up2.host.get (Reg.STC_STATUS_ACTIVE 0)) 3 = false ∧
    up2.host.get (Reg.STC_CREDITS_TX_CREDITS 0) ≠ 0 := by decide

/-- A link cell of a TYPE and LSEQ with an empty payload. -/
def sealedCell (ty lseq : Nat) : List Byte :=
  let head := leBytes ty 2 ++ leBytes 0 2 ++ leBytes lseq 4 ++ List.replicate 28 0
  head ++ leBytes (crc32c head).toNat 4
def ringed : State := { up2 with host := (up2.host.setHead 0 { idle1 with started := 1 }) }
def ringSlot0 : RingSlot := ⟨0, 0, 0, 0, Tag.absent⟩
def slotted : State := { ringed with host := { ringed.host with
  display := { ringed.host.display with rings := [(ringSlotOf plan1 0, some ringSlot0)] }
  store := { ringed.host.store with pages := [⟨1, 4, .ring 0 64, false⟩] } } }
/-- The bytes of the send entry's part of slice 0. -/
def tiles0 : List Byte := slotted.host.sendTiles send0 plan1 0
theorem wit_LinkCellsAreJudgedInOrder : up2.hostReady ∧ up2.host.linkUp 0 = true ∧ up2.host.get (Reg.STC_STATUS_ACTIVE 0) ≠ 0 ∧
    up2.host.cellFate 0 [] = .damaged ∧ up2.host.cellFate 0 (sealedCell 4 1) = .early ∧
    up2.host.cellFate 0 (sealedCell 4 0xFFFFFFFF) = .held ∧ up2.host.cellFate 0 (sealedCell 4 0) = .next_ ∧
    fieldAt (sealedCell 4 0) 0 1 = 4 ∧ up2.host.cellFate 0 (sealedCell 0 0) = .next_ ∧
    up2.host.cellFate 0 (sealedCell 6 0) = .next_ ∧ 5 < fieldAt (sealedCell 6 0) 0 1 ∧ R.host.linkUp 0 = false ∧
    slotted.host.cfg.stitch.bind (fun x => x.sends[0]?) = some send0 ∧
    slotted.host.sendNext send0 (slotted.host.sendState 0) = some (plan1, { SendState.idle with frame := 1 }) ∧
    (ringed.host.readSlot 0 plan1 0).1 = none ∧ (slotted.host.readSlot 0 plan1 0).1 = some ringSlot0 ∧
    slotted.host.linkUp 0 = true ∧
    tiles0.length = 4096 ∧ send0.slices.2 = 1 ∧
    (dataCells false (tiles0.length + 1) tiles0).1.length + b2n false ≤ slotted.host.get (Reg.STC_CREDITS_TX_CREDITS 0) := by decide +kernel

theorem test_los_counts : gives (.laneLos 95) R (fun t => t.host.get (Reg.LNE_COUNTS_LOS_EVENTS 95) == 1) = true := by decide
theorem test_credit : gives (.creditBlockRx 0 ⟨65535⟩) up2
    (fun t => t.host.get (Reg.STC_CREDITS_TX_CREDITS 0) == 255) = true := by decide

/-! ### Video, the mimic and the encoders -/

/-- Stream 127: multicast H.264 at port 3, payload type 96, SYNC_HOLD 5 ms, JB_HOLD 1 ms, four tokens. -/
def stream1 (frer en : Nat) : StreamEntry :=
  ⟨127, en, 0, 0, frer, 0, 1, 3, 10, 3, 2, 96, 5000, 0xE0000001, 0, 64, 64, 1000, 100000, 0, 0, 0, 0, 0, 0, 0, 0, 5, 1, 4⟩
def rtp1 : List Byte := [0x80, 96, 0, 1] ++ List.replicate 8 0 ++ [0x65, 0x80]
def rtcp1 : List Byte := [0x80, 200, 0, 6] ++ List.replicate 24 0
def frameOf (bs : List Byte) : NetFrame := ⟨BitVec.ofNat 48 (groupMac false 0xE0000001), none, false, false, 0xE0000001, some 5000, bs⟩
/-- A state with the stream and port 3 on. -/
def streaming (e : StreamEntry) : State := onHost (fun h =>
  { h.put Reg.LNE_HN_MODE_MODE_3 1 with cfg := { h.cfg with streams := [e] } })
theorem wit_FramesReachTheirStream : R.hostReady ∧ R.fieldReady ∧ R.host.hnMode 3 = 0 ∧
    (regs [(Reg.LNE_HN_MODE_MODE_3, 3)]).host.hnMode 3 = 3 ∧ (streaming (stream1 0 1)).host.hnMode 3 ≠ 0 ∧
    (streaming (stream1 0 1)).host.hnMode 3 ≠ 3 ∧ (streaming (stream1 0 0)).host.matchStream 3 (frameOf rtp1) = none ∧
    (streaming (stream1 0 1)).host.matchStream 3 (frameOf rtp1) = some (stream1 0 1) ∧
    (streaming (stream1 1 1)).host.matchStream 3 (frameOf rtp1) = some (stream1 1 1) ∧ (frameOf rtp1).rtag = none ∧
    (stream1 1 1).frer = 1 ∧ isRtcp ([] : List Byte) = false ∧ parseRtp [] = none ∧
    (streaming (stream1 0 1)).host.matchStream 3 (frameOf []) = some (stream1 0 1) ∧ isRtcp rtcp1 = true ∧
    (senderReports rtcp1.length rtcp1).length = 1 ∧ isRtcp rtp1 = false ∧
    parseRtp rtp1 = some ⟨96, false, 1, 0, 0, [], [0x65, 0x80]⟩ ∧
    (payloadKind (hevc 3) [0x65, 0x80]).isSome = true ∧ (96 : Nat) = (stream1 0 1).pt ∧
    ((streaming (stream1 0 1)).host.streamState 127).ssrc = none ∧
    dtReached R.host.now (R.host.streamState 127).frer.endAt = true ∧
    dtReached R.field.now (R.field.src 255).frer.endAt = true := by decide +kernel

def pkt1 (now : DT) : State := { streaming (stream1 0 1) with host := { (streaming (stream1 0 1)).host with
  tb := { R.host.tb with offset := now }
  video := { Video.start with streams := [(127, { StreamState.fresh with
    attested := some ⟨1, 3⟩
    inband := some ⟨2, 4⟩
    packets := [⟨1, 0, true, 0, 1, true, .whole, none, false⟩] })] } } }
theorem wit_SyncEvidenceIsAttestedAndEnds : (streaming (stream1 0 1)).reaches core ∧
    (streaming (stream1 0 1)).host.streamEntry 127 = some (stream1 0 1) ∧ 0 < (stream1 0 1).syncHold ∧
    (stream1 0 1).syncHold < 2 ^ 32 ∧ ((pkt1 3).host.streamState 127).attested = some ⟨1, 3⟩ ∧
    ((pkt1 3).host.streamState 127).inband = some ⟨2, 4⟩ ∧ dtReached (pkt1 1).host.now 1 = true ∧
    dtReached (pkt1 1).host.now 2 = false ∧ dtReached (pkt1 3).host.now 3 = true ∧
    dtReached (pkt1 2).host.now 3 = false ∧ R.host.streamEntry 127 = none ∧
    (streaming (stream1 0 0)).host.streamEntry 127 = some (stream1 0 0) ∧ (stream1 0 0).enable ≠ 1 ∧
    (stream1 0 1).enable = 1 ∧ ((pkt1 1000000).host.streamState 127).pictureOf 0 =
      ⟨1, 0, true, 0, 1, true, .whole, none, false⟩ :: [] ∧
    dtReached (pkt1 1000000).host.now (0 + BitVec.ofNat 64 ((stream1 0 1).jbHold * 1000000)) = true := by decide

/-- Core 0 with a picture queued, or decoding picture 5, for stream 127 in a state. -/
def rel1 : Released := ⟨127, 0, 0, 0, 0, 0⟩
/-- AVC Constrained Baseline at level 1 of 64 × 64, a DPB need of two pictures. -/
def sets1 : ParamFacts := ⟨3, false, 10, 1, true, false, false, 64, 64, 0, 0, 0, 0, 16, some 1⟩
def dec1 : Decoding := ⟨rel1, 5, 0, true, true, true, [], sets1⟩
def pic5 : Picture := ⟨127, Tag.absent, 64, 64, 0, 0, false, none, [], false, 0, false, true, true⟩
def decoding (k : Core) (st : Nat) (now : DT) : State := onHost (fun h =>
  { (h.put (Reg.DEC_CTX_STATUS_CORE 127) 0).put (Reg.DEC_CTX_STATUS_STATE 127) st with
    cfg := { h.cfg with streams := [stream1 0 1] }
    tb := { h.tb with offset := now }
    video := { Video.start with cores := [(0, k)], pictures := [(5, some pic5)],
                                contexts := [(127, { Context.fresh with curSeq := 1 })] } })
def facts1 (irap : Bool) (params : Option ParamFacts) : PictureFacts := ⟨irap, false, false, params, 0, [], [], true⟩
/-- All 16 macroblocks decode; a syntax error after the first. -/
def allBlocks : DecodedFacts := ⟨9, [⟨false, List.range 16, none, none⟩], 0, false⟩
def oneBlock : DecodedFacts := ⟨9, [⟨false, List.range 16, none, some 1⟩], 1, true⟩
def queued : State := decoding ⟨[rel1], none⟩ 1 0
def finishing : State := decoding ⟨[], some dec1⟩ 2 99999999
theorem wit_DecodersStartAndFinishPictures : queued.hostReady ∧ queued.host.core 0 = ⟨[rel1], none⟩ ∧
    queued.host.flag (Reg.DEC_CORE_STATUS_FAULTED 0) = false ∧ queued.host.video.dc8For = none ∧
    queued.host.streamEntry rel1.stream = some (stream1 0 1) ∧ queued.host.coreOf rel1.stream = some 0 ∧
    queued.host.get (Reg.DEC_CTX_STATUS_STATE rel1.stream) ≠ 2 ∧ (facts1 false none).irap = false ∧
    (facts1 true none).rasl = false ∧ (stream1 0 1).level < ({ sets1 with level := 11 } : ParamFacts).level ∧
    (stream1 0 1).maxW < ({ sets1 with codedW := 65 } : ParamFacts).width ∧
    (stream1 0 1).maxH < ({ sets1 with codedH := 65 } : ParamFacts).height ∧
    (stream1 0 1).tokens < ({ sets1 with maxDec := some 2 } : ParamFacts).need (stream1 0 1) + 2 ∧
    sets1.outside (stream1 0 1) = false ∧
    ((queued.host.setCore 0 ⟨[], none⟩).pictureBoundary rel1.stream).tokensHeld rel1.stream + 1 ≤ (stream1 0 1).tokens ∧
    finishing.host.core 0 = ⟨[], some dec1⟩ ∧ dtDiff finishing.host.now dec1.start < 100000000 ∧
    finishing.host.streamEntry dec1.rel.stream = some (stream1 0 1) ∧
    finishing.host.picture dec1.id = some pic5 ∧ dec1.refs = [] ∧
    dec1.rel.missing + oneBlock.badNals + (sets1.walk oneBlock.slices).errors = 2 ∧
    finishing.host.concealed dec1 (finishing.host.context 127).prev (sets1.walk oneBlock.slices) ≠ [] ∧
    finishing.host.concealed dec1 (finishing.host.context 127).prev (sets1.walk allBlocks.slices) = [] ∧
    (finishing.host.context dec1.rel.stream).curSeq ≠ (finishing.host.context dec1.rel.stream).sequence := by decide

def stalled : State := decoding ⟨[rel1], some dec1⟩ 2 100000000
/-- DC8 is to replace core 0, or is faulted. -/
def replacing : State := { stalled with host := { stalled.host with video := { stalled.host.video with
  cores := [], dc8For := some 0 } } }
def noSpare : State := { stalled with host := stalled.host.put (Reg.DEC_CORE_STATUS_FAULTED 8) 1 }
theorem wit_FaultedCoresAreReplaced : stalled.hostReady ∧
    stalled.host.flag (Reg.DEC_CORE_STATUS_FAULTED 0) = false ∧ (stalled.host.core 0).current = some dec1 ∧
    100000000 ≤ dtDiff stalled.host.now dec1.start ∧ dtDiff finishing.host.now dec1.start < 100000000 ∧
    stalled.host.twinBody.autoDecoder = 1 ∧ stalled.host.flag (Reg.DEC_CORE_STATUS_FAULTED 8) = false ∧
    stalled.host.video.dc8For = none ∧ noSpare.host.flag (Reg.DEC_CORE_STATUS_FAULTED 8) = true ∧
    replacing.host.video.dc8For = some 0 ∧ replacing.host.flag (Reg.DEC_CORE_STATUS_FAULTED 8) = false ∧
    (replacing.host.core 8).current = none ∧ (replacing.host.core 0).queue = [] ∧ (replacing.host.core 8).queue = [] ∧
    replacing.host.contextsOf 0 = [127] ∧ R.host.barOpen core = true := by decide

theorem wit_SweepMarksOldContentAncient : R.hostReady ∧
    (∀ g : Tag, (fun g : Tag => g.ancient = true ∨ vtDiff R.host.vt g.vt < 2 ^ 30) g ↔
      (g.ancient = true ∨ vtDiff R.host.vt g.vt < 2 ^ 30)) ∧ ¬ vtDiff (0x40000000 : VT) 0 < 2 ^ 30 ∧
    vtDiff (0x3FFFFFFF : VT) 0 < 2 ^ 30 := ⟨by decide, fun _ => Iff.rfl, by decide, by decide⟩

/-- Widget 65535 of one cell on mimic surface 63, bound to point 9; its batch queued or its drawing under way. -/
def widget1 : WidgetEntry := ⟨65535, 63, 1, 1, 9, 0, 0, 0, 64, 64⟩
/-- The same widget, bound to point 10. -/
def widget2 : WidgetEntry := ⟨65535, 63, 1, 1, 10, 0, 0, 0, 64, 64⟩
def msurf1 (initial : Bool) : MimicSurf := ⟨200, 201, ⟨63, 64, 64, 0, 0⟩, [], initial⟩
def batch1 : Batch := ⟨[9], 0⟩
def draw1 (draws : Bool) : InDraw := ⟨65535, widget1, 200, 0, Tag.absent, draws⟩
def mimic1 (ws : List WidgetEntry) (busy : Option Busy) (queue : List Batch) (initial : Bool) : State := onHost (fun h =>
  { h with cfg := { h.cfg with mimic := some ⟨0, [⟨63, 64, 64, 0, 0⟩], [], [[]], ws⟩ },
           mimic := { h.mimic with busy := busy, queue := queue, surfs := [(63, some (msurf1 initial))],
                                   drawing := busy.map (fun b => draw1 (b.work != 64)) } })
def read1 : PointRead := .ofBytes ((mimic1 [widget1] none [batch1] true).host.store.bytes (32 * 9) 32)
/-- Its update is queued, and the error entry 0 is what was drawn. -/
def drawn1 : State :=
  { mimic1 [widget1] none [batch1] true with
    host := (mimic1 [widget1] none [batch1] true).host.setWidget 65535 ⟨some 0, Tag.absent⟩ }
theorem wit_TheSymbolEngineDrawsBatches : (mimic1 [] none [batch1] true).hostReady ∧
    (mimic1 [] none [batch1] true).host.mimic.busy = none ∧ (mimic1 [] none [batch1] true).host.mimic.queue = batch1 :: [] ∧
    (mimic1 [] none [batch1] true).host.widgets.filter (fun w => w.live && batch1.points.contains w.point) = [] ∧
    (mimic1 [widget1] none [batch1] true).host.widgets.filter (fun w => w.live && batch1.points.contains w.point) =
      widget1 :: [] ∧ (mimic1 [widget1] none [batch1] true).host.widget 65535 = some widget1 ∧
    (mimic1 [widget1] none [batch1] true).host.store.anyPoison
      ((mimic1 [widget1] none [batch1] true).host.replicaBase + 32 * 9) 32 = false ∧
    ((mimic1 [widget1] none [batch1] true).host.widgetState 65535).last ≠
      some ((mimic1 [widget1] none [batch1] true).host.selectEntry widget1 read1) ∧
    (mimic1 [widget1] (some ⟨batch1, [], 1⟩) [] false).host.mimic.busy = some ⟨batch1, [], 1⟩ ∧
    (mimic1 [widget1] (some ⟨batch1, [], 1⟩) [] false).host.mimic.drawing = some (draw1 true) ∧
    (mimic1 [widget1] (some ⟨batch1, [], 64⟩) [] false).host.mimic.drawing = some (draw1 false) ∧ (draw1 true).draws = true ∧
    (draw1 false).draws = false ∧ (drawn1.host.widgetState 65535).last =
      some (drawn1.host.selectEntry widget1 (.ofBytes (drawn1.host.store.bytes (32 * 9) 32))) ∧
    (drawn1.host.widgetState 65535).tag.fault = false ∧
    (mimic1 [widget1] (some ⟨batch1, [], 1⟩) [] false).host.mimicSurf 63 = some (msurf1 false) ∧
    (mimic1 [widget1] (some ⟨batch1, [], 1⟩) [] false).host.atlasPoisoned
      ((mimic1 [widget1] (some ⟨batch1, [], 1⟩) [] false).host.drawingOf widget1 0 (draw1 true).entry none) = false ∧
    (msurf1 false).initial = false ∧ widget1.cells 1 = [0] ∧ widget1 = (draw1 true).record ∧
    (mimic1 [widget1] (some ⟨batch1, [], 1⟩) [] false).host.surfPage widget1 = (draw1 true).page ∧
    widget2 ≠ (draw1 true).record ∧ (mimic1 [widget2] (some ⟨batch1, [], 1⟩) [] false).host.widget 65535 = some widget2 ∧
    (mimic1 [widget1] none [] true).host.mimicSurf (⟨63, 0, [], 0⟩ : FreshFacts).surface.val = some (msurf1 true) ∧ (msurf1 true).initial = true ∧
    (mimic1 [widget1] none [] true).host.mimic.queue = [] ∧ R.host.barOpen core = true ∧
    (0x3F00003F : Word).toNat % 64 = 63 ∧ (0x0000003F : Word).toNat / 65536 % 16384 < (msurf1 true).cellCount := by decide

/-- Context 15 on core 0 codes head 0 of 64 × 64, QP 10 to 40; `done` a frame of 4 bytes. -/
def enc1 (pcieOut : Nat) : EncodeEntry :=
  ⟨15, 1, 0, 0, pcieOut, 0, 0, 0, 0, 0, 1, 10, 40, 0, 30, 100000, 0, 0, 64, 0, 0, 0, 0, 1500⟩
def encFrame1 : EncFrame := ⟨15, 0, 0, Tag.absent, 0, [], 0⟩
def encCoding1 : EncCoding := ⟨encFrame1, true, ⟨10, 5000, 4000, false⟩⟩
def encoding (out : Nat) (c : EncCtx) (k : EncCore) (rs : List (Fld × Nat)) : State :=
  { slotted with host := { (rs.foldl (fun h r => h.put r.1 r.2) slotted.host) with
    cfg := { slotted.host.cfg with encode := [enc1 out], heads := [entry1] }
    encode := ⟨[(15, c)], [(0, k)]⟩ } }
/-- A P frame and an IDR frame of one slice, of 16 bits of overhead and one CTU of 8 bits. -/
def codedP : EncodeFacts := ⟨[⟨16, [(8, 8)]⟩], [[0x02, 1, 0x80]]⟩
def codedIdr : EncodeFacts := ⟨[⟨16, [(8, 8)]⟩],
  [[0x40, 1], [0x42, 1, 0, 1] ++ List.replicate 10 0xFF ++ [153], [0x44, 1], [0x26, 1, 0x80]]⟩
def reading1 : EncInput := ⟨0, 0, 1, 1, [], 0, []⟩
def rcRegs (qp ceil : Nat) : List (Fld × Nat) :=
  [(Reg.ENC_RC_CTRL_QP 15, qp), (Reg.ENC_RC_CEIL_BITS 15, ceil), (Reg.ENC_RC_TARGET_BITS 15, 2000)]
theorem wit_EncodersTakeAndSendFrames : (encoding 0 .idle .idle []).hostReady ∧
    (encoding 0 .idle .idle []).host.encEntry 15 = some (enc1 0) ∧
    (encoding 0 .idle .idle []).host.flag (Reg.ENC_CORE_STATUS_FAULTED 0) = false ∧
    ((encoding 0 .idle .idle []).host.head 0).time.isSome = true ∧
    ((encoding 0 .idle .idle []).host.encCtx 15).reading = none ∧
    ((encoding 0 .idle .idle []).host.head 0).plan ((encoding 0 .idle .idle []).host.head 0).started = some plan1 ∧
    plan1.frame % (enc1 0).div = 0 ∧ ((encoding 0 .idle .idle []).host.encCtx 15).last < plan1.no ∧
    ((encoding 0 { EncCtx.idle with buffers := 2 } .idle []).host.encCtx 15).buffers < 3 ∧
    tget none (encoding 0 .idle .idle []).host.display.rings (16 * 0 + ringSlotOf plan1 0) = some ringSlot0 ∧
    ringSlot0.frame = plan1.f ∧ ringSlot0.slice = 0 ∧ plan1.time.entry.slices ≠ 1 ∧
    3 ≤ ((encoding 0 { EncCtx.idle with buffers := 3 } .idle []).host.encCtx 15).buffers ∧
    ((encoding 0 { EncCtx.idle with reading := some reading1 } .idle []).host.encCtx 15).reading = some reading1 ∧
    ((encoding 0 .idle .idle []).host.head 0).plan reading1.no = some plan1 ∧
    tget none (encoding 0 .idle .idle []).host.display.rings (16 * 0 + ringSlotOf plan1 reading1.next) = none ∧
    (encoding 0 .idle ⟨[encFrame1], none⟩ []).host.encCore 0 = ⟨[encFrame1], none⟩ ∧
    ((encoding 0 { EncCtx.idle with accepted := some (⟨10, 0, 0, false⟩, 7) } .idle []).host.encCtx 15).accepted =
      some (⟨10, 0, 0, false⟩, 7) ∧ 7 ≠ (encoding 0 .idle .idle []).host.tb.raw.toNat ∧
    ((encoding 0 { EncCtx.idle with accepted := some (⟨10, 0, 0, false⟩, 0), earlier := some ⟨11, 0, 0, false⟩ } .idle
      []).host.encCtx 15).accepted = some (⟨10, 0, 0, false⟩, (encoding 0 .idle .idle []).host.tb.raw.toNat) ∧
    (encoding 0 .idle .idle []).reaches core ∧ R.host.encEntry 15 = none ∧
    (∀ q ∈ [10, 40], 10 ≤ (encoding 0 .idle .idle (rcRegs q 100000)).host.get (Reg.ENC_RC_CTRL_QP 15) ∧
      (encoding 0 .idle .idle (rcRegs q 100000)).host.get (Reg.ENC_RC_CTRL_QP 15) ≤ 40) ∧
    encFloor 64 64 ≤ 100000 ∧ (encoding 0 .idle .idle []).host.encRect (enc1 0) = (0, 0, 64, 64) ∧
    (encoding 0 .idle .idle (rcRegs 10 100000)).host.get (Reg.ENC_RC_CEIL_BITS 15) ≤ (enc1 0).maxFrameBits ∧
    (encoding 0 .idle .idle (rcRegs 9 100000)).host.get (Reg.ENC_RC_CTRL_QP 15) < (enc1 0).qpMin ∧
    (enc1 0).maxFrameBits < (encoding 0 .idle .idle (rcRegs 10 100001)).host.get (Reg.ENC_RC_CEIL_BITS 15) ∧
    ((encoding 1 .idle ⟨[], some encCoding1⟩ []).host.encCore 0).current = some encCoding1 ∧ encCoding1.input.ctx < 16 ∧
    ctuGrid 64 64 = (1, 1) ∧
    codedP.sound false (codedP.run false encCoding1.set false 1 1) encCoding1.set.ceil false 1 1 = true ∧
    codedIdr.sound false (codedIdr.run false encCoding1.set true 1 1) encCoding1.set.ceil true 1 1 = true ∧
    codedP.sound false (codedP.run false encCoding1.set true 1 1) encCoding1.set.ceil true 1 1 = false ∧
    (enc1 1).outPcie = 1 ∧ (enc1 0).outPcie ≠ 1 ∧
    (∀ c : Fin 2, ringPlace 64 0 0 (32 + cdiv (annexB c.val codedP.nals).length 32 * 32) = none) := by decide +kernel

theorem test_frame_unmatched : gives (.ingestFrame 3 (frameOf rtp1)) (streaming (stream1 0 0))
    (fun t => t.host.get (Reg.ING_UNMATCHED_COUNT 3) == 1) = true := by decide +kernel
theorem test_rc_refused : gives (.rcSubmit core 15) (encoding 0 .idle .idle (rcRegs 41 100000))
    (fun t => t.host.get (Reg.ENC_CTX_STATUS_RC_REFUSED 15) == 1) = true := by decide +kernel

/-! ### Field points and commands -/

/-- A field side with a configuration, work, an instant. -/
def fieldAs (c : FieldCfg) (g : FieldWork → FieldWork) (now : DT) : State := onField (fun f =>
  { f with act := { f.act with field := some c }, work := g f.work, tb := { f.tb with offset := now } })
def source1 (modbus : Nat) : SourceEntry := ⟨255, 1, modbus, 0, 0, 1, 7, 0, 1, 0xE0000002, 0, 4840, 77, 0, 5, 0⟩
def map1 : MapEntry := ⟨9, 2, 3, 255, 0, 0⟩
def port7b : PortEntry := ⟨7, 1, 1, 0, 0, 0, 0x0A000001, 1000000, 0, 500000⟩
/-- A port whose window fills its cycle. -/
def port7f : PortEntry := ⟨7, 1, 1, 0, 0, 0, 0x0A000001, 1000000, 0, 1000000⟩
def poll1 : PollEntry := ⟨255, 3, 0, 1, 10, 5⟩
def cfg1 (modbus : Nat) : FieldCfg := ⟨0, 1, [port7b], [source1 modbus], [poll1], [map1]⟩
def cfgFull (modbus : Nat) : FieldCfg := ⟨0, 1, [port7f], [source1 modbus], [poll1], [map1]⟩
/-- The bodies of an ARP reply of the port and of its membership report. -/
def arp1 : FieldBody := .arp port7b.ipv4 (0x0A000002 : BitVec 32).toNat (5 : BitVec 48).toNat
def igmp1 : FieldBody := .igmp port7b.ipv4 0xE0000002
def uaField1 : UaField := ⟨2, .int 5, none, none⟩
def uaSet (k : UaKind) (raw : Bool) : UaDataSet := ⟨3, true, k, none, raw, none, [uaField1]⟩
def uadp (k : UaKind) (raw : Bool) : UadpMessage := ⟨0xE0000002, 4840, none, 1, some 77, true, false, [uaSet k raw]⟩
def on1 (y : SourceEntry) : Bool := y.enable == 1 && y.modbus == 0 && (y.portA == 7 || (y.frer == 1 && y.portB == 7)) &&
  y.l4Port == 4840 && (if y.multicast = 1 then y.addr == 0xE0000002 else false)
def typed (w : FieldWork) : FieldWork := { w with recs := [(9, { PointRec.blank with type := 2 })] }
theorem wit_FieldMessagesUpdatePoints : (fieldAs (cfg1 0) typed 5000000).fieldReady ∧
    R.field.fieldCfg.sources.any on1 = false ∧ (fieldAs (cfg1 0) typed 0).field.fieldCfg.sources.any on1 = true ∧
    (∃ y ∈ (uadp .event false).msgs, y.raw = true ∨ y.kind = .event) ∧
    (fieldAs (cfg1 0) typed 0).field.fieldCfg.sources.find? (fun y => on1 y &&
      (uadp .keyFrame false).publisher.map (·.toNat) == some y.publisherId) = some (source1 0) ∧ (source1 0).frer ≠ 1 ∧
    (uadp .keyFrame false).version = 1 ∧ (uadp .keyFrame false).msgs = [uaSet .keyFrame false] ∧
    (uaSet .keyFrame false).seq = none ∧ (uaSet .keyFrame false).fields = [uaField1] ∧ uaField1.value ≠ .other ∧
    (fieldAs (cfg1 0) typed 0).field.fieldCfg.maps.find? (fun y => y.source == (source1 0).source &&
      y.key == (uaSet .keyFrame false).writer && y.item == uaField1.item) = some map1 ∧
    ((fieldAs (cfg1 0) typed 0).field.rec_ map1.point).type ≠ 0 ∧
    ((fieldAs (cfg1 0) typed 0).field.rec_ map1.point).received = false ∧
    (fieldAs (cfg1 0) typed 0).field.portEntry 7 = some port7b ∧ port7b.mode ≠ 0 ∧
    port7b.ipv4 = (0x0A000001 : BitVec 32).toNat ∧ port7b.ipv4 ≠ (0 : BitVec 32).toNat ∧
    (uadp .keyFrame false).payloadHeader = true ∧ (uadp .keyFrame false).refused = false ∧
    (uaSet .keyFrame false).raw = false ∧ (uaSet .keyFrame false).valid = true ∧
    port7b.otherStart (dtLater (fieldAs (cfg1 0) id 0).field.departure
      (tget none (fieldAs (cfg1 0) id 0).field.work.busyOther 7)).toNat (port7b.takes port7b.vid none arp1) = some 500000 ∧
    port7f.otherStart 0 (port7f.takes port7f.vid none arp1) = none ∧
    (fieldAs (cfgFull 0) id 0).field.portEntry 7 = some port7f ∧ port7f.ipv4 = port7b.ipv4 ∧
    port7b.takes port7b.vid none igmp1 + port7b.winLenNs ≤ port7b.cycleNs ∧
    (fieldAs (cfg1 0) id 0).field.fieldCfg.sources = [source1 0] ∧ (source1 0).enable = 1 ∧ (source1 0).multicast = 1 ∧
    (source1 0).portA = 7 ∧
    (fieldAs (cfg1 0) typed 0).field.sourceEntry 255 = some (source1 0) ∧ (source1 0).silenceMs ≠ 0 ∧
    ((source1 0).silenceMs * 1000000 : Int) ≤ dtDiff (fieldAs (cfg1 0) typed 5000000).field.now
      ((fieldAs (cfg1 0) typed 5000000).field.src 255).lastAct ∧
    dtDiff (fieldAs (cfg1 0) typed 4999999).field.now ((fieldAs (cfg1 0) typed 4999999).field.src 255).lastAct <
      ((source1 0).silenceMs * 1000000 : Int) := by decide

/-- The point received at 0, 2^30 VT units ago or one less. -/
def aged (now : DT) : State := fieldAs (cfg1 0) (fun w => { w with recs := [(9, { PointRec.blank with received := true })] }) now
theorem wit_PointSweep : (aged 1099511627776).fieldReady ∧ ((aged 1099511627776).field.rec_ 9).received = true ∧
    0x40000000 ≤ vtDiff (aged 1099511627776).field.vt ((aged 1099511627776).field.rec_ 9).vintage ∧
    vtDiff (aged 1099511626752).field.vt ((aged 1099511626752).field.rec_ 9).vintage = 0x3FFFFFFF := by decide

def withSource (v : SourceState) (w : FieldWork) : FieldWork := { w with sources := [(255, v)] }
/-- Request 3 for poll 0 is outstanding since 0. -/
def awaiting (now : DT) : State := fieldAs (cfg1 1)
  (withSource { SourceState.fresh with connected := true, outstanding := some (0, 0, 3), requests := 4 }) now
theorem wit_ModbusSourcesArePolled :
    (fieldAs (cfg1 1) id 0).fieldReady ∧ (fieldAs (cfg1 1) id 0).field.fieldCfg.polls[0]? = some poll1 ∧
    (fieldAs (cfg1 1) id 0).field.sourceEntry poll1.source = some (source1 1) ∧ (source1 1).enable = 1 ∧
    (source1 1).modbus = 1 ∧ 0 ≤ dtDiff (fieldAs (cfg1 1) id 0).field.now
      (tget ⟨0, 0⟩ (fieldAs (cfg1 1) id 0).field.work.polls 0).due ∧
    ((fieldAs (cfg1 1) (withSource { SourceState.fresh with connected := true }) 0).field.src 255).connected = true ∧
    ((fieldAs (cfg1 1) id 0).field.src 255).outstanding = none ∧ ((fieldAs (cfg1 1) id 0).field.src 255).queue = [] ∧
    0 ∈ ((fieldAs (cfg1 1) (withSource { SourceState.fresh with queue := [0] }) 0).field.src 255).queue ∧
    port7b.otherStart 0 (port7b.takes port7b.vid none (.tcp 0 0 0 (List.replicate 12 0))) = some 500000 ∧
    port7f.otherStart 0 (port7f.takes port7f.vid none (.tcp 0 0 0 (List.replicate 12 0))) = none ∧
    (modbusAdu 0 (source1 1).unitId poll1.function poll1.start poll1.quantity).length = 12 ∧
    (awaiting 5000000).field.sourceEntry 255 = some (source1 1) ∧ ((awaiting 5000000).field.src 255).connected = true ∧
    ((awaiting 5000000).field.src 255).outstanding = some (0, 0, 3) ∧ ((awaiting 5000000).field.src 255).queue = [] ∧
    (∀ n ∈ [2, 4], n ≠ 3) ∧ (poll1.timeoutMs * 1000000 : Int) ≤ dtDiff (awaiting 5000000).field.arrival 0 ∧
    (source1 1).pathMax = 0 ∧ ((source1 1).pathMax : Int) < 1 ∧ (poll1.timeoutMs * 1000000 : Int) ≤ dtDiff (fieldAs (cfg1 1) id 5000000).field.now 0 ∧
    dtDiff (fieldAs (cfg1 1) id 4999999).field.now 0 < (poll1.timeoutMs * 1000000 : Int) ∧
    ((fieldAs (cfg1 1) id 0).field.src 255).connected = false ∧ ((fieldAs (cfg1 1) id 0).field.src 255).retryAt = none ∧
    ((fieldAs (cfg1 1) (withSource { SourceState.fresh with retryAt := some 7 }) 7).field.src 255).retryAt = some 7 ∧
    dtReached (fieldAs (cfg1 1) id 7).field.now 7 = true := by decide

/-- One point pending since the instant 5, at 2 ms, the crossing FULL at the field end. -/
def pend1 : PointRec := { PointRec.blank with type := 2, received := true, pending := true, pendAt := 5 }
def closing (now : DT) (state : Nat) : State := { fieldAs (cfg1 0) (fun w => { w with recs := [(9, pend1)] }) now with
  field := { (fieldAs (cfg1 0) (fun w => { w with recs := [(9, pend1)] }) now).field with
    xing := { R.field.xing with state := state } } }
def batchCell : List Byte := [3, 0, 7, 0] ++ leBytes 9 4 ++ List.replicate 56 0
def batched (p : Option PointsCfg) : State := onHost (fun h =>
  { h with cfg := { h.cfg with points := p }, xing := { h.xing with batches := [(0, [batchCell])] } })
theorem wit_BatchesCarryPendingPoints : (closing 2000000 2).fieldReady ∧
    (closing 2000000 2).field.work.recs.filter (fun x => x.2.pending &&
      decide (dtDiff x.2.pendAt (BitVec.ofNat 64 ((closing 2000000 2).field.now.toNat / 1000000 * 1000000)) < 0)) =
        [(9, pend1)] ∧
    (closing 999999 2).field.now.toNat / 1000000 ≤ (closing 999999 2).field.work.lastClose ∧
    (closing 1000000 2).field.work.lastClose < (closing 1000000 2).field.now.toNat / 1000000 ∧
    (closing 2000000 1).field.xing.state < 2 ∧ 2 ≤ (closing 2000000 2).field.xing.state ∧
    (closing 2000000 2).field.work.outbox = [] ∧ (closing 2000000 2).field.xing.canPush 9 = true ∧
    (batched none).hostReady ∧ (batched none).host.xing.batches = (0, [batchCell]) :: [] ∧
    (batched none).host.cfg.points = none ∧ (batched (some ⟨0, []⟩)).host.cfg.points = some ⟨0, []⟩ ∧
    batchEntries [batchCell] = [slice batchCell 4 20] ∧ (slice batchCell 4 20).length = 20 ∧
    (batched (some ⟨0, []⟩)).host.store.anyPoison ((batched (some ⟨0, []⟩)).host.replicaBase + 32 * 9) 32 = false := by
  decide

/-- A request of console 1 for target 16383, action 15, argument 5, validity 1 ms; its CRC. -/
def reqBody : List Byte := leBytes 16383 2 ++ leBytes 15 1 ++ leBytes 0 1 ++ leBytes 5 4 ++ leBytes 0 8 ++ leBytes 1 2 ++
  leBytes 1 2 ++ leBytes 8 4 ++ leBytes 77 4 ++ List.replicate 28 0
def reqCell : List Byte := [1, 0, 0, 4] ++ reqBody ++ leBytes (crc32c reqBody).toNat 4
def ackBody : List Byte := leBytes 77 4 ++ leBytes 0 1 ++ List.replicate 51 0
def ackCell : List Byte := [2, 0, 0, 4] ++ ackBody ++ leBytes (crc32c ackBody).toNat 4
def consoled (c : List Byte) (ch xst : Nat) (allow : Bool) (now : DT) : State := onHost (fun h =>
  { h with xing := { h.xing.setChan ch (gotChan c) with state := xst }, tb := { h.tb with offset := now }
           cfg := { h.cfg with console := if allow then [⟨1, 1, 1, 0, 16383, 1, 0x8000⟩] else [] }
           uliska := { h.uliska with await := [⟨77, 4, 9, 11⟩] } })
theorem wit_HostAnswersAndForwardsCommands : (consoled reqCell 64 2 true 0).hostReady ∧
    ((consoled reqCell 64 2 true 0).host.xing.chan 64).slots = reqCell :: [] ∧ cellType reqCell = 1 ∧
    ((consoled reqCell 64 2 true 0).host.xing.chan 64).acks = [] ∧
    ((consoled reqCell 64 2 true 0).host.xing.chan 64).ackq.length < 16 ∧
    (consoled reqCell 64 2 false 0).host.authorised reqCell = false ∧
    (consoled reqCell 64 3 true 0).host.authorised reqCell = true ∧ (consoled reqCell 64 3 true 0).host.xing.state = 3 ∧
    (consoled reqCell 64 1 true 0).host.xing.state < 2 ∧ (consoled reqCell 64 2 true 0).host.xing.canPush 0 = true ∧
    takeAwait (77 : BitVec 32).toNat (consoled reqCell 64 2 true 0).host.uliska.await = (some ⟨77, 4, 9, 11⟩, []) ∧
    dtReached (consoled reqCell 64 2 true 11).host.now 11 = true ∧
    dtReached (consoled reqCell 64 2 true 10).host.now 11 = false ∧
    ((consoled ackCell 8 2 true 0).host.xing.chan 8).slots = ackCell :: [] ∧ cellType ackCell = 2 ∧
    crcHolds ackCell = true ∧ crcHolds (ackCell.take 63 ++ [0]) = decide ((ackCell.drop 63) = [0]) ∧
    fieldAt ackCell 4 4 = 77 := by decide +kernel

/-- Target 16383 of port 7, with one term on action 15 that point 9 satisfies or not; Modbus function 6. -/
def term1 : GuardTerm := ⟨9, 0, 0, 0, 0, 1000⟩
def target1 : TargetEntry :=
  ⟨16383, 1, 1, 0, 7, 0, 500000, 0x8000, 0, 0, 0, 5, 5, 1, [term1], 0, 0, 0, 0, 0, 0, 0, 0, 6, 0⟩
def queued1 (dl : DT) : Queued := ⟨77, 16383, 15, 5, 8, 0, dl, 0, 4, false, [], 0⟩
def mapped1 : TimeXfer := ⟨0, none, none, some ⟨1000, 1000, 1000, 1000⟩, some ⟨0, 0, 0, 0⟩⟩
def commanding (st : Nat) (gate : Bool) (now : DT) (w : FieldWork → FieldWork) : State :=
  { fieldAs (cfg1 0) w now with field := { (fieldAs (cfg1 0) w now).field with
      xing := { R.field.xing.setChan 0 (gotChan reqCell) with state := st, xfer := mapped1 }
      act := { (fieldAs (cfg1 0) w now).field.act with targets := [target1] }
      il := { R.field.il with out := gate } } }
def queue1 (dl : DT) (w : FieldWork) : FieldWork :=
  { w with waiting := [queued1 dl], queues := [(7, [⟨77, false⟩])] }
theorem wit_FieldValidatesCommands : (commanding 2 true 0 id).fieldReady ∧
    ((commanding 2 true 0 id).field.xing.chan 0).slots = reqCell :: [] ∧ cellType reqCell = 1 ∧
    (commanding 3 true 0 id).field.xing.state = 3 ∧ (commanding 2 true 0 id).field.xing.state ≠ 3 ∧
    crcHolds reqCell = true ∧ (commanding 2 false 0 id).field.il.gateOpen = false ∧
    (commanding 2 true 0 id).field.il.gateOpen = true ∧ (commanding 2 true 0 id).field.il.release = none ∧
    (commanding 2 true 0 id).field.act.split = false ∧
    (commanding 2 true 0 id).field.work.history.find? (fun x => x.1 == fieldAt reqCell 28 4) = none ∧
    (commanding 2 true 0 id).field.targetEntry (bits (fieldAt reqCell 4 2) 0 14) = some target1 ∧ target1.enable ≠ 0 ∧
    fieldAt reqCell 6 1 ≤ 15 ∧ bit target1.allowed (fieldAt reqCell 6 1) = true ∧
    signed target1.argMin 32 ≤ signed (fieldAt reqCell 8 4) 32 ∧ signed (fieldAt reqCell 8 4) 32 ≤ signed target1.argMax 32 ∧
    dtDiff ((commanding 2 true 0 id).field.issueF (dtAt reqCell 12) (fieldAt reqCell 20 2))
      (commanding 2 true 0 id).field.now ≤ 1000000 ∧
    dtDiff (commanding 2 true 0 id).field.now
      ((commanding 2 true 0 id).field.issueF (dtAt reqCell 12) (fieldAt reqCell 20 2)) <
        (fieldAt reqCell 20 2 * 1000000 : Int) ∧
    (commanding 2 true 0 id).field.guardFail target1 (fieldAt reqCell 6 1) = none ∧
    (commanding 2 true 0 id).field.rateFail target1 = none := by decide +kernel

def queue2 (w : FieldWork) : FieldWork :=
  { w with waiting := [{ queued1 100 with launched := true }], queues := [(7, [⟨77, false⟩])] }
/-- The command's frame, and one with its segment sent before. -/
def frame1 : FieldSent := (commanding 2 true 0 (queue1 100)).field.commandFrame 7 target1 (queued1 100) 0
def resending (gate : Bool) (now : DT) : State := commanding 2 gate now (fun w => { w with segments := [(77, frame1)] })
theorem wit_FieldLaunchesCommands : (commanding 2 true 0 (queue1 100)).field.oldestQueued 7 = some (queued1 100) ∧
    (commanding 2 true 0 (queue1 100)).field.portEntry 7 = some port7b ∧
    (commanding 2 true 0 (queue1 100)).field.targetEntry (queued1 100).target = some target1 ∧
    (queued1 100).launched = false ∧ 0 ≤ dtDiff (commanding 2 true 0 (queue1 100)).field.departure (queued1 100).validated ∧
    frame1.body.bytes = 52 ∧ port7b.takes frame1.vid frame1.rtag frame1.body = 720 ∧
    (commanding 2 true 0 (queue1 100)).field.mayBegin port7b 720 = true ∧
    (commanding 2 true 499281 (queue1 500000)).field.mayBegin port7b 720 = false ∧
    (commanding 2 true 499280 (queue1 500000)).field.mayBegin port7b 720 = true ∧
    ((resending true 0).field.work.segments.find? (fun x => x.1 == 77 && x.2.port == 7)).map (·.1) = some 77 ∧
    (resending true 0).field.mayBegin port7b 720 = true ∧ (resending true 0).field.il.gateOpen = true ∧
    (resending false 0).field.il.gateOpen = false ∧
    (∀ v ∈ tget [] (commanding 2 true 100 (queue1 100)).field.work.queues 7,
      ∀ u ∈ (commanding 2 true 100 (queue1 100)).field.work.waiting, u.req = v.req →
        0 ≤ dtDiff (commanding 2 true 100 (queue1 100)).field.departure u.deadline) ∧
    (commanding 2 true 0 (queue1 100)).field.work.waiting.find? (fun x => x.req == 77) = some (queued1 100) ∧
    (commanding 2 true 0 queue2).field.work.waiting.find? (fun x => x.req == 77) =
      some { queued1 100 with launched := true } ∧
    dtDiff (commanding 2 true 99 (queue1 100)).field.now (queued1 100).deadline < 0 ∧
    (commanding 2 true 0 id).field.il.gateOpen = true ∧ (commanding 2 false 0 id).field.il.gateOpen = false ∧
    0 ≤ dtDiff (commanding 2 true 100 (queue1 100)).field.now (queued1 100).deadline ∧
    (∃ x ∈ tget [] (commanding 2 true 0 (queue1 100)).field.work.queues 7, x.req = (77 : BitVec 32).toNat) ∧
    ((commanding 2 true 0 id).field.targetEntry 16383).bind (fun e => e.live.find? (fun x => x.2 == 0)) = some (term1, 0) ∧
    (msVt term1.maxAgeMs : Int) ≤ vtDiff (commanding 2 true 1000000512 id).field.vt
      ((commanding 2 true 1000000512 id).field.rec_ term1.point).vintage ∧
    vtDiff (commanding 2 true 1000000511 id).field.vt ((commanding 2 true 1000000511 id).field.rec_ term1.point).vintage <
      (msVt term1.maxAgeMs : Int) := by decide +kernel

theorem test_arp : gives (.arpRequest 7 0x0A000001 0x0A000002 5) (fieldAs (cfg1 0) id 0)
    (fun t => t.field.work.sent == [⟨7, 5, 0, 0, 0, none, arp1, 500000⟩]) = true := by decide
theorem test_launch : gives (.commandLaunch ⟨7, none⟩) (commanding 2 true 0 (queue1 100))
    (fun t => t.field.work.launched == 1) = true := by decide +kernel
theorem test_launch_gate : gives (.commandLaunch ⟨7, none⟩) (commanding 2 false 0 (queue1 100))
    (fun t => t.field.work.launched == 0 && t.field.work.sent.isEmpty) = true := by decide +kernel

/-! ### Images -/

/-- A staged image for the instant 200 ms with its configuration; a state that stages it. -/
def staged1 (c : Cfg) : Staged := ⟨200000000, 5, false, 0, c, none, false, false, [], [], [], []⟩
def staging (c : Cfg) (stage : Nat) (now : DT) (g : Stage → Stage) : State := onHost (fun h =>
  { h.put Reg.SIM_STATUS_STAGE stage with
    tb := { h.tb with offset := now }, stage := g { h.stage with staged := some (staged1 c) } })
def sending1 : Sending := ⟨false, 5, [1], 1, 2, 9, 7⟩
/-- An empty image with a row-hammer threshold. -/
def quiet : Cfg := { Cfg.blank with cst := ⟨0, 0, 0, 4096, 0, 0, 0⟩ }
theorem wit_StagingChecksArmsAndCancels : R.reaches sec ∧ R.host.get Reg.SIM_STATUS_STAGE = 0 ∧
    (∀ n ∈ [1, 3, 4, 5, 6], (staging quiet n 0 id).host.get Reg.SIM_STATUS_STAGE = n) ∧
    dtDiff (BitVec.ofNat 64 (R.host.pair Reg.SIM_EPOCH_LO_DT Reg.SIM_EPOCH_HI_DT)) R.host.now ≤ 0 ∧
    3600000000000 < dtDiff (BitVec.ofNat 64 ((regs [(Reg.SIM_EPOCH_HI_DT, 839)]).host.pair Reg.SIM_EPOCH_LO_DT
      Reg.SIM_EPOCH_HI_DT)) R.host.now ∧ (staging quiet 2 0 id).host.stage.staged = some (staged1 quiet) ∧
    (((staging quiet 2 0 id).host.askOf (staged1 quiet)).run).2 = none ∧ sending1.phase < 3 ∧
    dtReached (staging quiet 1 7 id).host.now sending1.deadline = true ∧
    dtReached (staging quiet 1 6 id).host.now sending1.deadline = false ∧
    dtReached (staging quiet 3 0 id).host.now (staged1 quiet).commitPoint = false ∧
    dtReached (staging quiet 3 200000000 id).host.now (staged1 quiet).commitPoint = true ∧
    bits (0x5EA10001 : Word).toNat 16 16 = 0x5EA1 ∧ bit (0x5EA10001 : Word).toNat 0 = true ∧
    bits (0x5EA20001 : Word).toNat 16 16 ≠ 0x5EA1 ∧
    (regs [(Reg.BCK_STATUS_RESULT, 2)]).host.get Reg.BCK_STATUS_RESULT = 2 ∧ R.host.get Reg.BCK_STATUS_RESULT ≠ 2 ∧
    (staging quiet 0 0 (fun g => { g with bounds := [(65535, 7)] })).host.stage.bounds.find?
      (fun b => b.1 == (0xFFFF : Word).toNat % 65536) = some (65535, 7) := by decide +kernel

def layersOnly : Cfg := { Cfg.blank with layers := [layer0] }
theorem wit_AdmissionRefuses : (((staging layersOnly 2 0 id).host.askOf (staged1 layersOnly)).run).2.isSome = true := by
  decide +kernel

def withHead : Cfg := { Cfg.blank with heads := [entry1] }
def live1 (sw : List Nat) (now : DT) : State := staging withHead 5 now (fun g => { g with live := true, switches := sw })
theorem wit_ImagesCommitAndActivate : R.hostReady ∧ (∀ n ∈ [3, 4], (staging withHead n 200000000 id).host.get
      Reg.SIM_STATUS_STAGE = n) ∧ (5 : BitVec 64) ≠ 0 ∧ (staging withHead 3 0 id).host.stagedId = (5 : BitVec 64).toNat ∧
    dtReached (staging withHead 4 0 id).host.now (staged1 withHead).commitPoint = false ∧
    dtReached (staging withHead 4 200000000 id).host.now (staged1 withHead).commitPoint = true ∧
    (staging withHead 4 200000000 id).host.peersFail (staged1 withHead) = none ∧
    (staging withHead 5 200000000 id).host.get Reg.TWN_RESYNC_STATE ≠ 1 ∧
    (staging withHead 5 200000000 id).host.stage.live = false ∧ (live1 [47, 0] 0).host.stage.live = true ∧
    dtReached (staging withHead 5 199999999 id).host.now (staged1 withHead).epoch = false ∧
    dtReached (staging withHead 5 200000000 id).host.now (staged1 withHead).epoch = true ∧
    (staging withHead 5 200000000 id).host.stage.switches = [] ∧ (live1 [47, 0] 0).host.stage.switches ≠ [] ∧
    47 ∈ (live1 [47, 0] 0).host.stage.switches ∧ (∃ j ∈ (live1 [47, 0] 0).host.stage.switches, j ≠ 47) ∧
    (∀ j ∈ (live1 [47] 0).host.stage.switches, j = 47) ∧
    dtReached (live1 [47] 199999999).host.now ((live1 [47] 199999999).host.switchAt 47 200000000) = false ∧
    dtReached (live1 [47] 200000000).host.now ((live1 [47] 200000000).host.switchAt 47 200000000) = true := by decide +kernel

/-- The twin refuses while this module waits for its answer. -/
def askingTwin : State := onHost (fun h =>
  { h.put Reg.TWN_RESYNC_STATE 1 with twin := { h.twin with joining := some ⟨none, 0, [], []⟩ } })
theorem wit_TwinRefuses : askingTwin.hostReady ∧ askingTwin.host.get Reg.TWN_RESYNC_STATE = 1 ∧
    twinOf askingTwin.host.ownTarget = 4 ∧ askingTwin.host.twin.joining = some ⟨none, 0, [], []⟩ := by decide

/-- A member that refuses the staged image. -/
def memberSays (c : Cfg) : State := staging c 4 200000000 (fun g => { g with
  staged := some { staged1 c with members := 2 }, peers := [⟨1, false, 5, 200000000⟩] })
theorem wit_MemberRefuses : ((memberSays withHead).host.peersFail { staged1 withHead with members := 2 }).isSome = true := by
  decide +kernel

/-! ### Field messages -/

/-- A cell of XM2 of a TYPE and OP with its fields: ID or OFFSET, LENGTH and CRC. -/
def pieceCell (ty op id len crc : Nat) : List Byte := cell ty (leBytes op 4 ++ leBytes id 8 ++ leBytes len 4 ++ leBytes crc 4)
def xm2 (c : List Byte) (r : Option Receiving) : State := onField (fun f =>
  { f with xing := { f.xing.setChan 2 (gotChan c) with cfgRx := r, fwRx := r } })
def part1 (bs : List Byte) (crc : Nat) : Receiving := ⟨5, 1, crc, bs⟩
theorem wit_ContentTravelsInPieces : (∀ op ∈ [1, 2, 3, 4, 5], cellOp (pieceCell 7 op 0 1 0) = op ∧
      cellType (pieceCell 7 op 0 1 0) = 7) ∧ (xm2 (pieceCell 7 2 0 1 0) (some (part1 [] 0))).fieldReady ∧
    ((xm2 (pieceCell 7 2 0 1 0) (some (part1 [] 0))).field.xing.chan 2).slots = pieceCell 7 2 0 1 0 :: [] ∧
    (xm2 (pieceCell 7 2 0 1 0) (some (part1 [] 0))).field.xing.cfgRx = some (part1 [] 0) ∧
    fieldAt (pieceCell 7 2 0 1 0) 8 4 = (part1 [] 0).content.length ∧ (part1 [] 0).content.length < (part1 [] 0).total ∧
    fieldAt (pieceCell 7 2 9 1 0) 8 4 ≠ (part1 [] 0).content.length ∧ (part1 [7] 0).total ≤ (part1 [7] 0).content.length ∧
    fieldAt (pieceCell 7 3 5 1 0) 8 8 = (part1 [7] 0).imageId ∧ fieldAt (pieceCell 7 3 6 1 0) 8 8 ≠ (part1 [7] 0).imageId ∧
    (crc32 (part1 [7] 0).content).toNat ≠ (part1 [7] 0).crc ∧
    (crc32 (part1 [7] (crc32 [7]).toNat).content).toNat = (part1 [7] (crc32 [7]).toNat).crc ∧ contentOf [7] = none ∧
    (contentOf []).isSome = true ∧ cellType (pieceCell 8 1 5 (24 * 1048576) 0) = 8 ∧
    fieldAt (pieceCell 8 1 5 (24 * 1048576) 0) 16 4 ≤ 24 * 1048576 ∧
    24 * 1048576 < fieldAt (pieceCell 8 1 5 (24 * 1048576 + 1) 0) 16 4 ∧ sending1.phase = 2 ∧ sending1.msg = 9 ∧
    ({ sending1 with phase := 1, sent := 0 } : Sending).sent < sending1.content.length := by decide +kernel

def armedField (held : Option (Nat × List Byte)) (now : DT) : State := onField (fun f =>
  { f with tb := { f.tb with offset := now }, act := { f.act with armed := some (5, 7), held := held } })
def xm16 (c : List Byte) : State := onField (fun f =>
  { f with xing := { f.xing.setChan 16 (gotChan c) with state := 2 }, work := { f.work with log := [⟨0, 1, 0, 0⟩] } })
theorem wit_FieldContentTakesEffectAtE : (armedField none 7).fieldReady ∧ (armedField none 7).field.act.armed = some (5, 7) ∧
    dtReached (armedField none 6).field.now 7 = false ∧ dtReached (armedField none 7).field.now 7 = true ∧
    (armedField (some (5, [])) 7).field.act.held = some (5, []) ∧ (contentOf []).isSome = true ∧
    (armedField none 7).field.act.held = none ∧ ((xm16 (cell 9 [])).field.xing.chan 16).slots = cell 9 [] :: [] ∧
    (xm16 (cell 9 [])).field.work.exportBox = [] ∧ (xm16 (cell 9 [])).field.xing.canPush 24 = true ∧
    cellType (cell 9 []) = 9 ∧ cellType (cell 10 (leBytes 0 4 ++ leBytes 1 2)) = 10 ∧
    fieldAt (cell 10 (leBytes 0 4 ++ leBytes 1 2)) 4 4 = 0 ∧ fieldAt (cell 10 (leBytes 0 4 ++ leBytes 1 2)) 8 2 = 1 ∧
    (xm16 (cell 9 [])).field.work.log.reverse[0]? = some ⟨0, 1, 0, 0⟩ ∧
    (xm16 (cell 9 [])).field.work.log.length ≤ fieldAt (cell 10 (leBytes 1 4)) 4 4 := by decide +kernel

/-- CRC-32 of "123456789" (11_crossing.md R267). -/
theorem test_crc32 : (crc32 [0x31, 0x32, 0x33, 0x34, 0x35, 0x36, 0x37, 0x38, 0x39]).toNat = 0xCBF43926 := by decide +kernel
theorem test_arm_early : gives (.imageArm sec) (staging Cfg.blank 3 0 id)
    (fun t => t.host.get Reg.SIM_STATUS_STAGE == 4) = true := by decide +kernel
theorem test_commit_unarmed : gives .commitPoint (staging Cfg.blank 3 200000000 id)
    (fun t => t.host.get Reg.SIM_REFUSAL_REASON == 0x12) = true := by decide +kernel

/-! ### The twin, the spares and the data engines -/

/-- A field side with its interlock. -/
def interlocked (g : Interlock → Interlock) (now : DT) : State := onField (fun f =>
  { f with tb := { f.tb with offset := now }, il := g f.il, xing := { f.xing with state := 2 } })
/-- Every evidence of eligibility fresh. -/
def fit (i : Interlock) : Interlock := { i with bell0 := some 10000, bell4 := some 10000, watchdog := some 10000 }
def beating (heard now : DT) : State := onHost (fun h => { h.put Reg.TWN_STATUS_HB_OK 1 with
  tb := { h.tb with offset := now }, twin := { h.twin with heard := some heard } })
def blockedOff : State := { hostChan 0 .idle with field := (interlocked (fun i => { i with in_ := true }) 250000).field }
theorem wit_TheInterlockHoldsAuthority : R.phys.fieldPhys.supply = .inRange ∧ R.field.il.in_ = false ∧
    (interlocked (fun i => { i with out := true }) 0).field.il.out = true ∧ R.field.role = false ∧
    ({ R.field with role := true }).role = true ∧ (interlocked fit 10000).fieldReady ∧
    (interlocked fit 10000).field.eligible = true ∧ R.field.eligible = false ∧
    10000 ≤ dtDiff (interlocked fit 10000).field.now (interlocked fit 10000).field.il.inLowAt ∧
    (interlocked (fun i => { fit i with fell := true }) 10000).field.il.fell = true ∧
    (interlocked fit 250000).field.partnerSilent = true ∧ (interlocked fit 249999).field.partnerSilent = false ∧
    250000 ≤ dtDiff (interlocked fit 250000).field.now (interlocked fit 250000).field.il.standbyAt ∧
    dtDiff (interlocked id 1999).field.now 0 < 2000 ∧ 2000 ≤ dtDiff (interlocked id 2000).field.now 0 ∧
    (∀ p < 8, tget [] R.field.work.queues p = []) ∧ 5000000 ≤ dtDiff (interlocked id 5000000).field.now 0 ∧
    dtDiff (interlocked id 4999999).field.now 0 < 5000000 ∧ tget [] (commanding 2 true 0 (queue1 100)).field.work.queues 7 ≠ [] ∧
    (beating 0 250000).host.get Reg.TWN_STATUS_HB_OK = 1 ∧ 250000 ≤ dtDiff (beating 0 250000).host.now 0 ∧
    dtDiff (beating 0 249999).host.now 0 < 250000 ∧ blockedOff.field.run = true ∧ blockedOff.host.run = true ∧
    2 ≤ blockedOff.host.xing.state ∧ blockedOff.field.il.out = false ∧ blockedOff.field.il.in_ = true ∧
    blockedOff.field.xing.state ≠ 0 ∧ R.field.xing.state = 0 ∧ (interlocked id 0).field.xing.state ≠ 0 ∧
    blockedOff.field.partnerSilent = true ∧ blockedOff.field.il.blocked = false := by decide

/-- Twin link 0 UP with a credit. -/
def twinUp (rs : List (Fld × Nat)) (g : Twin → Twin) : State := onHost (fun h =>
  { ([(Reg.STC_STATUS_STATE 4, 4), (Reg.STC_CREDITS_TX_CREDITS 4, 1)] ++ rs).foldl (fun (h : HostSide) (r : Fld × Nat) => h.put r.1 r.2) h with
    twin := g h.twin })
def joining1 : Joining := ⟨none, 0, [], []⟩
def synced1 : State := { twinUp [(Reg.SYS_BOOT_STATUS_STEP, 9)] (fun t => { t with heard := some 0 }) with
  host := { (twinUp [(Reg.SYS_BOOT_STATUS_STEP, 9)] (fun t => { t with heard := some 0 })).host with
    tb := { R.host.tb with syncUntil := some 10 } } }
/-- A dry launch has just been made. -/
def justDry : State := onField (fun f => { f with work := { f.work with dryAt := 1 } })
theorem wit_TwinMessagesTellAndAsk : R.reaches sec ∧ R.reaches core ∧ sec.isSecure = true ∧ core.isSecure = false ∧
    (twinUp [] id).host.linkUp 4 = true ∧ (twinUp [] id).host.get (Reg.STC_CREDITS_TX_CREDITS 4) ≠ 0 ∧
    (twinUp [] id).host.linkUp 5 = false ∧ R.host.linkUp 4 = false ∧ (twinUp [(Reg.TWN_STATUS_AUTHORITY, 1)] id).reaches sec ∧
    (twinUp [(Reg.TWN_STATUS_AUTHORITY, 1)] id).host.get Reg.TWN_STATUS_AUTHORITY = 1 ∧
    R.host.get Reg.TWN_STATUS_AUTHORITY ≠ 1 ∧ (twinUp [(Reg.TWN_CTRL_ELIGIBLE, 1)] id).host.get Reg.TWN_CTRL_ELIGIBLE = 1 ∧
    R.host.get Reg.TWN_STATUS_ROLE_CONFLICT = 0 ∧ R.host.get Reg.TWN_RESYNC_STATE ≠ 1 ∧
    R.host.due R.host.twin.bell4At 2000000 = true ∧
    (twinUp [(Reg.TWN_STATUS_ROLE_CONFLICT, 1)] id).host.get Reg.TWN_STATUS_ROLE_CONFLICT = 1 ∧
    b2n (bit (2 : BitVec 8).toNat 1) ≠ R.host.get Reg.TWN_STATUS_ROLE ∧
    b2n (bit (0 : BitVec 8).toNat 1) = R.host.get Reg.TWN_STATUS_ROLE ∧ R.host.due R.host.twin.healthAt 4000000 = true ∧
    (twinUp [] (fun t => { t with healthAt := 1 })).host.due 1 4000000 = false ∧ R.host.ownVerdicts = [] ∧
    synced1.host.activeId = 0 ∧ synced1.host.tb.syncOk = true ∧ synced1.host.twin.heard.isSome = true ∧
    synced1.host.get Reg.TWN_RESYNC_STATE = 0 ∧ 9 ≤ synced1.host.get Reg.SYS_BOOT_STATUS_STEP ∧
    (regs [(Reg.SIM_ACTIVE_ID_LO_ID, 1)]).host.activeId ≠ 0 ∧ (twinUp [] (fun t => { t with overflow := true })).host.twin.overflow = true ∧
    (twinUp [] id).host.twin.retained = [] ∧
    (twinUp [] (fun t => { t with retained := [⟨1, 0, []⟩] })).host.twin.retained ≠ [] ∧ (twinUp [] id).host.twin.outbox = [] ∧
    (twinUp [(Reg.TWN_RESYNC_STATE, 1)] (fun t => { t with joining := some joining1 })).host.twin.joining = some joining1 ∧
    (twinUp [(Reg.TWN_RESYNC_STATE, 1)] id).host.get Reg.TWN_RESYNC_STATE = 1 ∧ joining1.info = none ∧
    ({ joining1 with info := some [] } : Joining).info.isSome = true ∧
    (twinUp [(Reg.TWN_RESYNC_TOTAL, 1)] id).host.get Reg.TWN_RESYNC_DONE <
      (twinUp [(Reg.TWN_RESYNC_TOTAL, 1)] id).host.get Reg.TWN_RESYNC_TOTAL ∧
    joining1.bytes.length + [(0 : Byte)].length < 2 ∧ 1 ≤ joining1.bytes.length + [(0 : Byte)].length ∧
    R.host.get Reg.SIM_STATUS_STAGE = 0 ∧ R.host.twin.joining = none ∧ R.field.il.gateOpen = false ∧
    (interlocked (fun i => { i with out := true }) 0).field.il.gateOpen = true ∧
    (commanding 2 false 0 id).field.tb.due (commanding 2 false 0 id).field.work.dryAt 4000000 = true ∧
    justDry.field.tb.due justDry.field.work.dryAt 4000000 = false ∧ R.field.xing.state = 0 ∧
    (commanding 2 false 0 id).field.xing.state ≠ 0 ∧
    (commanding 2 false 0 id).field.nextDry = some target1 := by decide

/-- A sample of engine 0, the spares free, a mismatch of it on record. -/
def sample1 : Sample := ⟨0, 47, 0, [.surface 4095]⟩
def sampled (g : Twin → Twin) : State := onHost (fun h => { h with twin := g h.twin })
def composing1 : State := { running0 with host := (running0.host.setHead 0 { idle1 with composing := [slice1] }) }
def engaged : State := { composing1 with host := { composing1.host with
  cfg := { composing1.host.cfg with heads := [entry1], headEngine := [0] } } }
theorem wit_SparesCheckAndReplace : R.hostReady ∧ R.host.display.ce8For = none ∧
    R.host.get (Reg.CMP_ENGINE_STATUS_FAULTED 8) = 0 ∧ R.host.twin.ce.sample = none ∧
    R.host.due R.host.twin.ce.at_ 2000000 = true ∧ R.host.nextSample = none ∧ engaged.host.nextSample = some ⟨0, 0, 0, []⟩ ∧
    (regs [(Reg.CMP_ENGINE_STATUS_FAULTED 8, 1)]).host.get (Reg.CMP_ENGINE_STATUS_FAULTED 8) = 1 ∧
    (sampled (fun t => { t with ce := { t.ce with sample := some sample1 } })).host.twin.ce.sample = some sample1 ∧
    tget none (sampled (fun t => { t with ce := { t.ce with misses := [(0, some 0)] } })).host.twin.ce.misses 0 = some 0 ∧
    dtDiff (head0 idle1 999999999).host.now 0 < 1000000000 ∧ 1000000000 ≤ dtDiff (head0 idle1 1000000000).host.now 0 ∧ tget none R.host.twin.ce.misses 0 = none ∧
    R.host.video.dc8For = none ∧ R.host.get (Reg.DEC_CORE_STATUS_FAULTED 8) = 0 ∧ R.host.twin.dc.sample = none ∧
    R.host.due R.host.twin.dc.at_ 40000000 = true ∧ R.host.sampleStreams = [] ∧
    (decoding ⟨[], some dec1⟩ 2 0).host.sampleStreams = [127] ∧
    (sampled (fun t => { t with dc := { t.dc with sample := some sample1 } })).host.twin.dc.sample = some sample1 ∧
    R.host.twinBody.autoEngine = 1 ∧ R.host.repaired.contains (3, 9) = false ∧ rowsUsed R.host.repaired 3 < 8 ∧
    8 ≤ rowsUsed ((List.range 8).map (fun r => (3, r))) 3 ∧ ([(3, 9)] : List (Nat × Nat)).contains (3, 9) = true ∧
    R.fieldReady ∧ R.field.repaired.contains (3, 9) = false ∧ rowsUsed R.field.repaired 3 < 8 := by decide +kernel

/-- A stored block with the byte "A". -/
def stored : List Byte := [1, 1, 0, 0xFE, 0xFF, 0x41]
/-- Engine 0 at work on `src` at CA 0, output at CA 4096 of 64 bytes; port 43 may use the central store. -/
def atWork (g : DflEngine) (src : List Byte) (busy : Nat) : State := onHost (fun h =>
  { ([(Reg.mpuWord 43 0 0, 0x40000000), (Reg.mpuWord 43 0 1, 0x40001000), (Reg.mpuWord 43 0 2, 0x1F),
      (Reg.mpuWord 45 0 0, 0x40000000), (Reg.mpuWord 45 0 1, 0x40001000), (Reg.mpuWord 45 0 2, 0x1F),
      (Reg.DFL_STATUS_BUSY 0, busy), (Reg.DFL_PACE_MBPS 0, 1), (Reg.DFL_SRC_LEN_BYTES 0, src.length),
      (Reg.DFL_DST_LO_ADDR 0, 4096), (Reg.DFL_DST_LEN_BYTES 0, 64), (Reg.CRC_STATUS_BUSY 7, 1), (Reg.CRC_PACE_MBPS, 1),
      (Reg.CRC_LEN_BYTES 7, 9)] : List (Fld × Nat)).foldl (fun h r => h.put r.1 r.2) h with
    dfl := [(0, g)], store := { h.store with mem := (List.range src.length).map (fun i => (i, src.getD i 0)) } })
def squeezing : DflEngine := { DflEngine.idle with fin := 3 }
def swelling : DflEngine := { DflEngine.idle with op := 1 }
def coded1 : JobFacts := ⟨false, 1, stored, 0⟩
theorem wit_EnginesRunTheirJobs : R.reaches sec ∧ R.reaches core ∧ R.host.get (Reg.DFL_STATUS_BUSY 1) = 0 ∧
    (regs [(Reg.DFL_STATUS_STREAM 1, 1)]).host.get (Reg.DFL_STATUS_STREAM 1) = 1 ∧
    R.host.get (Reg.DFL_STATUS_STREAM 1) = 0 ∧ (atWork squeezing [0x41] 1).reaches core ∧
    (atWork squeezing [0x41] 1).host.get (Reg.DFL_STATUS_BUSY 0) = 1 ∧
    (atWork squeezing [0x41] 1).host.get (Reg.DFL_PACE_MBPS 0) ≠ 0 ∧ coded1.memError = false ∧
    (atWork squeezing [0x41] 1).host.engine 0 = squeezing ∧ squeezing.op = 0 ∧
    ((atWork squeezing [0x41] 1).host.store.bytes 0 1) = [0x41] ∧
    (squeezing.compressStop [0x41] 1 64 coded1).map (fun j => (j.result, j.taken, j.wrote)) = some (2, 1, stored) ∧
    (atWork squeezing [0x41] 1).host.unitReads 43 0 1 = true ∧
    (atWork squeezing [0x41] 1).host.unitWrites 43 4096 stored = true ∧ swelling.op = 1 ∧ swelling.fed = [] ∧
    swelling.given = 0 ∧ (atWork swelling stored 1).host.store.bytes 0 6 = stored ∧
    inflateStream swelling.framing stored = (.ended 6, [0x41]) ∧ (atWork swelling stored 1).host.unitReads 43 0 6 = true ∧
    (atWork swelling stored 1).host.unitWrites 43 4096 [0x41] = true ∧
    bits (4000 : Word).toNat 0 13 ≤ 4000 ∧ 4000 < bits (4001 : Word).toNat 0 13 ∧ bits (8000 : Word).toNat 0 14 ≤ 8000 ∧
    R.host.cfg.imageId = 0 ∧ (withImage R).host.cfg.imageId ≠ 0 ∧
    (withImage R).host.cfg.paceLimit < (withImage R).host.paceSum 1 1 ∧
    (withImage R).host.paceSum 1 0 ≤ (withImage R).host.cfg.paceLimit := by decide +kernel

theorem wit_CrcUnitsComputeTheModel : R.reaches core ∧ R.host.get (Reg.CRC_STATUS_BUSY 7) = 0 ∧
    bit (64 : Word).toNat 30 = false ∧ bits (64 : Word).toNat 0 7 = 64 ∧ bits (8 : Word).toNat 0 7 = 8 ∧
    R.host.pair (Reg.CRC_POLY_LO_VALUE 7) (Reg.CRC_POLY_HI_VALUE 7) < 2 ^ 64 ∧
    R.host.pair (Reg.CRC_INIT_LO_VALUE 7) (Reg.CRC_INIT_HI_VALUE 7) < 2 ^ 64 ∧
    R.host.pair (Reg.CRC_XOROUT_LO_VALUE 7) (Reg.CRC_XOROUT_HI_VALUE 7) < 2 ^ 64 ∧ bits (65 : Word).toNat 0 7 = 65 ∧
    (atWork .idle [] 0).hostReady ∧ (atWork .idle [] 0).host.get (Reg.CRC_STATUS_BUSY 7) = 1 ∧
    (atWork .idle [] 0).host.get Reg.CRC_PACE_MBPS ≠ 0 ∧ (atWork .idle [] 0).host.unitReads 45 0 9 = true := by
  decide +kernel

/-! ### The whole -/

theorem wit_StepRunsTheFrontCommand : ({ R with pending := [.refreshWindow] } : State).pending = .refreshWindow :: [] ∧
    R.pending = [] ∧ R.host.run = true ∧ stopped.host.run = false ∧ stopped.field.run = false := by decide
theorem wit_TheInvariantIsKeptByEveryStep : tripped.Inv ∧ (∃ t, step tripped = .next t) :=
  ⟨by unfold State.Inv; decide, ⟨_, rfl⟩⟩
theorem wit_ACommandActsOnOneSideOfTheBarrier : (∃ t, exec .refreshWindow R = .next t) ∧ Crosses .refreshWindow = false :=
  ⟨⟨_, rfl⟩, by decide⟩

/-- The check value of CRC-32 (17_data_engines.md R404). -/
theorem test_crc_model : crcModel 32 0x04C11DB7 0xFFFFFFFF 0xFFFFFFFF true true
    [0x31, 0x32, 0x33, 0x34, 0x35, 0x36, 0x37, 0x38, 0x39] = 0xCBF43926 := by decide +kernel
theorem test_inflate : gives (.dflJobStop 0 ⟨false, 0, [], 0⟩) (atWork swelling stored 1)
    (fun t => t.host.get (Reg.DFL_STATUS_RESULT 0) == 2 && t.host.store.byte 4096 == 0x41) = true := by decide +kernel
theorem test_kick_insecure : gives (.twinKick core) R (fun t => t.host.get Reg.TWN_COUNTS_SEC_VIOL == 1) = true := by decide

end Sys2Proof.Tests
end

section
/-! The invariant of power, reset, lock and endpoint (O59): what each command does to it. -/

namespace Sys2Proof.Machine

open Sys2Proof

/-! ## Folds -/

/-- What every step of a fold keeps, the fold keeps. -/
theorem foldl_keeps {α β γ : Type} (g : β → γ) (f : β → α → β) (hf : ∀ b a, g (f b a) = g b) (l : List α) (b : β) :
    g (l.foldl f b) = g b := by
  induction l generalizing b with
  | nil => rfl
  | cons a l ih => rw [List.foldl_cons, ih, hf]

/-! ## What the host side's running and its endpoint outlast -/

/-- The host side runs as before and its endpoint stands as before. -/
def HostSide.power (h : HostSide) : Bool × Bool := (h.run, h.pcieUp)

@[simp] theorem HostSide.put_power (h : HostSide) (f : Fld) (v : Nat) : (h.put f v).power = h.power := rfl
@[simp] theorem HostSide.bump_power (h : HostSide) (f : Fld) (n : Nat) : (h.bump f n).power = h.power := rfl

theorem HostSide.showUe_power (h : HostSide) : h.showUe.power = h.power := rfl

theorem HostSide.logUe_power (h : HostSide) (ca ch kind port syn : Nat) :
    (h.logUe ca ch kind port syn).power = h.power := by
  unfold HostSide.logUe
  rw [HostSide.showUe_power, HostSide.put_power]
  split <;> split <;> rfl

theorem HostSide.caPut_power (h : HostSide) (port ca : Nat) (bs : List Byte) : (h.caPut port ca bs).power = h.power := by
  unfold HostSide.caPut HostSide.caWrite
  dsimp only
  split
  · exact HostSide.logUe_power _ _ _ _ _ _
  · rfl

@[simp] theorem HostSide.log_power (h : HostSide) (source code index frame detail : Nat) :
    (h.log source code index frame detail).power = h.power := by
  unfold HostSide.log
  dsimp only
  split
  · rfl
  · rw [HostSide.put_power, HostSide.caPut_power]

theorem foldl_put_power {α : Type} (l : List α) (f : α → Fld) (v : α → Nat) (h : HostSide) :
    (l.foldl (fun h a => h.put (f a) (v a)) h).power = h.power :=
  foldl_keeps HostSide.power (fun h a => h.put (f a) (v a)) (fun _ _ => rfl) l h

@[simp] theorem HostSide.showChan_power (h : HostSide) (c : Nat) : (h.showChan c).power = h.power := by
  simp only [HostSide.showChan, apply_ite HostSide.power, foldl_put_power, HostSide.put_power, ite_self]

theorem HostSide.crossingDown_power (h : HostSide) : h.crossingDown.power = h.power := by
  unfold HostSide.crossingDown
  simp only [HostSide.bump_power, HostSide.put_power]
  rw [foldl_keeps _ _ HostSide.showChan_power]
  rfl


theorem HostSide.resyncHeads_power (h : HostSide) : h.resyncHeads.power = h.power := by
  refine foldl_keeps _ _ (fun g p => ?_) _ _
  unfold HostSide.resyncHead
  dsimp only
  split <;> rfl

theorem HostSide.showAge_power (h : HostSide) : h.showAge.power = h.power := by
  unfold HostSide.showAge
  split <;> rfl

theorem HostSide.tick_power (h : HostSide) : h.tick.power = h.power := by
  unfold HostSide.tick
  dsimp only
  split
  · rw [HostSide.showAge_power]
    split
    · rw [HostSide.resyncHeads_power]; rfl
    · rfl
  · rfl

theorem HostSide.measureTemp_power (h : HostSide) (t : BitVec 8) : (h.measureTemp t).power = h.power := by
  unfold HostSide.measureTemp
  dsimp only
  split <;> rfl

/-! ## What the invariant reads of the physical module -/

/-- A side's supply and thermal hold. -/
def SidePhys.hold (p : SidePhys) : Supply × Bool := (p.supply, p.tripHeld)

/-- The supplies and thermal holds of both sides, and PCIE_PERST_N. -/
def ModuleState.supplies (p : ModuleState) : (Supply × Bool) × (Supply × Bool) × Bool :=
  (p.hostPhys.hold, p.fieldPhys.hold, p.perst)

/-- The locks of the two isolation channels. -/
def ModuleState.locks (p : ModuleState) : Bool × Bool := (p.lock0, p.lock1)

theorem SidePhys.setBank_hold (p : SidePhys) (i : Nat) (b : FlashBank) : (p.setBank i b).hold = p.hold := by
  unfold SidePhys.setBank
  split <;> rfl

theorem SidePhys.select_hold (p : SidePhys) (i : Nat) : (p.select i).hold = p.hold := SidePhys.setBank_hold _ _ _

theorem SidePhys.written_hold (p : SidePhys) (i : Nat) (image : List Byte) (v : FwFindings) :
    (p.written i image v).hold = p.hold := by
  unfold SidePhys.written
  dsimp only
  split
  · rw [SidePhys.select_hold, SidePhys.setBank_hold]
  · rw [SidePhys.setBank_hold]

/-- The supplies, thermal holds and PCIE_PERST_N stand as before; a lock may fall but none rises. -/
structure ModuleState.Falls (p q : ModuleState) : Prop where
  supplies : q.supplies = p.supplies
  lock0 : q.lock0 = true → p.lock0 = true
  lock1 : q.lock1 = true → p.lock1 = true

theorem ModuleState.Falls.refl (p : ModuleState) : p.Falls p := ⟨rfl, id, id⟩

theorem ModuleState.Falls.of_eq {p q : ModuleState} (h : q = p) : p.Falls q := h ▸ .refl p

theorem ModuleState.Falls.trans {p q r : ModuleState} (h : p.Falls q) (g : q.Falls r) : p.Falls r :=
  ⟨g.supplies.trans h.supplies, h.lock0 ∘ g.lock0, h.lock1 ∘ g.lock1⟩

/-- Another hold of a flash bank by the host side's part. -/
theorem ModuleState.falls_hostPhys (p : ModuleState) {q : SidePhys} (h : q.hold = p.hostPhys.hold) :
    p.Falls { p with hostPhys := q } := ⟨congrArg (·, p.fieldPhys.hold, p.perst) h, id, id⟩

theorem ModuleState.falls_fieldPhys (p : ModuleState) {q : SidePhys} (h : q.hold = p.fieldPhys.hold) :
    p.Falls { p with fieldPhys := q } := ⟨congrArg (p.hostPhys.hold, ·, p.perst) h, id, id⟩

/-! ## What a reset of one side leaves of the other, and of the module -/

/-- The queue, the running of both sides, the endpoint and what holds the sides stand as before; locks may fall. -/
structure Falls (s t : State) : Prop where
  pending : t.pending = s.pending
  host : t.host.power = s.host.power
  field : t.field.run = s.field.run
  phys : s.phys.Falls t.phys

theorem Falls.refl (s : State) : Falls s s := ⟨rfl, rfl, rfl, .refl _⟩

theorem Falls.trans {s t u : State} (h : Falls s t) (g : Falls t u) : Falls s u :=
  ⟨g.pending.trans h.pending, g.host.trans h.host, g.field.trans h.field, h.phys.trans g.phys⟩

theorem State.crossingDown_falls (s : State) : Falls s s.crossingDown where
  pending := rfl
  host := by
    show (if s.host.run ∧ s.host.xing.state ≠ 0 then s.host.crossingDown else s.host).power = s.host.power
    split
    · exact s.host.crossingDown_power
    · rfl
  field := by
    show (if s.field.run ∧ s.field.xing.state ≠ 0 then s.field.crossingDown else s.field).run = s.field.run
    split <;> rfl
  phys := .refl _

theorem State.setLock_host_power (s : State) (ch : Nat) (v : Bool) : (s.setLock ch v).host.power = s.host.power := by
  show (if s.host.run then _ else s.host).power = s.host.power
  split <;> rfl

theorem State.setLock_supplies (s : State) (ch : Nat) (v : Bool) :
    (s.setLock ch v).phys.supplies = s.phys.supplies := by
  show (if ch = 0 then { s.phys with lock0 := v } else { s.phys with lock1 := v }).supplies = s.phys.supplies
  split <;> rfl

theorem State.setLock_lock0 (s : State) (ch : Nat) (v : Bool) :
    (s.setLock ch v).phys.lock0 = if ch = 0 then v else s.phys.lock0 := by
  show (if ch = 0 then { s.phys with lock0 := v } else { s.phys with lock1 := v }).lock0 = _
  split <;> rfl

theorem State.setLock_lock1 (s : State) (ch : Nat) (v : Bool) :
    (s.setLock ch v).phys.lock1 = if ch = 0 then s.phys.lock1 else v := by
  show (if ch = 0 then { s.phys with lock0 := v } else { s.phys with lock1 := v }).lock1 = _
  split <;> rfl

/-- A fall of a lock. -/
theorem State.setLock_falls (s : State) (ch : Nat) : Falls s (s.setLock ch false) where
  pending := rfl
  host := s.setLock_host_power ch false
  field := rfl
  phys := ⟨s.setLock_supplies ch false, by rw [State.setLock_lock0]; split <;> simp,
    by rw [State.setLock_lock1]; split <;> simp⟩

/-- A change of the host side that leaves its running and its endpoint alone. -/
theorem Falls.ofHost (s : State) {h : HostSide} (hp : h.power = s.host.power) : Falls s { s with host := h } :=
  ⟨rfl, hp, rfl, .refl _⟩

/-- A lost lock falls, and nothing else that the invariant reads changes. -/
theorem State.lockLost_falls (s : State) (ch : Nat) : Falls s (s.lockLost ch) := by
  unfold State.lockLost
  split
  · exact .refl s
  · dsimp only
    generalize hu : (if (s.setLock ch false).host.run then
      { s.setLock ch false with host := ((s.setLock ch false).host.setLost ch true).log 1 2 ch }
      else s.setLock ch false) = u
    have hsu : Falls s u := by
      refine (s.setLock_falls ch).trans ?_
      rw [← hu]
      split
      · exact .ofHost _ (HostSide.log_power _ _ _ _ _ _)
      · exact .refl _
    split
    · exact hsu
    · exact hsu.trans u.crossingDown_falls

theorem State.lockLost_phys (s : State) (ch : Nat) :
    (s.lockLost ch).phys = if s.locked ch then (s.setLock ch false).phys else s.phys := by
  unfold State.lockLost
  cases s.locked ch with
  | false => rfl
  | true =>
    simp only [Bool.not_true, Bool.false_eq_true, if_false, if_true]
    split <;> split <;> rfl

theorem State.locked_setLock (s : State) (ch : Nat) : (s.setLock ch false).locked ch = false := by
  unfold State.locked
  rw [State.setLock_lock0, State.setLock_lock1]
  split <;> rfl

/-- The channel whose lock is lost has none. -/
theorem State.lockLost_locked (s : State) (ch : Nat) : (s.lockLost ch).locked ch = false := by
  have hp := s.lockLost_phys ch
  cases hl : s.locked ch with
  | false =>
    rw [hl] at hp
    unfold State.locked at hl ⊢
    rw [hp]; exact hl
  | true =>
    rw [hl] at hp
    have := s.locked_setLock ch
    unfold State.locked at this ⊢
    rw [hp]; exact this

theorem State.locksLost_falls (s : State) : Falls s s.locksLost :=
  (s.lockLost_falls 0).trans ((s.lockLost 0).lockLost_falls 1)

/-- Neither channel is locked. -/
def State.unlocked (s : State) : Prop := s.phys.lock0 = false ∧ s.phys.lock1 = false

theorem ModuleState.Falls.lock0_off {p q : ModuleState} (h : p.Falls q) (hp : p.lock0 = false) : q.lock0 = false := by
  simpa [hp] using h.lock0

theorem ModuleState.Falls.lock1_off {p q : ModuleState} (h : p.Falls q) (hp : p.lock1 = false) : q.lock1 = false := by
  simpa [hp] using h.lock1

theorem Falls.unlocked {s t : State} (h : Falls s t) (hs : s.unlocked) : t.unlocked :=
  ⟨h.phys.lock0_off hs.1, h.phys.lock1_off hs.2⟩

theorem State.locksLost_unlocked (s : State) : s.locksLost.unlocked :=
  ⟨((s.lockLost 0).lockLost_falls 1).phys.lock0_off (s.lockLost_locked 0), (s.lockLost 0).lockLost_locked 1⟩

theorem State.abortFlash_falls (s : State) : Falls s s.abortFlash := by
  unfold State.abortFlash
  split
  · exact ⟨rfl, rfl, rfl, s.phys.falls_hostPhys (SidePhys.setBank_hold _ _ _)⟩
  · exact .refl s

/-! ## The invariant, side by side -/

/-- What a side's supply and thermal hold let it do (18_module_electrical.md R413, R419). -/
def SidePhys.Permits (p : SidePhys) (run : Bool) : Prop :=
  (p.supply = .outOfRange → run = false) ∧ (p.tripHeld = true → run = false)

/-- Whatever holds a side, it may stand still. -/
theorem SidePhys.permits_stopped (p : SidePhys) : p.Permits false := ⟨fun _ => rfl, fun _ => rfl⟩

theorem SidePhys.permits_congr {p q : SidePhys} (h : p.hold = q.hold) (run : Bool) : p.Permits run ↔ q.Permits run := by
  obtain ⟨hs, ht⟩ := Prod.mk.inj h
  unfold SidePhys.Permits
  rw [hs, ht]

theorem State.inv_iff (s : State) : s.Inv ↔ s.phys.hostPhys.Permits s.host.run ∧ s.phys.fieldPhys.Permits s.field.run ∧
    (s.phys.lock0 = true ∨ s.phys.lock1 = true → s.host.run = true ∧ s.field.run = true) ∧
    (s.host.run = true → s.host.pcieUp = !s.phys.perst) :=
  ⟨fun ⟨a, b, c, d, e, f⟩ => ⟨⟨a, c⟩, ⟨b, d⟩, e, f⟩, fun ⟨⟨a, c⟩, ⟨b, d⟩, e, f⟩ => ⟨a, b, c, d, e, f⟩⟩

/-- A module without lock keeps the invariant where each side alone does. -/
theorem State.inv_of_unlocked {s : State} (hl : s.unlocked) (hh : s.phys.hostPhys.Permits s.host.run)
    (hf : s.phys.fieldPhys.Permits s.field.run) (hp : s.host.run = true → s.host.pcieUp = !s.phys.perst) : s.Inv := by
  refine s.inv_iff.2 ⟨hh, hf, fun h => ?_, hp⟩
  rw [hl.1, hl.2] at h
  simp at h

/-- In a state with the invariant a locked channel means that both sides run. -/
theorem State.Inv.unlocked {s : State} (hs : s.Inv) (h : s.host.run = false ∨ s.field.run = false) : s.unlocked := by
  obtain ⟨-, -, hlock, -⟩ := s.inv_iff.1 hs
  have hno : ¬ (s.phys.lock0 = true ∨ s.phys.lock1 = true) := fun hl => by
    obtain ⟨hh, hf⟩ := hlock hl
    simp [hh, hf] at h
  exact ⟨by simpa using fun h0 => hno (.inl h0), by simpa using fun h1 => hno (.inr h1)⟩

/-- What a command's effect on a running side leaves: only supplies and locks can break the invariant. -/
theorem State.Inv.held {s t : State} (hs : s.Inv) (hp : t.phys.supplies = s.phys.supplies)
    (hl : t.phys.lock0 = true ∨ t.phys.lock1 = true → s.host.run = true ∧ s.field.run = true) : (s.held t).Inv := by
  obtain ⟨hh, hf, -, he⟩ := s.inv_iff.1 hs
  obtain ⟨h1, h23⟩ := Prod.mk.inj hp
  obtain ⟨h2, h3⟩ := Prod.mk.inj h23
  exact (s.held t).inv_iff.2
    ⟨(SidePhys.permits_congr h1 _).2 hh, (SidePhys.permits_congr h2 _).2 hf, hl, fun hr => h3 ▸ he hr⟩

/-- A fall of locks alone keeps the invariant. -/
theorem Falls.inv {s t : State} (h : Falls s t) (hs : s.Inv) : t.Inv := by
  obtain ⟨hh, hf, hl, he⟩ := s.inv_iff.1 hs
  obtain ⟨h1, h23⟩ := Prod.mk.inj h.phys.supplies
  obtain ⟨h2, h3⟩ := Prod.mk.inj h23
  obtain ⟨hr, hu⟩ := Prod.mk.inj h.host
  rw [State.inv_iff, hr, h.field, hu, h3, SidePhys.permits_congr h1, SidePhys.permits_congr h2]
  exact ⟨hh, hf, fun hlock => hl (hlock.imp h.phys.lock0 h.phys.lock1), he⟩

/-! ## A side's reset -/

theorem HostSide.inReset_run (h : HostSide) (retired : Option Nat) : (h.inReset retired).run = false := by
  unfold HostSide.inReset HostSide.mapAfterReset
  dsimp only
  split
  · rfl
  · split <;> rfl

/-- What a reset of the host side leaves: it stops, and both isolation channels lose lock. -/
structure HostStops (s t : State) : Prop where
  pending : t.pending = s.pending
  host : t.host.run = false
  field : t.field.run = s.field.run
  phys : s.phys.Falls t.phys
  unlocked : s.Inv → t.unlocked

theorem State.hostDown_stops (s : State) : HostStops s s.hostDown := by
  unfold State.hostDown
  generalize hu : (if s.host.run then s.abortFlash.locksLost.crossingDown else s) = u
  have hsu : Falls s u ∧ (s.Inv → u.unlocked) := by
    rw [← hu]
    cases hr : s.host.run with
    | true =>
      exact ⟨(s.abortFlash_falls.trans s.abortFlash.locksLost_falls).trans (State.crossingDown_falls _),
        fun _ => (State.crossingDown_falls _).unlocked s.abortFlash.locksLost_unlocked⟩
    | false => exact ⟨.refl s, fun hs => hs.unlocked (.inl hr)⟩
  obtain ⟨h, hun⟩ := hsu
  exact ⟨h.pending, u.host.inReset_run _, h.field, h.phys, hun⟩

/-- What a reset of the field side leaves: it stops, and both isolation channels lose lock. -/
structure FieldStops (s t : State) : Prop where
  pending : t.pending = s.pending
  host : t.host.power = s.host.power
  field : t.field.run = false
  phys : s.phys.Falls t.phys
  unlocked : s.Inv → t.unlocked

theorem State.fieldDown_stops (s : State) : FieldStops s s.fieldDown := by
  unfold State.fieldDown
  generalize hu : (if s.field.run then s.locksLost.crossingDown else s) = u
  have hsu : Falls s u ∧ (s.Inv → u.unlocked) := by
    rw [← hu]
    cases hr : s.field.run with
    | true =>
      exact ⟨s.locksLost_falls.trans (State.crossingDown_falls _),
        fun _ => (State.crossingDown_falls _).unlocked s.locksLost_unlocked⟩
    | false => exact ⟨.refl s, fun hs => hs.unlocked (.inr hr)⟩
  obtain ⟨h, hun⟩ := hsu
  exact ⟨h.pending, h.host, rfl, h.phys, hun⟩

/-- After a reset of the host side the invariant holds whatever becomes of that side's supply and hold. -/
theorem HostStops.inv {s t u : State} (h : HostStops s t) (hs : s.Inv) (hr : u.host.run = false) (hf : u.field = t.field)
    (hp : u.phys.fieldPhys = t.phys.fieldPhys) (hl : u.phys.locks = t.phys.locks) : u.Inv := by
  obtain ⟨hl0, hl1⟩ := Prod.mk.inj hl
  obtain ⟨ht0, ht1⟩ := h.unlocked hs
  obtain ⟨-, hfield, -, -⟩ := s.inv_iff.1 hs
  refine State.inv_of_unlocked ⟨hl0.trans ht0, hl1.trans ht1⟩ (hr ▸ u.phys.hostPhys.permits_stopped) ?_ (by simp [hr])
  rw [hp, hf, h.field]
  exact (SidePhys.permits_congr (congrArg (·.2.1) h.phys.supplies) _).2 hfield

/-- After a reset of the field side the invariant holds whatever becomes of that side's supply and hold. -/
theorem FieldStops.inv {s t u : State} (h : FieldStops s t) (hs : s.Inv) (hr : u.field.run = false) (hh : u.host = t.host)
    (hp : u.phys.hostPhys = t.phys.hostPhys) (hl : u.phys.locks = t.phys.locks) (hu : u.phys.perst = t.phys.perst) :
    u.Inv := by
  obtain ⟨hl0, hl1⟩ := Prod.mk.inj hl
  obtain ⟨ht0, ht1⟩ := h.unlocked hs
  obtain ⟨hhost, -, -, he⟩ := s.inv_iff.1 hs
  obtain ⟨hrun, hup⟩ := Prod.mk.inj h.host
  have hperst : t.phys.perst = s.phys.perst := congrArg (·.2.2) h.phys.supplies
  refine State.inv_of_unlocked ⟨hl0.trans ht0, hl1.trans ht1⟩ ?_ (hr ▸ u.phys.fieldPhys.permits_stopped) ?_
  · rw [hp, hh, hrun]
    exact (SidePhys.permits_congr (congrArg (·.1) h.phys.supplies) _).2 hhost
  · rw [hh, hrun, hup, hu, hperst]
    exact he

end Sys2Proof.Machine
end

section
/-! What each command leaves of the invariant. -/

namespace Sys2Proof.Machine

open Sys2Proof

/-! ## Answers -/

/-- A command answers a next state that stands to the one before as `P` says. -/
def Answers (P : State → State → Prop) (s : State) (o : Out) : Prop := ∃ t, o = .next t ∧ P s t

theorem Answers.mono {P Q : State → State → Prop} {s : State} {o : Out} (h : Answers P s o) (hPQ : ∀ t, P s t → Q s t) :
    Answers Q s o := by
  obtain ⟨t, ho, ht⟩ := h
  exact ⟨t, ho, hPQ t ht⟩

theorem Answers.ite {P : State → State → Prop} {s : State} {p : Prop} [Decidable p] {a b : Out} (ha : Answers P s a)
    (hb : Answers P s b) : Answers P s (if p then a else b) := by
  split
  · exact ha
  · exact hb

/-- A command's effect on one side leaves the other as it was, and nothing that the invariant reads changes but locks
that may fall. -/
structure Contained (s t : State) : Prop where
  falls : Falls s t
  oneSide : t.host = s.host ∨ t.field = s.field

/-- The queue stands as before and the invariant is kept. -/
structure Keeps (s t : State) : Prop where
  pending : t.pending = s.pending
  inv : s.Inv → t.Inv

theorem Contained.refl (s : State) : Contained s s := ⟨.refl s, .inl rfl⟩

theorem Falls.keeps {s t : State} (h : Falls s t) : Keeps s t := ⟨h.pending, h.inv⟩

theorem Keeps.refl (s : State) : Keeps s s := (Falls.refl s).keeps

/-- What a guard lets through changes supplies and locks at most. -/
theorem Falls.held {s t : State} (h : s.phys.Falls t.phys) : Falls s (s.held t) := ⟨rfl, rfl, rfl, h⟩

theorem Falls.held_of_phys {s t : State} (h : t.phys = s.phys) : Falls s (s.held t) := .held (.of_eq h)

/-! ## Guarded effects -/

theorem hostState_answers {P : State → State → Prop} {s : State} {f : State → State} (h0 : P s s)
    (h1 : P s (s.held (f s))) : Answers P s (hostState s f) := by
  rw [hostState_eq]
  refine ⟨_, rfl, ?_⟩
  split
  · exact h1
  · exact h0

theorem fieldState_answers {P : State → State → Prop} {s : State} {f : State → State} (h0 : P s s)
    (h1 : P s (s.held (f s))) : Answers P s (fieldState s f) := by
  rw [fieldState_eq]
  refine ⟨_, rfl, ?_⟩
  split
  · exact h1
  · exact h0

theorem regState_answers {P : State → State → Prop} {s : State} (who : Requester) {f : State → State} (h0 : P s s)
    (h1 : P s (s.held (f s))) : Answers P s (regState s who f) := by
  refine hostState_answers h0 ?_
  split
  · exact h1
  · exact h0

theorem hostCmd_contained (s : State) (f : HostSide → HostSide) : Answers Contained s (hostCmd s f) :=
  hostState_answers (.refl s) ⟨.held_of_phys rfl, .inr rfl⟩

theorem readCmd_contained (s : State) (who : Requester) (f : HostSide → HostSide) :
    Answers Contained s (readCmd s who f) := hostCmd_contained s _

theorem regCmd_contained (s : State) (who : Requester) (f : HostSide → HostSide) :
    Answers Contained s (regCmd s who f) :=
  regState_answers who (.refl s) ⟨.held_of_phys rfl, .inr rfl⟩

theorem fieldCmd_contained (s : State) (f : FieldSide → FieldSide) : Answers Contained s (fieldCmd s f) :=
  fieldState_answers (.refl s) ⟨.held_of_phys rfl, .inl rfl⟩

theorem intlkPin_contained (s : State) (f : FieldSide → FieldSide) : Answers Contained s (intlkPin s f) :=
  ⟨_, rfl, .held_of_phys rfl, .inl rfl⟩

/-! ## Commands that reach flash banks or the retired channel -/

/-- A change of the host side and its flash. -/
theorem Contained.heldHost {s t : State} (hf : t.field = s.field) (hp : s.phys.Falls t.phys) :
    Contained s (s.held t) := by
  refine ⟨.held hp, .inr ?_⟩
  show { t.field with run := s.field.run } = s.field
  rw [hf]

/-- A change of the field side and its flash. -/
theorem Contained.heldField {s t : State} (hh : t.host = s.host) (hp : s.phys.Falls t.phys) :
    Contained s (s.held t) := by
  refine ⟨.held hp, .inl ?_⟩
  show { t.host with run := s.host.run, pcieUp := s.host.pcieUp } = s.host
  rw [hh]

theorem retireDrainDone_contained (s : State) : Answers Contained s (execRetireDrainDone s) := by
  refine hostState_answers (.refl s) ?_
  split
  · split
    · exact .heldHost rfl ⟨rfl, id, id⟩
    · exact .refl s
  · exact .refl s

theorem startupStepDone_contained (work : StepWork) (s : State) : Answers Contained s (execStartupStepDone work s) := by
  refine hostState_answers (.refl s) ?_
  split
  · exact .refl s
  · split
    · exact ⟨.held_of_phys rfl, .inr rfl⟩
    · exact .heldHost rfl ⟨rfl, id, id⟩

theorem startupStepTimeout_contained (s : State) : Answers Contained s (execStartupStepTimeout s) :=
  hostState_answers (.refl s) ⟨.held_of_phys rfl, .inr rfl⟩

theorem fieldStartupStepDone_contained (work : StepWork) (s : State) :
    Answers Contained s (execFieldStartupStepDone work s) :=
  fieldState_answers (.refl s) ⟨.held_of_phys rfl, .inl rfl⟩

theorem fwOpComplete_contained (found : FwFindings) (s : State) : Answers Contained s (execFwOpComplete found s) := by
  refine hostState_answers (.refl s) ?_
  dsimp only [State.fwComplete]
  split
  · exact .refl s
  · split
    · exact .heldHost rfl (s.phys.falls_hostPhys (SidePhys.written_hold _ _ _ _))
    · split
      · split
        · split
          · exact .heldHost rfl (.refl _)
          · split
            · exact .heldHost rfl (.refl _)
            · split
              · exact .heldHost rfl (.refl _)
              · exact .refl s
        · exact .refl s
      · split
        · exact .heldHost rfl (s.phys.falls_hostPhys (SidePhys.select_hold _ _))
        · exact .heldHost rfl (.refl _)

theorem fwStageBegin_contained (s : State) : Answers Contained s (execFwStageBegin s) := by
  refine fieldState_answers (.refl s) ?_
  dsimp only
  split
  · split
    · exact .heldField rfl (.refl _)
    · split
      · exact .heldField rfl (.refl _)
      · exact .heldField rfl (s.phys.falls_fieldPhys (SidePhys.setBank_hold _ _ _))
  · exact .heldField rfl (.refl _)

theorem fwStageData_contained (s : State) : Answers Contained s (execFwStageData s) := by
  refine fieldState_answers (.refl s) ?_
  dsimp only [State.writeFieldBank]
  split
  · split
    · exact .heldField rfl (s.phys.falls_fieldPhys (SidePhys.setBank_hold _ _ _))
    · exact .heldField rfl (.refl _)
  · exact .heldField rfl (.refl _)

theorem fwStageEnd_contained (verifies : Bool) (build : BitVec 32) (s : State) :
    Answers Contained s (execFwStageEnd verifies build s) := by
  refine fieldState_answers (.refl s) ?_
  dsimp only [State.endFirmware]
  split
  · split
    · exact .heldField rfl (.refl _)
    · exact .heldField rfl (s.phys.falls_fieldPhys (SidePhys.written_hold _ _ _ _))
  · exact .heldField rfl (.refl _)

/-! ## Register reads -/

theorem readBar0_contained (who : Requester) (r : RegRead) (events : List Nat) (s : State) :
    Answers Contained s (readBar0 who r events s) := by
  unfold readBar0
  refine .ite (hostCmd_contained s _) (.ite (hostCmd_contained s _) (.ite (hostCmd_contained s _)
    (.ite (readCmd_contained s _ _) (.ite (readCmd_contained s _ _) ?_))))
  split <;> exact readCmd_contained s _ _

/-! ## Every command that stays on its side -/

/-- The commands that reach across the barrier, or act on the module's own pins and supplies. -/
def Instr.actsOnModule : Instr → Bool
  | .hostRstRelease _ _ => true
  | .fieldRstRelease _ => true
  | .pciePerst _ => true
  | .tempMeasure _ _ => true
  | c => Crosses c

/-- Every other command changes one side only, and nothing that the invariant reads. -/
theorem exec_contained (c : Instr) (s : State) (hc : Instr.actsOnModule c = false) :
    Answers Contained s (exec c s) := by
  cases c with
  | invariantTimer | vintageSweep | sliceComposeStart | sliceHandover | sliceDeadlineMiss | packetEmit
  | sliceEmitComplete | fieldConfigTimeout | admissionComplete | commitPoint | imageActivate | headSwitch
  | mimicDrawComplete | peerImageMsg | ingestFrame | jbHoldExpiry | syncHoldExpiry | decodeStart | pictureComplete
  | decodeTimeout | coreSelftestFault | latch | frameStart | teReport | bar2Request | mimicBatch | widgetDrawn
  | encSliceRead | encodeFrameStart | encodeFrameDone | pointBatchRx | cmdRequest | cmdNoAck | cmdAckRx
  | interfaceHelloRx | timeXferSend | timeXferReplyRx | mapExpiry | fieldConfigAck | dramAccess | patrolRead
  | refresh | refreshWindow | selfRefreshEntry | selfRefreshExit | retrainPause | channelTrained | retireWakeDone
  | retireCopyBlock | retireCopyDone | cwinRead | cwinWrite | tartanRequest | tartanGrant | tartanResponse
  | trainBlockRx | trainTimeout | spareAutoTrigger | markerRx | linkCellRx | creditBlockRx | recoverRx
  | widthAckRx | stitchSend | linkUp | peerHealthSend | eligibleRing | twinHealthSend | heartbeatRx | twinHealthRx
  | resyncStart | resyncReqRx | resyncInfoRx | imageDataRx | ceSample | ceCompare | dcSample | dcCompare
  | dflJobStop | crcJobDone | engineSelfCheckFault | laneDormantExit =>
    dsimp only [exec]
    exact hostCmd_contained s _
  | softResetField | fwWriteHost | fwWriteField | fwSelectHost | invarStatusWrite | layerBudgetWrite | evtRdWrite
  | logRdWrite | imageVerify | imageArm | imageCancel | overrideArm | bckQuery | syncAttest | syncRevoke
  | tsOffsetWrite | wtProbe | commit | commitTargeted | surfaceRelease | surfaceReleaseRetain | surfTagWrite
  | surfProbe | widgetProbe | cellProbe | rcSubmit | rcSubmitIdr | mbxPush | mbxPop | mbxAck | channelRateWrite
  | channelRetire | ueSelect | cwinSelect | cwinFlush | remap | lockRelease | lockForce | mpuRegionWrite
  | mpuSyncWrite | spareSwap | linkRetrain | twinKick | twinRelease | dflStart | dflContinue | dflAbort
  | paceWrite | crcStart | crcAbort =>
    dsimp only [exec]
    exact regCmd_contained s _ _
  | relDoneRead | ackqRead | lockRead | mpuSyncRead =>
    dsimp only [exec]
    exact readCmd_contained s _ _
  | uadpMessage | arpRequest | modbusPollDue | modbusResponse | modbusTimeout | modbusReconnect | sourceSilence
  | pointSweep | batchClose | cmdReqRx | guardRunExpiry | commandLaunch | commandDeadline | helloReplyRx
  | timeXferRequestRx | fieldConfigBegin | fieldConfigData | fieldConfigEnd | fieldConfigArm | fieldConfigCancel
  | fieldActivate | fieldPeek | logExport | fieldLaneSwap | contentionEnd | takeoverAssert | eligibilityLoss
  | intlkWatchdogWrite | releaseDeassert | dryLaunch | modbusConnectionFailure =>
    dsimp only [exec]
    exact fieldCmd_contained s _
  | intlkInRise | intlkInFall =>
    dsimp only [exec]
    exact intlkPin_contained s _
  | membershipQuery side port | frerResetTimeout side | linkCellSend side | healthSend side | healthRx side
  | gptpMessage side port | syncWindowExpiry side | sramRowRepair side | gptpReceiptTimeout side =>
    dsimp only [exec, execMembershipQuery, execFrerResetTimeout, execLinkCellSend, execHealthSend, execHealthRx,
      execGptpMessage, execSyncWindowExpiry, execSramRowRepair, execGptpReceiptTimeout]
    cases side with
    | host => exact hostCmd_contained s _
    | field => exact fieldCmd_contained s _
  | doorbellRing side | incrWrite side | offsetStep side | syncConfirm side | syncLose side =>
    dsimp only [exec, execDoorbellRing, execIncrWrite, execOffsetStep, execSyncConfirm, execSyncLose]
    cases side with
    | host => exact regCmd_contained s _ _
    | field => exact fieldCmd_contained s _
  | gptpSyncSend port _ =>
    dsimp only [exec, execGptpSyncSend]
    cases port with
    | host n => exact hostCmd_contained s _
    | field n => exact fieldCmd_contained s _
  | laneLos | laneSignalReturn | laneLol | laneTxFault | eyeMeasure =>
    dsimp only [exec]
    exact .ite (hostCmd_contained s _) (fieldCmd_contained s _)
  | startupStepDone work => exact startupStepDone_contained work s
  | startupStepTimeout => exact startupStepTimeout_contained s
  | fieldStartupStepDone work => exact fieldStartupStepDone_contained work s
  | fwOpComplete found => exact fwOpComplete_contained found s
  | retireDrainDone => exact retireDrainDone_contained s
  | fwStageBegin => exact fwStageBegin_contained s
  | fwStageData => exact fwStageData_contained s
  | fwStageEnd verifies build => exact fwStageEnd_contained verifies build s
  | pairLowRead who r => exact readBar0_contained who r [] s
  | rcCounterRead who r events => exact readBar0_contained who r events s
  | hostPowerOn | hostPowerOff | fieldPowerOn | fieldPowerOff | hostRstAssert | hostRstRelease | fieldRstAssert
  | fieldRstRelease | pciePerst | thermalTrip | tempMeasure | softResetHost | softResetBoth | registerWrite
  | isolationLockLost | isolationLockGained | cellArrival | linkCellArrival | healthTimeout | heartbeatTimeout =>
    cases hc

end Sys2Proof.Machine
end

section
/-! The register writes, and the commands that reach across the barrier or act on the module's own pins. -/

namespace Sys2Proof.Machine

open Sys2Proof

/-! ## Soft resets -/

theorem hostCmd_falls (s : State) (f : HostSide → HostSide) : Answers Falls s (hostCmd s f) :=
  (hostCmd_contained s f).mono fun _ h => h.falls

theorem regCmd_falls (s : State) (who : Requester) (f : HostSide → HostSide) : Answers Falls s (regCmd s who f) :=
  (regCmd_contained s who f).mono fun _ h => h.falls

theorem State.softHost_phys {s u : State} (h : u.phys = s.phys) : s.phys.Falls u.softHost.phys :=
  h ▸ u.hostDown_stops.phys

theorem State.softField_phys {s u : State} (h : u.phys = s.phys) : s.phys.Falls u.softField.phys :=
  h ▸ u.fieldDown_stops.phys

theorem softResetHost_falls (who : Requester) (s : State) : Answers Falls s (execSoftResetHost who s) :=
  regState_answers who (.refl s) (.held (State.softHost_phys rfl))

theorem softResetBoth_falls (who : Requester) (s : State) : Answers Falls s (execSoftResetBoth who s) := by
  refine regState_answers who (.refl s) (.held (.trans ?_ (State.softHost_phys rfl)))
  dsimp only
  split
  · exact .refl _
  · exact State.softField_phys rfl

/-! ## Register writes -/

theorem plainWrite_falls (who : Requester) (s : State) (f : HostSide → HostSide) :
    Answers Falls s (plainWrite who s f) := regCmd_falls s who _

/-- A command that stays on its side, as one of the effects of a register write. -/
theorem exec_falls (c : Instr) (s : State) (hc : Instr.actsOnModule c = false) : Answers Falls s (exec c s) :=
  (exec_contained c s hc).mono fun _ h => h.falls

theorem Answers.andThen {s : State} {o : Out} {f : State → Out} (ho : Answers Falls s o)
    (hf : ∀ t, Answers Falls t (f t)) : Answers Falls s (o.andThen f) := by
  obtain ⟨t, rfl, hst⟩ := ho
  obtain ⟨u, hu, htu⟩ := hf t
  exact ⟨u, hu, hst.trans htu⟩

theorem writeReset_falls (who : Requester) (v : Nat) (s : State) : Answers Falls s (writeReset who v s) := by
  unfold writeReset
  refine .ite ?_ (plainWrite_falls who s id)
  split
  · exact softResetHost_falls who s
  · exact exec_falls (.softResetField who) s rfl
  · exact softResetBoth_falls who s
  · exact plainWrite_falls who s id

theorem writeFwCtrl_falls (who : Requester) (v : Nat) (s : State) : Answers Falls s (writeFwCtrl who v s) := by
  unfold writeFwCtrl
  refine .ite ?_ (plainWrite_falls who s id)
  split
  · exact plainWrite_falls who s _
  · exact exec_falls (.fwWriteHost who) s rfl
  · exact exec_falls (.fwWriteField who) s rfl
  · exact exec_falls (.fwSelectHost who) s rfl

theorem writeSys_falls (who : Requester) (off v : Nat) (s : State) : Answers Falls s (writeSys who off v s) := by
  unfold writeSys
  split
  · exact writeReset_falls who v s
  · exact exec_falls (.invarStatusWrite who _) s rfl
  · exact writeFwCtrl_falls who v s
  · exact exec_falls (.logRdWrite who _) s rfl
  · exact plainWrite_falls who s _

theorem writeTrt_falls (who : Requester) (core : Fin 8) (off v : Nat) (s : State) :
    Answers Falls s (writeTrt who core off v s) := by
  unfold writeTrt
  split
  · exact .ite (exec_falls (.remap who) s rfl) (plainWrite_falls who s id)
  · exact .ite (exec_falls (.lockForce who _) s rfl) (plainWrite_falls who s id)
  · split
    · exact exec_falls (.lockRelease who core _ _) s rfl
    · exact plainWrite_falls who s _

theorem writeMpu_falls (who : Requester) (off v : Nat) (s : State) : Answers Falls s (writeMpu who off v s) := by
  unfold writeMpu
  refine .ite (exec_falls (.mpuSyncWrite who _) s rfl) ?_
  split
  · exact exec_falls (.mpuRegionWrite who _ _ _ _) s rfl
  · exact plainWrite_falls who s _

theorem writeCst_falls (who : Requester) (off v : Nat) (s : State) : Answers Falls s (writeCst who off v s) := by
  unfold writeCst
  split
  · exact .ite (exec_falls (.channelRetire who _) s rfl) (plainWrite_falls who s id)
  · exact exec_falls (.ueSelect who _) s rfl
  · exact .ite (exec_falls (.cwinFlush who _) s rfl) (exec_falls (.cwinSelect who _) s rfl)
  · split
    · exact .ite (plainWrite_falls who s id) (exec_falls (.channelRateWrite who _ _) s rfl)
    · exact plainWrite_falls who s _

theorem writeLne_falls (who : Requester) (off v : Nat) (s : State) : Answers Falls s (writeLne who off v s) := by
  unfold writeLne
  refine .ite (plainWrite_falls who s _) ?_
  split
  · exact .ite ((regCmd_falls s who _).andThen fun t => exec_falls (.spareSwap who _) t rfl) (regCmd_falls s who _)
  · split <;> exact plainWrite_falls who s _

theorem writeIng_falls (who : Requester) (off v : Nat) (s : State) : Answers Falls s (writeIng who off v s) := by
  unfold writeIng
  refine .ite (exec_falls (.tsOffsetWrite who _) s rfl) ?_
  split
  · exact .ite (exec_falls (.syncRevoke who _) s rfl)
      (.ite (exec_falls (.syncAttest who _) s rfl) (plainWrite_falls who s id))
  · exact plainWrite_falls who s _

theorem writeDec_falls (who : Requester) (off v : Nat) (s : State) : Answers Falls s (writeDec who off v s) :=
  .ite (exec_falls (.wtProbe who _) s rfl) (plainWrite_falls who s _)

theorem writeEnc_falls (who : Requester) (off v : Nat) (s : State) : Answers Falls s (writeEnc who off v s) := by
  unfold writeEnc
  dsimp only
  split
  · refine .ite ((plainWrite_falls who s _).andThen fun t => ?_) (plainWrite_falls who s _)
    split
    · exact exec_falls (.rcSubmitIdr who _) t rfl
    · exact exec_falls (.rcSubmit who _) t rfl
  · exact plainWrite_falls who s _

theorem writeSurfCmd_falls (who : Requester) (v : Nat) (s : State) : Answers Falls s (writeSurfCmd who v s) := by
  unfold writeSurfCmd
  split
  · exact exec_falls (.surfaceRelease who _ _) s rfl
  · exact exec_falls (.surfaceReleaseRetain who _ _) s rfl
  · exact plainWrite_falls who s id

theorem writeCmp_falls (who : Requester) (off v : Nat) (s : State) : Answers Falls s (writeCmp who off v s) := by
  unfold writeCmp
  split
  · exact writeSurfCmd_falls who v s
  · exact exec_falls (.surfProbe who _) s rfl
  · exact plainWrite_falls who s _
  · exact exec_falls (.surfTagWrite who _) s rfl
  · exact .ite (plainWrite_falls who s _) (plainWrite_falls who s _)

theorem writeHds_falls (who : Requester) (off v : Nat) (s : State) : Answers Falls s (writeHds who off v s) := by
  unfold writeHds
  split
  · exact .ite (.ite (exec_falls (.commitTargeted who _ _) s rfl) (exec_falls (.commit who _) s rfl))
      (plainWrite_falls who s id)
  · split <;> exact plainWrite_falls who s _

theorem writeMim_falls (who : Requester) (off v : Nat) (s : State) : Answers Falls s (writeMim who off v s) := by
  unfold writeMim
  split
  · exact exec_falls (.widgetProbe who _) s rfl
  · exact exec_falls (.cellProbe who _) s rfl
  · exact plainWrite_falls who s _

theorem writeFrs_falls (who : Requester) (off v : Nat) (s : State) : Answers Falls s (writeFrs who off v s) := by
  unfold writeFrs
  refine .ite (exec_falls (.evtRdWrite who _) s rfl) ?_
  split
  · exact plainWrite_falls who s _
  · split
    · exact exec_falls (.layerBudgetWrite who _ _) s rfl
    · exact plainWrite_falls who s _

theorem writeTim_falls (who : Requester) (off v : Nat) (s : State) : Answers Falls s (writeTim who off v s) := by
  unfold writeTim
  split
  · exact exec_falls (.incrWrite .host who _) s rfl
  · exact regCmd_falls s who _
  · exact exec_falls (.offsetStep .host who _ 0) s rfl
  · exact plainWrite_falls who s _
  · exact plainWrite_falls who s _
  · exact .ite (exec_falls (.syncConfirm .host who _) s rfl)
      (.ite (exec_falls (.syncLose .host who) s rfl) (regCmd_falls s who _))
  · exact regCmd_falls s who _
  · exact regCmd_falls s who _
  · exact .ite (plainWrite_falls who s _) (plainWrite_falls who s _)

theorem writeChannel_falls (who : Requester) (c : Fin 80) (r off v : Nat) (s : State) :
    Answers Falls s (writeChannel who c r off v s) := by
  unfold writeChannel
  refine .ite (plainWrite_falls who s id) (.ite (regCmd_falls s who _) ?_)
  split
  · exact .ite (exec_falls (.mbxPush who c) s rfl) (plainWrite_falls who s id)
  · exact .ite (exec_falls (.mbxPop who c) s rfl) (plainWrite_falls who s id)
  · exact exec_falls (.mbxAck who c _) s rfl
  · exact plainWrite_falls who s _

theorem writeMbx_falls (who : Requester) (off v : Nat) (s : State) : Answers Falls s (writeMbx who off v s) := by
  unfold writeMbx
  split
  · exact exec_falls (.doorbellRing .host who false _) s rfl
  · exact exec_falls (.doorbellRing .host who true _) s rfl
  · exact .ite (plainWrite_falls who s _) (regCmd_falls s who _)
  · exact .ite (writeChannel_falls who _ _ off v s) (plainWrite_falls who s _)

theorem writeCrc_falls (who : Requester) (off v : Nat) (s : State) : Answers Falls s (writeCrc who off v s) := by
  unfold writeCrc
  refine .ite (exec_falls (.paceWrite who 2 _) s rfl) ?_
  split
  · exact plainWrite_falls who s _
  · exact .ite (plainWrite_falls who s _) (plainWrite_falls who s _)

theorem writeDflCmd_falls (who : Requester) (e : Fin 2) (v : Nat) (s : State) :
    Answers Falls s (writeDflCmd who e v s) := by
  unfold writeDflCmd
  dsimp only
  split
  · exact regCmd_falls s who _
  · exact exec_falls (.dflStart who e _) s rfl
  · exact exec_falls (.dflContinue who e _) s rfl
  · exact exec_falls (.dflAbort who e) s rfl
  · exact regCmd_falls s who _

theorem writeDfl_falls (who : Requester) (off v : Nat) (s : State) : Answers Falls s (writeDfl who off v s) := by
  unfold writeDfl
  refine .ite (plainWrite_falls who s _) ?_
  dsimp only
  split
  · exact writeDflCmd_falls who _ v s
  · exact exec_falls (.paceWrite who _ _) s rfl
  · exact regCmd_falls s who _

theorem writeTwn_falls (who : Requester) (off v : Nat) (s : State) : Answers Falls s (writeTwn who off v s) := by
  unfold writeTwn writeTwnCtrl
  split
  · exact Answers.andThen (.ite (exec_falls (.twinRelease who) s rfl) (plainWrite_falls who s id))
      fun t => regCmd_falls t who _
  · exact .ite (exec_falls (.twinKick who) s rfl) (plainWrite_falls who s id)
  · exact plainWrite_falls who s _

theorem writeSimCtrl_falls (who : Requester) (v : Nat) (s : State) : Answers Falls s (writeSimCtrl who v s) := by
  have verify : Answers Falls s (if bit v 0 then execImageVerify who s else plainWrite who s id) :=
    .ite (exec_falls (.imageVerify who) s rfl) (plainWrite_falls who s id)
  have arm := Answers.ite (p := bit v 1 = true) (verify.andThen fun t => exec_falls (.imageArm who) t rfl) verify
  exact .ite (arm.andThen fun t => exec_falls (.imageCancel who) t rfl) arm

theorem writeUpper_falls (who : Requester) (off v : Nat) (s : State) : Answers Falls s (writeUpper who off v s) := by
  unfold writeUpper
  split
  · exact exec_falls (.bckQuery who _) s rfl
  · exact writeSimCtrl_falls who v s
  · exact exec_falls (.overrideArm who _) s rfl
  · split
    · exact .ite (exec_falls (.linkRetrain who _) s rfl) (regCmd_falls s who _)
    · exact plainWrite_falls who s _

theorem writeBar0_falls (who : Requester) (core : Fin 8) (off v : Nat) (s : State) :
    Answers Falls s (writeBar0 who core off v s) :=
  .ite (writeSys_falls who off v s) <| .ite (writeTrt_falls who core off v s) <| .ite (writeMpu_falls who off v s) <|
  .ite (writeCst_falls who off v s) <| .ite (writeLne_falls who off v s) <| .ite (writeIng_falls who off v s) <|
  .ite (writeDec_falls who off v s) <| .ite (writeEnc_falls who off v s) <| .ite (writeCmp_falls who off v s) <|
  .ite (writeHds_falls who off v s) <| .ite (writeMim_falls who off v s) <| .ite (writeFrs_falls who off v s) <|
  .ite (writeTim_falls who off v s) <| .ite (writeMbx_falls who off v s) <| .ite (writeCrc_falls who off v s) <|
  .ite (writeDfl_falls who off v s) <| .ite (writeTwn_falls who off v s) (writeUpper_falls who off v s)

theorem registerWrite_falls (who : Requester) (core : Fin 8) (bar4 : Bool) (size off : Nat) (v : BitVec 64) (s : State) :
    Answers Falls s (execRegisterWrite who core bar4 size off v s) :=
  .ite (regCmd_falls s who _) <| .ite (regCmd_falls s who _) <| .ite (writeBar0_falls who core off _ s) <|
    regCmd_falls s who _

/-! ## What crosses the barrier -/

theorem cellArrival_falls (ch : Fin 80) (damaged : Bool) (s : State) : Answers Falls s (execCellArrival ch damaged s) := by
  refine .ite (hostCmd_falls s _) (.ite (hostState_answers (.refl s) (.held_of_phys ?_))
    (fieldState_answers (.refl s) (.held_of_phys ?_)))
  · unfold State.cellToHost
    split
    · split <;> rfl
    · rfl
  · unfold State.cellToField
    split
    · split <;> rfl
    · rfl

theorem linkCellArrival_falls (side : Side) (s : State) : Answers Falls s (execLinkCellArrival side s) := by
  cases side with
  | host =>
    refine hostState_answers (.refl s) (.held_of_phys ?_)
    unfold State.linkToHost
    split <;> rfl
  | field =>
    refine fieldState_answers (.refl s) (.held ?_)
    unfold State.linkToField
    split
    · exact .refl _
    · dsimp only
      split
      · exact State.softField_phys rfl
      · exact .refl _

theorem healthTimeout_falls (side : Side) (s : State) : Answers Falls s (execHealthTimeout side s) := by
  have down (b : Bool) : (if b then s.crossingDown else s).phys = s.phys := by
    split <;> rfl
  unfold execHealthTimeout sideState
  cases side with
  | host => exact hostState_answers (.refl s) (.held_of_phys (down _))
  | field => exact fieldState_answers (.refl s) (.held_of_phys (down _))

theorem heartbeatTimeout_falls (s : State) : Answers Falls s (execHeartbeatTimeout s) := ⟨_, rfl, .held_of_phys rfl⟩

theorem isolationLockLost_falls (ch : Fin 2) (s : State) : Answers Falls s (execIsolationLockLost ch s) :=
  ⟨_, rfl, .held (s.lockLost_falls _).phys⟩

/-- A lock that is gained leaves what holds the sides as it was, and rises only while both sides run. -/
theorem State.lockGained_phys (s : State) (ch : Nat) : (s.lockGained ch).phys = s.phys ∨
    (s.host.run = true ∧ s.field.run = true ∧ (s.lockGained ch).phys = (s.setLock ch true).phys) := by
  unfold State.lockGained
  split
  · exact .inl rfl
  · rename_i h
    simp only [Bool.or_eq_true, Bool.not_eq_true', not_or, Bool.not_eq_false] at h
    obtain ⟨⟨⟨⟨-, hh⟩, hf⟩, -⟩, -⟩ := h
    refine .inr ⟨hh, hf, ?_⟩
    simp only [apply_ite State.phys, ite_self]

theorem isolationLockGained_keeps (ch : Fin 2) (s : State) : Answers Keeps s (execIsolationLockGained ch s) := by
  refine ⟨_, rfl, rfl, fun hs => ?_⟩
  obtain h | ⟨hh, hf, h⟩ := s.lockGained_phys ch.val
  · exact (Falls.held_of_phys h).inv hs
  · exact hs.held (h ▸ s.setLock_supplies _ _) fun _ => ⟨hh, hf⟩

/-! ## Supplies, reset pins and temperature -/

theorem hostPowerOn_keeps (s : State) : Answers Keeps s (execHostPowerOn s) := by
  refine .ite ⟨s, rfl, .refl s⟩ ⟨_, rfl, s.hostDown_stops.pending, fun hs => ?_⟩
  exact s.hostDown_stops.inv hs s.hostDown_stops.host rfl rfl rfl

theorem hostPowerOff_keeps (s : State) : Answers Keeps s (execHostPowerOff s) :=
  ⟨_, rfl, s.hostDown_stops.pending, fun hs => s.hostDown_stops.inv hs s.hostDown_stops.host rfl rfl rfl⟩

theorem fieldPowerOn_keeps (s : State) : Answers Keeps s (execFieldPowerOn s) := by
  refine .ite ⟨s, rfl, .refl s⟩ ⟨_, rfl, s.fieldDown_stops.pending, fun hs => ?_⟩
  exact s.fieldDown_stops.inv hs s.fieldDown_stops.field rfl rfl rfl rfl

theorem fieldPowerOff_keeps (s : State) : Answers Keeps s (execFieldPowerOff s) :=
  ⟨_, rfl, s.fieldDown_stops.pending, fun hs => s.fieldDown_stops.inv hs s.fieldDown_stops.field rfl rfl rfl rfl⟩

/-- A pin held low can only end a thermal hold. -/
theorem SidePhys.Permits.holdPin {p : SidePhys} {run : Bool} (h : p.Permits run) (us : Nat) : (p.holdPin us).Permits run :=
  ⟨h.1, fun ht => h.2 (Bool.and_eq_true_iff.1 ht).1⟩

theorem hostRstAssert_keeps (us : Nat) (s : State) : Answers Keeps s (execHostRstAssert us s) := by
  unfold execHostRstAssert
  dsimp only
  split
  · exact ⟨_, rfl, s.hostDown_stops.pending, fun hs => s.hostDown_stops.inv hs s.hostDown_stops.host rfl rfl rfl⟩
  · refine ⟨_, rfl, rfl, fun hs => ?_⟩
    obtain ⟨hh, hf, hl, he⟩ := s.inv_iff.1 hs
    exact (State.inv_iff _).2 ⟨hh.holdPin us, hf, hl, he⟩

theorem fieldRstAssert_keeps (us : Nat) (s : State) : Answers Keeps s (execFieldRstAssert us s) := by
  unfold execFieldRstAssert
  dsimp only
  split
  · exact ⟨_, rfl, s.fieldDown_stops.pending,
      fun hs => s.fieldDown_stops.inv hs s.fieldDown_stops.field rfl rfl rfl rfl⟩
  · refine ⟨_, rfl, rfl, fun hs => ?_⟩
    obtain ⟨hh, hf, hl, he⟩ := s.inv_iff.1 hs
    exact (State.inv_iff _).2 ⟨hh, hf.holdPin us, hl, he⟩

/-- A side with supply and without thermal hold may run. -/
theorem SidePhys.permits_of_free {p : SidePhys} (ht : p.tripHeld ≠ true) (hs : p.supply ≠ .outOfRange) (run : Bool) :
    p.Permits run := ⟨fun h => absurd h hs, fun h => absurd h ht⟩

theorem hostRstRelease_keeps (slot : Fin 4) (role : Bool) (s : State) :
    Answers Keeps s (execHostRstRelease slot role s) := by
  unfold execHostRstRelease
  dsimp only
  split
  · exact ⟨_, rfl, rfl, fun hs => hs⟩
  · rename_i h
    obtain ⟨hrun, ht, hsup⟩ := by simpa only [not_or] using h
    refine ⟨_, rfl, rfl, fun hs => ?_⟩
    obtain ⟨-, hf, -, -⟩ := s.inv_iff.1 hs
    exact State.inv_of_unlocked (hs.unlocked (.inl (by simpa using hrun))) (SidePhys.permits_of_free ht hsup _) hf
      fun _ => rfl

theorem fieldRstRelease_keeps (role : Bool) (s : State) : Answers Keeps s (execFieldRstRelease role s) := by
  unfold execFieldRstRelease
  dsimp only
  split
  · exact ⟨_, rfl, rfl, fun hs => hs⟩
  · rename_i h
    obtain ⟨hrun, ht, hsup⟩ := by simpa only [not_or] using h
    refine ⟨_, rfl, rfl, fun hs => ?_⟩
    obtain ⟨hh, -, -, he⟩ := s.inv_iff.1 hs
    exact State.inv_of_unlocked (hs.unlocked (.inr (by simpa using hrun))) hh (SidePhys.permits_of_free ht hsup _) he

theorem pciePerst_keeps (asserted : Bool) (s : State) : Answers Keeps s (execPciePerst asserted s) := by
  unfold execPciePerst
  dsimp only
  split
  · refine ⟨_, rfl, rfl, fun hs => ?_⟩
    obtain ⟨hh, hf, hl, -⟩ := s.inv_iff.1 hs
    cases asserted <;> exact (State.inv_iff _).2 ⟨hh, hf, hl, fun _ => rfl⟩
  · rename_i hr
    refine ⟨_, rfl, rfl, fun hs => ?_⟩
    obtain ⟨hh, hf, hl, -⟩ := s.inv_iff.1 hs
    exact (State.inv_iff _).2 ⟨hh, hf, hl, fun h => absurd h hr⟩

theorem State.trip_keeps (s : State) (side : Side) : Keeps s (s.trip side) := by
  cases side with
  | host => exact ⟨s.hostDown_stops.pending, fun hs => s.hostDown_stops.inv hs s.hostDown_stops.host rfl rfl rfl⟩
  | field =>
    exact ⟨s.fieldDown_stops.pending, fun hs => s.fieldDown_stops.inv hs s.fieldDown_stops.field rfl rfl rfl rfl⟩

theorem State.setTemp_falls (s : State) (side : Side) (t : Int) : Falls s (s.setTemp side t) := by
  cases side <;> exact ⟨rfl, rfl, rfl, ⟨rfl, id, id⟩⟩

theorem State.showTemp_falls (s : State) (side : Side) (t : BitVec 8) : Falls s (s.showTemp side t) := by
  cases side with
  | host =>
    refine .ofHost s ?_
    split
    · exact s.host.measureTemp_power t
    · rfl
  | field =>
    refine ⟨rfl, rfl, ?_, .refl _⟩
    show (if s.field.run then _ else s.field).run = s.field.run
    split <;> rfl

theorem Keeps.trans {s t u : State} (h : Keeps s t) (g : Keeps t u) : Keeps s u :=
  ⟨g.pending.trans h.pending, g.inv ∘ h.inv⟩

theorem thermalTrip_keeps (side : Side) (s : State) : Answers Keeps s (execThermalTrip side s) :=
  .ite ⟨s, rfl, .refl s⟩ ⟨_, rfl, (s.trip_keeps side).trans (State.setTemp_falls _ _ _).keeps⟩

theorem tempMeasure_keeps (side : Side) (temp : BitVec 8) (s : State) :
    Answers Keeps s (execTempMeasure side temp s) := by
  refine .ite ⟨s, rfl, .refl s⟩ ⟨_, rfl, ?_⟩
  have hshow : Keeps s ((s.setTemp side temp.toInt).showTemp side temp) :=
    ((s.setTemp_falls side _).trans (State.showTemp_falls _ _ _)).keeps
  split
  · exact hshow.trans (State.trip_keeps _ side)
  · exact hshow

/-! ## Every command and every step -/

theorem Answers.keeps {s : State} {o : Out} (h : Answers Falls s o) : Answers Keeps s o := h.mono fun _ => Falls.keeps

/-- Every command answers a next state, leaves the queue alone and keeps the invariant. -/
theorem exec_keeps (c : Instr) (s : State) : Answers Keeps s (exec c s) := by
  cases hc : Instr.actsOnModule c with
  | false => exact (exec_falls c s hc).keeps
  | true =>
    cases c with
    | hostPowerOn => exact hostPowerOn_keeps s
    | hostPowerOff => exact hostPowerOff_keeps s
    | fieldPowerOn => exact fieldPowerOn_keeps s
    | fieldPowerOff => exact fieldPowerOff_keeps s
    | hostRstAssert us => exact hostRstAssert_keeps us s
    | hostRstRelease slot role => exact hostRstRelease_keeps slot role s
    | fieldRstAssert us => exact fieldRstAssert_keeps us s
    | fieldRstRelease role => exact fieldRstRelease_keeps role s
    | pciePerst asserted => exact pciePerst_keeps asserted s
    | thermalTrip side => exact thermalTrip_keeps side s
    | tempMeasure side temp => exact tempMeasure_keeps side temp s
    | softResetHost who => exact (softResetHost_falls who s).keeps
    | softResetBoth who => exact (softResetBoth_falls who s).keeps
    | registerWrite who core bar4 size off v => exact (registerWrite_falls who core bar4 size off v s).keeps
    | isolationLockLost ch => exact (isolationLockLost_falls ch s).keeps
    | isolationLockGained ch => exact isolationLockGained_keeps ch s
    | cellArrival ch damaged => exact (cellArrival_falls ch damaged s).keeps
    | linkCellArrival side => exact (linkCellArrival_falls side s).keeps
    | healthTimeout side => exact (healthTimeout_falls side s).keeps
    | heartbeatTimeout => exact (heartbeatTimeout_falls s).keeps
    | _ => cases hc

theorem State.tick_falls (s : State) : Falls s s.tick := by
  refine ⟨rfl, s.host.tick_power, ?_, .refl _⟩
  show s.field.tick.run = s.field.run
  unfold FieldSide.tick
  split <;> rfl

/-- Settles O59: what a step may do to supplies, holds, locks and endpoint is what the invariant allows. -/
theorem theInvariantIsKeptByEveryStep : Obligations.TheInvariantIsKeptByEveryStep := by
  intro s t hs hstep
  unfold step at hstep
  split at hstep
  · cases hstep
    exact s.tick_falls.inv hs
  · next c rest _ =>
    obtain ⟨u, hu, hk⟩ := exec_keeps c { s with pending := rest }
    rw [hu] at hstep
    cases hstep
    exact hk.inv hs

end Sys2Proof.Machine
end

section
/-! A plain write that a register's own rule stops: the equaliser taps of a PCIe lane (15_lanes.md R365). -/

namespace Sys2Proof.Machine

open Sys2Proof

/-- LNE.TXEQ of lane 52, which is a PCIe lane (15_lanes.md Table 15.1). -/
def pcieTaps : Nat := 0x8100c + 52 * 0x20

/-- A secure, privileged control core. -/
def secureCore : Requester := ⟨.hcc 0, true, true⟩

theorem pre_mem_regFields_pcieTaps : (⟨0, 4, 0, .rw, []⟩ : FieldDesc) ∈ regFields pcieTaps := by decide +kernel

/-- The taps of lane 52 take no write: it is no head, network or spare lane, nor of SL3. -/
theorem writeBar0_pcieTaps (who : Requester) (core : Fin 8) (v : Nat) (s : State) :
    writeBar0 who core pcieTaps v s = plainWrite who s id := rfl

theorem reset_reaches_pcieTaps : State.reset.reaches secureCore ∧
    State.reset.host.barForbidden secureCore true pcieTaps 4 = false := by decide

theorem exec_write_pcieTaps (v : BitVec 64) : exec (.registerWrite secureCore 0 false 4 pcieTaps v) State.reset =
    .next (State.reset.held { State.reset with host := State.reset.host.answer .none }) := by
  obtain ⟨⟨hrun, hopen⟩, hmpu⟩ := reset_reaches_pcieTaps
  show execRegisterWrite secureCore 0 false 4 pcieTaps v State.reset = _
  unfold execRegisterWrite
  rw [if_neg (by decide), if_neg (by simp [hmpu]), if_pos (by decide), writeBar0_pcieTaps]
  exact regCmd_open _ _ _ hrun hopen

/-- Refutes O32: whatever is written to the taps of a PCIe lane, they keep what they hold. -/
theorem not_registerWritesFollowAccessCodes : ¬ Obligations.RegisterWritesFollowAccessCodes := by
  intro h
  obtain ⟨hreach, hmpu⟩ := reset_reaches_pcieTaps
  have pre (v : BitVec 64) :
      State.reset.host.get (regFld pcieTaps ⟨0, 4, 0, .rw, []⟩) = bits (v.toNat % 2 ^ 32) 0 4 := by
    obtain ⟨t, ht, -, -, hfields, -⟩ := (h State.reset secureCore 0 pcieTaps 4 v hreach).1 hmpu (by decide) (by decide)
    rw [exec_write_pcieTaps] at ht
    cases ht
    simpa using (hfields _ pre_mem_regFields_pcieTaps _ rfl).1 (.inl rfl)
  have h01 : bits ((0 : BitVec 64).toNat % 2 ^ 32) 0 4 = bits ((1 : BitVec 64).toNat % 2 ^ 32) 0 4 :=
    (pre 0).symm.trans (pre 1)
  revert h01
  decide

end Sys2Proof.Machine
end

section
/-! An address without a register that a read still refuses: the place of MBX.ACKQ of a channel that the host only
receives on (11_crossing.md R249, R256). -/

namespace Sys2Proof.Machine

open Sys2Proof

/-- Where MBX.ACKQ of XM8 would lie: the host end of a channel that the field side sends on has none. -/
def absentAckq : Nat := 0x410848

/-- A non-secure, privileged control core. -/
def nonSecureCore : Requester := ⟨.hcc 1, true, false⟩

theorem noRegister_absentAckq : noRegister absentAckq = true := by decide +kernel

theorem reset_reaches_absentAckq : State.reset.reaches nonSecureCore ∧
    ∀ write, State.reset.host.barForbidden nonSecureCore write absentAckq 4 = false := by decide

theorem exec_read_absentAckq : exec (.pairLowRead nonSecureCore ⟨0, 4, absentAckq⟩) State.reset =
    .next (State.reset.held { State.reset with host := State.reset.host.secViol nonSecureCore true }) := by
  obtain ⟨⟨hrun, hopen⟩, hmpu⟩ := reset_reaches_absentAckq
  show readBar0 nonSecureCore ⟨0, 4, absentAckq⟩ [] State.reset = _
  have hread : readBar0 nonSecureCore ⟨0, 4, absentAckq⟩ [] State.reset = execAckqRead nonSecureCore 8 State.reset := by
    unfold readBar0
    rw [if_neg (by simp [hmpu]), if_neg (by decide), if_neg (by decide), if_neg (by decide), if_neg (by decide)]
    rfl
  rw [hread]
  exact readCmd_open _ _ _ hrun hopen

/-- Refutes O33: a non-secure read at the place of the absent MBX.ACKQ of XM8 ends with a bus error. -/
theorem not_addressesWithoutRegistersReadZero : ¬ Obligations.AddressesWithoutRegistersReadZero := by
  intro h
  obtain ⟨hreach, hmpu⟩ := reset_reaches_absentAckq
  obtain ⟨-, ⟨t, ht, -, hresp, -⟩, -⟩ :=
    h State.reset nonSecureCore 0 absentAckq 0 [] hreach (by decide) noRegister_absentAckq hmpu
  rw [exec_read_absentAckq] at ht
  cases ht
  have hbus : (State.reset.host.secViol nonSecureCore true).resp = .busError := rfl
  cases hbus.symm.trans hresp

end Sys2Proof.Machine
end

section
/-! Laws of the plain register accesses (00_scope.md R5 to R11): what a guarded access leaves of the module, what a fold
over a register's fields does, what a read of a word does, and what a forbidden access leaves. -/

namespace Sys2Proof.Machine

open Sys2Proof

/-! ## A host effect that reaches its register -/

/-- Both memories stand as before. -/
def HostSide.SameMemory (g h : HostSide) : Prop := g.store = h.store ∧ g.tartan = h.tartan

/-- A command that answers a host effect completes, and touches neither the field side nor the physical module; the two
memories stand as before where the effect leaves them. -/
theorem Completes.ofHost {c : Instr} {s : State} {P : State → Prop} {g : HostSide}
    (hc : exec c s = .next (s.held { s with host := g })) (hmem : g.SameMemory s.host)
    (hP : MemKept s (s.held { s with host := g }) → OnlyHost s (s.held { s with host := g }) →
      P (s.held { s with host := g })) : Completes c s P :=
  ⟨_, hc, rfl, hP ⟨fun a => congrArg (·.byte a) hmem.1, congrArg (·.sram) hmem.2⟩ ⟨rfl, rfl⟩⟩

theorem regCmd_reaches {s : State} {who : Requester} (hr : s.reaches who) (f : HostSide → HostSide) :
    regCmd s who f = .next (s.held { s with host := f s.host }) := regCmd_open s who f hr.1 hr.2

theorem readCmd_reaches {s : State} {who : Requester} (hr : s.reaches who) (f : HostSide → HostSide) :
    readCmd s who f = .next (s.held { s with host := f s.host }) := readCmd_open s who f hr.1 hr.2

/-- An endpoint that BAR0 is open to is out of reset (18_module_electrical.md R417, R424). -/
theorem HostSide.answers_of_barOpen {h : HostSide} {who : Requester} (ho : h.barOpen who = true) :
    h.pcieUp = true ∨ who.src ≠ .pcie := by
  unfold HostSide.barOpen at ho
  cases hs : who.src with
  | pcie =>
    rw [hs] at ho
    simp only [Bool.and_eq_true] at ho
    exact .inl ho.1.1
  | hcc k => exact .inr nofun

/-- A read that the endpoint or a control core makes of what BAR0 answers in every state. -/
theorem hostCmd_reaches {s : State} {who : Requester} (hr : s.reaches who) (f : HostSide → HostSide) :
    hostCmd s (fun h => if h.pcieUp = true ∨ who.src ≠ .pcie then f h else h) =
      .next (s.held { s with host := f s.host }) := by
  rw [hostCmd_run s _ hr.1, if_pos (HostSide.answers_of_barOpen hr.2)]

/-! ## Folds over a register's fields -/

/-- No field of a register begins where another does. -/
theorem regFields_nodup (off : Nat) : ((regFields off).map (·.lo)).Nodup := by
  have hall : Reg.all.all (fun r => decide (r.fields.map (·.lo)).Nodup) = true := by decide +kernel
  unfold regFields
  split
  · next r hr => simpa using List.all_eq_true.1 hall r (List.mem_of_find?_eq_some hr)
  · exact List.nodup_nil

theorem regFld_key_ne {off : Nat} {d e : FieldDesc} (h : d.lo ≠ e.lo) : (regFld off d).key ≠ (regFld off e).key :=
  fun hk => h (Nat.add_left_cancel hk)

section
variable {g : HostSide → FieldDesc → HostSide} {off : Nat}
  (hne : ∀ h d f, Fld.key f ≠ (regFld off d).key → (g h d).get f = h.get f)
include hne

/-- A fold that touches one field at a time leaves every other field alone. -/
theorem get_foldl_fields_ne {l : List FieldDesc} (h : HostSide) {f : Fld} (hf : ∀ d ∈ l, f.key ≠ (regFld off d).key) :
    (l.foldl g h).get f = h.get f := by
  induction l generalizing h with
  | nil => rfl
  | cons d l ih =>
    rw [List.foldl_cons, ih (g h d) fun e he => hf e (List.mem_cons_of_mem d he), hne h d f (hf d List.mem_cons_self)]

/-- A fold that sets each field by its own value gives each field what it alone gives it. -/
theorem get_foldl_fields_mem {val : FieldDesc → Nat → Nat}
    (hval : ∀ h d, (g h d).get (regFld off d) = val d (h.get (regFld off d))) {l : List FieldDesc}
    (hl : (l.map (·.lo)).Nodup) (h : HostSide) {d : FieldDesc} (hd : d ∈ l) :
    (l.foldl g h).get (regFld off d) = val d (h.get (regFld off d)) := by
  induction l generalizing h with
  | nil => cases hd
  | cons e l ih =>
    obtain ⟨he, hl⟩ := List.nodup_cons.1 hl
    have hlo {x : FieldDesc} (hx : x ∈ l) : x.lo ≠ e.lo :=
      fun h => he (List.mem_map.2 ⟨x, hx, h⟩)
    rw [List.foldl_cons]
    rcases List.mem_cons.1 hd with rfl | hd
    · rw [get_foldl_fields_ne hne _ fun x hx => regFld_key_ne (hlo hx).symm, hval]
    · rw [ih hl _ hd, hne h e _ (regFld_key_ne (hlo hd))]
end

/-! ## Reads of a word -/

/-- What a read leaves in an RC field (R10, R11). -/
def rcLeft (off : Nat) (events : List Nat) (d : FieldDesc) (old : Nat) : Nat :=
  if d.acc = .rc then if off = 0x14 ∨ off = 0x38000c then 0 else min (countOf events d.lo) (2 ^ d.w - 1) else old

theorem HostSide.get_clearRc_ne (h : HostSide) (off : Nat) (events : List Nat) (d : FieldDesc) (f : Fld)
    (hf : f.key ≠ (regFld off d).key) : (h.clearRc off events d).get f = h.get f := by
  unfold HostSide.clearRc
  split
  · exact h.get_put_ne _ hf
  · rfl

theorem HostSide.get_clearRc_self (h : HostSide) (off : Nat) (events : List Nat) (d : FieldDesc) :
    (h.clearRc off events d).get (regFld off d) = rcLeft off events d (h.get (regFld off d)) := by
  unfold HostSide.clearRc rcLeft
  split
  · next hd =>
    have hlt (n : Nat) : min n (2 ^ d.w - 1) % 2 ^ d.w = min n (2 ^ d.w - 1) :=
      Nat.mod_eq_of_lt (Nat.lt_of_le_of_lt (Nat.min_le_right _ _) (Nat.sub_one_lt (Nat.two_pow_pos d.w).ne'))
    rw [if_pos hd]
    refine (HostSide.get_put_self ..).trans ((hlt _).trans ?_)
    split
    · exact Nat.zero_min _
    · rfl
  · next hd => rw [if_neg hd]

/-- A read changes register fields, the latches and the answer only. -/
theorem HostSide.clearRc_rest (h : HostSide) (off : Nat) (events : List Nat) (d : FieldDesc) :
    ((h.clearRc off events d).store, (h.clearRc off events d).tartan, (h.clearRc off events d).latch) =
      (h.store, h.tartan, h.latch) := by
  unfold HostSide.clearRc
  split <;> rfl

theorem HostSide.readWord_rest (h : HostSide) (off : Nat) (events : List Nat) :
    ((h.readWord off events).store, (h.readWord off events).tartan, (h.readWord off events).latch) =
      (h.store, h.tartan, (h.latchPair off).latch) := by
  have hlatch : ((h.latchPair off).store, (h.latchPair off).tartan) = (h.store, h.tartan) := by
    unfold HostSide.latchPair
    split <;> rfl
  obtain ⟨hs, ht⟩ := Prod.mk.inj hlatch
  rw [← hs, ← ht]
  exact foldl_keeps (fun h : HostSide => (h.store, h.tartan, h.latch)) _ (fun g d => g.clearRc_rest off events d) _ _

theorem HostSide.readWord_sameMemory (h : HostSide) (off : Nat) (events : List Nat) :
    (h.readWord off events).SameMemory h :=
  ⟨congrArg (·.1) (h.readWord_rest off events), congrArg (·.2.1) (h.readWord_rest off events)⟩

theorem HostSide.readWord_latch (h : HostSide) (off : Nat) (events : List Nat) :
    (h.readWord off events).latch = (h.latchPair off).latch := congrArg (·.2.2) (h.readWord_rest off events)

theorem HostSide.get_latchPair (h : HostSide) (off : Nat) (f : Fld) : (h.latchPair off).get f = h.get f := by
  unfold HostSide.latchPair
  split <;> rfl

theorem HostSide.get_readWord_ne (h : HostSide) (off : Nat) (events : List Nat) {f : Fld}
    (hf : ∀ d ∈ regFields off, f.key ≠ (regFld off d).key) : (h.readWord off events).get f = h.get f := by
  rw [← h.get_latchPair off f]
  exact get_foldl_fields_ne (fun h d f => h.get_clearRc_ne off events d f) _ hf

theorem HostSide.get_readWord_mem (h : HostSide) (off : Nat) (events : List Nat) {d : FieldDesc}
    (hd : d ∈ regFields off) :
    (h.readWord off events).get (regFld off d) = rcLeft off events d (h.get (regFld off d)) := by
  rw [← h.get_latchPair off]
  exact get_foldl_fields_mem (fun h d f => h.get_clearRc_ne off events d f)
    (fun h d => h.get_clearRc_self off events d) (regFields_nodup off) _ hd

/-- A read of a word without RC fields changes no field. -/
theorem HostSide.get_readWord_of_no_rc (h : HostSide) (off : Nat) (events : List Nat)
    (hrc : ∀ d ∈ regFields off, d.acc ≠ .rc) (f : Fld) : (h.readWord off events).get f = h.get f := by
  have hid (l : List FieldDesc) (hl : ∀ d ∈ l, d.acc ≠ .rc) (g : HostSide) :
      l.foldl (fun g d => g.clearRc off events d) g = g := by
    induction l generalizing g with
    | nil => rfl
    | cons d l ih =>
      have hd : g.clearRc off events d = g := by
        unfold HostSide.clearRc
        split
        · next h => exact absurd h (hl d List.mem_cons_self)
        · rfl
      rw [List.foldl_cons, hd, ih fun e he => hl e (List.mem_cons_of_mem d he)]
  rw [← h.get_latchPair off f]
  exact congrArg (·.get f) (hid _ hrc (h.latchPair off))

/-! ## Accesses that the MPU forbids -/

theorem HostSide.interruptIf_frame (h : HostSide) (en vec : Fld) :
    ((h.interruptIf en vec).regs, (h.interruptIf en vec).store, (h.interruptIf en vec).tartan) =
      (h.regs, h.store, h.tartan) := by
  unfold HostSide.interruptIf HostSide.interrupt
  split
  · dsimp only
    split <;> rfl
  · rfl

theorem HostSide.get_interruptIf (h : HostSide) (en vec f : Fld) : (h.interruptIf en vec).get f = h.get f :=
  congrArg (fun x : Table Nat × Store × Tartan => tget f.rst x.1 f.key) (h.interruptIf_frame en vec)

@[simp] theorem HostSide.interruptIf_store (h : HostSide) (en vec : Fld) : (h.interruptIf en vec).store = h.store :=
  congrArg (·.2.1) (h.interruptIf_frame en vec)

@[simp] theorem HostSide.interruptIf_tartan (h : HostSide) (en vec : Fld) : (h.interruptIf en vec).tartan = h.tartan :=
  congrArg (·.2.2) (h.interruptIf_frame en vec)

section
variable (h : HostSide) (port : Nat) (priv secure write : Bool) (ta len : Nat)

theorem HostSide.mpuFault_sameMemory : (h.mpuFault port priv secure write ta len).SameMemory h := by
  unfold HostSide.mpuFault HostSide.SameMemory
  dsimp only
  split <;> simp

/-- A fault is counted. -/
theorem HostSide.mpuFault_count : (h.mpuFault port priv secure write ta len).get Reg.MPU_FAULT_COUNT_COUNT =
    satAdd (h.get Reg.MPU_FAULT_COUNT_COUNT) 1 Reg.MPU_FAULT_COUNT_COUNT.w := by
  rw [← h.get_bump_self Reg.MPU_FAULT_COUNT_COUNT 1]
  unfold HostSide.mpuFault HostSide.putB
  dsimp only
  split
  · rfl
  · rw [HostSide.get_interruptIf]
    simp (disch := decide) only [HostSide.get_put_ne]

/-- A fault is shown. -/
theorem HostSide.mpuFault_valid : (h.mpuFault port priv secure write ta len).get Reg.MPU_FAULT_VALID = 1 := by
  unfold HostSide.mpuFault
  dsimp only
  split
  · next hv => simpa [HostSide.flag] using hv
  · rw [HostSide.get_interruptIf, HostSide.get_put_self]
    rfl
end

end Sys2Proof.Machine
end

section
/-! Reads of a word of BAR0 (00_scope.md R5, R6, R10, R11): which words have no rule of their own, what the words of the
pairs are, and what a read completes with. -/

namespace Sys2Proof.Machine

open Sys2Proof

/-! ## Words that are read under no rule of their own -/

/-- An aligned word other than CMP.REL_DONE, MPU.SYNC, MBX.ACKQ and TRT.LK. -/
def readsPlainly (off : Nat) : Prop :=
  off % 4 = 0 ∧ off ≠ 0x200018 ∧ off ≠ 0x20000 ∧ ackqAt off = none ∧ instOf off 0x11000 4 256 = none


/-- What a read of a plain word leaves of the host side. -/
def HostSide.readPlain (h : HostSide) (who : Requester) (off : Nat) (events : List Nat) : HostSide :=
  if secureRead off && !who.isSecure then h.secViol who true else h.readWord off events

theorem readBar0_plain {s : State} {who : Requester} {off : Nat} (core : Fin 8) (events : List Nat) (hr : s.reaches who)
    (hmpu : s.host.barForbidden who false off 4 = false) (hoff : readsPlainly off) :
    readBar0 who ⟨core, 4, off⟩ events s =
      .next (s.held { s with host := s.host.readPlain who off events }) := by
  obtain ⟨halign, hrel, hsync, hackq, hlock⟩ := hoff
  unfold readBar0
  dsimp only
  rw [if_neg (by simp [hmpu]), if_neg (by simp [halign])]
  split
  · next hlow =>
    have hopen : secureRead off = false := by rcases hlow with rfl | rfl <;> decide +kernel
    rw [hostCmd_reaches hr, HostSide.readPlain, hopen]
    rfl
  · rw [hackq, hlock]
    exact readCmd_reaches hr _

/-! ## The words of the pairs -/

/-- A plain word that every context reads, without RC fields. -/
def openWord (off : Nat) : Prop :=
  readsPlainly off ∧ secureRead off = false ∧ ∀ d ∈ regFields off, d.acc ≠ .rc

theorem instOf_isSome {off base stride n : Nat} (h : (instOf off base stride n).isSome = true) :
    ∃ i < n, off = base + i * stride := by
  unfold instOf at h
  split at h
  · next hi =>
    obtain ⟨hbase, hmod, hlt⟩ := hi
    refine ⟨_, hlt, ?_⟩
    have hdiv := Nat.div_add_mod' (off - base) stride
    omega
  · cases h

/-- Some field of the register is cleared by a read. -/
def RegDesc.clears (r : RegDesc) : Bool := r.fields.any (·.acc == .rc)

theorem acc_ne_rc_of_mem {off : Nat} (h : ∀ r ∈ Reg.all, r.clears = true → r.holds off = false) {d : FieldDesc}
    (hd : d ∈ regFields off) : d.acc ≠ .rc := by
  intro hrc
  unfold regFields at hd
  split at hd
  · next r hr =>
    have hclears : r.clears = true := List.any_eq_true.2 ⟨d, hd, by simp [hrc]⟩
    exact absurd (List.find?_some hr) (by simp [h r (List.mem_of_find?_eq_some hr) hclears])
  · cases hd

/-- A register group lies between its first word and the stride after its last. -/
theorem RegDesc.span_of_holds {r : RegDesc} {off : Nat} (hn : r.n2 = 1) (h : r.holds off = true) :
    r.off ≤ off ∧ off ≤ r.off + r.n * r.s := by
  unfold RegDesc.holds at h
  split at h
  · cases h
  · next hlow =>
    dsimp only at h
    split at h
    · next hs =>
      have hoff := eq_of_beq h
      omega
    · next hs =>
      obtain ⟨-, hlt⟩ := Bool.and_eq_true_iff.1 h
      have hspan := Nat.lt_mul_of_div_lt (of_decide_eq_true hlt) (Nat.pos_of_ne_zero hs)
      omega

theorem RegDesc.not_holds_of_outside {r : RegDesc} {off : Nat} (hn : r.n2 = 1)
    (h : off < r.off ∨ r.off + r.n * r.s < off) : r.holds off = false := by
  refine Bool.eq_false_iff.2 fun hh => ?_
  have hspan := RegDesc.span_of_holds hn hh
  omega

/-- A register group lies apart from a group of pairs, or holds none of its words. -/
def RegDesc.apartFrom (r : RegDesc) (p : Nat × Nat × Nat) : Bool :=
  Nat.blt (p.1 + p.2.2 * p.2.1 + 4) r.off || Nat.blt (r.off + r.n * r.s) p.1 ||
    (List.range p.2.2).all (fun i => !r.holds (p.1 + i * p.2.1) && !r.holds (p.1 + i * p.2.1 + 4))

theorem RegDesc.not_holds_of_apartFrom {r : RegDesc} {p : Nat × Nat × Nat} (hn : r.n2 = 1) (h : r.apartFrom p = true)
    {i : Nat} (hi : i < p.2.2) :
    r.holds (p.1 + i * p.2.1) = false ∧ r.holds (p.1 + i * p.2.1 + 4) = false := by
  have hspan := Nat.mul_le_mul_right p.2.1 (Nat.le_of_lt hi)
  simp only [RegDesc.apartFrom, Bool.or_eq_true, Nat.blt_eq, List.all_eq_true, List.mem_range, Bool.and_eq_true,
    Bool.not_eq_true'] at h
  rcases h with (hbelow | habove) | hwords
  · exact ⟨RegDesc.not_holds_of_outside hn (.inl (by omega)), RegDesc.not_holds_of_outside hn (.inl (by omega))⟩
  · exact ⟨RegDesc.not_holds_of_outside hn (.inr (by omega)), RegDesc.not_holds_of_outside hn (.inr (by omega))⟩
  · exact hwords i hi

theorem pairLows_apartFrom : Reg.all.all (fun r => !r.clears || (r.n2 == 1 && pairLows.all r.apartFrom)) = true := by
  decide +kernel

/-- No register with an RC field holds a word of a pair. -/
theorem pairLows_no_rc {r : RegDesc} (hr : r ∈ Reg.all) (hc : r.clears = true) {p : Nat × Nat × Nat} (hp : p ∈ pairLows)
    {i : Nat} (hi : i < p.2.2) :
    r.holds (p.1 + i * p.2.1) = false ∧ r.holds (p.1 + i * p.2.1 + 4) = false := by
  have hall := List.all_eq_true.1 pairLows_apartFrom r hr
  rw [hc, Bool.not_true, Bool.false_or, Bool.and_eq_true, beq_iff_eq, List.all_eq_true] at hall
  obtain ⟨hn, happart⟩ := hall
  exact RegDesc.not_holds_of_apartFrom hn (happart p hp) hi

/-- Both words of a pair are read plainly, by every context. -/
theorem pairLows_plain : ∀ p ∈ pairLows, ∀ i < p.2.2,
    (readsPlainly (p.1 + i * p.2.1) ∧ secureRead (p.1 + i * p.2.1) = false) ∧
      readsPlainly (p.1 + i * p.2.1 + 4) ∧ secureRead (p.1 + i * p.2.1 + 4) = false := by
  unfold readsPlainly
  decide +kernel

/-- The lower words are aligned to 8 bytes, but for those of two pairs. -/
theorem pairLows_mod : ∀ p ∈ pairLows, p.2.2 = 1 ∧ (p.1 = 0x40034 ∨ p.1 = 0x200034) ∨
    p.1 % 8 = 0 ∧ (p.2.2 = 1 ∨ p.2.1 % 8 = 0) := by
  decide

theorem mod_of_isPairLow {off : Nat} (h : isPairLow off = true) : off % 8 = 0 ∨ off = 0x40034 ∨ off = 0x200034 := by
  obtain ⟨p, hp, hsome⟩ := List.any_eq_true.1 h
  obtain ⟨i, hi, rfl⟩ := instOf_isSome hsome
  rcases pairLows_mod p hp with ⟨hone, hbase⟩ | ⟨hbase, hone | hstride⟩
  · obtain rfl : i = 0 := by omega
    omega
  · obtain rfl : i = 0 := by omega
    omega
  · have hoff : i * p.2.1 % 8 = 0 := by rw [Nat.mul_mod, hstride, Nat.mul_zero, Nat.zero_mod]
    omega

/-- No pair begins at another's upper word. -/
theorem not_isPairLow_high {off : Nat} (h : isPairLow off = true) : isPairLow (off + 4) = false := by
  refine Bool.eq_false_iff.2 fun hhigh => ?_
  have hlow := mod_of_isPairLow h
  rcases mod_of_isPairLow hhigh with hmod | hoff | hoff
  · rcases hlow with hlow | rfl | rfl
    · omega
    · exact absurd hhigh (by decide)
    · exact absurd hhigh (by decide)
  · obtain rfl : off = 0x40030 := by omega
    exact absurd h (by decide)
  · obtain rfl : off = 0x200030 := by omega
    exact absurd h (by decide)

theorem words_of_isPairLow {off : Nat} (h : isPairLow off = true) : openWord off ∧ openWord (off + 4) := by
  obtain ⟨p, hp, hsome⟩ := List.any_eq_true.1 h
  obtain ⟨i, hi, rfl⟩ := instOf_isSome hsome
  obtain ⟨⟨hlow, hlowOpen⟩, hhigh, hhighOpen⟩ := pairLows_plain p hp i hi
  exact ⟨⟨hlow, hlowOpen, fun _ => acc_ne_rc_of_mem fun r hr hc => (pairLows_no_rc hr hc hp hi).1⟩,
    hhigh, hhighOpen, fun _ => acc_ne_rc_of_mem fun r hr hc => (pairLows_no_rc hr hc hp hi).2⟩

theorem HostSide.readValue_low {off : Nat} (h : HostSide) (hoff : isPairLow off = true) :
    h.readValue off = h.readReg off := by
  refine if_neg fun ⟨h4, hbefore⟩ => ?_
  have hhigh := not_isPairLow_high hbefore
  rw [Nat.sub_add_cancel h4, hoff] at hhigh
  cases hhigh

theorem HostSide.readValue_high {off : Nat} (h : HostSide) (hoff : isPairLow off = true) :
    h.readValue (off + 4) = tget (latchRst off) h.latch off :=
  if_pos ⟨Nat.le_add_left 4 off, hoff⟩

theorem HostSide.latchPair_low {off : Nat} (h : HostSide) (hoff : isPairLow off = true) :
    tget (latchRst off) (h.latchPair off).latch off = h.readReg (off + 4) := by
  unfold HostSide.latchPair
  rw [if_pos hoff]
  exact tget_tput_self ..

theorem HostSide.latchPair_other {off : Nat} (h : HostSide) (hoff : isPairLow off = false) :
    h.latchPair off = h := if_neg (by simp [hoff])

/-- A read of a word of a pair answers it, latches the upper word where it is the lower one, and changes no field. -/
theorem completes_read_pair {s : State} {who : Requester} {off : Nat} (core : Fin 8) (hr : s.reaches who)
    (hmpu : s.host.barForbidden who false off 4 = false) (hoff : openWord off) :
    Completes (.pairLowRead who ⟨core, 4, off⟩) s (fun t => t.host.resp = .data (s.host.readValue off) ∧
      t.host.latch = (s.host.latchPair off).latch ∧ RegsKept [] s t ∧ MemKept s t ∧ OnlyHost s t) := by
  obtain ⟨hplain, hopen, hrc⟩ := hoff
  have hword : s.host.readPlain who off [] = s.host.readWord off [] := if_neg (by simp [hopen])
  refine .ofHost (readBar0_plain core [] hr hmpu hplain) (hword ▸ s.host.readWord_sameMemory off []) fun hm ho => ?_
  rw [hword] at hm ho ⊢
  exact ⟨rfl, s.host.readWord_latch off [], fun f _ => s.host.get_readWord_of_no_rc off [] hrc f, hm, ho⟩

/-! ## Reads that clear counters -/

theorem rcLeft_nil (off : Nat) (d : FieldDesc) (old : Nat) : rcLeft off [] d old = if d.acc = .rc then 0 else old := by
  have hz : min (countOf [] d.lo) (2 ^ d.w - 1) = 0 := Nat.zero_min _
  unfold rcLeft
  rw [hz, ite_self]

/-- The rule of a read of a word that the requester may read, at either command. -/
theorem completes_read_word {c : Instr} {s : State} {who : Requester} {off : Nat} {core : Fin 8} {events : List Nat}
    (hc : exec c s = readBar0 who ⟨core, 4, off⟩ events s) (hr : s.reaches who)
    (hmpu : s.host.barForbidden who false off 4 = false) (hoff : readsPlainly off)
    (hsec : secureRead off = true → who.isSecure = true) :
    Completes c s (fun t => t.host.resp = .data (s.host.readValue off) ∧
      (∀ d ∈ regFields off, t.host.get (regFld off d) = rcLeft off events d (s.host.get (regFld off d))) ∧
      RegsKept ((regFields off).map (regFld off)) s t ∧ MemKept s t ∧ OnlyHost s t) := by
  have hword : s.host.readPlain who off events = s.host.readWord off events := if_neg (by simpa using hsec)
  refine .ofHost (hc.trans (readBar0_plain core events hr hmpu hoff)) (hword ▸ s.host.readWord_sameMemory off events)
    fun hm ho => ?_
  rw [hword] at hm ho ⊢
  exact ⟨rfl, fun d hd => s.host.get_readWord_mem off events hd,
    fun f hf => s.host.get_readWord_ne off events fun d hd => hf _ (List.mem_map_of_mem hd), hm, ho⟩

/-! ## Reads that are refused -/

/-- The answer to a read without effect (R5, R249). -/
def refusedRead (who : Requester) : Resp := if who.src = .pcie then .unsupportedRequest else .busError

/-- The answer to a read that the MPU forbids (R329). -/
def forbiddenRead (port : Nat) : Resp :=
  if port = 34 then .completerAbort else if port ≤ 36 then .busError else .errorResponse

theorem HostSide.refuseRead_eq (h : HostSide) (who : Requester) : h.refuseRead who = h.answer (refusedRead who) := by
  unfold HostSide.refuseRead refusedRead
  cases who.src <;> rfl

theorem HostSide.secViol_read (h : HostSide) (who : Requester) :
    h.secViol who true = (h.bump Reg.MBX_SEC_VIOL_COUNT).answer (refusedRead who) := by
  unfold HostSide.secViol refusedRead
  cases who.src <;> rfl

theorem HostSide.refuseAccess_read (h : HostSide) (who : Requester) :
    h.refuseAccess who.port false = h.answer (forbiddenRead who.port) := by
  unfold HostSide.refuseAccess forbiddenRead Requester.port
  cases who.src with
  | pcie => rfl
  | hcc k =>
    dsimp only
    split
    · next hk => rw [if_neg (by omega), if_pos (by omega)]
    · next hk => rw [if_neg (by omega), if_neg (by omega), if_neg (by omega)]

/-- A non-secure read of a secure channel's register or doorbell word is refused and counted (R249). -/
theorem completes_read_secure {c : Instr} {s : State} {who : Requester} {off : Nat} {core : Fin 8} {events : List Nat}
    (hc : exec c s = readBar0 who ⟨core, 4, off⟩ events s) (hr : s.reaches who)
    (hmpu : s.host.barForbidden who false off 4 = false) (hoff : readsPlainly off) (hsec : secureRead off = true)
    (hwho : who.isSecure = false) :
    Completes c s (fun t => t.host.resp = refusedRead who ∧
      t.host.get Reg.MBX_SEC_VIOL_COUNT = satAdd (s.host.get Reg.MBX_SEC_VIOL_COUNT) 1 Reg.MBX_SEC_VIOL_COUNT.w ∧
      RegsKept [Reg.MBX_SEC_VIOL_COUNT] s t ∧ MemKept s t ∧ OnlyHost s t) := by
  have hviol : s.host.readPlain who off events = (s.host.bump Reg.MBX_SEC_VIOL_COUNT).answer (refusedRead who) :=
    (if_pos (by simp [hsec, hwho])).trans (s.host.secViol_read who)
  refine .ofHost (hc.trans (readBar0_plain core events hr hmpu hoff)) (hviol ▸ ⟨rfl, rfl⟩) fun hm ho => ?_
  rw [hviol] at hm ho ⊢
  exact ⟨rfl, s.host.get_bump_self Reg.MBX_SEC_VIOL_COUNT 1,
    fun f hf => s.host.get_bump_ne 1 (hf _ List.mem_cons_self), hm, ho⟩

/-- A read of another size or alignment has no effect (R5). -/
theorem completes_read_unaligned {c : Instr} {s : State} {who : Requester} {off size : Nat} {core : Fin 8}
    {events : List Nat} (hc : exec c s = readBar0 who ⟨core, size, off⟩ events s) (hr : s.reaches who)
    (hmpu : s.host.barForbidden who false off size = false) (hoff : size ≠ 4 ∨ off % 4 ≠ 0) :
    Completes c s (fun t => t.host.resp = refusedRead who ∧ RegsKept [] s t ∧ MemKept s t ∧ OnlyHost s t) := by
  have hread : exec c s = .next (s.held { s with host := s.host.refuseRead who }) := by
    rw [hc]
    unfold readBar0
    dsimp only
    rw [if_neg (by simp [hmpu]), if_pos hoff]
    exact hostCmd_reaches hr (·.refuseRead who)
  rw [s.host.refuseRead_eq who] at hread
  exact .ofHost hread ⟨rfl, rfl⟩ fun hm ho => ⟨rfl, fun _ _ => rfl, hm, ho⟩

/-- A read that the MPU forbids is counted as a fault (R328, R329). -/
theorem completes_read_forbidden {c : Instr} {s : State} {who : Requester} {off size : Nat} {core : Fin 8}
    {events : List Nat} (hc : exec c s = readBar0 who ⟨core, size, off⟩ events s) (hr : s.reaches who)
    (hmpu : s.host.barForbidden who false off size = true) :
    Completes c s (fun t => t.host.resp = forbiddenRead who.port ∧
      t.host.get Reg.MPU_FAULT_COUNT_COUNT =
        satAdd (s.host.get Reg.MPU_FAULT_COUNT_COUNT) 1 Reg.MPU_FAULT_COUNT_COUNT.w ∧
      t.host.get Reg.MPU_FAULT_VALID = 1 ∧ MemKept s t ∧ OnlyHost s t) := by
  have hread : exec c s = .next (s.held { s with host := s.host.barFault who false off size }) := by
    rw [hc]
    unfold readBar0
    dsimp only
    rw [if_pos hmpu]
    exact hostCmd_reaches hr (·.barFault who false off size)
  unfold HostSide.barFault at hread
  rw [HostSide.refuseAccess_read] at hread
  exact .ofHost hread (s.host.mpuFault_sameMemory ..) fun hm ho =>
    ⟨rfl, s.host.mpuFault_count .., s.host.mpuFault_valid .., hm, ho⟩

/-- The words that only secure contexts read lie in the mailbox block. -/
theorem secureRead_mbx {off : Nat} (h : secureRead off = true) : 0x410000 ≤ off := by
  unfold secureRead at h
  simp only [Bool.or_eq_true, Bool.and_eq_true, decide_eq_true_eq, beq_iff_eq] at h
  omega

theorem readsPlainly_of_secureRead {off : Nat} (halign : off % 4 = 0) (hackq : ackqAt off = none)
    (h : secureRead off = true) : readsPlainly off := by
  have hlow := secureRead_mbx h
  refine ⟨halign, by omega, by omega, hackq, if_neg ?_⟩
  omega

/-- Settles O34: reads of plain words by the rule of `readWord`, refused ones by the rule of their refusal. -/
theorem pairsLatchAndCountersClear : Obligations.PairsLatchAndCountersClear := by
  intro s who core off size events hr
  refine ⟨fun hmpu hpair => ?_, fun hmpu hpair => ?_, fun hmpu halign _ hrel hsync hackq hlock hsec => ?_,
    fun hmpu halign hackq hsec hwho => ?_, fun hmpu hoff => ?_, fun hmpu => ?_⟩
  · have h := completes_read_pair core hr hmpu (words_of_isPairLow hpair).1
    rw [s.host.readValue_low hpair] at h
    obtain ⟨t, ht, hp, hresp, hlatch, hrest⟩ := h
    exact ⟨t, ht, hp, hresp, hlatch ▸ s.host.latchPair_low hpair, hrest⟩
  · have h := completes_read_pair core hr hmpu (words_of_isPairLow hpair).2
    rwa [s.host.readValue_high hpair, s.host.latchPair_other (not_isPairLow_high hpair)] at h
  · have hoff : readsPlainly off := ⟨halign, hrel, hsync, hackq, hlock⟩
    refine ⟨completes_read_word rfl hr hmpu hoff hsec, ?_⟩
    have h := completes_read_word (c := .pairLowRead who ⟨core, 4, off⟩) (events := []) rfl hr hmpu hoff hsec
    simpa only [rcLeft_nil] using h
  · have hoff := readsPlainly_of_secureRead halign hackq hsec
    exact List.forall_mem_cons.2 ⟨completes_read_secure rfl hr hmpu hoff hsec hwho,
      List.forall_mem_singleton.2 (completes_read_secure rfl hr hmpu hoff hsec hwho)⟩
  · exact List.forall_mem_cons.2 ⟨completes_read_unaligned rfl hr hmpu hoff,
      List.forall_mem_singleton.2 (completes_read_unaligned rfl hr hmpu hoff)⟩
  · exact List.forall_mem_cons.2 ⟨completes_read_forbidden rfl hr hmpu,
      List.forall_mem_singleton.2 (completes_read_forbidden rfl hr hmpu)⟩

end Sys2Proof.Machine
end

section
/-! Register writes to a pending layer descriptor (06_composition.md R143) and to the MSI-X table at BAR4
(19_register_map.md R430). -/

namespace Sys2Proof.Machine

open Sys2Proof

/-! ## Writes that go through -/

theorem exec_registerWrite_open {s : State} {who : Requester} {off : Nat} (core : Fin 8) (v : BitVec 64)
    (hmpu : s.host.barForbidden who true off 4 = false) (halign : off % 4 = 0) :
    exec (.registerWrite who core false 4 off v) s = writeBar0 who core off (v.toNat % 2 ^ 32) s := by
  show execRegisterWrite who core false 4 off v s = _
  unfold execRegisterWrite
  rw [if_neg (by decide), if_neg (by simp [hmpu]), if_pos ⟨rfl, halign⟩]

/-! ## The words of a pending descriptor -/

/-- Where word `w` of layer `l` lies in BAR0. -/
def layerOff (l w : Nat) : Nat := 0x280000 + 0x80 * l + 4 * w

theorem layerOff_index {l w : Nat} (hw : w < 32) :
    (layerOff l w - 0x280000) / 0x80 = l ∧ (layerOff l w - 0x280000) % 0x80 / 4 = w := by
  unfold layerOff
  omega

theorem writeBar0_layer {l w : Nat} (hl : l < 1024) (hw : w < 32) (who : Requester) (core : Fin 8) (v : Nat) (s : State) :
    writeBar0 who core (layerOff l w) v s = plainWrite who s (·.writeLayerTable (layerOff l w) v) := by
  have hlow : 0x280000 ≤ layerOff l w := by unfold layerOff; omega
  have hhigh : layerOff l w < 0x300000 := by unfold layerOff; omega
  generalize layerOff l w = off at hlow hhigh
  unfold writeBar0
  rw [if_neg (by omega), if_neg (by omega), if_neg (by omega), if_neg (by omega), if_neg (by omega),
    if_neg (by omega), if_neg (by omega), if_neg (by omega), if_pos hhigh]
  unfold writeCmp
  split
  · exact absurd hlow (by decide)
  · exact absurd hlow (by decide)
  · exact absurd hlow (by decide)
  · exact absurd hlow (by decide)
  · exact if_pos hlow

theorem HostSide.writeLayerTable_pending {l w : Nat} (h : HostSide) (hl : l < 1024) (hw : w < 16) (v : Nat) :
    h.writeLayerTable (layerOff l w) v = h.put (Reg.layerWord l w) (layerMerge w (h.get (Reg.layerWord l w)) v) := by
  obtain ⟨hlayer, hword⟩ := layerOff_index (l := l) (Nat.lt_trans hw (by decide : 16 < 32))
  unfold HostSide.writeLayerTable
  rw [hlayer, hword]
  exact if_pos ⟨hl, hw⟩

/-- The active copies take no write. -/
theorem HostSide.writeLayerTable_active {l w : Nat} (h : HostSide) (hw : w < 32) (hactive : 16 ≤ w) (v : Nat) :
    h.writeLayerTable (layerOff l w) v = h := by
  obtain ⟨hlayer, hword⟩ := layerOff_index (l := l) hw
  unfold HostSide.writeLayerTable
  rw [hlayer, hword]
  exact if_neg fun hc => absurd hc.2 (Nat.not_lt.2 hactive)

/-! ## The value that a descriptor word takes -/

theorem bits_lt (v lo w : Nat) : bits v lo w < 2 ^ w := Nat.mod_lt _ (Nat.two_pow_pos w)

/-- Word 0 from the values of its fields. -/
def descFlags (a b c alpha csc x y : Nat) : Nat :=
  a + 2 * b + 4 * c + 8 * alpha + 32 * csc + 256 * x + 65536 * y

/-- A two-bit field after a write of word 0: a reserved code keeps the old one. -/
def codeLeft (old v lo : Nat) : Nat := if bits v lo 2 = 3 then bits old lo 2 else bits v lo 2

theorem codeLeft_lt (old v lo : Nat) : codeLeft old v lo < 4 := by
  unfold codeLeft
  split
  · exact bits_lt old lo 2
  · exact bits_lt v lo 2

theorem layerMerge_flags (old v : Nat) : layerMerge 0 old v =
    descFlags (bits v 0 1) (bits v 1 1) (bits v 2 1) (codeLeft old v 3) (codeLeft old v 5) (bits v 8 8) (bits v 16 10) := by
  simp [layerMerge, layerFields, descFlags, codeLeft]

theorem descFlags_bits {a b c alpha csc x y : Nat} (ha : a < 2) (hb : b < 2) (hc : c < 2) (halpha : alpha < 4)
    (hcsc : csc < 4) (hx : x < 256) (hy : y < 1024) :
    descFlags a b c alpha csc x y < 2 ^ 32 ∧ bits (descFlags a b c alpha csc x y) 0 1 = a ∧
      bits (descFlags a b c alpha csc x y) 1 1 = b ∧ bits (descFlags a b c alpha csc x y) 2 1 = c ∧
      bits (descFlags a b c alpha csc x y) 3 2 = alpha ∧ bits (descFlags a b c alpha csc x y) 5 2 = csc ∧
      bits (descFlags a b c alpha csc x y) 8 8 = x ∧ bits (descFlags a b c alpha csc x y) 16 10 = y := by
  unfold descFlags bits
  omega

/-- Word 0 after a write, field by field. -/
theorem layerMerge_flags_bits (old v : Nat) : layerMerge 0 old v < 2 ^ 32 ∧
    (∀ p ∈ [(0, 1), (1, 1), (2, 1), (8, 8), (16, 10)], bits (layerMerge 0 old v) p.1 p.2 = bits v p.1 p.2) ∧
    ∀ lo ∈ [3, 5], bits (layerMerge 0 old v) lo 2 = codeLeft old v lo := by
  rw [layerMerge_flags]
  obtain ⟨hlt, ha, hb, hc, halpha, hcsc, hx, hy⟩ := descFlags_bits (bits_lt v 0 1) (bits_lt v 1 1) (bits_lt v 2 1)
    (codeLeft_lt old v 3) (codeLeft_lt old v 5) (bits_lt v 8 8) (bits_lt v 16 10)
  simp only [List.forall_mem_cons, ha, hb, hc, halpha, hcsc, hx, hy, hlt, List.not_mem_nil, false_implies, implies_true,
    and_self]

theorem layerMerge_size (old v : Nat) : layerMerge 1 old v = v % 4096 := by
  simp [layerMerge, layerFields, bits]

theorem layerMerge_whole {w : Nat} (h2 : 2 ≤ w) (h6 : w ≤ 6) (old v : Nat) : layerMerge w old v = v % 2 ^ 32 := by
  have hf : layerFields w = [(0, 32)] := by interval_cases w <;> rfl
  simp [layerMerge, hf, bits]

theorem layerMerge_reserved {w : Nat} (h7 : 7 ≤ w) (old v : Nat) : layerMerge w old v = 0 := by
  obtain ⟨k, rfl⟩ := Nat.exists_eq_add_of_le' h7
  rfl

section
variable {s : State} {who : Requester} {l w : Nat} (core : Fin 8) (v : BitVec 64) (hr : s.reaches who)
  (hmpu : s.host.barForbidden who true (layerOff l w) 4 = false) (hl : l < 1024)
include hr hmpu hl

theorem exec_write_layer (hw : w < 32) : exec (.registerWrite who core false 4 (layerOff l w) v) s =
    .next (s.held { s with
      host := (s.host.answer .none).writeLayerTable (layerOff l w) (v.toNat % 2 ^ 32) }) := by
  have halign : layerOff l w % 4 = 0 := by unfold layerOff; omega
  rw [exec_registerWrite_open core v hmpu halign, writeBar0_layer hl hw]
  exact regCmd_reaches hr _

/-- A write of a pending word merges it, and changes no other field. -/
theorem completes_write_pending (hw : w < 16) :
    Completes (.registerWrite who core false 4 (layerOff l w) v) s (fun t =>
      t.host.get (Reg.layerWord l w) =
        layerMerge w (s.host.get (Reg.layerWord l w)) (v.toNat % 2 ^ 32) % 2 ^ 32 ∧
      t.host.resp = .none ∧ RegsKept [Reg.layerWord l w] s t ∧ MemKept s t ∧ OnlyHost s t) := by
  have hput := (s.host.answer .none).writeLayerTable_pending hl hw (v.toNat % 2 ^ 32)
  refine .ofHost (exec_write_layer core v hr hmpu hl (Nat.lt_trans hw (by decide))) (hput ▸ ⟨rfl, rfl⟩) fun hm ho => ?_
  rw [hput] at hm ho ⊢
  exact ⟨HostSide.get_put_self .., rfl,
    fun f hf => (s.host.answer .none).get_put_ne _ (hf _ List.mem_cons_self), hm, ho⟩

theorem completes_write_active (hw : w < 32) (hactive : 16 ≤ w) :
    Completes (.registerWrite who core false 4 (layerOff l w) v) s (fun t =>
      RegsKept [] s t ∧ MemKept s t ∧ OnlyHost s t) := by
  have hkept := (s.host.answer .none).writeLayerTable_active (l := l) hw hactive (v.toNat % 2 ^ 32)
  refine .ofHost (exec_write_layer core v hr hmpu hl hw) (by rw [hkept]; exact ⟨rfl, rfl⟩) fun hm ho => ?_
  rw [hkept] at hm ho ⊢
  exact ⟨fun _ _ => rfl, hm, ho⟩
end

/-! ## The message table -/

theorem HostSide.writeMsixWord_frame (h : HostSide) (off v : Nat) :
    ((h.writeMsixWord off v).regs, (h.writeMsixWord off v).store, (h.writeMsixWord off v).tartan) =
      (h.regs, h.store, h.tartan) := by
  unfold HostSide.writeMsixWord
  dsimp only
  split
  · split <;> rfl
  · rfl

/-- The message table after a word of an entry is written. -/
theorem HostSide.writeMsixWord_msix {n k : Nat} (h : HostSide) (hn : n < 2048) (hk : k < 4) (v : Nat) :
    (h.writeMsixWord (16 * n + 4 * k) v).msix =
      tput MsixEntry.reset h.msix n ((tget MsixEntry.reset h.msix n).write k v) := by
  have hentry : (16 * n + 4 * k) / 16 = n := by omega
  have hword : (16 * n + 4 * k) % 16 / 4 = k := by omega
  unfold HostSide.writeMsixWord
  rw [hentry, hword, if_pos (by omega)]
  dsimp only
  split <;> rfl

/-- Unmasking an entry whose pending bit is set sends its message and clears the bit. -/
theorem HostSide.writeMsixWord_unmask {n : Nat} (h : HostSide) (hn : n < 2048) {v : Nat} (hv : bit v 0 = false)
    (hpend : tget false h.msixPend n = true) :
    (h.writeMsixWord (16 * n + 4 * 3) v).sent =
        .msix n (tget MsixEntry.reset h.msix n).addr (tget MsixEntry.reset h.msix n).data :: h.sent ∧
      tget false (h.writeMsixWord (16 * n + 4 * 3) v).msixPend n = false := by
  have hentry : (16 * n + 4 * 3) / 16 = n := by omega
  have hword : (16 * n + 4 * 3) % 16 / 4 = 3 := by omega
  unfold HostSide.writeMsixWord
  rw [hentry, hword, if_pos (by omega)]
  dsimp only [MsixEntry.write]
  rw [if_pos (by simp [hv, hpend])]
  exact ⟨rfl, tget_tput_self false h.msixPend n false⟩

/-- A word that the PCIe endpoint writes at BAR4 changes the message table, its pending bits and what is sent only. -/
theorem completes_write_msix {s : State} {who : Requester} {n k : Nat} (core : Fin 8) (v : BitVec 64)
    (hr : s.reaches who) (hwho : who.src = .pcie) (hv : v.toNat < 2 ^ 32) :
    Completes (.registerWrite who core true 4 (16 * n + 4 * k) v) s (fun t =>
      t = s.held { s with host := (s.host.answer .none).writeMsixWord (16 * n + 4 * k) v.toNat } ∧ RegsKept [] s t ∧
      MemKept s t ∧ OnlyHost s t) := by
  have hframe := (s.host.answer .none).writeMsixWord_frame (16 * n + 4 * k) v.toNat
  obtain ⟨hregs, hmem⟩ := Prod.mk.inj hframe
  have hwrite (h : HostSide) :
      h.writeBar4 who 4 (16 * n + 4 * k) v.toNat = (h.answer .none).writeMsixWord (16 * n + 4 * k) v.toNat := by
    unfold HostSide.writeBar4
    rw [hwho]
    dsimp only
    rw [if_pos (by omega), Nat.mod_eq_of_lt hv]
  have hexec : exec (.registerWrite who core true 4 (16 * n + 4 * k) v) s =
      .next (s.held { s with host := (s.host.answer .none).writeMsixWord (16 * n + 4 * k) v.toNat }) := by
    rw [← hwrite]
    exact regCmd_reaches hr (·.writeBar4 who 4 (16 * n + 4 * k) v.toNat)
  exact .ofHost hexec ⟨congrArg Prod.fst hmem, congrArg Prod.snd hmem⟩ fun hm ho =>
    ⟨rfl, fun f _ => congrArg (tget f.rst · f.key) hregs, hm, ho⟩

theorem MsixEntry.write_low (e : MsixEntry) {v : Nat} (hv : v < 2 ^ 32) : (e.write 0 v).addr % 2 ^ 32 = v := by
  show (e.addr / 2 ^ 32 * 2 ^ 32 + v) % 2 ^ 32 = v
  rw [Nat.mul_add_mod', Nat.mod_eq_of_lt hv]

/-- Settles O35: a pending word takes the merge of its fields, a word of the message table the word written. -/
theorem descriptorsAndMessageTableTakeWrites : Obligations.DescriptorsAndMessageTableTakeWrites := by
  intro s who core l w n v hr hv
  refine ⟨fun hmpu hl hw => ?_, fun hmpu hl h16 hw => completes_write_active core v hr hmpu hl hw h16, ?_⟩
  · obtain ⟨t, ht, hp, hget, hresp, hrest⟩ := completes_write_pending core v hr hmpu hl hw
    rw [Nat.mod_eq_of_lt hv] at hget
    refine ⟨t, ht, hp, ?_, ?_, ?_, ?_, hresp, hrest⟩
    · rintro rfl
      obtain ⟨hlt, hbits⟩ := layerMerge_flags_bits (s.host.get (Reg.layerWord l 0)) v.toNat
      rw [hget, Nat.mod_eq_of_lt hlt]
      exact hbits
    · rintro rfl
      rw [hget, layerMerge_size]
      omega
    · intro h2 h6
      rw [hget, layerMerge_whole h2 h6, Nat.mod_mod, Nat.mod_eq_of_lt hv]
    · intro h7
      rw [hget, layerMerge_reserved h7]
      rfl
  · rintro hwho hn e rfl
    have hword {k : Nat} (hk : k < 4) := (s.host.answer .none).writeMsixWord_msix hn hk v.toNat
    refine ⟨?_, ?_, ?_⟩
    · obtain ⟨t, ht, hp, rfl, hrest⟩ := completes_write_msix (n := n) (k := 0) core v hr hwho hv
      refine ⟨_, ht, hp, ?_, hrest⟩
      show (tget MsixEntry.reset ((s.host.answer .none).writeMsixWord (16 * n + 4 * 0) v.toNat).msix n).addr % 2 ^ 32 = _
      rw [hword (by decide), tget_tput_self, MsixEntry.write_low _ hv]
    · obtain ⟨t, ht, hp, rfl, hrest⟩ := completes_write_msix (n := n) (k := 2) core v hr hwho hv
      refine ⟨_, ht, hp, ?_, hrest⟩
      show tget MsixEntry.reset ((s.host.answer .none).writeMsixWord (16 * n + 4 * 2) v.toNat).msix n = _
      rw [hword (by decide), tget_tput_self]
      rfl
    · obtain ⟨t, ht, hp, rfl, hrest⟩ := completes_write_msix (n := n) (k := 3) core v hr hwho hv
      refine ⟨_, ht, hp, ?_, fun m hm => ?_, (s.host.answer .none).writeMsixWord_unmask hn, hrest⟩
      · show tget MsixEntry.reset ((s.host.answer .none).writeMsixWord (16 * n + 4 * 3) v.toNat).msix n = _
        rw [hword (by decide), tget_tput_self]
        rfl
      · show tget MsixEntry.reset ((s.host.answer .none).writeMsixWord (16 * n + 4 * 3) v.toNat).msix m = _
        rw [hword (by decide), tget_tput_ne _ _ _ _ hm]
        rfl

end Sys2Proof.Machine
end

section
/-! Synchronisation evidence and the jitter buffer's hold (05_ingest_decode.md R113, R117, R118, R134): what the status
of a stream shows, when a window is open, and which packets a release takes. -/

namespace Sys2Proof.Machine

open Sys2Proof

theorem hostCmd_ready {s : State} (hr : s.hostReady) (f : HostSide → HostSide) :
    hostCmd s f = .next (s.held { s with host := f s.host }) := hostCmd_run s f hr

/-! ## The status of a stream -/

/-- The fields that show the state of a stream. -/
def shownFields (n : Nat) : List Fld :=
  [Reg.ING_STATUS_SSRC_LOCKED n, Reg.ING_SSRC_SSRC n, Reg.ING_STATUS_SR_VALID n,
    Reg.ING_STATUS_SYNC_VALID n, Reg.ING_SYNC_ATTEST_VALID n, Reg.ING_STATUS_FRER_ACTIVE n]

/-- Showing a stream's state changes registers only. -/
theorem HostSide.showStream_frame (h : HostSide) (n : Nat) :
    ((h.showStream n).video, (h.showStream n).resp, (h.showStream n).store, (h.showStream n).tartan) =
      (h.video, h.resp, h.store, h.tartan) := by
  unfold HostSide.showStream
  split <;> rfl

theorem HostSide.showStream_video (h : HostSide) (n : Nat) : (h.showStream n).video = h.video :=
  congrArg (·.1) (h.showStream_frame n)

theorem HostSide.showStream_resp (h : HostSide) (n : Nat) : (h.showStream n).resp = h.resp :=
  congrArg (·.2.1) (h.showStream_frame n)

theorem HostSide.showStream_sameMemory (h : HostSide) (n : Nat) : (h.showStream n).SameMemory h :=
  ⟨congrArg (·.2.2.1) (h.showStream_frame n), congrArg (·.2.2.2) (h.showStream_frame n)⟩

theorem HostSide.streamState_showStream (h : HostSide) (n k : Nat) :
    (h.showStream n).streamState k = h.streamState k :=
  congrArg (fun v : Video => tget StreamState.fresh v.streams k) (h.showStream_video n)

theorem HostSide.get_showStream_ne (h : HostSide) (n : Nat) {f : Fld} (hf : ∀ g ∈ shownFields n, f.key ≠ g.key) :
    (h.showStream n).get f = h.get f := by
  simp only [shownFields, List.forall_mem_cons] at hf
  obtain ⟨hlock, hssrc, hsr, hsync, hattest, hfrer, -⟩ := hf
  unfold HostSide.showStream
  split
  · rfl
  · rw [HostSide.get_putB_ne _ _ hfrer, HostSide.get_putB_ne _ _ hattest, HostSide.get_putB_ne _ _ hsync,
      HostSide.get_putB_ne _ _ hsr, HostSide.get_put_ne _ _ hssrc, HostSide.get_putB_ne _ _ hlock]

/-- SYNC_ATTEST.VALID shows whether the attested window is open. -/
theorem HostSide.get_showStream_attest {h : HostSide} {n : Nat} {e : StreamEntry} (he : h.streamEntry n = some e) :
    (h.showStream n).get (Reg.ING_SYNC_ATTEST_VALID n) = b2n (windowOpen h.now (h.streamState n).attested) := by
  have hkey : (Reg.ING_SYNC_ATTEST_VALID n).key ≠ (Reg.ING_STATUS_FRER_ACTIVE n).key := by
    simp only [Fld.key, Reg.ING_SYNC_ATTEST_VALID, Reg.ING_STATUS_FRER_ACTIVE]
    omega
  unfold HostSide.showStream
  rw [he]
  refine (HostSide.get_putB_ne _ _ hkey).trans ((HostSide.get_putB_self ..).trans ?_)
  cases windowOpen h.now (h.streamState n).attested <;> rfl

/-! ## Windows -/

theorem dtReached_self (a : DT) : dtReached a a = true := by
  simp [dtReached, dtDiff]

/-- An instant less than half the range of DT ahead is not reached (12_time.md R278). -/
theorem dtReached_ahead (a : DT) {n : Nat} (h0 : 0 < n) (hn : n < 2 ^ 63) : dtReached a (a + BitVec.ofNat 64 n) = false := by
  have hneg : (a - (a + BitVec.ofNat 64 n)).toInt < 0 := by
    rw [BitVec.toInt_eq_toNat_cond]
    bv_omega
  simpa [dtReached, dtDiff] using hneg

theorem windowFrom_started (at_ : DT) (old : Option Window) (ms : Nat) :
    dtReached at_ (windowFrom at_ old ms).start = true := by
  unfold windowFrom
  cases old with
  | none => exact dtReached_self at_
  | some x =>
    dsimp only
    split
    · next ho => exact (Bool.and_eq_true_iff.1 ho).1
    · exact dtReached_self at_

theorem windowFrom_open (at_ : DT) (old : Option Window) {ms : Nat} (h0 : 0 < ms) (hms : ms < 2 ^ 32) :
    windowOpen at_ (some (windowFrom at_ old ms)) = true := by
  have hstop : dtReached at_ (windowFrom at_ old ms).stop = false := dtReached_ahead at_ (by omega) (by omega)
  exact Bool.and_eq_true_iff.2 ⟨windowFrom_started at_ old ms, by rw [hstop]; rfl⟩

theorem windowOpen_some (at_ : DT) (x : Window) :
    windowOpen at_ (some x) = true ↔ dtReached at_ x.start = true ∧ dtReached at_ x.stop = false := by
  simp [windowOpen]

/-! ## Commands that set a stream's state -/

/-- A command that sets a stream's state and shows it changes the shown fields only. -/
theorem completes_setStream {c : Instr} {s : State} {g : HostSide} {n : Nat} {v : StreamState}
    (hc : exec c s = .next (s.held { s with host := (g.setStreamState n v).showStream n }))
    (hregs : g.regs = s.host.regs) (hmem : g.SameMemory s.host) :
    Completes c s (fun t => t.host.streamState n = v ∧ t.host.resp = g.resp ∧
      (∀ e, g.streamEntry n = some e → t.host.get (Reg.ING_SYNC_ATTEST_VALID n) = b2n (windowOpen g.now v.attested)) ∧
      RegsKept (shownFields n) s t ∧ MemKept s t ∧ OnlyHost s t) := by
  obtain ⟨hstore, htartan⟩ := (g.setStreamState n v).showStream_sameMemory n
  have hstate := g.streamState_setStreamState_self n v
  refine .ofHost hc ⟨hstore.trans hmem.1, htartan.trans hmem.2⟩ fun hm ho =>
    ⟨?_, ?_, fun e he => ?_, fun f hf => ?_, hm, ho⟩
  · exact ((g.setStreamState n v).streamState_showStream n n).trans hstate
  · exact (g.setStreamState n v).showStream_resp n
  · have hget := HostSide.get_showStream_attest (h := g.setStreamState n v) he
    rwa [hstate] at hget
  · exact ((g.setStreamState n v).get_showStream_ne n hf).trans (congrArg (tget f.rst · f.key) hregs)

/-- A window after time has ended it: kept while it is open now (R113). -/
def windowKept (at_ : DT) (w : Option Window) : Option Window := if windowOpen at_ w then w else none

theorem windowKept_some (at_ : DT) (x : Window) : windowKept at_ (some x) =
    if dtReached at_ x.start = true ∧ dtReached at_ x.stop = false then some x else none := by
  unfold windowKept
  simp only [windowOpen_some]

section
variable {s : State} {who : Requester} (n : Fin 128)

/-- The state of the stream after it is attested now, for as long as its entry holds evidence. -/
theorem exec_syncAttest {e : StreamEntry} (hr : s.reaches who) (he : s.host.streamEntry n.val = some e) :
    exec (.syncAttest who n) s = .next (s.held { s with
      host := ((s.host.answer .none).setStreamState n.val { s.host.streamState n.val with
        attested := some (windowFrom s.host.now (s.host.streamState n.val).attested e.syncHold) }).showStream n.val }) := by
  show execSyncAttest who n s = _
  unfold execSyncAttest
  rw [regCmd_reaches hr, he]
  rfl

theorem exec_syncRevoke (hr : s.reaches who) :
    exec (.syncRevoke who n) s = .next (s.held { s with
      host := ((s.host.answer .none).setStreamState n.val { s.host.streamState n.val with
        attested := none }).showStream n.val }) := by
  show execSyncRevoke who n s = _
  unfold execSyncRevoke
  exact regCmd_reaches hr _

theorem exec_syncHoldExpiry (hr : s.hostReady) :
    exec (.syncHoldExpiry n) s = .next (s.held { s with
      host := (s.host.setStreamState n.val { s.host.streamState n.val with
        inband := windowKept s.host.now (s.host.streamState n.val).inband
        attested := windowKept s.host.now (s.host.streamState n.val).attested }).showStream n.val }) := by
  show execSyncHoldExpiry n s = _
  unfold execSyncHoldExpiry
  exact hostCmd_ready hr _

theorem exec_jbHoldExpiry_idle (hr : s.hostReady)
    (he : s.host.streamEntry n.val = none ∨ ∃ e, s.host.streamEntry n.val = some e ∧ e.enable ≠ 1) :
    exec (.jbHoldExpiry n) s = .next s := by
  show execJbHoldExpiry n s = _
  unfold execJbHoldExpiry
  rw [hostCmd_ready hr]
  rcases he with he | ⟨e, he, hen⟩
  · rw [he]
    rfl
  · rw [he]
    dsimp only
    rw [if_neg hen]
    rfl

theorem exec_jbHoldExpiry_enabled {e : StreamEntry} (hr : s.hostReady) (he : s.host.streamEntry n.val = some e)
    (hen : e.enable = 1) : exec (.jbHoldExpiry n) s =
      .next (s.held { s with host := (s.host.expireHolds n.val e s.host.now).showStream n.val }) := by
  show execJbHoldExpiry n s = _
  unfold execJbHoldExpiry
  rw [hostCmd_ready hr, he]
  dsimp only
  rw [if_pos hen]

end

/-! ## The timestamp offset -/

/-- The whole offset comes into force with its upper word. -/
theorem completes_tsOffsetWrite {s : State} {who : Requester} (v : Word) (hr : s.reaches who) :
    Completes (.tsOffsetWrite who v) s (fun t => t.host.resp = .none ∧
      t.host.video.tsOffset = s.host.get Reg.ING_TS_OFFSET_LO_OFFSET + 2 ^ 32 * v.toNat ∧
      t.host.get Reg.ING_TS_OFFSET_HI_OFFSET = v.toNat ∧ RegsKept [Reg.ING_TS_OFFSET_HI_OFFSET] s t ∧ MemKept s t ∧
      OnlyHost s t) := by
  have hlo := (s.host.answer .none).get_put_ne (f := Reg.ING_TS_OFFSET_HI_OFFSET) (g := Reg.ING_TS_OFFSET_LO_OFFSET)
    v.toNat (by decide)
  have hhi : ((s.host.answer .none).put Reg.ING_TS_OFFSET_HI_OFFSET v.toNat).get Reg.ING_TS_OFFSET_HI_OFFSET = v.toNat :=
    (HostSide.get_put_self ..).trans (Nat.mod_eq_of_lt v.isLt)
  refine .ofHost (regCmd_reaches hr (fun h => (h.answer .none).writeTsOffset v.toNat)) ⟨rfl, rfl⟩ fun hm ho =>
    ⟨rfl, ?_, hhi, fun f hf => (s.host.answer .none).get_put_ne _ (hf _ List.mem_cons_self), hm, ho⟩
  exact congrArg₂ (fun lo hi => lo + 2 ^ 32 * hi) hlo hhi

/-! ## The jitter buffer -/

theorem mem_upToLast {p : Nat → Bool} {l : List Nat} {x : Nat} (hx : x ∈ l) (hp : p x = true) : x ∈ upToLast p l := by
  induction l with
  | nil => cases hx
  | cons y l ih =>
    have hgo : (p y || l.any p) = true := by
      rcases List.mem_cons.1 hx with rfl | hx
      · rw [hp, Bool.true_or]
      · rw [List.any_eq_true.2 ⟨x, hx, hp⟩, Bool.or_true]
    rw [upToLast, if_pos hgo]
    rcases List.mem_cons.1 hx with rfl | hx
    · exact List.mem_cons_self
    · exact List.mem_cons_of_mem y (ih hx)

theorem mem_insertTs {x y : Nat} {l : List Nat} (h : y = x ∨ y ∈ l) : y ∈ StreamState.held.insertTs x l := by
  induction l with
  | nil => exact List.mem_singleton.2 (h.resolve_right List.not_mem_nil)
  | cons z l ih =>
    unfold StreamState.held.insertTs
    split
    · simpa using h
    · simp only [List.mem_cons] at h ⊢
      tauto

/-- The timestamp of every packet in the buffer is held. -/
theorem StreamState.mem_held {v : StreamState} {p : RtpPacket} (hp : p ∈ v.packets) : p.ts ∈ v.held := by
  have hfold (ps : List RtpPacket) (l : List Nat) (x : Nat) (hx : x ∈ l ∨ ∃ q ∈ ps, q.ts = x) :
      x ∈ ps.foldl (fun l p => if l.contains p.ts then l else StreamState.held.insertTs p.ts l) l := by
    induction ps generalizing l with
    | nil => simpa using hx
    | cons q ps ih =>
      refine ih _ ?_
      dsimp only
      split
      · next hc =>
        have hq : q.ts ∈ l := by simpa using hc
        rcases hx with hx | ⟨r, hr, rfl⟩
        · exact .inl hx
        · rcases List.mem_cons.1 hr with rfl | hr
          · exact .inl hq
          · exact .inr ⟨r, hr, rfl⟩
      · rcases hx with hx | ⟨r, hr, rfl⟩
        · exact .inl (mem_insertTs (.inr hx))
        · rcases List.mem_cons.1 hr with rfl | hr
          · exact .inl (mem_insertTs (.inl rfl))
          · exact .inr ⟨r, hr, rfl⟩
  exact hfold v.packets [] p.ts (.inr ⟨p, hp, rfl⟩)

theorem HostSide.streamState_setCore (h : HostSide) (c : Nat) (k : Core) (n : Nat) :
    (h.setCore c k).streamState n = h.streamState n := rfl

/-- A release takes a picture's packets out of the buffer, and no others. -/
theorem HostSide.packets_releasePicture (h : HostSide) (n : Nat) (e : StreamEntry) (ts : Nat) :
    ((h.releasePicture n e ts).streamState n).packets = (h.streamState n).packets.filter (fun p => p.ts != ts) := by
  unfold HostSide.releasePicture
  dsimp only
  split
  · split
    · rw [HostSide.streamState_setCore]
      exact congrArg StreamState.packets (HostSide.streamState_setStreamState_self ..)
    · exact congrArg StreamState.packets (HostSide.streamState_setStreamState_self ..)
  · next hnone =>
    have hps : (h.streamState n).pictureOf ts = [] := by
      by_contra hne
      obtain ⟨p, ps, hp⟩ := List.exists_cons_of_ne_nil hne
      exact hnone p ps _ hp (List.getLast?_eq_some_getLast hne)
    refine (List.filter_eq_self.2 fun p hp => ?_).symm
    have := List.filter_eq_nil_iff.1 hps p hp
    simpa using this

theorem HostSide.packets_releaseAll (h : HostSide) (n : Nat) (e : StreamEntry) (l : List Nat) :
    ((h.releaseAll n e l).streamState n).packets = (h.streamState n).packets.filter (fun p => !l.contains p.ts) := by
  induction l generalizing h with
  | nil => exact (List.filter_eq_self.2 fun _ _ => rfl).symm
  | cons ts l ih =>
    rw [HostSide.releaseAll, ih, HostSide.packets_releasePicture, List.filter_filter]
    refine List.filter_congr fun p _ => ?_
    rw [List.contains_cons, Bool.not_or, Bool.and_comm]
    rfl

/-- A released picture has no packet left. -/
theorem HostSide.pictureOf_releaseAll (h : HostSide) (n : Nat) (e : StreamEntry) {l : List Nat} {ts : Nat} (hts : ts ∈ l) :
    ((h.releaseAll n e l).streamState n).pictureOf ts = [] := by
  unfold StreamState.pictureOf
  rw [HostSide.packets_releaseAll]
  refine List.filter_eq_nil_iff.2 fun p hp hpts => ?_
  obtain ⟨-, hout⟩ := List.mem_filter.1 hp
  rw [eq_of_beq hpts] at hout
  simp [hts] at hout

theorem HostSide.pictureOf_expireHolds {h : HostSide} {n : Nat} {e : StreamEntry} {at_ : DT} {ts : Nat} {p : RtpPacket}
    {rest : List RtpPacket} (hp : (h.streamState n).pictureOf ts = p :: rest)
    (hend : dtReached at_ (p.arrival + BitVec.ofNat 64 (e.jbHold * 1000000)) = true) :
    ((h.expireHolds n e at_).streamState n).pictureOf ts = [] := by
  have hmem : p ∈ (h.streamState n).packets ∧ (p.ts == ts) = true := List.mem_filter.1 (hp ▸ List.mem_cons_self)
  have hheld : ts ∈ (h.streamState n).held := eq_of_beq hmem.2 ▸ StreamState.mem_held hmem.1
  refine h.pictureOf_releaseAll n e (mem_upToLast hheld ?_)
  rw [hp]
  exact hend

/-- Settles O37: windows by the rules of `windowFrom` and `windowOpen`, pictures by the rule of their release. -/
theorem syncEvidenceIsAttestedAndEnds : Obligations.SyncEvidenceIsAttestedAndEnds := by
  rintro s who n v e shown rfl
  refine ⟨fun hr he => ⟨?_, ?_⟩, fun hr => ?_, completes_tsOffsetWrite v, fun hr he => ?_, fun hr he hen => ?_⟩
  · obtain ⟨t, ht, hp, hstate, hresp, hvalid, hrest⟩ :=
      completes_setStream (exec_syncAttest n hr he) rfl ⟨rfl, rfl⟩
    refine ⟨t, ht, hp, hresp, ⟨_, congrArg StreamState.attested hstate, windowFrom_started .., rfl⟩, fun h0 hlt => ?_, hrest⟩
    rw [hvalid e he]
    exact congrArg b2n (windowFrom_open s.host.now _ h0 hlt)
  · obtain ⟨t, ht, hp, hstate, hresp, hvalid, hrest⟩ := completes_setStream (exec_syncRevoke n hr) rfl ⟨rfl, rfl⟩
    exact ⟨t, ht, hp, hresp, congrArg StreamState.attested hstate, hvalid e he, hrest⟩
  · obtain ⟨t, ht, hp, hstate, -, -, hrest⟩ := completes_setStream (exec_syncHoldExpiry n hr) rfl ⟨rfl, rfl⟩
    refine ⟨t, ht, hp, fun x hx => ?_, fun x hx => ?_, by rw [hstate], hrest⟩
    · rw [hstate, hx, windowKept_some]
    · rw [hstate, hx, windowKept_some]
  · exact ⟨s, exec_jbHoldExpiry_idle n hr (he.imp_right fun h => ⟨e, h⟩), rfl, rfl⟩
  · refine ⟨_, exec_jbHoldExpiry_enabled n hr he hen, rfl, fun ts p rest hpic hend => ?_, rfl, rfl⟩
    exact (congrArg (·.pictureOf ts) (HostSide.streamState_showStream ..)).trans
      (HostSide.pictureOf_expireHolds hpic hend)

end Sys2Proof.Machine
end

section
/-! Which side a command acts on (O60): the commands that act on the module's own pins without crossing the barrier
(01_architecture.md R12), and with them every command. -/

namespace Sys2Proof.Machine

open Sys2Proof

/-- The host side or the field side stands as before. -/
def OneSide (s t : State) : Prop := t.host = s.host ∨ t.field = s.field

/-! ## Reset pins -/

theorem hostRstRelease_oneSide (slot : Fin 4) (role : Bool) (s : State) :
    Answers OneSide s (execHostRstRelease slot role s) :=
  .ite ⟨_, rfl, .inl rfl⟩ ⟨_, rfl, .inr rfl⟩

theorem fieldRstRelease_oneSide (role : Bool) (s : State) : Answers OneSide s (execFieldRstRelease role s) :=
  .ite ⟨_, rfl, .inl rfl⟩ ⟨_, rfl, .inl rfl⟩

theorem pciePerst_oneSide (asserted : Bool) (s : State) : Answers OneSide s (execPciePerst asserted s) :=
  .ite ⟨_, rfl, .inr rfl⟩ ⟨_, rfl, .inl rfl⟩

/-! ## Temperature -/

theorem State.showTemp_oneSide (s : State) (side : Side) (t : BitVec 8) : OneSide s (s.showTemp side t) := by
  cases side with
  | host => exact .inr rfl
  | field => exact .inl rfl

/-- A measurement below 125 °C trips no side (18_module_electrical.md R419). -/
theorem tempMeasure_oneSide (side : Side) {temp : BitVec 8} (hcool : ¬ 125 ≤ temp.toInt) (s : State) :
    Answers OneSide s (execTempMeasure side temp s) := by
  refine .ite ⟨s, rfl, .inl rfl⟩ ⟨_, rfl, ?_⟩
  rw [if_neg hcool]
  exact (s.setTemp side temp.toInt).showTemp_oneSide side temp

/-! ## Every command -/

theorem exec_oneSide (c : Instr) (s : State) (hc : Crosses c = false) : Answers OneSide s (exec c s) := by
  cases hm : Instr.actsOnModule c with
  | false => exact (exec_contained c s hm).mono fun _ h => h.oneSide
  | true =>
    cases c with
    | hostRstRelease slot role => exact hostRstRelease_oneSide slot role s
    | fieldRstRelease role => exact fieldRstRelease_oneSide role s
    | pciePerst asserted => exact pciePerst_oneSide asserted s
    | tempMeasure side temp => exact tempMeasure_oneSide side (of_decide_eq_false hc) s
    | _ => cases hc.symm.trans hm

/-- Settles O60: every command answers, and one that does not cross stays on its side. -/
theorem aCommandActsOnOneSideOfTheBarrier : Obligations.ACommandActsOnOneSideOfTheBarrier := by
  intro c s
  obtain ⟨t, ht, hk⟩ := exec_keeps c s
  refine ⟨t, ht, hk.pending, fun hc => ?_⟩
  obtain ⟨u, hu, hside⟩ := exec_oneSide c s hc
  cases ht.symm.trans hu
  exact hside

end Sys2Proof.Machine
end

section
/-! What writing a module event record changes (03_structure_image.md R82): the indices of the event ring, the log of
uncorrectable errors and the central store. -/

namespace Sys2Proof.Machine

open Sys2Proof

/-! ## The registers of the two logs -/

/-- The registers that a module event record can change: its ring's own, and those of an uncorrectable error that the
write of the record meets (13_central_store.md R294, R295). -/
def logFields : List Fld :=
  [Reg.SYS_LOG_WR_INDEX, Reg.SYS_LOG_LOST_COUNT, Reg.CST_UE_WR_INDEX, Reg.CST_UE_WR_WRAPPED, Reg.CST_UE_ADDR_LO_CA,
    Reg.CST_UE_ADDR_HI_CA, Reg.CST_UE_INFO_CH, Reg.CST_UE_INFO_KIND, Reg.CST_UE_INFO_PORT, Reg.CST_UE_INFO_SYNDROME,
    Reg.CST_UE_DT_LO_DT, Reg.CST_UE_DT_HI_DT, Reg.CST_UE_LOST_COUNT]

/-- Logging has led from `h` to `g`. -/
structure HostSide.Logged (h g : HostSide) : Prop where
  rest : g = { h with regs := g.regs, store := g.store }
  get : ∀ f : Fld, (∀ x ∈ logFields, f.key ≠ x.key) → g.get f = h.get f

namespace HostSide.Logged

theorem refl (h : HostSide) : h.Logged h := ⟨rfl, fun _ _ => rfl⟩

theorem trans {h g k : HostSide} (a : h.Logged g) (b : g.Logged k) : h.Logged k :=
  ⟨by rw [b.rest, a.rest], fun f hf => (b.get f hf).trans (a.get f hf)⟩

theorem put {h g : HostSide} (a : h.Logged g) {x : Fld} (hx : x ∈ logFields) (v : Nat) : h.Logged (g.put x v) :=
  a.trans ⟨rfl, fun _ hf => g.get_put_ne v (hf x hx)⟩

theorem xing {h g : HostSide} (a : h.Logged g) : g.xing = h.xing := (congrArg HostSide.xing a.rest).trans rfl

theorem conserve {h g : HostSide} (a : h.Logged g) : g.conserve = h.conserve :=
  (congrArg HostSide.conserve a.rest).trans rfl

theorem store (h : HostSide) (st : Store) : h.Logged { h with store := st } := ⟨rfl, fun _ _ => rfl⟩

end HostSide.Logged

/-! ## Records -/

theorem HostSide.showUe_logged (h : HostSide) : h.Logged h.showUe :=
  ((((((((HostSide.Logged.refl h).put (by decide) _).put (by decide) _).put (by decide) _).put (by decide) _).put
    (by decide) _).put (by decide) _).put (by decide) _).put (by decide) _

theorem HostSide.logUe_logged (h : HostSide) (ca ch kind port syn : Nat) : h.Logged (h.logUe ca ch kind port syn) := by
  unfold HostSide.logUe
  refine .trans (.put ?_ (by decide) _) (HostSide.showUe_logged _)
  have hlost : h.Logged (if (tget none h.store.ueLog (h.get Reg.CST_UE_WR_INDEX)).isSome then
      h.bump Reg.CST_UE_LOST_COUNT else h) := by
    split
    · exact .put (.refl h) (by decide) _
    · exact .refl h
  dsimp only
  split
  · exact .put (hlost.trans (.store _ _)) (by decide) _
  · exact hlost.trans (.store _ _)

theorem HostSide.caPut_logged (h : HostSide) (port ca : Nat) (bs : List Byte) : h.Logged (h.caPut port ca bs) := by
  unfold HostSide.caPut HostSide.caWrite
  dsimp only
  split
  · exact .trans (.store h _) (HostSide.logUe_logged _ _ _ _ _ _)
  · exact .store h _

theorem HostSide.log_logged (h : HostSide) (source code index frame detail : Nat) :
    h.Logged (h.log source code index frame detail) := by
  unfold HostSide.log
  dsimp only
  split
  · exact .put (.refl h) (by decide) _
  · exact .put (h.caPut_logged _ _ _) (by decide) _

theorem HostSide.get_log_ne (h : HostSide) (source code index frame detail : Nat) {f : Fld}
    (hf : ∀ x ∈ logFields, f.key ≠ x.key) : (h.log source code index frame detail).get f = h.get f :=
  (h.log_logged source code index frame detail).get f hf

@[simp] theorem HostSide.log_xing (h : HostSide) (source code index frame detail : Nat) :
    (h.log source code index frame detail).xing = h.xing :=
  (h.log_logged source code index frame detail).xing

@[simp] theorem HostSide.log_conserve (h : HostSide) (source code index frame detail : Nat) :
    (h.log source code index frame detail).conserve = h.conserve :=
  (h.log_logged source code index frame detail).conserve

end Sys2Proof.Machine
end

section
/-! The conserved quantities (O10; 01_architecture.md R23 to R25): what a failure leaves in SYS.INVAR_STATUS and in the
record of held resources, what a check leaves of a failure that it has met, and what a write clears. -/

namespace Sys2Proof.Machine

open Sys2Proof

/-! ## The bits of SYS.INVAR_STATUS -/

/-- One bit for each quantity of Table 01.11. -/
def invariantBits : List Fld :=
  [Reg.SYS_INVAR_STATUS_TRT_CREDIT, Reg.SYS_INVAR_STATUS_SLOT, Reg.SYS_INVAR_STATUS_LEASE,
    Reg.SYS_INVAR_STATUS_REF_TOKEN, Reg.SYS_INVAR_STATUS_LINK_CREDIT, Reg.SYS_INVAR_STATUS_HEAD_SLOT,
    Reg.SYS_INVAR_STATUS_PAGE, Reg.SYS_INVAR_STATUS_DRAM_TXN]

/-- What SYS.INVAR_STATUS shows beside the bits. -/
def failureRecord : List Fld :=
  [Reg.SYS_INVAR_STATUS_VALID, Reg.SYS_INVAR_STATUS_FIRST_QTY, Reg.SYS_INVAR_STATUS_FIRST_INST]

theorem invariantBits_width {f : Fld} (hf : f ∈ invariantBits) : f.w = 1 :=
  (by decide : ∀ f ∈ invariantBits, f.w = 1) f hf

theorem invariantBits_nodup : (invariantBits.map Fld.key).Nodup := by decide

theorem invariantBits_key_inj {f g : Fld} (hf : f ∈ invariantBits) (hg : g ∈ invariantBits) (h : f.key = g.key) :
    f = g := List.inj_on_of_nodup_map invariantBits_nodup hf hg h

theorem invariantBits_record {f g : Fld} (hf : f ∈ invariantBits) (hg : g ∈ failureRecord) : g.key ≠ f.key :=
  (by decide : ∀ f ∈ invariantBits, ∀ g ∈ failureRecord, g.key ≠ f.key) f hf g hg

theorem invariantStatus_unlogged {f : Fld} (hf : f ∈ invariantBits ++ failureRecord) : ∀ x ∈ logFields, f.key ≠ x.key :=
  (by decide : ∀ f ∈ invariantBits ++ failureRecord, ∀ x ∈ logFields, f.key ≠ x.key) f hf

/-! ## A failure -/

/-- What a failure shows in SYS.INVAR_STATUS. -/
def HostSide.showFailure (h : HostSide) (qty inst : Nat) (f : Fld) : HostSide :=
  let h := h.put f 1
  if h.flag Reg.SYS_INVAR_STATUS_VALID then h
  else if h.conserve.cleared = some h.tb.raw then h.put Reg.SYS_INVAR_STATUS_VALID 1
  else ((h.put Reg.SYS_INVAR_STATUS_FIRST_QTY qty).put Reg.SYS_INVAR_STATUS_FIRST_INST inst).put
    Reg.SYS_INVAR_STATUS_VALID 1

/-- The rest of a failure is no register of SYS.INVAR_STATUS. -/
theorem HostSide.get_invariantFails (h : HostSide) (qty inst : Nat) (f : Fld) {g : Fld}
    (hg : g ∈ invariantBits ++ failureRecord) :
    (h.invariantFails qty inst f).get g = (h.showFailure qty inst f).get g :=
  HostSide.get_log_ne _ 1 1 inst 0 qty (invariantStatus_unlogged hg)

theorem HostSide.showFailure_conserve (h : HostSide) (qty inst : Nat) (f : Fld) :
    (h.showFailure qty inst f).conserve = h.conserve := by
  unfold HostSide.showFailure
  dsimp only
  split
  · rfl
  · split <;> rfl

/-- A failure holds its resource and no resource that is held goes free. -/
theorem HostSide.stuck_invariantFails (h : HostSide) (qty inst : Nat) (f : Fld) (q i : Nat) :
    (h.invariantFails qty inst f).stuck q i = (h.stuck q i || (q, i) == (qty, inst)) := by
  have hstuck : (h.invariantFails qty inst f).conserve.stuck =
      if h.stuck qty inst then h.conserve.stuck else (qty, inst) :: h.conserve.stuck := by
    unfold HostSide.stuck
    rw [← h.showFailure_conserve qty inst f]
    exact congrArg Conserve.stuck (HostSide.log_conserve _ 1 1 inst 0 qty)
  unfold HostSide.stuck at hstuck ⊢
  rw [hstuck]
  by_cases hq : (q, i) = (qty, inst)
  · simp only [hq]
    split <;> simp_all
  · rw [beq_false_of_ne hq, Bool.or_false]
    split
    · rfl
    · rw [List.contains_cons, beq_false_of_ne hq, Bool.false_or]

theorem HostSide.showFailure_of_valid {h : HostSide} (hv : h.get Reg.SYS_INVAR_STATUS_VALID = 1) (qty inst : Nat)
    {f : Fld} (hf : f ∈ invariantBits) : h.showFailure qty inst f = h.put f 1 := by
  unfold HostSide.showFailure
  have hflag : (h.put f 1).flag Reg.SYS_INVAR_STATUS_VALID = true := by
    unfold HostSide.flag
    rw [HostSide.get_put_ne _ _ (invariantBits_record hf (by decide)), hv]
    rfl
  exact if_pos hflag

/-- SYS.INVAR_STATUS shows a failure of the bit's quantity and this first failure, and the resource is held. -/
structure HostSide.ShowsFailure (f : Fld) (qty inst : Nat) (first : Nat × Nat) (h : HostSide) : Prop where
  bit : h.get f = 1
  valid : h.get Reg.SYS_INVAR_STATUS_VALID = 1
  firstQty : h.get Reg.SYS_INVAR_STATUS_FIRST_QTY = first.1
  firstInst : h.get Reg.SYS_INVAR_STATUS_FIRST_INST = first.2
  held : h.stuck qty inst = true

/-- FIRST_QTY and FIRST_INST: the quantity and the resource of the first failure. -/
def HostSide.firstFailure (h : HostSide) : Nat × Nat :=
  (h.get Reg.SYS_INVAR_STATUS_FIRST_QTY, h.get Reg.SYS_INVAR_STATUS_FIRST_INST)

theorem HostSide.get_showFailure_bit (h : HostSide) (qty inst : Nat) {f : Fld} (hf : f ∈ invariantBits) :
    (h.showFailure qty inst f).get f = 1 := by
  have hput : (h.put f 1).get f = 1 := by simp [invariantBits_width hf]
  have hkey {g : Fld} (hg : g ∈ failureRecord) : f.key ≠ g.key := (invariantBits_record hf hg).symm
  unfold HostSide.showFailure
  dsimp only
  split
  · exact hput
  · split
    · exact (HostSide.get_put_ne _ _ (hkey (by decide))).trans hput
    · rw [HostSide.get_put_ne _ _ (hkey (by decide)), HostSide.get_put_ne _ _ (hkey (by decide)),
        HostSide.get_put_ne _ _ (hkey (by decide)), hput]

theorem HostSide.get_showFailure_valid (h : HostSide) (qty inst : Nat) (f : Fld) :
    (h.showFailure qty inst f).get Reg.SYS_INVAR_STATUS_VALID = 1 := by
  unfold HostSide.showFailure
  dsimp only
  split
  · next hflag => exact eq_of_beq hflag
  · split <;> exact HostSide.get_put_self ..

/-- Whatever was shown before, a failure shows and holds its own. -/
theorem HostSide.invariantFails_shows (h : HostSide) (qty inst : Nat) {f : Fld} (hf : f ∈ invariantBits) :
    (h.invariantFails qty inst f).ShowsFailure f qty inst (h.invariantFails qty inst f).firstFailure where
  bit := (h.get_invariantFails qty inst f (List.mem_append_left _ hf)).trans (h.get_showFailure_bit qty inst hf)
  valid := (h.get_invariantFails qty inst f (by decide)).trans (h.get_showFailure_valid qty inst f)
  firstQty := rfl
  firstInst := rfl
  held := by rw [HostSide.stuck_invariantFails, beq_self_eq_true, Bool.or_true]

/-- Where none was recorded and no write of this cycle has cleared one, a failure is the first. -/
theorem HostSide.firstFailure_invariantFails {h : HostSide} (hv : h.get Reg.SYS_INVAR_STATUS_VALID = 0)
    (hc : h.conserve.cleared ≠ some h.tb.raw) (qty inst : Nat) {f : Fld} (hf : f ∈ invariantBits) :
    (h.invariantFails qty inst f).firstFailure = (qty % 2 ^ 3, inst % 2 ^ 12) := by
  have hflag : ¬ (h.put f 1).flag Reg.SYS_INVAR_STATUS_VALID = true := by
    unfold HostSide.flag
    rw [HostSide.get_put_ne _ _ (invariantBits_record hf (by decide)), hv]
    decide
  have hshow : h.showFailure qty inst f = (((h.put f 1).put Reg.SYS_INVAR_STATUS_FIRST_QTY qty).put
      Reg.SYS_INVAR_STATUS_FIRST_INST inst).put Reg.SYS_INVAR_STATUS_VALID 1 :=
    (if_neg hflag).trans (if_neg hc)
  unfold HostSide.firstFailure
  rw [h.get_invariantFails qty inst f (by decide), h.get_invariantFails qty inst f (by decide), hshow]
  rw [HostSide.get_put_ne _ _ (by decide), HostSide.get_put_ne _ _ (by decide), HostSide.get_put_self,
    HostSide.get_put_ne _ _ (by decide), HostSide.get_put_self]
  rfl

theorem HostSide.ShowsFailure.stateHeld {f : Fld} {qty inst : Nat} {first : Nat × Nat} {h : HostSide}
    (hs : h.ShowsFailure f qty inst first) (s : State) :
    (s.held { s with host := h }).host.ShowsFailure f qty inst first :=
  ⟨hs.bit, hs.valid, hs.firstQty, hs.firstInst, hs.held⟩

/-! ## A check -/

/-- A later failure leaves what an earlier one shows. -/
theorem HostSide.ShowsFailure.invariantFails {f g : Fld} {qty inst : Nat} {first : Nat × Nat} {h : HostSide}
    (hs : h.ShowsFailure f qty inst first) (hf : f ∈ invariantBits) (hg : g ∈ invariantBits) (q i : Nat) :
    (h.invariantFails q i g).ShowsFailure f qty inst first := by
  have hget {x : Fld} (hx : x ∈ invariantBits ++ failureRecord) (hne : x.key ≠ g.key) :
      (h.invariantFails q i g).get x = h.get x := by
    rw [h.get_invariantFails q i g hx, HostSide.showFailure_of_valid hs.valid q i hg, HostSide.get_put_ne _ _ hne]
  have hrecord {x : Fld} (hx : x ∈ failureRecord) : (h.invariantFails q i g).get x = h.get x :=
    hget (List.mem_append_right _ hx) (invariantBits_record hg hx)
  refine ⟨?_, (hrecord (by decide)).trans hs.valid, (hrecord (by decide)).trans hs.firstQty,
    (hrecord (by decide)).trans hs.firstInst, ?_⟩
  · by_cases hfg : f = g
    · exact hfg ▸ (h.invariantFails_shows q i hg).bit
    · exact (hget (List.mem_append_left _ hf) fun hk => hfg (invariantBits_key_inj hf hg hk)).trans hs.bit
  · rw [HostSide.stuck_invariantFails, hs.held, Bool.true_or]

theorem HostSide.ShowsFailure.checkOne {f g : Fld} {qty inst : Nat} {first : Nat × Nat} {h : HostSide}
    (hs : h.ShowsFailure f qty inst first) (hf : f ∈ invariantBits) (hg : g ∈ invariantBits) (q : Nat)
    (insts : List Nat) (ok : Nat → Bool) : (h.checkOne q insts g ok).ShowsFailure f qty inst first := by
  unfold HostSide.checkOne
  induction insts generalizing h with
  | nil => exact hs
  | cons i insts ih =>
    refine ih ?_
    beta_reduce
    split
    · exact hs
    · exact hs.invariantFails hf hg q i

/-- A check of a quantity whose first resource fails shows that failure. -/
theorem HostSide.checkOne_shows (h : HostSide) (qty inst : Nat) (insts : List Nat) {f : Fld} (hf : f ∈ invariantBits)
    {ok : Nat → Bool} (hok : ok inst = false) :
    (h.checkOne qty (inst :: insts) f ok).ShowsFailure f qty inst (h.invariantFails qty inst f).firstFailure := by
  have hfail : h.checkOne qty (inst :: insts) f ok = (h.invariantFails qty inst f).checkOne qty insts f ok := by
    unfold HostSide.checkOne
    rw [List.foldl_cons, if_neg (by simp [hok])]
  rw [hfail]
  exact (h.invariantFails_shows qty inst hf).checkOne hf hf qty insts ok

/-- The host side at the start of a check. -/
def HostSide.checking (h : HostSide) : HostSide := { h with conserve := { h.conserve with lastCheck := some h.now } }

theorem HostSide.get_checking (h : HostSide) (f : Fld) : h.checking.get f = h.get f := rfl

/-- The credits of TRT.MASTER[0] are the first that a check looks at; what it then shows of them the rest of the check
leaves. -/
theorem HostSide.checkInvariants_credit {h : HostSide}
    (hcredit : h.get (Reg.TRT_MASTER_FREE 0) + h.get (Reg.TRT_MASTER_IN_FLIGHT 0) ≠ 128) :
    h.checkInvariants.ShowsFailure Reg.SYS_INVAR_STATUS_TRT_CREDIT 0 0
      (h.checking.invariantFails 0 0 Reg.SYS_INVAR_STATUS_TRT_CREDIT).firstFailure := by
  have hok : h.checking.trtHolds 0 = false := by
    unfold HostSide.trtHolds
    rw [h.get_checking, h.get_checking, beq_false_of_ne hcredit, Bool.false_and]
  have hbit : Reg.SYS_INVAR_STATUS_TRT_CREDIT ∈ invariantBits := by decide
  have hrange : List.range 47 = 0 :: List.range' 1 46 := rfl
  have hfirst := h.checking.checkOne_shows 0 0 (List.range' 1 46) hbit hok
  rw [← hrange] at hfirst
  unfold HostSide.checkInvariants
  exact (((((((hfirst.checkOne hbit (by decide) 1 _ _).checkOne hbit (by decide) 2 _ _).checkOne hbit (by decide) 3 _ _)
    |>.checkOne hbit (by decide) 4 _ _).checkOne hbit (by decide) 5 _ _).checkOne hbit (by decide) 6 _ _)
    |>.checkOne hbit (by decide) 7 _ _)

/-- A command that answers a host effect completes, and touches neither the field side nor the physical module. -/
theorem Completes.hostAlone {c : Instr} {s : State} {P : State → Prop} {g : HostSide}
    (hc : exec c s = .next (s.held { s with host := g }))
    (hP : OnlyHost s (s.held { s with host := g }) → P (s.held { s with host := g })) : Completes c s P :=
  ⟨_, hc, rfl, hP ⟨rfl, rfl⟩⟩

theorem exec_invariantTimer_due {s : State} (hr : s.hostReady) (hid : s.host.activeId ≠ 0)
    (hhead : s.host.lowestHead = none) (hdue : s.host.checkDue = true) :
    exec .invariantTimer s = .next (s.held { s with host := s.host.checkInvariants }) := by
  have hwhen : s.host.activeId ≠ 0 ∧ s.host.lowestHead.isNone ∧ s.host.checkDue := ⟨hid, by rw [hhead]; rfl, hdue⟩
  show execInvariantTimer s = _
  unfold execInvariantTimer
  rw [hostCmd_run s _ hr, if_pos hwhen]

/-! ## A write of SYS.INVAR_STATUS -/

theorem exec_invarStatusWrite {s : State} {who : Requester} (hr : s.reaches who) (v : Word) :
    exec (.invarStatusWrite who v) s =
      .next (s.held { s with host := (s.host.answer .none).clearInvariants v.toNat }) :=
  regCmd_reaches hr fun h => (h.answer .none).clearInvariants v.toNat

/-- A write clears each of these bits that it names and no check of this cycle has set. -/
def HostSide.clearBits (h : HostSide) (v now : Nat) (fs : List Fld) : HostSide :=
  fs.foldl (fun h f => if bit v f.lo && !bit now f.lo then h.put f 0 else h) h

theorem HostSide.get_clearBits_ne (h : HostSide) (v now : Nat) {fs : List Fld} {g : Fld}
    (hg : ∀ f ∈ fs, g.key ≠ f.key) : (h.clearBits v now fs).get g = h.get g := by
  induction fs generalizing h with
  | nil => rfl
  | cons f fs ih =>
    refine (ih _ fun x hx => hg x (List.mem_cons_of_mem f hx)).trans ?_
    beta_reduce
    split
    · exact h.get_put_ne _ (hg f List.mem_cons_self)
    · rfl

theorem HostSide.get_clearBits_mem (h : HostSide) (v now : Nat) {fs : List Fld} (hfs : (fs.map Fld.key).Nodup) {f : Fld}
    (hf : f ∈ fs) :
    (h.clearBits v now fs).get f = if bit v f.lo = true ∧ bit now f.lo = false then 0 else h.get f := by
  induction fs generalizing h with
  | nil => cases hf
  | cons g fs ih =>
    obtain ⟨hg, hfs⟩ := List.nodup_cons.1 hfs
    have hkey {x : Fld} (hx : x ∈ fs) : g.key ≠ x.key := fun hk => hg (hk ▸ List.mem_map_of_mem hx)
    rcases List.mem_cons.1 hf with rfl | hf
    · refine (HostSide.get_clearBits_ne _ v now fun x hx => hkey hx).trans ?_
      simp only [Bool.and_eq_true, Bool.not_eq_true']
      split
      · rw [HostSide.get_put_self, Nat.zero_mod]
      · rfl
    · refine (ih _ hfs hf).trans (ite_congr rfl (fun _ => rfl) fun _ => ?_)
      beta_reduce
      split
      · exact h.get_put_ne _ (hkey hf).symm
      · rfl

theorem HostSide.clearBits_rest (h : HostSide) (v now : Nat) (fs : List Fld) :
    ((h.clearBits v now fs).store, (h.clearBits v now fs).tartan) = (h.store, h.tartan) :=
  foldl_keeps (fun h : HostSide => (h.store, h.tartan)) _ (fun g f => by split <;> rfl) fs h

/-- VALID falls once no bit is set. -/
def HostSide.settleValid (h : HostSide) : HostSide :=
  if h.flag Reg.SYS_INVAR_STATUS_VALID && invariantBits.all (fun f => !h.flag f) then
    ({ h with conserve := { h.conserve with cleared := some h.tb.raw } }).put Reg.SYS_INVAR_STATUS_VALID 0
  else h

theorem HostSide.clearInvariants_eq (h : HostSide) (v : Nat) :
    h.clearInvariants v = (h.clearBits v h.failedNow invariantBits).settleValid := rfl

theorem HostSide.get_settleValid_ne (h : HostSide) {f : Fld} (hf : f.key ≠ Reg.SYS_INVAR_STATUS_VALID.key) :
    h.settleValid.get f = h.get f := by
  unfold HostSide.settleValid
  split
  · exact HostSide.get_put_ne _ _ hf
  · rfl

theorem HostSide.get_settleValid_valid (h : HostSide) : h.settleValid.get Reg.SYS_INVAR_STATUS_VALID =
    if h.get Reg.SYS_INVAR_STATUS_VALID = 1 ∧ ∀ f ∈ invariantBits, h.get f ≠ 1 then 0
    else h.get Reg.SYS_INVAR_STATUS_VALID := by
  unfold HostSide.settleValid
  simp only [HostSide.flag, Bool.and_eq_true, beq_iff_eq, List.all_eq_true, Bool.not_eq_true', beq_eq_false_iff_ne]
  split
  · exact HostSide.get_put_self ..
  · rfl

theorem HostSide.settleValid_rest (h : HostSide) :
    (h.settleValid.store, h.settleValid.tartan) = (h.store, h.tartan) := by
  unfold HostSide.settleValid
  split <;> rfl

theorem HostSide.get_clearInvariants_bit (h : HostSide) (v : Nat) {f : Fld} (hf : f ∈ invariantBits) :
    (h.clearInvariants v).get f = if bit v f.lo = true ∧ bit h.failedNow f.lo = false then 0 else h.get f := by
  rw [h.clearInvariants_eq, HostSide.get_settleValid_ne _ (invariantBits_record hf (by decide)).symm,
    HostSide.get_clearBits_mem h v _ invariantBits_nodup hf]

theorem HostSide.get_clearInvariants_valid (h : HostSide) (v : Nat) :
    (h.clearInvariants v).get Reg.SYS_INVAR_STATUS_VALID =
      if h.get Reg.SYS_INVAR_STATUS_VALID = 1 ∧ ∀ f ∈ invariantBits, (h.clearInvariants v).get f ≠ 1 then 0
      else h.get Reg.SYS_INVAR_STATUS_VALID := by
  have hbit (f : Fld) (hf : f ∈ invariantBits) :
      (h.clearInvariants v).get f = (h.clearBits v h.failedNow invariantBits).get f :=
    HostSide.get_settleValid_ne _ (invariantBits_record hf (by decide)).symm
  have hvalid : (h.clearBits v h.failedNow invariantBits).get Reg.SYS_INVAR_STATUS_VALID =
      h.get Reg.SYS_INVAR_STATUS_VALID := h.get_clearBits_ne v _ fun f hf => invariantBits_record hf (by decide)
  have hall : (∀ f ∈ invariantBits, (h.clearInvariants v).get f ≠ 1) ↔
      ∀ f ∈ invariantBits, (h.clearBits v h.failedNow invariantBits).get f ≠ 1 :=
    forall₂_congr fun f hf => by rw [hbit f hf]
  simp only [hall]
  rw [h.clearInvariants_eq, HostSide.get_settleValid_valid, hvalid]

theorem HostSide.get_clearInvariants_ne (h : HostSide) (v : Nat) {g : Fld}
    (hg : ∀ f ∈ invariantBits ++ [Reg.SYS_INVAR_STATUS_VALID], g.key ≠ f.key) :
    (h.clearInvariants v).get g = h.get g := by
  have hvalid : g.key ≠ Reg.SYS_INVAR_STATUS_VALID.key := hg _ (List.mem_append_right _ (List.mem_singleton_self _))
  have hbits (f : Fld) (hf : f ∈ invariantBits) : g.key ≠ f.key := hg f (List.mem_append_left _ hf)
  rw [h.clearInvariants_eq, HostSide.get_settleValid_ne _ hvalid, HostSide.get_clearBits_ne h v _ hbits]

theorem HostSide.clearInvariants_sameMemory (h : HostSide) (v : Nat) : (h.clearInvariants v).SameMemory h := by
  have hrest := (HostSide.settleValid_rest _).trans (h.clearBits_rest v h.failedNow invariantBits)
  exact Prod.mk.inj hrest

/-- Settles O10: a check by what each failure leaves of the first one, a write by the bits that it clears. -/
theorem invariantsAreCheckedAndCleared : Obligations.InvariantsAreCheckedAndCleared := by
  intro s who v
  refine ⟨fun hr hid hhead hdue hcredit => ?_, fun hr => ?_⟩
  · have hshow := (HostSide.checkInvariants_credit hcredit).stateHeld s
    refine .hostAlone (exec_invariantTimer_due hr hid hhead hdue) fun ho =>
      ⟨hshow.bit, hshow.valid, hshow.held, fun hv hc => ?_, ho⟩
    have hfirst := HostSide.firstFailure_invariantFails (h := s.host.checking) hv hc 0 0
      (f := Reg.SYS_INVAR_STATUS_TRT_CREDIT) (by decide)
    exact ⟨hshow.firstQty.trans (congrArg Prod.fst hfirst), hshow.firstInst.trans (congrArg Prod.snd hfirst)⟩
  · refine .ofHost (exec_invarStatusWrite hr v) (HostSide.clearInvariants_sameMemory _ _) fun hm ho =>
      ⟨?_, ?_, ?_, hm, ho⟩
    · exact fun f hf => HostSide.get_clearInvariants_bit _ _ hf
    · exact HostSide.get_clearInvariants_valid _ _
    · exact fun f hf => HostSide.get_clearInvariants_ne _ _ hf

end Sys2Proof.Machine
end

section
/-! The isolation locks (O11; 01_architecture.md R14, 11_crossing.md R260, R262): what the loss of a lock and the
entry to DOWN leave at each end, and what a gained lock starts. -/

namespace Sys2Proof.Machine

open Sys2Proof

/-! ## A channel's lock as the host shows it -/

/-- The field of MBX.XING_STATUS that shows a channel's lock. -/
def lockField (ch : Nat) : Fld := if ch = 0 then Reg.MBX_XING_STATUS_LOCK0 else Reg.MBX_XING_STATUS_LOCK1

theorem lockField_cases (ch : Nat) :
    lockField ch = Reg.MBX_XING_STATUS_LOCK0 ∨ lockField ch = Reg.MBX_XING_STATUS_LOCK1 := by
  unfold lockField
  split
  · exact .inl rfl
  · exact .inr rfl

/-- A fact about the fields of both channels is one about each. -/
theorem lockField_of_both {P : Fld → Prop} (h0 : P Reg.MBX_XING_STATUS_LOCK0) (h1 : P Reg.MBX_XING_STATUS_LOCK1)
    (ch : Nat) : P (lockField ch) := by
  obtain h | h := lockField_cases ch <;> rw [h] <;> assumption

theorem lockField_width (ch : Nat) : (lockField ch).w = 1 := lockField_of_both (P := fun f => f.w = 1) rfl rfl ch

theorem lockField_unlogged (ch : Nat) : ∀ x ∈ logFields, (lockField ch).key ≠ x.key :=
  lockField_of_both (P := fun f => ∀ x ∈ logFields, f.key ≠ x.key) (by decide) (by decide) ch

/-- What an entry to DOWN or to HELLO writes beside the channels' own registers. -/
def crossingFields : List Fld :=
  [Reg.MBX_DB_RING_LO_BITS, Reg.MBX_DB_RING_HI_BITS, Reg.MBX_XING_STATUS_STATE, Reg.MBX_XING_COUNTS_DOWNS]

theorem lockField_crossing (ch : Nat) : ∀ x ∈ crossingFields, (lockField ch).key ≠ x.key :=
  lockField_of_both (P := fun f => ∀ x ∈ crossingFields, f.key ≠ x.key) (by decide) (by decide) ch

/-- The channels' registers end where MBX.XING_STATUS begins. -/
def channelsEnd : Nat := Reg.MBX_XING_STATUS_STATE.key

theorem lockField_beyond_channels (ch : Nat) : channelsEnd ≤ (lockField ch).key :=
  lockField_of_both (P := fun f => channelsEnd ≤ f.key) (by decide) (by decide) ch

theorem State.setLock_host {s : State} (hr : s.host.run = true) (ch : Nat) (v : Bool) :
    (s.setLock ch v).host = s.host.putB (lockField ch) v := by
  show (if s.host.run then s.host.putB (lockField ch) v else s.host) = _
  exact if_pos hr

theorem HostSide.get_setLost (h : HostSide) (ch : Nat) (v : Bool) (f : Fld) : (h.setLost ch v).get f = h.get f := rfl

theorem HostSide.setLost_state (h : HostSide) (ch : Nat) (v : Bool) : (h.setLost ch v).xing.state = h.xing.state := by
  unfold HostSide.setLost
  dsimp only
  split <;> rfl

/-- The loss or the return of a lock is remembered and logged, and what MBX.XING_STATUS shows of the locks stands. -/
theorem HostSide.get_logLock (h : HostSide) (ch code : Nat) (lost : Bool) (c : Nat) :
    ((h.setLost ch lost).log 1 code ch).get (lockField c) = h.get (lockField c) :=
  (HostSide.get_log_ne _ 1 code ch 0 0 (lockField_unlogged c)).trans (h.get_setLost ch lost _)

theorem HostSide.logLock_state (h : HostSide) (ch code : Nat) (lost : Bool) :
    ((h.setLost ch lost).log 1 code ch).xing.state = h.xing.state :=
  (congrArg XEnd.state (HostSide.log_xing _ 1 code ch 0 0)).trans (h.setLost_state ch lost)

/-! ## The entry to DOWN -/

/-- The registers of a channel that follow its state lie below MBX.XING_STATUS. -/
theorem channelFields_key (c w : Nat) : ∀ x ∈ [Reg.MBX_TXSTAT_FREE c, Reg.MBX_TXSTAT_FULL c, Reg.MBX_TXSTAT_ACKS c,
    Reg.MBX_RXSTAT_COUNT c, Reg.MBX_RXCELL_DATA c w], x.key < channelsEnd := by
  have hend : channelsEnd = 0x418000 * 32 := rfl
  simp only [List.forall_mem_cons, hend, Fld.key, Reg.MBX_TXSTAT_FREE, Reg.MBX_TXSTAT_FULL, Reg.MBX_TXSTAT_ACKS,
    Reg.MBX_RXSTAT_COUNT, Reg.MBX_RXCELL_DATA]
  refine ⟨?_, ?_, ?_, ?_, ?_, List.forall_mem_nil _⟩ <;> omega

/-- What no write to a channel's registers changes, no display of a channel's state does. -/
theorem HostSide.showChan_keeps {β : Type} (g : HostSide → β)
    (hput : ∀ (h : HostSide) (x : Fld) (v : Nat), x.key < channelsEnd → g (h.put x v) = g h) (h : HostSide) (c : Nat) :
    g (h.showChan c) = g h := by
  have hkey (w : Nat) := channelFields_key c w
  simp only [List.forall_mem_cons] at hkey
  have hfold (v : Nat → Nat) (l : List Nat) (h : HostSide) :
      g (l.foldl (fun h w => h.put (Reg.MBX_RXCELL_DATA c w) (v w)) h) = g h :=
    foldl_keeps g _ (fun h w => hput h _ _ (hkey w).2.2.2.2.1) l h
  obtain ⟨hfree, hfull, hacks, hcount, -⟩ := hkey 0
  simp only [HostSide.showChan, apply_ite g, hfold, hput _ _ _ hfree, hput _ _ _ hfull, hput _ _ _ hacks,
    hput _ _ _ hcount, ite_self]

theorem HostSide.get_showChan_beyond (h : HostSide) (c : Nat) {f : Fld} (hf : channelsEnd ≤ f.key) :
    (h.showChan c).get f = h.get f :=
  HostSide.showChan_keeps (fun h => h.get f)
    (fun h _ v hx => h.get_put_ne v (Nat.ne_of_gt (Nat.lt_of_lt_of_le hx hf))) h c

theorem HostSide.showChan_xing (h : HostSide) (c : Nat) : (h.showChan c).xing = h.xing :=
  HostSide.showChan_keeps HostSide.xing (fun _ _ _ _ => rfl) h c

theorem HostSide.crossingDown_state (h : HostSide) : h.crossingDown.xing.state = 0 :=
  congrArg XEnd.state (foldl_keeps HostSide.xing _ HostSide.showChan_xing (List.range 32)
    { h with
      xing := h.xing.goDown
      twin := { h.twin with releasing := false }
      uliska := { h.uliska with arms := [] } })

theorem HostSide.get_crossingDown_lock (h : HostSide) (ch : Nat) :
    h.crossingDown.get (lockField ch) = h.get (lockField ch) := by
  unfold HostSide.crossingDown HostSide.bump
  have hne {x : Fld} (hx : x ∈ crossingFields) := lockField_crossing ch x hx
  rw [HostSide.get_put_ne _ _ (hne (by decide)), HostSide.get_put_ne _ _ (hne (by decide)),
    HostSide.get_put_ne _ _ (hne (by decide)), HostSide.get_put_ne _ _ (hne (by decide))]
  exact foldl_keeps (fun h : HostSide => h.get (lockField ch)) HostSide.showChan
    (fun g c => g.get_showChan_beyond c (lockField_beyond_channels ch)) _ _

theorem State.crossingDown_host_state {s : State} (hr : s.host.run = true) : s.crossingDown.host.xing.state = 0 := by
  show (if s.host.run ∧ s.host.xing.state ≠ 0 then s.host.crossingDown else s.host).xing.state = 0
  by_cases hstate : s.host.xing.state = 0
  · rw [if_neg fun h => h.2 hstate, hstate]
  · rw [if_pos ⟨hr, hstate⟩, s.host.crossingDown_state]

theorem State.crossingDown_field_state {s : State} (hr : s.field.run = true) : s.crossingDown.field.xing.state = 0 := by
  show (if s.field.run ∧ s.field.xing.state ≠ 0 then s.field.crossingDown else s.field).xing.state = 0
  by_cases hstate : s.field.xing.state = 0
  · rw [if_neg fun h => h.2 hstate, hstate]
  · rw [if_pos ⟨hr, hstate⟩]
    rfl

theorem State.get_crossingDown_lock (s : State) (ch : Nat) :
    s.crossingDown.host.get (lockField ch) = s.host.get (lockField ch) := by
  show (if s.host.run ∧ s.host.xing.state ≠ 0 then s.host.crossingDown else s.host).get (lockField ch) = _
  split
  · exact s.host.get_crossingDown_lock ch
  · rfl

/-! ## A lost lock -/

/-- A running host side takes note that a channel is out of lock. -/
def State.noteLost (s : State) (ch : Nat) : State :=
  { s.setLock ch false with host := ((s.setLock ch false).host.setLost ch true).log 1 2 ch }

theorem State.noteLost_field (s : State) (ch : Nat) : (s.noteLost ch).field = s.field := rfl

theorem State.noteLost_state {s : State} (hr : s.host.run = true) (ch : Nat) :
    (s.noteLost ch).host.xing.state = s.host.xing.state := by
  refine ((s.setLock ch false).host.logLock_state ch 2 true).trans ?_
  rw [s.setLock_host hr]
  rfl

theorem State.noteLost_run (s : State) (ch : Nat) : (s.noteLost ch).host.run = s.host.run := by
  show (((s.setLock ch false).host.setLost ch true).log 1 2 ch).power.1 = s.host.power.1
  exact congrArg Prod.fst ((HostSide.log_power _ 1 2 ch 0 0).trans (s.setLock_host_power ch false))

theorem State.get_noteLost {s : State} (hr : s.host.run = true) (ch : Nat) :
    (s.noteLost ch).host.get (lockField ch) = 0 := by
  refine ((s.setLock ch false).host.get_logLock ch 2 true ch).trans ?_
  rw [s.setLock_host hr, HostSide.get_putB_self]
  exact Nat.zero_mod _

/-- What is left of the crossing's lock is the other channel's. -/
theorem State.noteLost_locks (s : State) (ch : Fin 2) :
    ((s.noteLost ch.val).phys.lock0 || (s.noteLost ch.val).phys.lock1) = s.locked (1 - ch.val) := by
  show ((s.setLock ch.val false).phys.lock0 || (s.setLock ch.val false).phys.lock1) = _
  rw [State.setLock_lock0, State.setLock_lock1]
  match ch with
  | 0 => exact Bool.false_or _
  | 1 => exact Bool.or_false _

/-- The loss of a lock while the host side runs: the crossing goes DOWN where the other channel is out of lock too. -/
theorem State.lockLost_eq {s : State} (hr : s.host.run = true) (ch : Fin 2) (hl : s.locked ch.val = true) :
    s.lockLost ch.val = if s.locked (1 - ch.val) then s.noteLost ch.val else (s.noteLost ch.val).crossingDown := by
  have hrun : (s.setLock ch.val false).host.run = true :=
    (congrArg Prod.fst (s.setLock_host_power ch.val false)).trans hr
  unfold State.lockLost
  rw [if_neg (by simp [hl])]
  dsimp only
  rw [if_pos hrun, ← s.noteLost_locks ch]
  rfl

theorem State.get_lockLost {s : State} (hr : s.host.run = true) (ch : Fin 2) (hl : s.locked ch.val = true) :
    (s.lockLost ch.val).host.get (lockField ch.val) = 0 := by
  rw [s.lockLost_eq hr ch hl]
  split
  · exact s.get_noteLost hr ch.val
  · rw [State.get_crossingDown_lock, s.get_noteLost hr ch.val]

/-! ## A gained lock -/

/-- The host remembers that the channel lost its lock. -/
def HostSide.hasLost (h : HostSide) (ch : Nat) : Bool := if ch = 0 then h.xing.lost0 else h.xing.lost1

/-- A running host side takes note that a channel is in lock again. -/
def State.noteGained (s : State) (ch : Nat) : State :=
  let s := s.setLock ch true
  if s.host.hasLost ch then { s with host := (s.host.setLost ch false).log 1 3 ch } else s

/-- A host end that is DOWN enters HELLO (R260). -/
def State.hostHello (s : State) : State :=
  if s.host.xing.state = 0 then
    { s with host := { s.host.setCrossing 1 with uliska := { s.host.uliska with seenHealth := false } } }
  else s

/-- A field end that is DOWN enters HELLO, and its Uliska sends INTERFACE_HELLO (R260). -/
def State.fieldHello (s : State) : State :=
  if s.field.xing.state = 0 then { s with field := (s.field.setCrossing 1).sendHello } else s

theorem State.noteGained_field (s : State) (ch : Nat) : (s.noteGained ch).field = s.field := by
  unfold State.noteGained
  dsimp only
  split <;> rfl

theorem State.noteGained_phys (s : State) (ch : Nat) : (s.noteGained ch).phys = (s.setLock ch true).phys := by
  unfold State.noteGained
  dsimp only
  split <;> rfl

theorem State.noteGained_state {s : State} (hr : s.host.run = true) (ch : Nat) :
    (s.noteGained ch).host.xing.state = s.host.xing.state := by
  have hset : (s.setLock ch true).host.xing.state = s.host.xing.state := by rw [s.setLock_host hr]; rfl
  unfold State.noteGained
  dsimp only
  split
  · exact ((s.setLock ch true).host.logLock_state ch 3 false).trans hset
  · exact hset

theorem State.get_noteGained {s : State} (hr : s.host.run = true) (ch : Nat) :
    (s.noteGained ch).host.get (lockField ch) = 1 := by
  have hset : (s.setLock ch true).host.get (lockField ch) = 1 := by
    rw [s.setLock_host hr, HostSide.get_putB_self, lockField_width]
    rfl
  unfold State.noteGained
  dsimp only
  split
  · exact ((s.setLock ch true).host.get_logLock ch 3 false ch).trans hset
  · exact hset

theorem HostSide.get_setCrossing_lock (h : HostSide) (st ch : Nat) :
    (h.setCrossing st).get (lockField ch) = h.get (lockField ch) :=
  HostSide.get_put_ne _ _ (lockField_crossing ch Reg.MBX_XING_STATUS_STATE (by decide))

theorem HostSide.get_setCrossing_state (h : HostSide) (st : Nat) :
    (h.setCrossing st).get Reg.MBX_XING_STATUS_STATE = st % 2 ^ 2 := HostSide.get_put_self _ _ _

theorem State.hostHello_field (s : State) : s.hostHello.field = s.field := by
  unfold State.hostHello
  split <;> rfl

theorem State.hostHello_phys (s : State) : s.hostHello.phys = s.phys := by
  unfold State.hostHello
  split <;> rfl

theorem State.get_hostHello_lock (s : State) (ch : Nat) :
    s.hostHello.host.get (lockField ch) = s.host.get (lockField ch) := by
  unfold State.hostHello
  split
  · exact s.host.get_setCrossing_lock 1 ch
  · rfl

theorem State.hostHello_down {s : State} (h : s.host.xing.state = 0) :
    s.hostHello.host.xing.state = 1 ∧ s.hostHello.host.get Reg.MBX_XING_STATUS_STATE = 1 := by
  unfold State.hostHello
  rw [if_pos h]
  refine ⟨rfl, ?_⟩
  exact s.host.get_setCrossing_state 1

theorem State.hostHello_up {s : State} (h : s.host.xing.state ≠ 0) : s.hostHello = s := if_neg h

theorem State.fieldHello_host (s : State) : s.fieldHello.host = s.host := by
  unfold State.fieldHello
  split <;> rfl

theorem State.fieldHello_phys (s : State) : s.fieldHello.phys = s.phys := by
  unfold State.fieldHello
  split <;> rfl

theorem State.fieldHello_down {s : State} (h : s.field.xing.state = 0) :
    s.fieldHello.field = (s.field.setCrossing 1).sendHello := by
  unfold State.fieldHello
  rw [if_pos h]

theorem State.fieldHello_up {s : State} (h : s.field.xing.state ≠ 0) : s.fieldHello = s := if_neg h

/-! ## Cells that the field end sends -/

/-- The first byte of a cell names its TYPE, and the CSEQ that a push writes leaves it (R251, R252). -/
theorem cellType_pushed_oneCell (ty msg n : Nat) (payload : List Byte) :
    cellType (patch (oneCell ty msg payload) 1 (leBytes n 1)) = ty % 256 :=
  BitVec.toNat_ofNat ty 8

@[simp] theorem XEnd.chan_setChan_self (x : XEnd) (c : Nat) (v : Chan) : (x.setChan c v).chan c = v :=
  tget_tput_self _ _ _ _

theorem FieldSide.sendCell_state (f : FieldSide) (c : Nat) (cell : List Byte) :
    (f.sendCell c cell).xing.state = f.xing.state := by
  unfold FieldSide.sendCell FieldSide.pushCell
  dsimp only
  split <;> rfl

/-- A cell that a channel may push joins the cells in flight. -/
theorem FieldSide.sendCell_flight {f : FieldSide} {c : Nat} (hp : f.xing.canPush c = true) (cell : List Byte) :
    ((f.sendCell c cell).xing.chan c).flight =
      (f.xing.chan c).flight ++ [⟨patch cell 1 (leBytes (f.xing.chan c).cseq 1), f.now⟩] := by
  have hp' : (f.setChan c { f.xing.chan c with stage := cell }).xing.canPush c = true := by
    unfold XEnd.canPush FieldSide.setChan at *
    rw [XEnd.chan_setChan_self]
    exact hp
  unfold FieldSide.sendCell FieldSide.pushCell
  dsimp only
  rw [if_pos hp']
  simp only [FieldSide.setChan, XEnd.chan_setChan_self, Chan.push]
  rfl

theorem FieldSide.sendHello_state (f : FieldSide) : f.sendHello.xing.state = f.xing.state :=
  FieldSide.sendCell_state _ 10 _

/-- INTERFACE_HELLO leaves on XM10 while a slot is free, TYPE 6 (Table 11.3). -/
theorem FieldSide.sendHello_flight {f : FieldSide} (hs : f.xing.state = 1) (hfull : (f.xing.chan 10).full < 16) :
    ∃ x, (f.sendHello.xing.chan 10).flight = (f.xing.chan 10).flight ++ [x] ∧ cellType x.cell = 6 := by
  have hp : ({ f with xing := { f.xing with msg := (f.xing.msg + 1) % 256 } } : FieldSide).xing.canPush 10 = true := by
    unfold XEnd.canPush
    simp only [hs, Bool.and_eq_true]
    exact ⟨decide_eq_true hfull, rfl⟩
  exact ⟨_, FieldSide.sendCell_flight hp _, cellType_pushed_oneCell 6 _ _ _⟩

theorem State.locked_setLock_self (s : State) (ch : Nat) (v : Bool) : (s.setLock ch v).locked ch = v := by
  unfold State.locked
  rw [State.setLock_lock0, State.setLock_lock1]
  split <;> rfl

/-! ## A lock that is gained once both sides' start-up has reached the crossing -/

section
variable {s : State} {ch : Nat} (hl : s.locked ch = false) (hh : s.host.run = true) (hf : s.field.run = true)
  (hstep : 4 ≤ s.host.get Reg.SYS_BOOT_STATUS_STEP) (hboot : 6 ≤ s.field.boot.step)
include hl hh hf hstep hboot

theorem State.lockGained_eq : s.lockGained ch = (s.noteGained ch).hostHello.fieldHello := by
  unfold State.lockGained
  rw [if_neg (by simp [hl, hh, hf, hstep, hboot])]
  rfl

theorem State.lockGained_locked : (s.lockGained ch).locked ch = true := by
  have hphys : (s.lockGained ch).phys = (s.setLock ch true).phys := by
    rw [State.lockGained_eq hl hh hf hstep hboot, State.fieldHello_phys, State.hostHello_phys, State.noteGained_phys]
  rw [← s.locked_setLock_self ch true]
  unfold State.locked
  rw [hphys]

theorem State.lockGained_host : (s.lockGained ch).host = (s.noteGained ch).hostHello.host := by
  rw [State.lockGained_eq hl hh hf hstep hboot, State.fieldHello_host]

theorem State.get_lockGained : (s.lockGained ch).host.get (lockField ch) = 1 := by
  rw [State.lockGained_host hl hh hf hstep hboot, State.get_hostHello_lock, State.get_noteGained hh]

theorem State.lockGained_host_down (h : s.host.xing.state = 0) :
    (s.lockGained ch).host.xing.state = 1 ∧ (s.lockGained ch).host.get Reg.MBX_XING_STATUS_STATE = 1 := by
  rw [State.lockGained_host hl hh hf hstep hboot]
  exact State.hostHello_down ((State.noteGained_state hh ch).trans h)

theorem State.lockGained_host_up (h : s.host.xing.state ≠ 0) :
    (s.lockGained ch).host.xing.state = s.host.xing.state := by
  have hstate := State.noteGained_state hh ch
  rw [State.lockGained_host hl hh hf hstep hboot, State.hostHello_up (hstate ▸ h), hstate]

theorem State.lockGained_field_down (h : s.field.xing.state = 0) :
    (s.lockGained ch).field = (s.field.setCrossing 1).sendHello := by
  have hfield : (s.noteGained ch).hostHello.field = s.field := by rw [State.hostHello_field, State.noteGained_field]
  rw [State.lockGained_eq hl hh hf hstep hboot, State.fieldHello_down (hfield ▸ h), hfield]

theorem State.lockGained_field_up (h : s.field.xing.state ≠ 0) : (s.lockGained ch).field = s.field := by
  have hfield : (s.noteGained ch).hostHello.field = s.field := by rw [State.hostHello_field, State.noteGained_field]
  rw [State.lockGained_eq hl hh hf hstep hboot, State.fieldHello_up (hfield ▸ h), hfield]
end

/-! ## The two commands -/

theorem State.held_field_of_eq {s t : State} (h : t.field = s.field) : (s.held t).field = s.field := by
  unfold State.held
  rw [h]

/-- A lost lock while the host side runs (R14, R262). -/
theorem completes_isolationLockLost {s : State} {ch : Fin 2} (hl : s.locked ch.val = true) (hr : s.host.run = true) :
    Completes (.isolationLockLost ch) s (fun t => t.locked ch.val = false ∧ t.host.get (lockField ch.val) = 0 ∧
      (s.locked (1 - ch.val) = true → t.host.xing.state = s.host.xing.state ∧ t.field = s.field) ∧
      (s.locked (1 - ch.val) = false → t.host.xing.state = 0 ∧ (s.field.run = true → t.field.xing.state = 0))) := by
  refine ⟨s.held (s.lockLost ch.val), rfl, rfl, s.lockLost_locked ch.val, State.get_lockLost hr ch hl,
    fun ho => ?_, fun ho => ?_⟩
  · have heq : s.lockLost ch.val = s.noteLost ch.val := by rw [State.lockLost_eq hr ch hl, if_pos ho]
    rw [heq]
    exact ⟨State.noteLost_state hr ch.val, State.held_field_of_eq (s.noteLost_field ch.val)⟩
  · have heq : s.lockLost ch.val = (s.noteLost ch.val).crossingDown := by
      rw [State.lockLost_eq hr ch hl, if_neg (by simp [ho])]
    rw [heq]
    exact ⟨State.crossingDown_host_state ((s.noteLost_run ch.val).trans hr), State.crossingDown_field_state⟩

/-- Settles O11: a lost lock by what the host notes and the entry to DOWN, a gained one by what each end then starts. -/
theorem isolationLocksGovernTheCrossing : Obligations.IsolationLocksGovernTheCrossing := by
  rintro s ch _ rfl
  refine ⟨completes_isolationLockLost, fun hl hh hf hstep hboot => ?_⟩
  refine ⟨s.held (s.lockGained ch.val), rfl, rfl, State.lockGained_locked hl hh hf hstep hboot,
    State.get_lockGained hl hh hf hstep hboot, State.lockGained_host_down hl hh hf hstep hboot,
    State.lockGained_host_up hl hh hf hstep hboot,
    fun h => State.held_field_of_eq (State.lockGained_field_up hl hh hf hstep hboot h), fun h => ?_⟩
  have hfield := State.lockGained_field_down hl hh hf hstep hboot h
  refine ⟨(congrArg (·.xing.state) hfield).trans (FieldSide.sendHello_state _), fun hfull => ?_⟩
  obtain ⟨x, hx, htype⟩ := FieldSide.sendHello_flight (f := s.field.setCrossing 1) rfl hfull
  exact ⟨x, (congrArg (fun f => (f.xing.chan 10).flight) hfield).trans hx, htype⟩

end Sys2Proof.Machine
end

section
/-! Read indices and budgets (O9; 02_freshness.md R53, R54, 03_structure_image.md R82): a write either sets its one field or
only answers. -/

namespace Sys2Proof.Machine

open Sys2Proof

theorem bits_low (v w : Nat) : bits v 0 w = v % 2 ^ w := by
  rw [bits, Nat.pow_zero, Nat.div_one]

section
variable {c : Instr} {s : State}

/-- A register access that sets one field changes no other and no memory. -/
theorem completes_putOnly {f : Fld} {v : Nat} (hv : v < 2 ^ f.w)
    (hc : exec c s = .next (s.held { s with host := (s.host.answer .none).put f v })) :
    Completes c s (fun t => t.host.get f = v ∧ RegsKept [f] s t ∧ MemKept s t ∧ OnlyHost s t) :=
  .ofHost hc ⟨rfl, rfl⟩ fun hm ho =>
    ⟨(HostSide.get_put_self ..).trans (Nat.mod_eq_of_lt hv), fun _ hg => HostSide.get_put_ne _ _ (hg f List.mem_cons_self),
      hm, ho⟩

/-- A register access that only answers changes no field and no memory. -/
theorem completes_answerOnly (hc : exec c s = .next (s.held { s with host := s.host.answer .none })) :
    Completes c s (fun t => RegsKept [] s t ∧ MemKept s t ∧ OnlyHost s t) :=
  .ofHost hc ⟨rfl, rfl⟩ fun hm ho => ⟨fun _ _ => rfl, hm, ho⟩

end

section
variable {s : State} {who : Requester} (v : Word)

theorem exec_evtRdWrite (hr : s.reaches who) :
    exec (.evtRdWrite who v) s = .next (s.held { s with
      host := if onSpan 4096 (s.host.get Reg.FRS_EVT_RD_INDEX) (s.host.get Reg.FRS_EVT_WR_INDEX) (v.toNat % 4096) then
          (s.host.answer .none).put Reg.FRS_EVT_RD_INDEX (v.toNat % 4096)
        else s.host.answer .none }) := by
  show execEvtRdWrite who v s = _
  unfold execEvtRdWrite
  rw [regCmd_reaches hr]
  simp only [bits_low, HostSide.get_answer]
  rfl

theorem exec_logRdWrite (hr : s.reaches who) :
    exec (.logRdWrite who v) s = .next (s.held { s with
      host := if onSpan s.host.cfg.log.modCount (s.host.get Reg.SYS_LOG_RD_INDEX) (s.host.get Reg.SYS_LOG_WR_INDEX)
            (v.toNat % 2 ^ 16) then
          (s.host.answer .none).put Reg.SYS_LOG_RD_INDEX (v.toNat % 2 ^ 16)
        else s.host.answer .none }) := by
  show execLogRdWrite who v s = _
  unfold execLogRdWrite
  rw [regCmd_reaches hr]
  simp only [bits_low, HostSide.get_answer, HostSide.answer_cfg]

theorem exec_layerBudgetWrite (l : Fin 1024) (hr : s.reaches who) :
    exec (.layerBudgetWrite who l v) s = .next (s.held { s with
      host := if 1 ≤ v.toNat % 2 ^ 26 ∧ v.toNat % 2 ^ 26 ≤ ((s.host.layerEntry l.val).map (·.budget)).getD 0 then
          (s.host.answer .none).put (Reg.FRS_LAYER_BUDGET_BUDGET l.val) (v.toNat % 2 ^ 26)
        else (s.host.answer .none).put (Reg.FRS_LAYER_STATE_BUDGET_REFUSED l.val) 1 }) := by
  show execLayerBudgetWrite who l v s = _
  unfold execLayerBudgetWrite
  rw [regCmd_reaches hr]
  simp only [bits_low]
  rfl

end

/-- Settles O9: on the span, or within the admitted budget, the write sets its field; else it only answers, or sets
BUDGET_REFUSED. -/
theorem readIndicesStayOnTheSpan : Obligations.ReadIndicesStayOnTheSpan := by
  intro s who v l hr
  refine ⟨?_, ?_, ?_⟩
  · rintro i rfl
    have hexec := exec_evtRdWrite v hr
    refine ⟨fun hon => ?_, fun hoff => ?_⟩
    · rw [if_pos hon] at hexec
      exact completes_putOnly (Nat.mod_lt _ (by decide)) hexec
    · rw [hoff] at hexec
      exact completes_answerOnly hexec
  · rintro i rfl
    have hexec := exec_logRdWrite v hr
    refine ⟨fun hon => ?_, fun hoff => ?_⟩
    · rw [if_pos hon] at hexec
      exact completes_putOnly (Nat.mod_lt _ (by decide)) hexec
    · rw [hoff] at hexec
      exact completes_answerOnly hexec
  · rintro b rfl
    have hexec := exec_layerBudgetWrite v l hr
    refine ⟨fun h1 hadmitted => ?_, fun hout => ?_⟩
    · rw [if_pos ⟨h1, hadmitted⟩] at hexec
      exact completes_putOnly (Nat.mod_lt _ (by decide)) hexec
    · rw [if_neg (by omega)] at hexec
      exact completes_putOnly Nat.one_lt_two hexec

end Sys2Proof.Machine
end

section
/-! The sweep of vintage tags (O40; 02_freshness.md R30, 07_mimic.md R170, R176): what a swept tag or cell satisfies, that a
sweep over a table reaches every entry, and what each part of the sweep leaves to the others. -/

namespace Sys2Proof.Machine

open Sys2Proof

/-! ## Effects on registers and the central store alone -/

/-- From `h` to `g` only registers and the central store have changed. -/
def HostSide.RegsStore (h g : HostSide) : Prop := g = { h with regs := g.regs, store := g.store }

namespace HostSide.RegsStore

theorem refl (h : HostSide) : h.RegsStore h := rfl

theorem trans {h g k : HostSide} (a : h.RegsStore g) (b : g.RegsStore k) : h.RegsStore k := by
  unfold HostSide.RegsStore at *
  rw [b, a]

theorem put {h g : HostSide} (a : h.RegsStore g) (f : Fld) (v : Nat) : h.RegsStore (g.put f v) := a.trans rfl

theorem ofLogged {h g : HostSide} (a : h.Logged g) : h.RegsStore g := a.rest

theorem foldl {α : Type} {f : HostSide → α → HostSide} (hf : ∀ (g : HostSide) (a : α), g.RegsStore (f g a))
    (l : List α) (h : HostSide) : h.RegsStore (l.foldl f h) := by
  induction l generalizing h with
  | nil => exact .refl h
  | cons a l ih => exact (hf h a).trans (ih _)

variable {h g : HostSide} (a : h.RegsStore g)
include a

theorem tb : g.tb = h.tb := (congrArg HostSide.tb a).trans rfl
theorem cfg : g.cfg = h.cfg := (congrArg HostSide.cfg a).trans rfl
theorem twinBody : g.twinBody = h.twinBody := by rw [HostSide.twinBody, a.cfg]; rfl
theorem display : g.display = h.display := (congrArg HostSide.display a).trans rfl
theorem lanes : g.lanes = h.lanes := (congrArg HostSide.lanes a).trans rfl
theorem video : g.video = h.video := (congrArg HostSide.video a).trans rfl
theorem mimic : g.mimic = h.mimic := (congrArg HostSide.mimic a).trans rfl

end HostSide.RegsStore

theorem HostSide.showSurf_regsStore (h : HostSide) : h.RegsStore h.showSurf := by
  unfold HostSide.showSurf
  iterate 13 refine .put ?_ _ _
  exact .refl h

theorem HostSide.showContext_regsStore (h : HostSide) (s : Nat) : h.RegsStore (h.showContext s) := by
  unfold HostSide.showContext
  iterate 7 refine .put ?_ _ _
  exact .refl h

theorem HostSide.showWidget_regsStore (h : HostSide) : h.RegsStore h.showWidget := by
  unfold HostSide.showWidget
  iterate 8 refine .put ?_ _ _
  exact .refl h

theorem HostSide.showCell_regsStore (h : HostSide) : h.RegsStore h.showCell := by
  unfold HostSide.showCell
  dsimp only
  exact .put (.put (.put (.refl h) _ _) _ _) _ _

theorem HostSide.showMimic_regsStore (h : HostSide) : h.RegsStore h.showMimic :=
  .trans (.put (.put (.refl h) _ _) _ _) (.trans (HostSide.showWidget_regsStore _) (HostSide.showCell_regsStore _))

theorem HostSide.frsEvent_regsStore (h : HostSide) (e : FrsEvent) : h.RegsStore (h.frsEvent e) := by
  unfold HostSide.frsEvent
  dsimp only
  split
  · exact .put (.refl h) _ _
  · exact .put (.ofLogged (h.caPut_logged _ _ _)) _ _

theorem HostSide.putMap_regsStore (h : HostSide) (m : Nat) (s : MimicSurf) (cells : List Nat) :
    (h.setMimicSurf m (some s)).RegsStore (h.putMap m s cells) :=
  .foldl (fun g _ => .ofLogged (g.caPut_logged _ _ _)) _ _

/-! ## Sweeps over a table -/

theorem tget_mem {α : Type} (d : α) (t : Table α) (k : Nat) : tget d t k = d ∨ (k, tget d t k) ∈ t := by
  induction t with
  | nil => exact .inl rfl
  | cons p t ih =>
    obtain ⟨a, v⟩ := p
    by_cases ha : a = k
    · exact .inr (by simp [tget, ha])
    · simpa [tget, ha, Ne.symm ha] using ih

/-- A table rebuilt from entries that satisfy `P` satisfies it at every key. -/
theorem tget_rebuilt {α : Type} [DecidableEq α] {d : α} {P : α → Prop} (f : α → α) (hd : P d) (hf : ∀ v, P (f v))
    (l : Table α) (k : Nat) : P (tget d (l.foldl (fun t p => tput d t p.1 (f p.2)) []) k) := by
  have hfold (t : Table α) (ht : P (tget d t k)) : P (tget d (l.foldl (fun t p => tput d t p.1 (f p.2)) t) k) := by
    induction l generalizing t with
    | nil => exact ht
    | cons p l ih =>
      refine ih _ ?_
      rw [tget_tput]
      split
      · exact hf p.2
      · exact ht
  exact hfold [] hd

/-- At key `k` there is nothing, or something that satisfies `Q`. -/
def HoldsAt {σ β : Type} (get : σ → Nat → Option β) (Q : β → Prop) (a : σ) (k : Nat) : Prop :=
  ∀ v, get a k = some v → Q v

/-- A fold over the listed entries reaches every entry, where a step leaves a key as it is or satisfied, and satisfies the
key of the entry that it is given. -/
theorem holdsAt_foldl {σ β : Type} {get : σ → Nat → Option β} {Q : β → Prop} {step : σ → Nat × Option β → σ}
    (hkeep : ∀ a p k, get (step a p) k = get a k ∨ HoldsAt get Q (step a p) k)
    (hstep : ∀ a k, HoldsAt get Q (step a (k, get a k)) k) {l : List (Nat × Option β)} {a : σ} {k : Nat}
    (hl : HoldsAt get Q a k ∨ (k, get a k) ∈ l) : HoldsAt get Q (l.foldl step a) k := by
  induction l generalizing a with
  | nil => exact hl.resolve_right List.not_mem_nil
  | cons p l ih =>
    refine ih ?_
    rcases hkeep a p k with heq | hnow
    · rcases hl with hnow | hmem
      · exact .inl fun v hv => hnow v (heq ▸ hv)
      · rcases List.mem_cons.1 hmem with rfl | hmem
        · exact .inl (hstep a k)
        · exact .inr (heq.symm ▸ hmem)
    · exact .inl hnow

/-! ## Swept tags and cells -/

/-- A tag is marked, or its content is younger than 2^30 VT units (R30). -/
def Tag.Judged (now : VT) (t : Tag) : Prop := t.ancient = true ∨ vtDiff now t.vt < 2 ^ 30

theorem Tag.judged_of_sweep {now : VT} {t : Tag} (h : (t.sweep now).ancient = true → t.ancient = true) : t.Judged now := by
  by_cases hage : 0x40000000 ≤ vtDiff now t.vt
  · exact .inl (h (by simp [Tag.sweep, hage]))
  · exact .inr (Int.not_le.1 hage)

theorem Tag.sweep_judged (t : Tag) (now : VT) : (t.sweep now).Judged now := by
  by_cases hage : 0x40000000 ≤ vtDiff now t.vt
  · exact .inl (by simp [Tag.sweep, hage])
  · exact .inr (Int.not_le.1 hage)

/-- A cell is static, marked, or younger than 2^30 VT units (R170). -/
def Cell.Judged (now : VT) (c : Cell) : Prop :=
  bit c.flags 5 = true ∨ bit c.flags 2 = true ∨ vtDiff now c.vt < 2 ^ 30

/-- ANCIENT in one cell that is not static (R170). -/
def Cell.sweep (now : VT) (c : Cell) : Cell :=
  if bit c.flags 5 then c
  else if 0x40000000 ≤ vtDiff now c.vt then { c with flags := setBit c.flags 2 } else c

theorem bit_setBit_self (v i : Nat) : bit (setBit v i) i = true := by
  unfold setBit
  split
  · assumption
  · next h =>
    simp only [bit, beq_iff_eq] at h ⊢
    rw [Nat.add_div_right _ (Nat.two_pow_pos i)]
    omega

theorem Cell.sweep_judged (c : Cell) (now : VT) : (c.sweep now).Judged now := by
  unfold Cell.sweep
  split
  · next hstatic => exact .inl hstatic
  · split
    · exact .inr (.inl (bit_setBit_self _ _))
    · next hage => exact .inr (.inr (Int.not_le.1 hage))

/-- ANCIENT in the tag of a region's latest transfer. -/
def Region.sweep (now : VT) (r : Region) : Region :=
  { r with latest := r.latest.map (fun x => { x with tag := x.tag.sweep now }) }

/-! ## Surfaces and stitch transfers -/

/-- The sweep of one surface. -/
def HostSide.ageSurface (now : VT) (h : HostSide) (p : Nat × Option Surface) : HostSide :=
  match p.2 with
  | some v =>
    if (v.tag.sweep now).ancient && !v.tag.ancient then
      (h.setSurface p.1 (some { v with tag := v.tag.sweep now })).frsEvent { code := 6, detail := p.1 }
    else h
  | none => h

/-- The surfaces swept, and the regions not yet. -/
def HostSide.agedSurfaces (h : HostSide) : HostSide := h.display.surfaces.foldl (HostSide.ageSurface h.vt) h

/-- The tags of the stitch transfers swept. -/
def HostSide.agedRegions (h : HostSide) (now : VT) : HostSide :=
  { h with lanes := { h.lanes with
    regions := h.lanes.regions.foldl (fun t p => tput Region.empty t p.1 (p.2.sweep now)) [] } }

theorem HostSide.sweepSurfaces_eq (h : HostSide) : h.sweepSurfaces = (h.agedSurfaces.agedRegions h.vt).showSurf :=
  congrArg HostSide.showSurf (rfl : _ = h.agedSurfaces.agedRegions h.vt)

theorem HostSide.surface_frsEvent (h : HostSide) (e : FrsEvent) (n : Nat) : (h.frsEvent e).surface n = h.surface n :=
  congrArg (fun d : Display => tget none d.surfaces n) (h.frsEvent_regsStore e).display

theorem HostSide.ageSurface_keeps (now : VT) (h : HostSide) (p : Nat × Option Surface) (n : Nat) :
    (h.ageSurface now p).surface n = h.surface n ∨
      HoldsAt HostSide.surface (fun v => v.tag.Judged now) (h.ageSurface now p) n := by
  unfold HostSide.ageSurface
  split
  · next v _ =>
    split
    · by_cases hn : n = p.1
      · subst hn
        refine .inr fun w hw => ?_
        rw [HostSide.surface_frsEvent, HostSide.surface_setSurface_self] at hw
        exact Option.some.inj hw ▸ v.tag.sweep_judged now
      · exact .inl (by rw [HostSide.surface_frsEvent, HostSide.surface_setSurface_ne _ _ hn])
    · exact .inl rfl
  · exact .inl rfl

theorem HostSide.ageSurface_judges (now : VT) (h : HostSide) (n : Nat) :
    HoldsAt HostSide.surface (fun v => v.tag.Judged now) (h.ageSurface now (n, h.surface n)) n := by
  intro w hw
  unfold HostSide.ageSurface at hw
  dsimp only at hw
  split at hw
  · next v hv =>
    split at hw
    · rw [HostSide.surface_frsEvent, HostSide.surface_setSurface_self] at hw
      exact Option.some.inj hw ▸ v.tag.sweep_judged now
    · next hage =>
      obtain rfl : v = w := Option.some.inj (hv.symm.trans hw)
      exact Tag.judged_of_sweep (by simpa using hage)
  · next hv => rw [hv] at hw; cases hw

theorem HostSide.ageSurface_tb (now : VT) (h : HostSide) (p : Nat × Option Surface) : (h.ageSurface now p).tb = h.tb := by
  unfold HostSide.ageSurface
  split
  · split
    · exact (HostSide.frsEvent_regsStore _ _).tb
    · rfl
  · rfl

theorem HostSide.sweepSurfaces_regsStore (h : HostSide) : (h.agedSurfaces.agedRegions h.vt).RegsStore h.sweepSurfaces :=
  h.sweepSurfaces_eq ▸ HostSide.showSurf_regsStore _

theorem HostSide.sweepSurfaces_tb (h : HostSide) : h.sweepSurfaces.tb = h.tb :=
  h.sweepSurfaces_regsStore.tb.trans (foldl_keeps HostSide.tb _ (HostSide.ageSurface_tb h.vt) h.display.surfaces h)

theorem HostSide.sweepSurfaces_surfaces (h : HostSide) (n : Nat) (v : Surface) (hv : h.sweepSurfaces.surface n = some v) :
    v.tag.Judged h.vt := by
  unfold HostSide.surface at hv
  rw [h.sweepSurfaces_regsStore.display] at hv
  refine holdsAt_foldl (HostSide.ageSurface_keeps h.vt) (HostSide.ageSurface_judges h.vt)
    (l := h.display.surfaces) (a := h) ?_ v hv
  exact (tget_mem none h.display.surfaces n).imp_left fun hnone w hw => by
    cases hnone.symm.trans hw

theorem HostSide.sweepSurfaces_regions (h : HostSide) (n : Nat) (x : Transfer)
    (hx : (tget Region.empty h.sweepSurfaces.lanes.regions n).latest = some x) : x.tag.Judged h.vt := by
  rw [h.sweepSurfaces_regsStore.lanes] at hx
  refine tget_rebuilt (P := fun r : Region => ∀ y, r.latest = some y → y.tag.Judged h.vt) (Region.sweep h.vt)
    (fun _ hy => by cases hy) (fun r y hy => ?_) h.agedSurfaces.lanes.regions n x hx
  obtain ⟨z, -, rfl⟩ := Option.map_eq_some_iff.1 hy
  exact z.tag.sweep_judged h.vt

/-! ## Decoded pictures -/

/-- The tags of the pictures swept, and nothing shown of them yet. -/
def HostSide.agedPictures (h : HostSide) : HostSide :=
  { h with video := { h.video with pictures := h.video.pictures.foldl (fun t p => tput none t p.1
    (p.2.map (fun x => { x with tag := x.tag.sweep h.vt }))) [] } }

theorem HostSide.sweepPictures_eq (h : HostSide) :
    h.sweepPictures = h.cfg.streams.foldl (fun g e => g.showContext e.stream) h.agedPictures := rfl

theorem HostSide.sweepPictures_regsStore (h : HostSide) : h.agedPictures.RegsStore h.sweepPictures := by
  rw [h.sweepPictures_eq]
  exact .foldl (f := fun g (e : StreamEntry) => g.showContext e.stream) (fun g e => g.showContext_regsStore e.stream) _ _

theorem HostSide.sweepPictures_pictures (h : HostSide) (n : Nat) (v : Picture) (hv : h.sweepPictures.picture n = some v) :
    v.tag.Judged h.vt := by
  unfold HostSide.picture at hv
  rw [h.sweepPictures_regsStore.video] at hv
  refine tget_rebuilt (P := fun q : Option Picture => ∀ x, q = some x → x.tag.Judged h.vt)
    (·.map (fun x => { x with tag := x.tag.sweep h.vt })) (fun _ hx => by cases hx) (fun q x hx => ?_)
    h.video.pictures n v hv
  obtain ⟨z, -, rfl⟩ := Option.map_eq_some_iff.1 hx
  exact z.tag.sweep_judged h.vt

/-! ## Widgets and mimic cells -/

/-- The widget tags swept, and the cells not yet. -/
def HostSide.agedWidgets (h : HostSide) : HostSide :=
  { h with mimic := { h.mimic with widgets := h.mimic.widgets.foldl (fun t p => tput WidgetState.fresh t p.1
    { p.2 with tag := p.2.tag.sweep h.vt }) [] } }

/-- The sweep of one mimic surface's cells. -/
def MimicSurf.sweep (now : VT) (s : MimicSurf) : MimicSurf :=
  { s with cells := s.cells.foldl (fun t q => tput Cell.static t q.1 (q.2.sweep now)) [] }

def HostSide.ageMimic (now : VT) (h : HostSide) (p : Nat × Option MimicSurf) : HostSide :=
  match p.2 with
  | some s => h.putMap p.1 (s.sweep now) ((s.cells.filter (fun q => q.2.sweep now != q.2)).map (·.1))
  | none => h

theorem HostSide.sweepMimic_eq (h : HostSide) :
    h.sweepMimic = (h.mimic.surfs.foldl (HostSide.ageMimic h.vt) h.agedWidgets).showMimic := rfl

theorem MimicSurf.sweep_cell_judged (s : MimicSurf) (now : VT) (i : Nat) :
    (tget Cell.static (s.sweep now).cells i).Judged now :=
  tget_rebuilt (P := Cell.Judged now) (Cell.sweep now) (.inl rfl) (·.sweep_judged now) s.cells i

theorem HostSide.mimicSurf_putMap (h : HostSide) (m : Nat) (s : MimicSurf) (cells : List Nat) (n : Nat) :
    (h.putMap m s cells).mimicSurf n = (h.setMimicSurf m (some s)).mimicSurf n :=
  congrArg (fun d : Mimic => tget none d.surfs n) (h.putMap_regsStore m s cells).mimic

/-- Every cell of a mimic surface is judged. -/
def MimicSurf.Judged (now : VT) (s : MimicSurf) : Prop := ∀ i, (tget Cell.static s.cells i).Judged now

theorem HostSide.ageMimic_keeps (now : VT) (h : HostSide) (p : Nat × Option MimicSurf) (n : Nat) :
    (h.ageMimic now p).mimicSurf n = h.mimicSurf n ∨
      HoldsAt HostSide.mimicSurf (MimicSurf.Judged now) (h.ageMimic now p) n := by
  unfold HostSide.ageMimic
  split
  · next s _ =>
    by_cases hn : n = p.1
    · subst hn
      refine .inr fun u hu => ?_
      rw [HostSide.mimicSurf_putMap, HostSide.mimicSurf_setMimicSurf_self] at hu
      exact Option.some.inj hu ▸ s.sweep_cell_judged now
    · exact .inl (by rw [HostSide.mimicSurf_putMap, HostSide.mimicSurf_setMimicSurf_ne _ _ hn])
  · exact .inl rfl

theorem HostSide.ageMimic_judges (now : VT) (h : HostSide) (n : Nat) :
    HoldsAt HostSide.mimicSurf (MimicSurf.Judged now) (h.ageMimic now (n, h.mimicSurf n)) n := by
  intro u hu
  unfold HostSide.ageMimic at hu
  dsimp only at hu
  split at hu
  · next s _ =>
    rw [HostSide.mimicSurf_putMap, HostSide.mimicSurf_setMimicSurf_self] at hu
    exact Option.some.inj hu ▸ s.sweep_cell_judged now
  · next hnone => rw [hnone] at hu; cases hu

/-- What the sweep of the mimic surfaces' cells leaves to the other parts of the sweep. -/
theorem HostSide.ageMimic_frame (now : VT) (h : HostSide) (p : Nat × Option MimicSurf) :
    ((h.ageMimic now p).tb, (h.ageMimic now p).display, (h.ageMimic now p).lanes, (h.ageMimic now p).video,
      (h.ageMimic now p).mimic.widgets) = (h.tb, h.display, h.lanes, h.video, h.mimic.widgets) := by
  unfold HostSide.ageMimic
  split
  · next s _ =>
    have hput := h.putMap_regsStore p.1 (s.sweep now) ((s.cells.filter (fun q => q.2.sweep now != q.2)).map (·.1))
    rw [hput.tb, hput.display, hput.lanes, hput.video, hput.mimic]
    rfl
  · rfl

theorem HostSide.sweepMimic_frame (h : HostSide) :
    (h.sweepMimic.tb, h.sweepMimic.display, h.sweepMimic.lanes, h.sweepMimic.video, h.sweepMimic.mimic.widgets) =
      (h.tb, h.display, h.lanes, h.video, h.agedWidgets.mimic.widgets) := by
  have hshow := (h.mimic.surfs.foldl (HostSide.ageMimic h.vt) h.agedWidgets).showMimic_regsStore
  rw [h.sweepMimic_eq, hshow.tb, hshow.display, hshow.lanes, hshow.video, hshow.mimic]
  exact foldl_keeps (fun g : HostSide => (g.tb, g.display, g.lanes, g.video, g.mimic.widgets)) _
    (HostSide.ageMimic_frame h.vt) h.mimic.surfs h.agedWidgets

theorem HostSide.sweepMimic_widgets (h : HostSide) (n : Nat) : (h.sweepMimic.widgetState n).tag.Judged h.vt := by
  have hwidgets : h.sweepMimic.mimic.widgets = h.agedWidgets.mimic.widgets := congrArg (·.2.2.2.2) h.sweepMimic_frame
  unfold HostSide.widgetState
  rw [hwidgets]
  exact tget_rebuilt (P := fun w : WidgetState => w.tag.Judged h.vt)
    (fun w => { w with tag := w.tag.sweep h.vt }) (.inl rfl) (·.tag.sweep_judged h.vt) h.mimic.widgets n

theorem HostSide.sweepMimic_cells (h : HostSide) (m : Nat) (u : MimicSurf) (hu : h.sweepMimic.mimicSurf m = some u) :
    u.Judged h.vt := by
  have hshow := (h.mimic.surfs.foldl (HostSide.ageMimic h.vt) h.agedWidgets).showMimic_regsStore
  unfold HostSide.mimicSurf at hu
  rw [h.sweepMimic_eq, hshow.mimic] at hu
  refine holdsAt_foldl (HostSide.ageMimic_keeps h.vt) (HostSide.ageMimic_judges h.vt)
    (l := h.mimic.surfs) (a := h.agedWidgets) ?_ u hu
  exact (tget_mem none h.mimic.surfs m).imp_left fun hnone w hw => by
    cases hnone.symm.trans hw

/-! ## The whole sweep -/

/-- The host side after the whole sweep. -/
def HostSide.swept (h : HostSide) : HostSide := h.sweepSurfaces.sweepPictures.sweepMimic

theorem exec_vintageSweep {s : State} (hr : s.hostReady) :
    exec .vintageSweep s = .next (s.held { s with host := s.host.swept }) := hostCmd_ready hr HostSide.swept

theorem HostSide.sweepPictures_sweepSurfaces_tb (h : HostSide) : h.sweepSurfaces.sweepPictures.tb = h.tb :=
  h.sweepSurfaces.sweepPictures_regsStore.tb.trans h.sweepSurfaces_tb

/-- What the later parts of the sweep leave of the earlier ones. -/
theorem HostSide.swept_frame (h : HostSide) : (h.swept.tb, h.swept.display, h.swept.lanes, h.swept.video) =
    (h.tb, h.sweepSurfaces.display, h.sweepSurfaces.lanes, h.sweepSurfaces.sweepPictures.video) := by
  have hpics := h.sweepSurfaces.sweepPictures_regsStore
  have hmimic := h.sweepSurfaces.sweepPictures.sweepMimic_frame
  simp only [Prod.mk.injEq] at hmimic
  obtain ⟨htb, hdisplay, hlanes, hvideo, -⟩ := hmimic
  rw [HostSide.swept, htb, hdisplay, hlanes, hvideo, h.sweepPictures_sweepSurfaces_tb, hpics.display, hpics.lanes]
  rfl

theorem HostSide.swept_surfaces (h : HostSide) (n : Nat) (v : Surface) (hv : h.swept.surface n = some v) :
    v.tag.Judged h.vt := by
  have hdisplay : h.swept.display = h.sweepSurfaces.display := congrArg (·.2.1) h.swept_frame
  unfold HostSide.surface at hv
  rw [hdisplay] at hv
  exact h.sweepSurfaces_surfaces n v hv

theorem HostSide.swept_regions (h : HostSide) (n : Nat) (x : Transfer)
    (hx : (tget Region.empty h.swept.lanes.regions n).latest = some x) : x.tag.Judged h.vt := by
  have hlanes : h.swept.lanes = h.sweepSurfaces.lanes := congrArg (·.2.2.1) h.swept_frame
  rw [hlanes] at hx
  exact h.sweepSurfaces_regions n x hx

theorem HostSide.swept_pictures (h : HostSide) (n : Nat) (v : Picture) (hv : h.swept.picture n = some v) :
    v.tag.Judged h.vt := by
  have hvideo : h.swept.video = h.sweepSurfaces.sweepPictures.video := congrArg (·.2.2.2) h.swept_frame
  have hvt : h.sweepSurfaces.vt = h.vt := congrArg (fun b : TimeBase => vtOf b.now) h.sweepSurfaces_tb
  unfold HostSide.picture at hv
  rw [hvideo] at hv
  have hjudged := h.sweepSurfaces.sweepPictures_pictures n v hv
  rwa [hvt] at hjudged

theorem HostSide.sweepPictures_sweepSurfaces_vt (h : HostSide) : h.sweepSurfaces.sweepPictures.vt = h.vt :=
  congrArg (fun b : TimeBase => vtOf b.now) h.sweepPictures_sweepSurfaces_tb

theorem HostSide.swept_widgets (h : HostSide) (n : Nat) : (h.swept.widgetState n).tag.Judged h.vt :=
  h.sweepPictures_sweepSurfaces_vt ▸ h.sweepSurfaces.sweepPictures.sweepMimic_widgets n

theorem HostSide.swept_cells (h : HostSide) (m : Nat) (u : MimicSurf) (hu : h.swept.mimicSurf m = some u) :
    u.Judged h.vt :=
  h.sweepPictures_sweepSurfaces_vt ▸ h.sweepSurfaces.sweepPictures.sweepMimic_cells m u hu

/-- Settles O40: each part of the sweep judges its own tags, and the later parts leave them alone. -/
theorem sweepMarksOldContentAncient : Obligations.SweepMarksOldContentAncient := by
  intro s judged hjudged hr
  obtain rfl : judged = Tag.Judged s.host.vt := funext fun g => propext (hjudged g)
  exact .hostAlone (exec_vintageSweep hr) fun ho => ⟨s.host.swept_surfaces, s.host.swept_pictures, s.host.swept_regions,
    s.host.swept_widgets, fun m u i hu => s.host.swept_cells m u hu i, congrArg (·.1) s.host.swept_frame, ho⟩

end Sys2Proof.Machine
end

section
/-! Core faults (O39; 05_ingest_decode.md R133, 16_twin_repair.md R387):
what the mark of a faulted core leaves of its work, and which commands mark one. -/

namespace Sys2Proof.Machine

open Sys2Proof

/-! ## The registers of a core -/

/-- The fields that show a core's work. -/
def workFields (c : Nat) : List Fld :=
  [Reg.DEC_CORE_STATUS_BUSY c, Reg.DEC_CORE_STATUS_STREAM c, Reg.DEC_CORE_STATUS_QUEUED c]

theorem HostSide.get_setCore_ne (h : HostSide) {c : Nat} (k : Core) {f : Fld} (hf : ∀ x ∈ workFields c, f.key ≠ x.key) :
    (h.setCore c k).get f = h.get f := by
  simp only [workFields, List.forall_mem_cons] at hf
  obtain ⟨hbusy, hstream, hqueued, -⟩ := hf
  unfold HostSide.setCore
  rw [HostSide.get_put_ne _ _ hqueued, HostSide.get_put_ne _ _ hstream, HostSide.get_putB_ne _ _ hbusy]
  rfl

theorem HostSide.core_setCore_self (h : HostSide) (c : Nat) (k : Core) : (h.setCore c k).core c = k := tget_tput_self _ _ _ _

theorem HostSide.core_setCore_ne (h : HostSide) {c d : Nat} (k : Core) (hd : d ≠ c) : (h.setCore c k).core d = h.core d :=
  tget_tput_ne _ _ _ _ hd

theorem HostSide.setCore_dc8For (h : HostSide) (c : Nat) (k : Core) : (h.setCore c k).video.dc8For = h.video.dc8For := rfl

/-- FAULTED of a core lies apart from the fields that show any core's work. -/
theorem faulted_not_work (c d : Nat) : ∀ x ∈ workFields d, (Reg.DEC_CORE_STATUS_FAULTED c).key ≠ x.key := by
  simp only [workFields, List.forall_mem_cons, Fld.key, Reg.DEC_CORE_STATUS_FAULTED, Reg.DEC_CORE_STATUS_BUSY,
    Reg.DEC_CORE_STATUS_STREAM, Reg.DEC_CORE_STATUS_QUEUED]
  exact ⟨by omega, by omega, by omega, nofun⟩

/-- The registers of the cores, contexts and the repairs lie apart from those that a module event record changes. -/
theorem decoder_unlogged {f : Fld} (hf : 0x140000 * 32 ≤ f.key) : ∀ x ∈ logFields, f.key ≠ x.key := by
  have hlow : ∀ x ∈ logFields, x.key < 0x140000 * 32 := by decide
  exact fun x hx hk => absurd (hlow x hx) (by omega)

theorem HostSide.get_decoderEvent_ne (h : HostSide) (s code : Nat) {f : Fld} (hf : 0x140000 * 32 ≤ f.key)
    (he : f.key ≠ (Reg.DEC_CTX_STATUS_LAST_EVENT s).key) : (h.decoderEvent s code).get f = h.get f :=
  (HostSide.get_put_ne _ _ he).trans (HostSide.get_log_ne _ _ _ _ _ _ (decoder_unlogged hf))

theorem HostSide.decoderEvent_regsStore (h : HostSide) (s code : Nat) : h.RegsStore (h.decoderEvent s code) :=
  .put (.ofLogged (h.log_logged _ _ _ _ _)) _ _

theorem HostSide.showCores_regsStore (h : HostSide) : h.RegsStore h.showCores :=
  .foldl (fun g _ => .put (.refl g) _ _) _ _

theorem HostSide.get_showCores_ne (h : HostSide) {f : Fld} (hf : ∀ c, f.key ≠ (Reg.DEC_CORE_STATUS_ACTIVE c).key) :
    h.showCores.get f = h.get f :=
  foldl_keeps (fun g : HostSide => g.get f) _ (fun g c => g.get_putB_ne _ (hf c)) (List.range 9) h

theorem HostSide.showSpareCore_regsStore (h : HostSide) : h.RegsStore h.showSpareCore :=
  .put (.put (.refl h) _ _) _ _

theorem HostSide.get_showSpareCore_replaces (h : HostSide) :
    h.showSpareCore.get Reg.RPR_STATUS_DC_REPLACES = h.video.dc8For.getD 15 % 2 ^ 4 := HostSide.get_put_self ..

/-! ## The mark of a faulted core -/

/-- FAULTED is set, and each context of the core logs it. -/
def HostSide.faultNoted (h : HostSide) (c : Nat) : HostSide :=
  (h.contextsOf c).foldl (fun h s => h.decoderEvent s 8) (h.put (Reg.DEC_CORE_STATUS_FAULTED c) 1)

/-- DC8 can take over from a core (R133). -/
def HostSide.takenOver (h : HostSide) (c : Nat) : Bool :=
  c != 8 && h.twinBody.autoDecoder == 1 && !h.flag (Reg.DEC_CORE_STATUS_FAULTED 8) && h.video.dc8For.isNone

/-- A core's picture in progress is abandoned, and its queue too unless DC8 takes over. -/
def HostSide.abandoned (h : HostSide) (c : Nat) (k : Core) : HostSide :=
  if h.takenOver c then
    { (h.setCore c { k with current := none }) with video := { (h.setCore c { k with current := none }).video with
      dc8For := some c } }
  else h.setCore c Core.idle

/-- A faulted DC8 loses the queue that it was to take over. -/
def HostSide.spareLost (h : HostSide) (c : Nat) : HostSide :=
  match c, h.video.dc8For with
  | 8, some x => h.setCore x Core.idle
  | _, _ => h

theorem HostSide.markCore_eq {h : HostSide} {c : Nat} (hf : h.flag (Reg.DEC_CORE_STATUS_FAULTED c) = false) :
    h.markCore c = (((h.faultNoted c).abandoned c (h.core c)).spareLost c).showCores.showSpareCore := by
  unfold HostSide.markCore
  rw [if_neg (by simp [hf])]
  rfl

theorem HostSide.faultNoted_regsStore (h : HostSide) (c : Nat) : h.RegsStore (h.faultNoted c) :=
  .trans (.put (.refl h) _ _) (.foldl (fun g s => g.decoderEvent_regsStore s 8) _ _)

theorem HostSide.get_faultNoted_faulted (h : HostSide) (c d : Nat) :
    (h.faultNoted c).get (Reg.DEC_CORE_STATUS_FAULTED d) =
      (h.put (Reg.DEC_CORE_STATUS_FAULTED c) 1).get (Reg.DEC_CORE_STATUS_FAULTED d) := by
  have hbase : 0x140000 * 32 ≤ (Reg.DEC_CORE_STATUS_FAULTED d).key := by
    simp only [Fld.key, Reg.DEC_CORE_STATUS_FAULTED]
    omega
  have hevent (s : Nat) : (Reg.DEC_CORE_STATUS_FAULTED d).key ≠ (Reg.DEC_CTX_STATUS_LAST_EVENT s).key := by
    simp only [Fld.key, Reg.DEC_CORE_STATUS_FAULTED, Reg.DEC_CTX_STATUS_LAST_EVENT]
    omega
  exact foldl_keeps (fun g : HostSide => g.get (Reg.DEC_CORE_STATUS_FAULTED d)) _
    (fun g s => g.get_decoderEvent_ne s 8 hbase (hevent s)) (h.contextsOf c) _

theorem HostSide.get_abandoned_faulted (h : HostSide) (c d : Nat) (k : Core) :
    (h.abandoned c k).get (Reg.DEC_CORE_STATUS_FAULTED d) = h.get (Reg.DEC_CORE_STATUS_FAULTED d) := by
  unfold HostSide.abandoned
  split
  · exact h.get_setCore_ne _ (faulted_not_work d c)
  · exact h.get_setCore_ne _ (faulted_not_work d c)

theorem HostSide.get_spareLost_faulted (h : HostSide) (c d : Nat) :
    (h.spareLost c).get (Reg.DEC_CORE_STATUS_FAULTED d) = h.get (Reg.DEC_CORE_STATUS_FAULTED d) := by
  unfold HostSide.spareLost
  split
  · exact h.get_setCore_ne _ (faulted_not_work d _)
  · rfl

theorem HostSide.spareLost_other (h : HostSide) {c : Nat} (hc : c ≠ 8) : h.spareLost c = h := by
  unfold HostSide.spareLost
  split
  · exact absurd rfl hc
  · rfl

theorem HostSide.get_showSpareCore_faulted (h : HostSide) (d : Nat) :
    h.showSpareCore.get (Reg.DEC_CORE_STATUS_FAULTED d) = h.get (Reg.DEC_CORE_STATUS_FAULTED d) := by
  unfold HostSide.showSpareCore
  rw [HostSide.get_put_ne, HostSide.get_putB_ne]
  · simp only [Fld.key, Reg.DEC_CORE_STATUS_FAULTED, Reg.RPR_STATUS_DC_SPARE_OK]
    omega
  · simp only [Fld.key, Reg.DEC_CORE_STATUS_FAULTED, Reg.RPR_STATUS_DC_REPLACES]
    omega

theorem HostSide.get_showCores_faulted (h : HostSide) (d : Nat) :
    h.showCores.get (Reg.DEC_CORE_STATUS_FAULTED d) = h.get (Reg.DEC_CORE_STATUS_FAULTED d) :=
  h.get_showCores_ne fun c => by
    simp only [Fld.key, Reg.DEC_CORE_STATUS_FAULTED, Reg.DEC_CORE_STATUS_ACTIVE]
    omega

theorem HostSide.get_markCore_faulted {h : HostSide} {c : Nat} (hf : h.flag (Reg.DEC_CORE_STATUS_FAULTED c) = false) :
    (h.markCore c).get (Reg.DEC_CORE_STATUS_FAULTED c) = 1 := by
  rw [HostSide.markCore_eq hf, HostSide.get_showSpareCore_faulted, HostSide.get_showCores_faulted,
    HostSide.get_spareLost_faulted, HostSide.get_abandoned_faulted, HostSide.get_faultNoted_faulted,
    HostSide.get_put_self]
  rfl

/-- What becomes of the work of a faulted core other than DC8. -/
theorem HostSide.markCore_video {h : HostSide} {c : Nat} (hf : h.flag (Reg.DEC_CORE_STATUS_FAULTED c) = false)
    (hc : c ≠ 8) : (h.markCore c).video = ((h.faultNoted c).abandoned c (h.core c)).video := by
  rw [HostSide.markCore_eq hf, HostSide.spareLost_other _ hc, (HostSide.showSpareCore_regsStore _).video,
    (HostSide.showCores_regsStore _).video]

theorem HostSide.get_markCore_replaces {h : HostSide} {c : Nat} (hf : h.flag (Reg.DEC_CORE_STATUS_FAULTED c) = false) :
    (h.markCore c).get Reg.RPR_STATUS_DC_REPLACES = (h.markCore c).video.dc8For.getD 15 % 2 ^ 4 := by
  rw [HostSide.markCore_eq hf, HostSide.get_showSpareCore_replaces, (HostSide.showSpareCore_regsStore _).video]

theorem HostSide.takenOver_faultNoted (h : HostSide) {c : Fin 9} (hc : c.val ≠ 8) :
    (h.faultNoted c.val).takenOver c.val = h.takenOver c.val := by
  have hrest := h.faultNoted_regsStore c.val
  have hspare : (h.faultNoted c.val).flag (Reg.DEC_CORE_STATUS_FAULTED 8) = h.flag (Reg.DEC_CORE_STATUS_FAULTED 8) := by
    unfold HostSide.flag
    rw [HostSide.get_faultNoted_faulted, HostSide.get_put_ne]
    simp only [Fld.key, Reg.DEC_CORE_STATUS_FAULTED]
    omega
  unfold HostSide.takenOver
  rw [hrest.twinBody, hspare, hrest.video]

section
variable {h : HostSide} {c : Fin 9} (hf : h.flag (Reg.DEC_CORE_STATUS_FAULTED c.val) = false) (hc : c.val ≠ 8)
include hf hc

theorem HostSide.markCore_taken (ht : h.takenOver c.val = true) :
    (h.markCore c.val).core c.val = ⟨(h.core c.val).queue, none⟩ ∧ (h.markCore c.val).video.dc8For = some c.val := by
  unfold HostSide.core
  rw [HostSide.markCore_video hf hc, HostSide.abandoned, if_pos ((h.takenOver_faultNoted hc).trans ht)]
  exact ⟨HostSide.core_setCore_self .., rfl⟩

theorem HostSide.markCore_dropped (ht : h.takenOver c.val = false) :
    (h.markCore c.val).core c.val = Core.idle ∧ (h.markCore c.val).video.dc8For = h.video.dc8For := by
  unfold HostSide.core
  rw [HostSide.markCore_video hf hc, HostSide.abandoned, if_neg (by simp [h.takenOver_faultNoted hc, ht])]
  exact ⟨HostSide.core_setCore_self .., (HostSide.setCore_dc8For ..).trans
    (congrArg (fun v : Video => v.dc8For) (h.faultNoted_regsStore c.val).video)⟩

theorem HostSide.markCore_current : ((h.markCore c.val).core c.val).current = none := by
  cases ht : h.takenOver c.val with
  | true => rw [(HostSide.markCore_taken hf hc ht).1]
  | false => rw [(HostSide.markCore_dropped hf hc ht).1]; rfl

end

/-! ## The commands that mark a core -/

theorem exec_coreSelftestFault {s : State} (hr : s.hostReady) (c : Fin 9) :
    exec (.coreSelftestFault false c) s = .next (s.held { s with host := s.host.markCore c.val }) :=
  hostCmd_ready hr fun h => h.markCore c.val

theorem exec_decodeTimeout {s : State} (hr : s.hostReady) (c : Fin 9) :
    exec (.decodeTimeout c) s = .next (s.held { s with host := s.host.decodeTimeout c.val }) :=
  hostCmd_ready hr fun h => h.decodeTimeout c.val

theorem exec_pictureComplete {s : State} (hr : s.hostReady) (c : Fin 9) (g : DecodedFacts) :
    exec (.pictureComplete c g) s = .next (s.held { s with host := s.host.pictureComplete c.val g }) :=
  hostCmd_ready hr fun h => h.pictureComplete c.val g

section
variable {h : HostSide} {c : Nat} {d : Decoding} (hd : (h.core c).current = some d)
include hd

theorem HostSide.decodeTimeout_late (hlate : 100000000 ≤ dtDiff h.now d.start) : h.decodeTimeout c = h.markCore c := by
  unfold HostSide.decodeTimeout
  rw [hd]
  exact if_pos hlate

theorem HostSide.decodeTimeout_young (hyoung : dtDiff h.now d.start < 100000000) : h.decodeTimeout c = h := by
  unfold HostSide.decodeTimeout
  rw [hd]
  exact if_neg (Int.not_le.2 hyoung)

theorem HostSide.pictureComplete_late (g : DecodedFacts) (hlate : 100000000 ≤ dtDiff h.now d.start) :
    h.pictureComplete c g = h.markCore c := by
  unfold HostSide.pictureComplete
  rw [hd]
  exact if_pos hlate

end

/-- Each of the events that find a core faulted marks it. -/
theorem exec_findsFault {s : State} {c : Fin 9} {d : Decoding} {g : DecodedFacts} {i : Instr} (hr : s.hostReady)
    (hi : i = .coreSelftestFault false c ∨ ((i = .decodeTimeout c ∨ i = .pictureComplete c g) ∧
      (s.host.core c.val).current = some d ∧ 100000000 ≤ dtDiff s.host.now d.start)) :
    exec i s = .next (s.held { s with host := s.host.markCore c.val }) := by
  rcases hi with rfl | ⟨rfl | rfl, hd, hlate⟩
  · exact exec_coreSelftestFault hr c
  · rw [exec_decodeTimeout hr, HostSide.decodeTimeout_late hd hlate]
  · rw [exec_pictureComplete hr, HostSide.pictureComplete_late hd g hlate]

end Sys2Proof.Machine
end

section
/-! The takeover by DC8 (O39; 05_ingest_decode.md R133, 16_twin_repair.md R387): what it takes at its boundary, and that
decoding on it leaves the replaced core alone. -/

namespace Sys2Proof.Machine

open Sys2Proof

/-! ## DC8 takes the contexts of the core that it replaces -/

/-- A context waits for an IRAP picture on DC8. -/
def HostSide.moveContext (h : HostSide) (s : Nat) : HostSide :=
  (h.put (Reg.DEC_CTX_STATUS_STATE s) 1).put (Reg.DEC_CTX_STATUS_CORE s) 8

/-- The context stands on DC8 and waits for an IRAP picture. -/
def HostSide.OnSpare (h : HostSide) (x : Nat) : Prop :=
  h.get (Reg.DEC_CTX_STATUS_CORE x) = 8 ∧ h.get (Reg.DEC_CTX_STATUS_STATE x) = 1

theorem ctxState_key_ne_core (x s : Nat) : (Reg.DEC_CTX_STATUS_STATE x).key ≠ (Reg.DEC_CTX_STATUS_CORE s).key := by
  simp only [Fld.key, Reg.DEC_CTX_STATUS_STATE, Reg.DEC_CTX_STATUS_CORE]
  omega

theorem HostSide.moveContext_onSpare (h : HostSide) (s : Nat) : (h.moveContext s).OnSpare s := by
  refine ⟨HostSide.get_put_self .., ?_⟩
  rw [HostSide.moveContext, HostSide.get_put_ne _ _ (ctxState_key_ne_core s s), HostSide.get_put_self]
  rfl

theorem HostSide.OnSpare.moveContext {h : HostSide} {x : Nat} (hx : h.OnSpare x) (s : Nat) : (h.moveContext s).OnSpare x := by
  by_cases hs : x % 128 = s % 128
  · have hcore : Reg.DEC_CTX_STATUS_CORE x = Reg.DEC_CTX_STATUS_CORE s := by simp only [Reg.DEC_CTX_STATUS_CORE, hs]
    have hstate : Reg.DEC_CTX_STATUS_STATE x = Reg.DEC_CTX_STATUS_STATE s := by simp only [Reg.DEC_CTX_STATUS_STATE, hs]
    unfold HostSide.OnSpare
    rw [hcore, hstate]
    exact h.moveContext_onSpare s
  · have hcore : (Reg.DEC_CTX_STATUS_CORE x).key ≠ (Reg.DEC_CTX_STATUS_CORE s).key := by
      simp only [Fld.key, Reg.DEC_CTX_STATUS_CORE]
      omega
    have hstate : (Reg.DEC_CTX_STATUS_STATE x).key ≠ (Reg.DEC_CTX_STATUS_STATE s).key := by
      simp only [Fld.key, Reg.DEC_CTX_STATUS_STATE]
      omega
    unfold HostSide.OnSpare HostSide.moveContext
    rw [HostSide.get_put_ne _ _ hcore, HostSide.get_put_ne _ _ (ctxState_key_ne_core s x).symm,
      HostSide.get_put_ne _ _ (ctxState_key_ne_core x s), HostSide.get_put_ne _ _ hstate]
    exact hx

theorem HostSide.onSpare_moved {xs : List Nat} {x : Nat} (h : HostSide) (hx : h.OnSpare x ∨ x ∈ xs) :
    (xs.foldl HostSide.moveContext h).OnSpare x := by
  induction xs generalizing h with
  | nil => exact hx.resolve_right List.not_mem_nil
  | cons s xs ih =>
    refine ih _ ?_
    rcases hx with hx | hx
    · exact .inl (hx.moveContext s)
    · exact (List.mem_cons.1 hx).imp_left fun hs : x = s => hs ▸ h.moveContext_onSpare x

theorem HostSide.moved_regsStore (h : HostSide) (xs : List Nat) : h.RegsStore (xs.foldl HostSide.moveContext h) :=
  .foldl (fun g _ => .put (.put (.refl g) _ _) _ _) _ _

/-- The registers of the contexts lie apart from those of the cores. -/
theorem context_not_work {f : Fld} (hf : 0x141000 * 32 ≤ f.key) (c : Nat) : ∀ x ∈ workFields c, f.key ≠ x.key := by
  simp only [workFields, List.forall_mem_cons, Fld.key, Reg.DEC_CORE_STATUS_BUSY, Reg.DEC_CORE_STATUS_STREAM,
    Reg.DEC_CORE_STATUS_QUEUED] at hf ⊢
  exact ⟨by omega, by omega, by omega, nofun⟩

theorem context_not_active {f : Fld} (hf : 0x141000 * 32 ≤ f.key) (c : Nat) :
    f.key ≠ (Reg.DEC_CORE_STATUS_ACTIVE c).key := by
  simp only [Fld.key, Reg.DEC_CORE_STATUS_ACTIVE] at hf ⊢
  omega

theorem ctxCore_key_ge (x : Nat) : 0x141000 * 32 ≤ (Reg.DEC_CTX_STATUS_CORE x).key := by
  simp only [Fld.key, Reg.DEC_CTX_STATUS_CORE]
  omega

theorem ctxState_key_ge (x : Nat) : 0x141000 * 32 ≤ (Reg.DEC_CTX_STATUS_STATE x).key := by
  simp only [Fld.key, Reg.DEC_CTX_STATUS_STATE]
  omega

theorem HostSide.OnSpare.setCore {h : HostSide} {x : Nat} (hx : h.OnSpare x) (c : Nat) (k : Core) :
    (h.setCore c k).OnSpare x :=
  ⟨(h.get_setCore_ne k (context_not_work (ctxCore_key_ge x) c)).trans hx.1,
    (h.get_setCore_ne k (context_not_work (ctxState_key_ge x) c)).trans hx.2⟩

theorem HostSide.OnSpare.showCores {h : HostSide} {x : Nat} (hx : h.OnSpare x) : h.showCores.OnSpare x :=
  ⟨(h.get_showCores_ne (context_not_active (ctxCore_key_ge x))).trans hx.1,
    (h.get_showCores_ne (context_not_active (ctxState_key_ge x))).trans hx.2⟩

section
variable {h : HostSide} {c : Nat} (hfor : h.video.dc8For = some c)
  (hspare : h.flag (Reg.DEC_CORE_STATUS_FAULTED 8) = false)
include hfor hspare

/-- The queue that DC8 serves after it takes over. -/
def HostSide.joinedQueue (h : HostSide) (c : Nat) : List Released :=
  (h.core c).queue.foldl (fun q r => queueRelease r q) (h.core 8).queue

theorem HostSide.takeContexts_eq :
    h.takeContexts = (((h.contextsOf c).foldl HostSide.moveContext h).setCore c Core.idle).setCore 8
      { h.core 8 with queue := h.joinedQueue c } := by
  have hcore (d : Nat) : ((h.contextsOf c).foldl HostSide.moveContext h).core d = h.core d :=
    congrArg (fun v : Video => tget Core.idle v.cores d) (h.moved_regsStore _).video
  unfold HostSide.joinedQueue
  rw [← hcore c, ← hcore 8]
  unfold HostSide.takeContexts
  rw [hfor]
  exact if_neg (by simp [hspare])

theorem HostSide.takeContexts_onSpare {x : Nat} (hx : x ∈ h.contextsOf c) : h.takeContexts.OnSpare x := by
  rw [HostSide.takeContexts_eq hfor hspare]
  exact ((h.onSpare_moved (.inr hx)).setCore _ _).setCore _ _

theorem HostSide.core_takeContexts_replaced (hc : c ≠ 8) : h.takeContexts.core c = Core.idle := by
  rw [HostSide.takeContexts_eq hfor hspare, HostSide.core_setCore_ne _ _ hc, HostSide.core_setCore_self]

theorem HostSide.core_takeContexts_spare : h.takeContexts.core 8 = { h.core 8 with queue := h.joinedQueue c } := by
  rw [HostSide.takeContexts_eq hfor hspare, HostSide.core_setCore_self]

end

theorem HostSide.core_showCores (h : HostSide) (c : Nat) : h.showCores.core c = h.core c :=
  congrArg (fun v : Video => tget Core.idle v.cores c) h.showCores_regsStore.video

/-! ## Decoding on DC8 leaves the replaced core alone -/

/-- The fields of a context that the start of a picture changes. -/
def startFields (s : Nat) : List Fld :=
  [Reg.DEC_CTX_STATUS_STATE s, Reg.DEC_CTX_STATUS_CUR_ANCIENT s, Reg.DEC_CTX_STATUS_CUR_CONCEALED s,
    Reg.DEC_CTX_STATUS_CUR_FAULT s, Reg.DEC_CTX_STATUS_CUR_CLASS s, Reg.DEC_CTX_STATUS_TAINT_RUN s,
    Reg.DEC_CTX_STATUS_LAST_EVENT s, Reg.DEC_CTX_ERR_SYNTAX s, Reg.DEC_CTX_ERR_PARAM s, Reg.DEC_CTX_ERR_ABSENT s,
    Reg.DEC_CTX_ERR_ENVELOPE s, Reg.DEC_CTX_TOKENS_HELD s, Reg.DEC_CTX_TOKENS_FREE s]

theorem ctxCore_not_start (x s : Nat) : ∀ f ∈ startFields s, (Reg.DEC_CTX_STATUS_CORE x).key ≠ f.key := by
  simp only [startFields, List.forall_mem_cons, Fld.key, Reg.DEC_CTX_STATUS_CORE, Reg.DEC_CTX_STATUS_STATE,
    Reg.DEC_CTX_STATUS_CUR_ANCIENT, Reg.DEC_CTX_STATUS_CUR_CONCEALED, Reg.DEC_CTX_STATUS_CUR_FAULT,
    Reg.DEC_CTX_STATUS_CUR_CLASS, Reg.DEC_CTX_STATUS_TAINT_RUN, Reg.DEC_CTX_STATUS_LAST_EVENT, Reg.DEC_CTX_ERR_SYNTAX,
    Reg.DEC_CTX_ERR_PARAM, Reg.DEC_CTX_ERR_ABSENT, Reg.DEC_CTX_ERR_ENVELOPE, Reg.DEC_CTX_TOKENS_HELD,
    Reg.DEC_CTX_TOKENS_FREE]
  refine ⟨?_, ?_, ?_, ?_, ?_, ?_, ?_, ?_, ?_, ?_, ?_, ?_, ?_, nofun⟩ <;> omega

/-- From `h` to `g` core `c` keeps its work and every context its core. -/
structure HostSide.LeavesCore (c : Nat) (h g : HostSide) : Prop where
  work : g.core c = h.core c
  serves : ∀ x, g.get (Reg.DEC_CTX_STATUS_CORE x) = h.get (Reg.DEC_CTX_STATUS_CORE x)

namespace HostSide.LeavesCore

variable {c : Nat}

theorem refl (h : HostSide) : HostSide.LeavesCore c h h := ⟨rfl, fun _ => rfl⟩

theorem trans {h g k : HostSide} (a : HostSide.LeavesCore c h g) (b : HostSide.LeavesCore c g k) :
    HostSide.LeavesCore c h k :=
  ⟨b.work.trans a.work, fun x => (b.serves x).trans (a.serves x)⟩

theorem foldl {α : Type} {f : HostSide → α → HostSide} (hf : ∀ (g : HostSide) (a : α), HostSide.LeavesCore c g (f g a))
    (l : List α) (h : HostSide) : HostSide.LeavesCore c h (l.foldl f h) := by
  induction l generalizing h with
  | nil => exact .refl h
  | cons a l ih => exact (hf h a).trans (ih _)

theorem ite {h g k : HostSide} {p : Prop} [Decidable p] (a : HostSide.LeavesCore c h g) (b : HostSide.LeavesCore c h k) :
    HostSide.LeavesCore c h (if p then g else k) := by
  split
  · exact a
  · exact b

variable {h g : HostSide} (a : HostSide.LeavesCore c h g)
include a

theorem put (s : Nat) {f : Fld} (hf : f ∈ startFields s) (v : Nat) : HostSide.LeavesCore c h (g.put f v) :=
  a.trans ⟨rfl, fun x => g.get_put_ne v (ctxCore_not_start x s f hf)⟩

theorem decoderEvent (s code : Nat) : HostSide.LeavesCore c h (g.decoderEvent s code) := by
  refine a.trans ⟨?_, fun x => ?_⟩
  · exact congrArg (fun v : Video => tget Core.idle v.cores c) (g.decoderEvent_regsStore s code).video
  · refine g.get_decoderEvent_ne s code (Nat.le_trans (by decide) (ctxCore_key_ge x)) ?_
    exact ctxCore_not_start x s _ (by simp [startFields])

theorem setCore {d : Nat} (hd : c ≠ d) (k : Core) : HostSide.LeavesCore c h (g.setCore d k) :=
  a.trans ⟨g.core_setCore_ne k hd, fun x => g.get_setCore_ne k (context_not_work (ctxCore_key_ge x) d)⟩

theorem setPicture (n : Nat) (v : Option Picture) : HostSide.LeavesCore c h (g.setPicture n v) := a.trans ⟨rfl, fun _ => rfl⟩

theorem setContext (n : Nat) (v : Context) : HostSide.LeavesCore c h (g.setContext n v) := a.trans ⟨rfl, fun _ => rfl⟩

theorem nextPic (n : Nat) :
    HostSide.LeavesCore c h { g with video := { g.video with nextPic := n } } := a.trans ⟨rfl, fun _ => rfl⟩

theorem showContext (s : Nat) : HostSide.LeavesCore c h (g.showContext s) := by
  unfold HostSide.showContext
  iterate 7 refine .put ?_ s (by simp [startFields]) _
  exact a

theorem pictureBoundary (s : Nat) : HostSide.LeavesCore c h (g.pictureBoundary s) := by
  unfold HostSide.pictureBoundary
  exact .ite a (a.trans (.foldl (fun k _ =>
    .ite (.setPicture (.refl k) _ _) (.ite (.refl k) (.setPicture (.refl k) _ _))) _ _))

theorem createAbsent (e : StreamEntry) (wide : Bool) (poc : Int) :
    HostSide.LeavesCore c h (g.createAbsent e wide poc) := by
  unfold HostSide.createAbsent
  exact .decoderEvent (.put (.nextPic (.setPicture a _ _) _) e.stream (by simp [startFields]) _) _ _

theorem beginPicture {d : Nat} (hd : c ≠ d) (k : Core) (rel : Released) (e : StreamEntry) (f : PictureFacts)
    (q : ParamFacts) : HostSide.LeavesCore c h (g.beginPicture d k rel e f q) := by
  unfold HostSide.beginPicture
  extract_lets s refs missing first v kept dropped absent w id placed next started
  refine .ite (.decoderEvent (.setCore a hd _) _ _) ?_
  have hdropped : HostSide.LeavesCore c h dropped :=
    a.trans (.foldl (fun k _ => .ite (.setPicture (.refl k) _ _) (.refl k)) _ _)
  have habsent : HostSide.LeavesCore c h absent := hdropped.trans (.foldl (fun k p => .createAbsent (.refl k) e _ p) _ _)
  have hplaced : HostSide.LeavesCore c h placed := habsent.setPicture _ _
  exact .setCore (.put (.setContext (.nextPic hplaced _) _ _) s (by simp [startFields]) _) hd _

end HostSide.LeavesCore

theorem HostSide.decodeStart_spare {h : HostSide} (hidle : (h.core 8).current = none) {c : Nat} (hc : c ≠ 8)
    (f : PictureFacts) : HostSide.LeavesCore c h.takeContexts.showCores (h.decodeStart 8 f) := by
  unfold HostSide.decodeStart
  rw [if_pos ⟨rfl, by rw [hidle]; rfl⟩]
  generalize h.takeContexts.showCores = g
  dsimp only
  split
  · next rel rest _ _ _ =>
    have htaken := HostSide.LeavesCore.setCore (.refl g) hc { g.core 8 with queue := rest }
    split
    · exact htaken
    · next e _ =>
      split
      · exact htaken
      · refine .showContext ?_ _
        split
        · exact htaken.pictureBoundary _
        · split
          · refine .decoderEvent (.put (.put (.put (htaken.pictureBoundary _) rel.stream (by simp [startFields]) _)
              rel.stream (by simp [startFields]) _) rel.stream (by simp [startFields]) _) _ _
          · split
            · exact .decoderEvent (.put (.put (htaken.pictureBoundary _) rel.stream (by simp [startFields]) _)
                rel.stream (by simp [startFields]) _) _ _
            · exact .beginPicture (htaken.pictureBoundary _) hc _ _ _ _ _
  · exact .refl g

theorem HostSide.decodeStart_spare_empty {h : HostSide} (hidle : (h.core 8).current = none)
    (hq : (h.takeContexts.showCores.core 8).queue = []) (f : PictureFacts) :
    h.decodeStart 8 f = h.takeContexts.showCores := by
  unfold HostSide.decodeStart
  rw [if_pos ⟨rfl, by rw [hidle]; rfl⟩]
  dsimp only
  split
  · next hqueue _ =>
    rw [hq] at hqueue
    cases hqueue
  · rfl

end Sys2Proof.Machine
end

section
/-! Faulted encoder cores and the watch tile probe (O39; 09_encode.md R220, 05_ingest_decode.md R134), and the obligation
itself. -/

namespace Sys2Proof.Machine

open Sys2Proof

/-! ## Faulted encoder cores -/

/-- A context that encodes on a faulted core stops (R220). -/
def HostSide.stopContext (h : HostSide) (e : EncodeEntry) : HostSide :=
  h.setEncCtx e.context { h.encCtx e.context with reading := none, buffers := 0 }

theorem HostSide.markEncoder_eq (h : HostSide) (c : Nat) : h.markEncoder c =
    (h.cfg.encode.filter (fun e => e.enable == 1 && e.core == c)).foldl HostSide.stopContext
      ((h.put (Reg.ENC_CORE_STATUS_FAULTED c) 1).setEncCore c EncCore.idle) := rfl

theorem HostSide.encCore_setEncCore_self (h : HostSide) (c : Nat) (k : EncCore) : (h.setEncCore c k).encCore c = k :=
  tget_tput_self _ _ _ _

theorem HostSide.get_stopContext_faulted (h : HostSide) (e : EncodeEntry) (c : Nat) :
    (h.stopContext e).get (Reg.ENC_CORE_STATUS_FAULTED c) = h.get (Reg.ENC_CORE_STATUS_FAULTED c) := by
  unfold HostSide.stopContext HostSide.setEncCtx
  rw [HostSide.get_put_ne, HostSide.get_putB_ne]
  · rfl
  · simp only [Fld.key, Reg.ENC_CORE_STATUS_FAULTED, Reg.ENC_CTX_STATUS_GO_PENDING]
    omega
  · simp only [Fld.key, Reg.ENC_CORE_STATUS_FAULTED, Reg.ENC_CTX_STATUS_QP]
    omega

theorem HostSide.get_setEncCore_faulted (h : HostSide) (c : Nat) (k : EncCore) :
    (h.setEncCore c k).get (Reg.ENC_CORE_STATUS_FAULTED c) = h.get (Reg.ENC_CORE_STATUS_FAULTED c) := by
  unfold HostSide.setEncCore
  rw [HostSide.get_put_ne, HostSide.get_put_ne, HostSide.get_putB_ne]
  · rfl
  · simp only [Fld.key, Reg.ENC_CORE_STATUS_FAULTED, Reg.ENC_CORE_STATUS_BUSY]
    omega
  · simp only [Fld.key, Reg.ENC_CORE_STATUS_FAULTED, Reg.ENC_CORE_STATUS_CTX]
    omega
  · simp only [Fld.key, Reg.ENC_CORE_STATUS_FAULTED, Reg.ENC_CORE_STATUS_QUEUED]
    omega

theorem HostSide.get_markEncoder_faulted (h : HostSide) (c : Nat) :
    (h.markEncoder c).get (Reg.ENC_CORE_STATUS_FAULTED c) = 1 := by
  rw [h.markEncoder_eq]
  refine (foldl_keeps (fun g : HostSide => g.get (Reg.ENC_CORE_STATUS_FAULTED c)) _
    (fun g e => g.get_stopContext_faulted e c) _ _).trans ?_
  rw [HostSide.get_setEncCore_faulted, HostSide.get_put_self]
  rfl

/-- What the contexts that stop leave alone. -/
theorem HostSide.markEncoder_frame (h : HostSide) (c : Nat) :
    ((h.markEncoder c).store, (h.markEncoder c).tartan, (h.markEncoder c).encCore c) =
      (h.store, h.tartan, EncCore.idle) := by
  rw [h.markEncoder_eq]
  refine (foldl_keeps (fun g : HostSide => (g.store, g.tartan, g.encCore c)) HostSide.stopContext (fun _ _ => rfl)
    _ _).trans ?_
  rw [HostSide.encCore_setEncCore_self]
  rfl

theorem exec_encoderFault {s : State} (hr : s.hostReady) {c : Fin 9} (hc : c.val < 2) :
    exec (.coreSelftestFault true c) s = .next (s.held { s with host := s.host.markEncoder c.val }) := by
  show execCoreSelftestFault true c s = _
  unfold execCoreSelftestFault
  rw [hostCmd_ready hr, if_pos rfl, if_pos hc]

theorem completes_encoderFault {s : State} (hr : s.hostReady) {c : Fin 9} (hc : c.val < 2) :
    Completes (.coreSelftestFault true c) s (fun t =>
      t.host.get (Reg.ENC_CORE_STATUS_FAULTED c.val) = 1 ∧ t.host.encCore c.val = EncCore.idle ∧ MemKept s t ∧
      OnlyHost s t) := by
  have hframe := s.host.markEncoder_frame c.val
  exact .ofHost (exec_encoderFault hr hc) ⟨congrArg (·.1) hframe, congrArg (·.2.1) hframe⟩ fun hm ho =>
    ⟨s.host.get_markEncoder_faulted c.val, congrArg (·.2.2) hframe, hm, ho⟩

/-! ## The watch tile probe -/

theorem b2n_mod_two (b : Bool) : b2n b % 2 = b2n b := by
  cases b <;> rfl

theorem HostSide.get_showTile_valid (h : HostSide) : h.showTile.get Reg.DEC_WT_PROBE_VALID =
    b2n (h.tile (h.get Reg.DEC_WT_PROBE_LAYER) (h.get Reg.DEC_WT_PROBE_TILE)).hash.isSome := by
  unfold HostSide.showTile
  rw [HostSide.get_put_ne _ _ (by decide), HostSide.get_putB_self]
  exact b2n_mod_two _

theorem HostSide.get_showTile_hash (h : HostSide) : h.showTile.get Reg.DEC_WT_HASH_HASH =
    (h.tile (h.get Reg.DEC_WT_PROBE_LAYER) (h.get Reg.DEC_WT_PROBE_TILE)).hash.getD 0 % 2 ^ 32 :=
  HostSide.get_put_self ..

theorem HostSide.get_showTile_ne (h : HostSide) {f : Fld} (hvalid : f.key ≠ Reg.DEC_WT_PROBE_VALID.key)
    (hhash : f.key ≠ Reg.DEC_WT_HASH_HASH.key) : h.showTile.get f = h.get f :=
  (HostSide.get_put_ne _ _ hhash).trans (h.get_putB_ne _ hvalid)

/-- The probe names a tile by the value written. -/
def HostSide.probing (h : HostSide) (v : Nat) : HostSide :=
  ((h.answer .none).put Reg.DEC_WT_PROBE_LAYER v).put Reg.DEC_WT_PROBE_TILE (v / 2 ^ 10)

theorem HostSide.get_probing_layer (h : HostSide) (v : Nat) : (h.probing v).get Reg.DEC_WT_PROBE_LAYER = v % 1024 :=
  (HostSide.get_put_ne _ _ (by decide)).trans (HostSide.get_put_self ..)

theorem HostSide.get_probing_tile (h : HostSide) (v : Nat) : (h.probing v).get Reg.DEC_WT_PROBE_TILE = v / 1024 % 4 :=
  HostSide.get_put_self ..

theorem completes_wtProbe {s : State} {who : Requester} (v : Word) (hr : s.reaches who) :
    Completes (.wtProbe who v) s (fun t => t.host.resp = .none ∧
      t.host.get Reg.DEC_WT_PROBE_LAYER = v.toNat % 1024 ∧ t.host.get Reg.DEC_WT_PROBE_TILE = v.toNat / 1024 % 4 ∧
      t.host.get Reg.DEC_WT_PROBE_VALID = b2n (s.host.tile (v.toNat % 1024) (v.toNat / 1024 % 4)).hash.isSome ∧
      t.host.get Reg.DEC_WT_HASH_HASH = (s.host.tile (v.toNat % 1024) (v.toNat / 1024 % 4)).hash.getD 0 % 2 ^ 32 ∧
      RegsKept [Reg.DEC_WT_PROBE_LAYER, Reg.DEC_WT_PROBE_TILE, Reg.DEC_WT_PROBE_VALID, Reg.DEC_WT_HASH_HASH] s t ∧
      MemKept s t ∧ OnlyHost s t) := by
  have hlayer := s.host.get_probing_layer v.toNat
  have htile := s.host.get_probing_tile v.toNat
  have hvalid := (s.host.probing v.toNat).get_showTile_valid
  have hhash := (s.host.probing v.toNat).get_showTile_hash
  rw [hlayer, htile] at hvalid hhash
  refine .ofHost (regCmd_reaches hr fun h => (h.probing v.toNat).showTile) ⟨rfl, rfl⟩ fun hm ho =>
    ⟨rfl, ?_, ?_, hvalid, hhash, fun f hf => ?_, hm, ho⟩
  · exact (HostSide.get_showTile_ne _ (by decide) (by decide)).trans hlayer
  · exact (HostSide.get_showTile_ne _ (by decide) (by decide)).trans htile
  · simp only [List.forall_mem_cons] at hf
    obtain ⟨hflayer, hftile, hfvalid, hfhash, -⟩ := hf
    exact (HostSide.get_showTile_ne _ hfvalid hfhash).trans
      ((HostSide.get_put_ne _ _ hftile).trans (HostSide.get_put_ne _ _ hflayer))

/-! ## The obligation -/

/-- A core other than DC8 that is found faulted: its work waits for DC8, or is gone. -/
theorem findsFault_leaves {s : State} {c : Fin 9} {i : Instr} (hc : c.val ≠ 8)
    (hf : s.host.flag (Reg.DEC_CORE_STATUS_FAULTED c.val) = false)
    (hi : exec i s = .next (s.held { s with host := s.host.markCore c.val })) :
    ∃ t, exec i s = .next t ∧ t.pending = s.pending ∧ t.host.get (Reg.DEC_CORE_STATUS_FAULTED c.val) = 1 ∧
      (t.host.core c.val).current = none ∧
      (s.host.twinBody.autoDecoder = 1 → s.host.flag (Reg.DEC_CORE_STATUS_FAULTED 8) = false →
        s.host.video.dc8For = none → t.host.video.dc8For = some c.val ∧
        t.host.core c.val = ⟨(s.host.core c.val).queue, none⟩ ∧
        t.host.get Reg.RPR_STATUS_DC_REPLACES = c.val) ∧
      (s.host.twinBody.autoDecoder ≠ 1 ∨ s.host.flag (Reg.DEC_CORE_STATUS_FAULTED 8) = true →
        t.host.core c.val = Core.idle ∧ t.host.video.dc8For = s.host.video.dc8For) ∧ OnlyHost s t := by
  refine ⟨_, hi, rfl, HostSide.get_markCore_faulted hf, HostSide.markCore_current hf hc, fun hauto hspare hnone => ?_,
    fun hout => ?_, rfl, rfl⟩
  · obtain ⟨hcore, hfor⟩ := HostSide.markCore_taken hf hc (by simp [HostSide.takenOver, hc, hauto, hspare, hnone])
    refine ⟨hfor, hcore, (HostSide.get_markCore_replaces hf).trans ?_⟩
    rw [hfor]
    exact Nat.mod_eq_of_lt (show c.val < 2 ^ 4 by omega)
  · refine HostSide.markCore_dropped hf hc ?_
    rcases hout with hauto | hspare
    · simp [HostSide.takenOver, hauto]
    · simp [HostSide.takenOver, hspare]

/-- DC8 at its boundary takes the contexts of the core that it replaces. -/
theorem completes_decodeStart_takeover {s : State} {c : Nat} (hr : s.hostReady) (f : PictureFacts)
    (hfor : s.host.video.dc8For = some c) (hc : c ≠ 8) (hspare : s.host.flag (Reg.DEC_CORE_STATUS_FAULTED 8) = false)
    (hidle : (s.host.core 8).current = none) :
    Completes (.decodeStart 8 f) s (fun t => t.host.core c = Core.idle ∧
      (∀ x ∈ s.host.contextsOf c, t.host.get (Reg.DEC_CTX_STATUS_CORE x) = 8) ∧
      ((s.host.core c).queue = [] → (s.host.core 8).queue = [] →
        ∀ x ∈ s.host.contextsOf c, t.host.get (Reg.DEC_CTX_STATUS_STATE x) = 1) ∧ OnlyHost s t) := by
  have hmoved (x : Nat) (hx : x ∈ s.host.contextsOf c) := (HostSide.takeContexts_onSpare hfor hspare hx).showCores
  have hleaves := HostSide.decodeStart_spare hidle hc f
  refine .hostAlone (hostCmd_ready hr fun h => h.decodeStart 8 f) fun ho =>
    ⟨?_, fun x hx => (hleaves.serves x).trans (hmoved x hx).1, fun hq hq8 x hx => ?_, ho⟩
  · exact hleaves.work.trans ((HostSide.core_showCores _ _).trans (HostSide.core_takeContexts_replaced hfor hspare hc))
  · have hempty : (s.host.takeContexts.showCores.core 8).queue = [] := by
      rw [HostSide.core_showCores, HostSide.core_takeContexts_spare hfor hspare, HostSide.joinedQueue, hq, hq8]
      rfl
    exact (congrArg (·.get (Reg.DEC_CTX_STATUS_STATE x)) (HostSide.decodeStart_spare_empty hidle hempty f)).trans
      (hmoved x hx).2

/-- Settles O39: a core found faulted by what `markCore` leaves of its work, DC8's boundary by what it takes over. -/
theorem faultedCoresAreReplaced : Obligations.FaultedCoresAreReplaced := by
  intro s who c d f g v hr
  refine ⟨fun hc hf i hi => ?_, fun hfor hc hspare hidle => ?_, fun hf => ?_, fun hd hlate hf => ?_, fun hd hyoung => ?_,
    fun hc => ?_, fun hopen => ?_⟩
  · exact findsFault_leaves hc hf (exec_findsFault hr hi)
  · exact completes_decodeStart_takeover hr f hfor hc hspare hidle
  · exact .hostAlone (exec_coreSelftestFault hr c) fun ho => ⟨HostSide.get_markCore_faulted hf, ho⟩
  · exact .hostAlone (exec_findsFault (g := g) hr (.inr ⟨.inl rfl, hd, hlate⟩)) fun ho =>
      ⟨HostSide.get_markCore_faulted hf, ho⟩
  · refine ⟨_, exec_decodeTimeout hr c, rfl, ?_⟩
    rw [HostSide.decodeTimeout_young hd hyoung]
    rfl
  · exact completes_encoderFault hr hc
  · exact completes_wtProbe v ⟨hr, hopen⟩

end Sys2Proof.Machine
end

section
/-! The progress of an image (O48, O49; 03_structure_image.md R70 to R78, 16_twin_repair.md R382): what shows it and what it
rests on, and that logging, messages, leases and pages leave it alone. -/

namespace Sys2Proof.Machine

open Sys2Proof

/-! ## The registers of the progress -/

/-- The field does not show how far an image has come: it is none of the heads' own registers (08_heads.md), TWN.RESYNC and
BCK.STATUS, and of the SIM block at most UNQUALIFIED, FIELD_SPLIT or BANK_SEQ. -/
abbrev Fld.Apart (f : Fld) : Prop :=
  f.key < 0x301000 * 32 ∨ (0x302000 * 32 ≤ f.key ∧ f.key < 0x44001c * 32) ∨
    (0x450004 * 32 ≤ f.key ∧ f.key < 0x458000 * 32) ∨ 0x460000 * 32 ≤ f.key ∨ f.key = 0x458004 * 32 + 5 ∨
    f.key = 0x458004 * 32 + 7 ∨ f.key = 0x458004 * 32 + 16

/-- The register groups of layers that an activation writes (06_composition.md, 02_freshness.md). -/
def layerGroups (l i : Nat) : List Fld :=
  [Reg.layerWord l i, Reg.FRS_LAYER_BUDGET_BUDGET l, Reg.CMP_LAYER_STATUS_HEAD l, Reg.CMP_LAYER_STATUS_CREDIT l,
    Reg.CMP_LAYER_STATUS_ENABLED l, Reg.CMP_LAYER_STATUS_ARMED l, Reg.FRS_LAYER_STATE_LIVE_BEARING l,
    Reg.FRS_LAYER_STATE_GINGHAM_EN l, Reg.FRS_LAYER_STATE_WT_BOUND l, Reg.FRS_LAYER_STATE_WT_VERDICT l,
    Reg.FRS_LAYER_STATE_WT_NO_VERDICT l]

/-- The register groups of streams and encoders that an activation writes. -/
def videoGroups (i : Nat) : List Fld :=
  shownFields i ++ startFields i ++ [Reg.ING_STATUS_ENABLED i, Reg.DEC_CTX_STATUS_CORE i, Reg.DEC_CTX_TOKENS_POOL i,
    Reg.DEC_CORE_STATUS_ACTIVE i, Reg.ENC_CTX_STATUS_ENABLED i, Reg.ENC_CTX_STATUS_QP i, Reg.ENC_CTX_STATUS_GO_PENDING i,
    Reg.ENC_OUT_WR_OFFSET i, Reg.ENC_OUT_RD_OFFSET i, Reg.ENC_CORE_STATUS_ACTIVE i, Reg.ENC_CORE_STATUS_BUSY i,
    Reg.ENC_CORE_STATUS_CTX i, Reg.ENC_CORE_STATUS_QUEUED i]

/-- The register groups of links, lanes and channels that messages and an activation write. -/
def linkGroups (i w : Nat) : List Fld :=
  [Reg.STC_STATUS_STATE i, Reg.STC_STATUS_ACTIVE i, Reg.STC_STATUS_DEGRADED i, Reg.STC_STATUS_WIRED i,
    Reg.STC_STATUS_ILM2400 i, Reg.STC_CREDITS_TX_CREDITS i, Reg.STC_CELLS_TX_COUNT i, Reg.STC_REGION_VALID i,
    Reg.STC_REGION_WORST i, Reg.LNE_STATUS_STATE i, Reg.LNE_SPARE_CTRL_LANE i, Reg.LNE_SPARE_CTRL_MODE i,
    Reg.LNE_SPARE_CTRL_AUTO i, Reg.LNE_SPARE_STATUS_ARMED i, Reg.MBX_TXSTAT_FREE i, Reg.MBX_TXSTAT_FULL i,
    Reg.MBX_TXSTAT_ACKS i, Reg.MBX_TXSTAT_REJECTED i, Reg.MBX_TXCELL_DATA i w, Reg.MBX_RXSTAT_COUNT i,
    Reg.MBX_RXCELL_DATA i w]

/-- The other register groups that an activation writes. -/
def moduleGroups (i r w : Nat) : List Fld :=
  [Reg.CST_CH_STATUS_SR_EN i, Reg.TRT_MASTER_QOS i, Reg.TRT_URGENT_THRESHOLD i, Reg.mpuWord i r w, Reg.CMP_FANOUT_READERS i,
    Reg.CMP_ENGINE_STATUS_HEADS i, Reg.CMP_ENGINE_STATUS_ACTIVE i, Reg.CMP_ENGINE_STATUS_SPARE i,
    Reg.MIM_SURF_STATUS_ENABLED i, Reg.MIM_SURF_STATUS_DRAWN i, Reg.MIM_SURF_STATUS_LEASES i, Reg.DFL_PACE_MBPS i]

theorem Fld.apart_of_low {f : Fld} (h : f.key < 0x301000 * 32) : f.Apart := .inl h

theorem layerGroups_apart (l i : Nat) : ∀ x ∈ layerGroups l i, x.Apart := by
  simp only [layerGroups, List.forall_mem_cons, List.not_mem_nil, false_implies, implies_true, and_true, Fld.Apart, Fld.key,
    Reg.layerWord, Reg.FRS_LAYER_BUDGET_BUDGET,
    Reg.CMP_LAYER_STATUS_HEAD, Reg.CMP_LAYER_STATUS_CREDIT, Reg.CMP_LAYER_STATUS_ENABLED, Reg.CMP_LAYER_STATUS_ARMED,
    Reg.FRS_LAYER_STATE_LIVE_BEARING, Reg.FRS_LAYER_STATE_GINGHAM_EN, Reg.FRS_LAYER_STATE_WT_BOUND,
    Reg.FRS_LAYER_STATE_WT_VERDICT, Reg.FRS_LAYER_STATE_WT_NO_VERDICT]
  and_intros <;> omega

theorem videoGroups_apart (i : Nat) : ∀ x ∈ videoGroups i, x.Apart := by
  intro x hx
  refine Fld.apart_of_low ?_
  revert x
  simp only [videoGroups, shownFields, startFields, List.cons_append, List.nil_append, List.forall_mem_cons,
    List.not_mem_nil, false_implies, implies_true, and_true, Fld.key,
    Reg.ING_STATUS_SSRC_LOCKED, Reg.ING_SSRC_SSRC, Reg.ING_STATUS_SR_VALID, Reg.ING_STATUS_SYNC_VALID,
    Reg.ING_SYNC_ATTEST_VALID, Reg.ING_STATUS_FRER_ACTIVE, Reg.DEC_CTX_STATUS_STATE, Reg.DEC_CTX_STATUS_CUR_ANCIENT,
    Reg.DEC_CTX_STATUS_CUR_CONCEALED, Reg.DEC_CTX_STATUS_CUR_FAULT, Reg.DEC_CTX_STATUS_CUR_CLASS,
    Reg.DEC_CTX_STATUS_TAINT_RUN, Reg.DEC_CTX_STATUS_LAST_EVENT, Reg.DEC_CTX_ERR_SYNTAX, Reg.DEC_CTX_ERR_PARAM,
    Reg.DEC_CTX_ERR_ABSENT, Reg.DEC_CTX_ERR_ENVELOPE, Reg.DEC_CTX_TOKENS_HELD, Reg.DEC_CTX_TOKENS_FREE,
    Reg.ING_STATUS_ENABLED, Reg.DEC_CTX_STATUS_CORE, Reg.DEC_CTX_TOKENS_POOL, Reg.DEC_CORE_STATUS_ACTIVE,
    Reg.ENC_CTX_STATUS_ENABLED, Reg.ENC_CTX_STATUS_QP, Reg.ENC_CTX_STATUS_GO_PENDING, Reg.ENC_OUT_WR_OFFSET,
    Reg.ENC_OUT_RD_OFFSET, Reg.ENC_CORE_STATUS_ACTIVE, Reg.ENC_CORE_STATUS_BUSY, Reg.ENC_CORE_STATUS_CTX,
    Reg.ENC_CORE_STATUS_QUEUED]
  and_intros <;> omega

theorem linkGroups_apart (i w : Nat) : ∀ x ∈ linkGroups i w, x.Apart := by
  simp only [linkGroups, List.forall_mem_cons, List.not_mem_nil, false_implies, implies_true, and_true, Fld.Apart, Fld.key,
    Reg.STC_STATUS_STATE, Reg.STC_STATUS_ACTIVE,
    Reg.STC_STATUS_DEGRADED, Reg.STC_STATUS_WIRED, Reg.STC_STATUS_ILM2400, Reg.STC_CREDITS_TX_CREDITS,
    Reg.STC_CELLS_TX_COUNT, Reg.STC_REGION_VALID, Reg.STC_REGION_WORST, Reg.LNE_STATUS_STATE, Reg.LNE_SPARE_CTRL_LANE,
    Reg.LNE_SPARE_CTRL_MODE, Reg.LNE_SPARE_CTRL_AUTO, Reg.LNE_SPARE_STATUS_ARMED, Reg.MBX_TXSTAT_FREE,
    Reg.MBX_TXSTAT_FULL, Reg.MBX_TXSTAT_ACKS, Reg.MBX_TXSTAT_REJECTED, Reg.MBX_TXCELL_DATA, Reg.MBX_RXSTAT_COUNT,
    Reg.MBX_RXCELL_DATA]
  and_intros <;> omega

theorem moduleGroups_apart (i r w : Nat) : ∀ x ∈ moduleGroups i r w, x.Apart := by
  simp only [moduleGroups, List.forall_mem_cons, List.not_mem_nil, false_implies, implies_true, and_true, Fld.Apart, Fld.key,
    Reg.CST_CH_STATUS_SR_EN, Reg.TRT_MASTER_QOS,
    Reg.TRT_URGENT_THRESHOLD, Reg.mpuWord, Reg.CMP_FANOUT_READERS, Reg.CMP_ENGINE_STATUS_HEADS,
    Reg.CMP_ENGINE_STATUS_ACTIVE, Reg.CMP_ENGINE_STATUS_SPARE, Reg.MIM_SURF_STATUS_ENABLED, Reg.MIM_SURF_STATUS_DRAWN,
    Reg.MIM_SURF_STATUS_LEASES, Reg.DFL_PACE_MBPS]
  and_intros <;> omega

theorem logFields_apart : ∀ x ∈ logFields, x.Apart := by decide

theorem headEnabled_shown (k : Nat) : ¬ (Reg.HDS_STATUS_ENABLED k).Apart := by
  simp only [Fld.Apart, Fld.key, Reg.HDS_STATUS_ENABLED]
  omega

/-! ## What leaves the progress alone -/

/-- What an image's progress rests on beside registers: what is staged, which heads wait, whether E has passed, and the
streams and points of the active configuration, which take effect at E. -/
structure Progress where
  staged   : Option Staged
  switches : List Nat
  live     : Bool
  streams  : List StreamEntry
  points   : Option PointsCfg

def HostSide.progress (h : HostSide) : Progress :=
  ⟨h.stage.staged, h.stage.switches, h.stage.live, h.cfg.streams, h.cfg.points⟩

/-- From `h` to `g` the image's progress and the heads' timings stand. -/
structure HostSide.KeepsProgress (h g : HostSide) : Prop where
  get : ∀ {f : Fld}, ¬ f.Apart → g.get f = h.get f
  progress : g.progress = h.progress
  time : ∀ k, (g.head k).time = (h.head k).time

theorem HostSide.get_put_apart (h : HostSide) {f x : Fld} (hf : ¬ f.Apart) (hx : x.Apart) (v : Nat) :
    (h.put x v).get f = h.get f :=
  h.get_put_ne v fun hk => hf (by unfold Fld.Apart; rw [hk]; exact hx)

namespace HostSide.KeepsProgress

theorem refl (h : HostSide) : h.KeepsProgress h := ⟨fun _ => rfl, rfl, fun _ => rfl⟩

theorem trans {h g k : HostSide} (a : h.KeepsProgress g) (b : g.KeepsProgress k) : h.KeepsProgress k :=
  ⟨fun hf => (b.get hf).trans (a.get hf), b.progress.trans a.progress, fun n => (b.time n).trans (a.time n)⟩

theorem foldl {α : Type} {f : HostSide → α → HostSide} {l : List α}
    (hf : ∀ (g : HostSide) (a : α), a ∈ l → g.KeepsProgress (f g a)) (h : HostSide) :
    h.KeepsProgress (l.foldl f h) := by
  induction l generalizing h with
  | nil => exact .refl h
  | cons a l ih => exact (hf h a List.mem_cons_self).trans (ih (fun g b hb => hf g b (List.mem_cons_of_mem a hb)) _)

theorem ite {h g k : HostSide} {p : Prop} [Decidable p] (a : h.KeepsProgress g) (b : h.KeepsProgress k) :
    h.KeepsProgress (if p then g else k) := by
  split
  · exact a
  · exact b

theorem ofLogged {h g : HostSide} (a : h.Logged g) : h.KeepsProgress g where
  get hf := a.get _ fun x hx hk => hf (by unfold Fld.Apart; rw [hk]; exact logFields_apart x hx)
  progress := (congrArg HostSide.progress a.rest).trans rfl
  time k := (congrArg (fun g : HostSide => (g.head k).time) a.rest).trans rfl

variable {h g : HostSide} (a : h.KeepsProgress g)
include a

/-- A change of what is neither a register nor the progress. -/
theorem update {k : HostSide} (hregs : k.regs = g.regs := by rfl) (hprogress : k.progress = g.progress := by rfl)
    (hheads : k.display.heads = g.display.heads := by rfl) : h.KeepsProgress k :=
  a.trans ⟨fun _ => by rw [HostSide.get, hregs]; rfl, hprogress, fun n => by rw [HostSide.head, hheads]; rfl⟩

theorem put {x : Fld} (hx : x.Apart) (v : Nat) : h.KeepsProgress (g.put x v) :=
  a.trans ⟨fun hf => g.get_put_apart hf hx v, rfl, fun _ => rfl⟩

theorem putLayer (l i : Nat) {x : Fld} (hx : x ∈ layerGroups l i) (v : Nat) : h.KeepsProgress (g.put x v) :=
  a.put (layerGroups_apart l i x hx) v

theorem putVideo (i : Nat) {x : Fld} (hx : x ∈ videoGroups i) (v : Nat) : h.KeepsProgress (g.put x v) :=
  a.put (videoGroups_apart i x hx) v

theorem putLink (i w : Nat) {x : Fld} (hx : x ∈ linkGroups i w) (v : Nat) : h.KeepsProgress (g.put x v) :=
  a.put (linkGroups_apart i w x hx) v

theorem putModule (i r w : Nat) {x : Fld} (hx : x ∈ moduleGroups i r w) (v : Nat) : h.KeepsProgress (g.put x v) :=
  a.put (moduleGroups_apart i r w x hx) v

theorem log (source code index frame detail : Nat) : h.KeepsProgress (g.log source code index frame detail) :=
  a.trans (.ofLogged (g.log_logged _ _ _ _ _))

theorem caPut (port ca : Nat) (bs : List Byte) : h.KeepsProgress (g.caPut port ca bs) :=
  a.trans (.ofLogged (g.caPut_logged _ _ _))

theorem setHead (k : Nat) {v : HeadState} (hv : v.time = (g.head k).time) : h.KeepsProgress (g.setHead k v) := by
  refine a.trans ⟨fun _ => rfl, rfl, fun j => ?_⟩
  by_cases hj : j = k
  · rw [hj, HostSide.head_setHead_self, hv]
  · rw [HostSide.head_setHead_ne _ _ hj]

theorem interruptIf (en vec : Fld) : h.KeepsProgress (g.interruptIf en vec) := by
  unfold HostSide.interruptIf HostSide.interrupt
  exact .ite (.ite a.update a.update) a

end HostSide.KeepsProgress

/-! ## Pages, leases and releases -/

theorem HostSide.showPages_keepsProgress (h : HostSide) : h.KeepsProgress h.showPages :=
  .put (.put (.refl h) (by decide) _) (by decide) _

theorem HostSide.freePages_keepsProgress (h : HostSide) (p : PageRun → Bool) : h.KeepsProgress (h.freePages p) :=
  .ite (.refl h) (.trans (.update (.refl h)) (HostSide.showPages_keepsProgress _))

theorem HostSide.reservePages_keepsProgress (h : HostSide) (run : PageRun) : h.KeepsProgress (h.reservePages run) :=
  .trans (.update (.refl h)) (HostSide.showPages_keepsProgress _)

theorem HostSide.showSurf_keepsProgress (h : HostSide) : h.KeepsProgress h.showSurf := by
  unfold HostSide.showSurf
  iterate 13 refine .put ?_ (by decide) _
  exact .refl h

theorem HostSide.showMimicLeases_keepsProgress (h : HostSide) : h.KeepsProgress h.showMimicLeases :=
  .foldl (fun g p _ => .putModule (.refl g) p.1 0 0 (by simp [moduleGroups]) _) h

theorem HostSide.showWindow_keepsProgress (h : HostSide) : h.KeepsProgress h.showWindow :=
  .put (.put (.refl h) (by decide) _) (by decide) _

theorem HostSide.ringRelease_keepsProgress (h : HostSide) (bell : Nat) : h.KeepsProgress (h.ringRelease bell) := by
  unfold HostSide.ringRelease
  extract_lets f
  have hf : f.Apart := by
    by_cases hb : bell < 32
    · rw [show f = Reg.CMP_REL_DOORBELL_LO_BITS from if_pos hb]
      decide
    · rw [show f = Reg.CMP_REL_DOORBELL_HI_BITS from if_neg hb]
      decide
  exact .ite (.refl h) (.interruptIf (.put (.refl h) hf _) _ _)

theorem HostSide.completeRelease_keepsProgress (h : HostSide) (sh : Nat) (s : Surface) :
    h.KeepsProgress (h.completeRelease sh s) := by
  unfold HostSide.completeRelease
  extract_lets freed _ queued rung
  have hfreed : h.KeepsProgress freed :=
    .ite (.update (.refl h)) (.trans (.update (.refl h)) (HostSide.freePages_keepsProgress _ _))
  have hqueued : h.KeepsProgress queued := .ite hfreed.update (hfreed.put (by decide) _)
  have hrung : h.KeepsProgress rung := by
    dsimp only [rung]
    split
    · exact hqueued.trans (HostSide.ringRelease_keepsProgress _ _)
    · exact hqueued
  exact .put (.put hrung (by decide) _) (by decide) _

theorem HostSide.settle_keepsProgress (h : HostSide) : h.KeepsProgress h.settle := by
  unfold HostSide.settle
  refine .trans (.trans (.trans (.foldl (fun g p _ => ?_) h) (HostSide.showSurf_keepsProgress _))
    (HostSide.showMimicLeases_keepsProgress _)) (HostSide.showWindow_keepsProgress _)
  split
  · exact .ite (g.completeRelease_keepsProgress _ _) (.ite (.refl g) (.update (.refl g)))
  · exact .refl g

end Sys2Proof.Machine
end

section
/-! Messages of staging (O48, O49; 03_structure_image.md R73, 11_crossing.md R267, 15_lanes.md R363): what sending one
changes. -/

namespace Sys2Proof.Machine

open Sys2Proof

/-! ## Effects of messages -/

/-- From `h` to `g` only registers apart from an image's progress, the links, the crossing, the start-up and what host
Uliska keeps have changed. -/
structure HostSide.Messaged (h g : HostSide) : Prop where
  rest : g = { h with
    regs := g.regs, boot := g.boot, lanes := g.lanes, sent := g.sent, xing := g.xing, uliska := g.uliska }
  get : ∀ {f : Fld}, ¬ f.Apart → g.get f = h.get f

namespace HostSide.Messaged

theorem refl (h : HostSide) : h.Messaged h := ⟨rfl, fun _ => rfl⟩

theorem trans {h g k : HostSide} (a : h.Messaged g) (b : g.Messaged k) : h.Messaged k :=
  ⟨by rw [b.rest, a.rest], fun hf => (b.get hf).trans (a.get hf)⟩

theorem ite {h g k : HostSide} {p : Prop} [Decidable p] (a : h.Messaged g) (b : h.Messaged k) :
    h.Messaged (if p then g else k) := by
  split
  · exact a
  · exact b

theorem foldl {α : Type} {f : HostSide → α → HostSide} {l : List α}
    (hf : ∀ (g : HostSide) (a : α), a ∈ l → g.Messaged (f g a)) (h : HostSide) : h.Messaged (l.foldl f h) := by
  induction l generalizing h with
  | nil => exact .refl h
  | cons a l ih => exact (hf h a List.mem_cons_self).trans (ih (fun g b hb => hf g b (List.mem_cons_of_mem a hb)) _)

variable {h g : HostSide} (a : h.Messaged g)
include a

theorem put {x : Fld} (hx : x.Apart) (v : Nat) : h.Messaged (g.put x v) := a.trans ⟨rfl, fun hf => g.get_put_apart hf hx v⟩

theorem putLink (i w : Nat) {x : Fld} (hx : x ∈ linkGroups i w) (v : Nat) : h.Messaged (g.put x v) :=
  a.put (linkGroups_apart i w x hx) v

theorem cfg : g.cfg = h.cfg := (congrArg HostSide.cfg a.rest).trans rfl
theorem stage : g.stage = h.stage := (congrArg HostSide.stage a.rest).trans rfl
theorem sameMemory : g.SameMemory h :=
  ⟨(congrArg HostSide.store a.rest).trans rfl, (congrArg HostSide.tartan a.rest).trans rfl⟩

end HostSide.Messaged

/-! ## Messages to members -/

theorem HostSide.showCredits_messaged (h : HostSide) (k : Nat) : h.Messaged (h.showCredits k) :=
  .putLink (.refl h) k 0 (x := Reg.STC_CREDITS_TX_CREDITS k) (by simp [linkGroups]) _

theorem HostSide.sendLink_messaged (h : HostSide) (k : Nat) (header payload : List Byte) :
    h.Messaged (h.sendLink k header payload).1 := by
  unfold HostSide.sendLink
  split
  · exact .refl h
  · extract_lets l head cell sent
    have hsent : h.Messaged sent := ⟨rfl, fun _ => rfl⟩
    have hcounted : h.Messaged (sent.countWrap (Reg.STC_CELLS_TX_COUNT k)) :=
      hsent.putLink k 0 (x := Reg.STC_CELLS_TX_COUNT k) (by simp [linkGroups]) _
    have hgone : h.Messaged ((sent.countWrap (Reg.STC_CELLS_TX_COUNT k)).send (.cell k cell)) :=
      hcounted.trans ⟨rfl, fun _ => rfl⟩
    exact hgone.trans (HostSide.showCredits_messaged _ k)

theorem HostSide.sendMessage_messaged (h : HostSide) (k type : Nat) (payload : List Byte) :
    h.Messaged (h.sendMessage k type payload) := h.sendLink_messaged _ _ _

theorem HostSide.sendVerdict_messaged (h : HostSide) (members id : Nat) (e : DT) (admits : Bool) :
    h.Messaged (h.sendVerdict members id e admits) := by
  unfold HostSide.sendVerdict
  extract_lets own bank told
  have htold : h.Messaged told := .ite (.foldl (fun g _ _ => g.sendMessage_messaged _ _ _) _) (.refl h)
  exact .ite (htold.trans (HostSide.sendMessage_messaged _ _ _ _)) htold

/-! ## Messages to the field side -/

theorem HostSide.showChan_messaged (h : HostSide) (c : Nat) : h.Messaged (h.showChan c) := by
  unfold HostSide.showChan
  extract_lets ch shown cell
  have hshown : h.Messaged shown := by
    refine .ite ?_ (.refl h)
    iterate 3 refine .putLink ?_ c 0 (by simp [linkGroups]) _
    exact .refl h
  exact .ite (.trans (hshown.putLink c 0 (by simp [linkGroups]) _)
    (.foldl (fun g w _ => .putLink (.refl g) c w (by simp [linkGroups]) _) _)) hshown

theorem HostSide.stageCell_messaged (h : HostSide) (c : Nat) (cell : List Byte) : h.Messaged (h.stageCell c cell) :=
  .foldl (fun g w _ => .putLink (.refl g) c w (by simp [linkGroups]) _) _

theorem HostSide.pushStaged_messaged (h : HostSide) (c : Nat) : h.Messaged (h.pushStaged c).1 := by
  unfold HostSide.pushStaged
  split
  · exact .trans (g := { h with xing := h.xing.setChan c ((h.xing.chan c).push (h.staged c) h.now) })
      ⟨rfl, fun _ => rfl⟩ (HostSide.showChan_messaged _ c)
  · exact .putLink (.refl h) c 0 (by simp [linkGroups]) _

theorem HostSide.sendPiece_messaged (h : HostSide) (fw : Bool) (payload : List Byte) :
    h.Messaged (h.sendPiece fw payload) :=
  .trans (g := h.nextMsg 2) ⟨rfl, fun _ => rfl⟩
    (.trans (HostSide.stageCell_messaged _ 2 _) (HostSide.pushStaged_messaged _ 2))

theorem HostSide.setSending_messaged (h : HostSide) (fw : Bool) (v : Option Sending) : h.Messaged (h.setSending fw v) :=
  ⟨rfl, fun _ => rfl⟩

theorem HostSide.awaitArm_messaged (h : HostSide) : h.Messaged h.awaitArm := ⟨rfl, fun _ => rfl⟩

theorem HostSide.sendArm_messaged (h : HostSide) (id : Nat) (e : DT) : h.Messaged (h.sendArm id e) :=
  (h.sendPiece_messaged _ _).trans (HostSide.awaitArm_messaged _)

theorem HostSide.sendCancel_messaged (h : HostSide) (id : Nat) : h.Messaged (h.sendCancel id) :=
  (h.sendPiece_messaged _ _).trans (HostSide.awaitArm_messaged _)

theorem HostSide.beginSending_messaged (h : HostSide) (fw : Bool) (id : Nat) (content : List Byte) (deadline : DT) :
    h.Messaged (h.beginSending fw id content deadline) :=
  (h.sendPiece_messaged _ _).trans (HostSide.setSending_messaged _ _ _)

/-! ## The start-up -/

theorem HostSide.enterStep_messaged (h : HostSide) (n : Nat) : h.Messaged (h.enterStep n) := by
  unfold HostSide.enterStep
  dsimp only
  refine .put (.put ?_ (by decide) _) (by decide) _
  exact ⟨rfl, fun _ => rfl⟩

theorem HostSide.restartStaging_messaged (h : HostSide) : h.Messaged h.restartStaging := by
  unfold HostSide.restartStaging
  exact .ite (h.enterStep_messaged 9) (.refl h)

end Sys2Proof.Machine
end

section
/-! Refusals (O48, O49; 03_structure_image.md R71, R73, R79; 16_twin_repair.md R382): what dropping the staged image and
refusing it leave. -/

namespace Sys2Proof.Machine

open Sys2Proof

/-! ## The staged image is dropped -/

theorem HostSide.freePages_frame (h : HostSide) (p : PageRun → Bool) :
    ((h.freePages p).cfg, (h.freePages p).stage, (h.freePages p).store.mem, (h.freePages p).tartan) =
      (h.cfg, h.stage, h.store.mem, h.tartan) := by
  unfold HostSide.freePages
  split <;> rfl

/-- From `h` to `g` the staged image is dropped, and what is active and both memories stand. -/
structure HostSide.Dropped (h g : HostSide) : Prop where
  get : ∀ {f : Fld}, ¬ f.Apart → g.get f = h.get f
  staged : g.stage.staged = none
  frame : (g.cfg, g.store.mem, g.tartan) = (h.cfg, h.store.mem, h.tartan)

theorem HostSide.dropStaged_dropped (h : HostSide) : h.Dropped h.dropStaged := by
  unfold HostSide.dropStaged
  extract_lets told freed unmarked _ quiet
  have htold : h.Messaged told := by
    dsimp only [told]
    split
    · exact .ite (h.sendCancel_messaged _) (.refl h)
    · exact .refl h
  have hfreed := told.freePages_frame (·.staged)
  refine ⟨fun hf => ?_, rfl, ?_⟩
  · exact (HostSide.get_put_apart { quiet with stage := { quiet.stage with staged := none } } hf (by decide) _).trans
      (((told.freePages_keepsProgress _).get hf).trans (htold.get hf))
  · rw [← htold.cfg, ← htold.sameMemory.1, ← htold.sameMemory.2]
    exact congrArg (fun x => (x.1, x.2.2)) hfreed

/-! ## An image is refused -/

/-- The refusal of an image ends a resynchronisation (R382), and shows nothing else of the progress. -/
theorem HostSide.get_resyncFails_ne (h : HostSide) {f : Fld} (hf : ¬ f.Apart) (hne : f.key ≠ Reg.TWN_RESYNC_STATE.key) :
    h.resyncFails.get f = h.get f := by
  unfold HostSide.resyncFails
  split
  · exact ((HostSide.KeepsProgress.refl _).log _ _ _ _ _).get hf |>.trans (HostSide.get_put_ne _ _ hne)
  · rfl

theorem HostSide.resyncFails_frame (h : HostSide) :
    (h.resyncFails.stage, h.resyncFails.cfg) = (h.stage, h.cfg) := by
  unfold HostSide.resyncFails
  split
  · exact (congrArg (fun g : HostSide => (g.stage, g.cfg)) (HostSide.log_logged _ _ _ _ _ _).rest).trans rfl
  · rfl

/-- The fields that a refusal leaves as they are. -/
def unrefusedFields : List Fld := [Reg.BCK_STATUS_RESULT, Reg.BCK_STATUS_CODE, Reg.SIM_STATUS_OVERRIDE_ARMED]

/-- From `h` to `g` an image is refused with a reason, the section concerned or none, and the member concerned. -/
structure HostSide.Refused (reason : Nat) (sec : Option Nat) (peer : Nat) (h g : HostSide) : Prop where
  stage : g.get Reg.SIM_STATUS_STAGE = 6
  reason : g.get Reg.SIM_REFUSAL_REASON = reason % 256
  peer : g.get Reg.SIM_REFUSAL_PEER = peer % 8
  whole : g.get Reg.SIM_REFUSAL_SECTION_NONE = b2n sec.isNone
  staged : g.stage.staged = none
  cfg : g.cfg = h.cfg
  kept : ∀ f ∈ unrefusedFields, g.get f = h.get f

theorem HostSide.Refused.messaged {reason peer : Nat} {sec : Option Nat} {h g k : HostSide}
    (a : HostSide.Refused reason sec peer h g) (b : g.Messaged k) : HostSide.Refused reason sec peer h k where
  stage := (b.get (by decide)).trans a.stage
  reason := (b.get (by decide)).trans a.reason
  peer := (b.get (by decide)).trans a.peer
  whole := (b.get (by decide)).trans a.whole
  staged := (congrArg Stage.staged b.stage).trans a.staged
  cfg := b.cfg.trans a.cfg
  kept f hf := (b.get ((by decide : ∀ f ∈ unrefusedFields, ¬ f.Apart) f hf)).trans (a.kept f hf)

/-- STAGE and SIM.REFUSAL show a refusal. -/
def HostSide.showRefusal (h : HostSide) (reason : Nat) (sec : Option Nat) (peer : Nat) : HostSide :=
  ((((h.toStage 6).put Reg.SIM_REFUSAL_REASON reason).put Reg.SIM_REFUSAL_SECTION (sec.getD 0)).put
    Reg.SIM_REFUSAL_PEER peer).putB Reg.SIM_REFUSAL_SECTION_NONE sec.isNone

/-- What a refusal shows. -/
def refusalFields : List Fld :=
  [Reg.SIM_STATUS_STAGE, Reg.SIM_REFUSAL_REASON, Reg.SIM_REFUSAL_SECTION, Reg.SIM_REFUSAL_PEER,
    Reg.SIM_REFUSAL_SECTION_NONE]

theorem HostSide.get_showRefusal_ne (h : HostSide) (reason : Nat) (sec : Option Nat) (peer : Nat) {f : Fld}
    (hf : ∀ x ∈ refusalFields, f.key ≠ x.key) : (h.showRefusal reason sec peer).get f = h.get f := by
  simp only [refusalFields, List.forall_mem_cons] at hf
  obtain ⟨hstage, hreason, hsection, hpeer, hnone, -⟩ := hf
  exact (HostSide.get_putB_ne _ _ hnone).trans ((HostSide.get_put_ne _ _ hpeer).trans
    ((HostSide.get_put_ne _ _ hsection).trans ((HostSide.get_put_ne _ _ hreason).trans (h.get_put_ne _ hstage))))

theorem HostSide.refuseImage_eq (h : HostSide) (reason : Nat) (sec : Option Nat) (peer members id : Nat) (e : DT) :
    h.refuseImage reason sec peer members id e =
      ((h.dropStaged.showRefusal reason sec peer).sendVerdict members id e false).resyncFails := rfl

theorem HostSide.refuseImage_refused (h : HostSide) (reason : Nat) (sec : Option Nat) (peer members id : Nat) (e : DT) :
    HostSide.Refused reason sec peer h (h.refuseImage reason sec peer members id e) := by
  rw [HostSide.refuseImage_eq]
  have hdrop := h.dropStaged_dropped
  have htold := (h.dropStaged.showRefusal reason sec peer).sendVerdict_messaged members id e false
  have hend := HostSide.resyncFails_frame ((h.dropStaged.showRefusal reason sec peer).sendVerdict members id e false)
  have hget {f : Fld} (hf : ¬ f.Apart) (hne : f.key ≠ Reg.TWN_RESYNC_STATE.key) :=
    (HostSide.get_resyncFails_ne _ hf hne).trans (htold.get hf)
  refine ⟨(hget (by decide) (by decide)).trans ?_, (hget (by decide) (by decide)).trans ?_,
    (hget (by decide) (by decide)).trans ?_, (hget (by decide) (by decide)).trans ?_,
    (congrArg (·.1.staged) hend).trans ((congrArg Stage.staged htold.stage).trans hdrop.staged),
    (congrArg (·.2) hend).trans (htold.cfg.trans (congrArg (·.1) hdrop.frame)), fun f hf => ?_⟩
  · unfold HostSide.showRefusal
    rw [HostSide.get_putB_ne _ _ (by decide), HostSide.get_put_ne _ _ (by decide), HostSide.get_put_ne _ _ (by decide),
      HostSide.get_put_ne _ _ (by decide)]
    exact HostSide.get_put_self ..
  · unfold HostSide.showRefusal
    rw [HostSide.get_putB_ne _ _ (by decide), HostSide.get_put_ne _ _ (by decide), HostSide.get_put_ne _ _ (by decide)]
    exact HostSide.get_put_self ..
  · unfold HostSide.showRefusal
    rw [HostSide.get_putB_ne _ _ (by decide)]
    exact HostSide.get_put_self ..
  · exact (HostSide.get_putB_self ..).trans (b2n_mod_two _)
  · obtain ⟨hshown, hne, hapart⟩ := (by decide : ∀ f ∈ unrefusedFields,
      ¬ f.Apart ∧ f.key ≠ Reg.TWN_RESYNC_STATE.key ∧ ∀ x ∈ refusalFields, f.key ≠ x.key) f hf
    exact (hget hshown hne).trans ((HostSide.get_showRefusal_ne _ _ _ _ hapart).trans (hdrop.get hshown))

theorem HostSide.stopImage_refused (h : HostSide) (r : Refuse) (peer members id : Nat) (e : DT) :
    HostSide.Refused r.reason r.sec peer h (h.stopImage r peer members id e) :=
  (h.refuseImage_refused _ _ _ _ _ _).messaged (HostSide.restartStaging_messaged _)

theorem HostSide.stopStaged_refused {h : HostSide} {st : Staged} (hst : h.stage.staged = some st) (reason peer : Nat) :
    HostSide.Refused reason none peer h (h.stopStaged reason peer) := by
  unfold HostSide.stopStaged HostSide.refuseStaged
  rw [hst]
  exact (h.refuseImage_refused _ _ _ _ _ _).messaged (HostSide.restartStaging_messaged _)

end Sys2Proof.Machine
end

section
/-! What members say of an image (O49; 03_structure_image.md R73, 15_lanes.md R363, 16_twin_repair.md R382), and the
commit point. -/

namespace Sys2Proof.Machine

open Sys2Proof

/-! ## Bits of a mask -/

theorem bit_eq_testBit (v i : Nat) : bit v i = v.testBit i := by
  rw [Nat.testBit_eq_decide_div_mod_eq]
  rfl

theorem bit_mod_two_pow {i w : Nat} (v : Nat) (hi : i < w) : bit (v % 2 ^ w) i = bit v i := by
  simp [bit_eq_testBit, Nat.testBit_mod_two_pow, hi]

/-- Setting a bit leaves the higher ones alone, as it was clear. -/
theorem setBit_div_two_pow {i j : Nat} (v : Nat) (hj : j < i) : setBit v j / 2 ^ i = v / 2 ^ i := by
  obtain ⟨d, rfl⟩ := Nat.exists_eq_add_of_lt hj
  rw [Nat.add_right_comm, Nat.pow_add, Nat.pow_succ, ← Nat.div_div_eq_div_mul, ← Nat.div_div_eq_div_mul,
    ← Nat.div_div_eq_div_mul, ← Nat.div_div_eq_div_mul]
  refine congrArg (· / 2 ^ d) ?_
  unfold setBit
  split
  · rfl
  · next hclear =>
    simp only [bit, beq_iff_eq] at hclear
    rw [Nat.add_div_right _ (Nat.two_pow_pos j)]
    omega

theorem bit_setBit_of_bit {v i : Nat} (j : Nat) (h : bit v i = true) : bit (setBit v j) i = true := by
  rcases Nat.lt_trichotomy i j with hlt | rfl | hgt
  · unfold setBit
    split
    · exact h
    · rw [bit_eq_testBit] at h ⊢
      rw [Nat.add_comm, Nat.testBit_two_pow_add_gt hlt]
      exact h
  · exact bit_setBit_self v i
  · unfold bit at h ⊢
    rw [setBit_div_two_pow v hgt]
    exact h

/-! ## What members say -/

/-- The members that said this of the image `id`. -/
def peerMask (id : Nat) (want : Bool) (l : List PeerMsg) (v : Nat) : Nat :=
  l.foldl (fun m p => if p.imageId = id ∧ id ≠ 0 ∧ p.admits = want then setBit m p.target else m) v

theorem HostSide.showPeers_eq (h : HostSide) (id : Nat) :
    h.showPeers id = (h.put Reg.SIM_PEER_ADMIT_ADMITTED (peerMask id true h.stage.peers 0)).put
      Reg.SIM_PEER_ADMIT_REFUSED (peerMask id false h.stage.peers 0) := rfl

theorem bit_peerMask_of_bit {i v : Nat} (id : Nat) (want : Bool) (l : List PeerMsg) (h : bit v i = true) :
    bit (peerMask id want l v) i = true := by
  induction l generalizing v with
  | nil => exact h
  | cons p l ih =>
    refine ih ?_
    dsimp only
    split
    · exact bit_setBit_of_bit _ h
    · exact h

theorem bit_peerMask_cons (m : PeerMsg) (hid : m.imageId ≠ 0) (l : List PeerMsg) (v : Nat) :
    bit (peerMask m.imageId m.admits (m :: l) v) m.target = true := by
  refine bit_peerMask_of_bit _ _ l ?_
  dsimp only
  rw [if_pos ⟨rfl, hid, rfl⟩]
  exact bit_setBit_self _ _

theorem HostSide.get_showPeers_ne (h : HostSide) (id : Nat) {f : Fld} (ha : f.key ≠ Reg.SIM_PEER_ADMIT_ADMITTED.key)
    (hr : f.key ≠ Reg.SIM_PEER_ADMIT_REFUSED.key) : (h.showPeers id).get f = h.get f :=
  (HostSide.get_put_ne _ _ hr).trans (HostSide.get_put_ne _ _ ha)

/-- The field that shows who admits, or who refuses. -/
abbrev saidField (admits : Bool) : Fld := if admits then Reg.SIM_PEER_ADMIT_ADMITTED else Reg.SIM_PEER_ADMIT_REFUSED

theorem saidField_shown (admits : Bool) : ¬ (saidField admits).Apart ∧
    (saidField admits).key ≠ Reg.TWN_RESYNC_STATE.key ∧ ∀ x ∈ logFields, (saidField admits).key ≠ x.key := by
  cases admits <;> decide

theorem HostSide.get_showPeers_said (h : HostSide) (id : Nat) (want : Bool) :
    (h.showPeers id).get (saidField want) = peerMask id want h.stage.peers 0 % 2 ^ 8 := by
  rw [HostSide.showPeers_eq]
  cases want with
  | true => exact (HostSide.get_put_ne _ _ (by decide)).trans (HostSide.get_put_self ..)
  | false => exact HostSide.get_put_self ..

/-- The messages of members after `m`. -/
def HostSide.peersWith (h : HostSide) (m : PeerMsg) : List PeerMsg :=
  m :: h.stage.peers.filter (fun p => p.target != m.target)

theorem HostSide.takeImageMsg_frame (h : HostSide) (m : PeerMsg) :
    ((h.takeImageMsg m).stage, (h.takeImageMsg m).twin, (h.takeImageMsg m).store, (h.takeImageMsg m).tartan) =
      ({ h.stage with peers := h.peersWith m }, h.twin, h.store, h.tartan) := by
  unfold HostSide.takeImageMsg
  dsimp only
  split <;> rfl

theorem HostSide.get_takeImageMsg_ne (h : HostSide) (m : PeerMsg) {f : Fld}
    (ha : f.key ≠ Reg.SIM_PEER_ADMIT_ADMITTED.key) (hr : f.key ≠ Reg.SIM_PEER_ADMIT_REFUSED.key) :
    (h.takeImageMsg m).get f = h.get f := by
  unfold HostSide.takeImageMsg
  dsimp only
  split
  · rfl
  · exact HostSide.get_showPeers_ne _ _ ha hr

theorem HostSide.get_takeImageMsg_said {h : HostSide} {m : PeerMsg} (hid : m.imageId ≠ 0) (hst : h.stagedId = m.imageId)
    (hm : m.target < 8) : bit ((h.takeImageMsg m).get (saidField m.admits)) m.target = true := by
  have hshown : h.takeImageMsg m = ({ h with stage := { h.stage with peers := h.peersWith m } } : HostSide).showPeers
      m.imageId := by
    rw [← hst]
    exact if_neg (hst ▸ hid)
  rw [hshown, HostSide.get_showPeers_said, bit_mod_two_pow _ hm]
  exact bit_peerMask_cons m hid _ 0

/-! ## A refused resynchronisation -/

theorem HostSide.resyncRefused_stage (h : HostSide) (m : PeerMsg) : (h.resyncRefused m).stage = h.stage := by
  unfold HostSide.resyncRefused
  extract_lets
  split
  · exact (congrArg HostSide.stage (HostSide.log_logged _ _ _ _ _ _).rest).trans rfl
  · rfl

theorem HostSide.get_resyncRefused_ne (h : HostSide) (m : PeerMsg) {f : Fld} (hne : f.key ≠ Reg.TWN_RESYNC_STATE.key)
    (hlog : ∀ x ∈ logFields, f.key ≠ x.key) : (h.resyncRefused m).get f = h.get f := by
  unfold HostSide.resyncRefused
  extract_lets
  split
  · exact (HostSide.get_log_ne _ _ _ _ _ _ hlog).trans (HostSide.get_put_ne _ _ hne)
  · rfl

theorem HostSide.resyncRefused_idle {h : HostSide} (hidle : h.get Reg.TWN_RESYNC_STATE ≠ 1) (m : PeerMsg) :
    h.resyncRefused m = h := by
  unfold HostSide.resyncRefused
  extract_lets
  exact if_neg (by simp [hidle])

theorem HostSide.resyncRefused_ends {h : HostSide} {m : PeerMsg} (hm : m.admits = false)
    (htwin : m.target = twinOf h.ownTarget) (hbusy : h.get Reg.TWN_RESYNC_STATE = 1)
    (hopen : ∃ j, h.twin.joining = some j ∧ j.info = none) : (h.resyncRefused m).get Reg.TWN_RESYNC_STATE = 3 := by
  obtain ⟨j, hj, hinfo⟩ := hopen
  unfold HostSide.resyncRefused
  extract_lets unanswered
  have hun : unanswered = true := by simp [unanswered, hj, hinfo]
  rw [if_pos (by simp [hm, htwin, hbusy, hun]), HostSide.get_log_ne _ _ _ _ _ _ (by decide)]
  exact HostSide.get_put_self ..

theorem HostSide.imageMsgArrives_messaged (h : HostSide) (m : PeerMsg) :
    ((h.takeImageMsg m).resyncRefused m).Messaged (h.imageMsgArrives m) :=
  .ite (HostSide.sendMessage_messaged _ _ _ _) (.refl _)

/-- A member's message is its last word, and SIM.PEER_ADMIT shows it. -/
theorem completes_peerImageMsg {s : State} (hr : s.hostReady) (id : BitVec 64) (e : DT) (admits : Bool) (m : Fin 8) :
    Completes (.peerImageMsg id e admits m) s (fun t =>
      t.host.stage.peers = ⟨m.val, admits, id.toNat, e⟩ :: s.host.stage.peers.filter (fun p => p.target != m.val) ∧
      (id ≠ 0 → s.host.stagedId = id.toNat → bit (t.host.get (saidField admits)) m.val = true) ∧
      (s.host.get Reg.TWN_RESYNC_STATE ≠ 1 → MemKept s t) ∧
      (admits = false → m.val = twinOf s.host.ownTarget → s.host.get Reg.TWN_RESYNC_STATE = 1 →
        (∃ j, s.host.twin.joining = some j ∧ j.info = none) → t.host.get Reg.TWN_RESYNC_STATE = 3) ∧
      OnlyHost s t) := by
  have hsent := s.host.imageMsgArrives_messaged ⟨m.val, admits, id.toNat, e⟩
  have hframe := s.host.takeImageMsg_frame ⟨m.val, admits, id.toNat, e⟩
  have hkept (f : Fld) (hf : f.key ∈ [Reg.TWN_RESYNC_STATE.key, Reg.SYS_STRAPS_TARGET.key]) :
      (s.host.takeImageMsg ⟨m.val, admits, id.toNat, e⟩).get f = s.host.get f :=
    HostSide.get_takeImageMsg_ne _ _ (fun hk => absurd (hk ▸ hf) (by decide)) (fun hk => absurd (hk ▸ hf) (by decide))
  have hstate := hkept Reg.TWN_RESYNC_STATE List.mem_cons_self
  refine .hostAlone (hostCmd_ready hr fun h => h.imageMsgArrives ⟨m.val, admits, id.toNat, e⟩) fun ho =>
    ⟨?_, fun hid hst => ?_, fun hidle => ?_, fun hrefused htwin hbusy hopen => ?_, ho⟩
  · exact (congrArg Stage.peers (hsent.stage.trans (HostSide.resyncRefused_stage _ _))).trans
      (congrArg (·.1.peers) hframe)
  · have hid : id.toNat ≠ 0 := fun h0 => hid (BitVec.eq_of_toNat_eq h0)
    have hsaid := HostSide.get_takeImageMsg_said (h := s.host) (m := ⟨m.val, admits, id.toNat, e⟩) hid hst m.isLt
    obtain ⟨hshown, hne, hlog⟩ := saidField_shown admits
    exact (congrArg (bit · m.val) ((hsent.get hshown).trans (HostSide.get_resyncRefused_ne _ _ hne hlog))).trans hsaid
  · rw [HostSide.resyncRefused_idle (hstate ▸ hidle)] at hsent
    obtain ⟨hstore, htartan⟩ := hsent.sameMemory
    exact ⟨fun a => congrArg (·.byte a) (hstore.trans (congrArg (·.2.2.1) hframe)),
      congrArg (·.sram) (htartan.trans (congrArg (·.2.2.2) hframe))⟩
  · refine (hsent.get (by decide)).trans (HostSide.resyncRefused_ends hrefused ?_ (hstate.trans hbusy) ?_)
    · exact htwin.trans (congrArg twinOf (hkept Reg.SYS_STRAPS_TARGET (by simp)).symm)
    · rw [show (s.host.takeImageMsg ⟨m.val, admits, id.toNat, e⟩).twin = s.host.twin from congrArg (·.2.1) hframe]
      exact hopen

/-! ## The commit point -/

/-- A command whose effect is none completes and changes nothing. -/
theorem Completes.idle {c : Instr} {s : State} {g : HostSide} (hc : exec c s = .next (s.held { s with host := g }))
    (hg : g = s.host) : Completes c s (fun t => t = s) := by
  subst hg
  exact ⟨_, hc, rfl, rfl⟩

theorem HostSide.stageOf_eq (h : HostSide) : h.stageOf = h.get Reg.SIM_STATUS_STAGE := rfl

theorem HostSide.pastCommit_staged {h : HostSide} {st : Staged} (hst : h.stage.staged = some st) :
    h.pastCommit = dtReached h.now st.commitPoint := by
  rw [HostSide.pastCommit, hst]

theorem HostSide.commitPoint_early {h : HostSide} {st : Staged} (hst : h.stage.staged = some st)
    (he : dtReached h.now st.commitPoint = false) : h.commitPoint = h := by
  rw [HostSide.commitPoint, hst]
  exact if_pos (.inr (.inr (by rw [h.pastCommit_staged hst, he]; rfl)))

/-- What the commit point does with a staged image that it finds. -/
theorem HostSide.commitPoint_reached {h : HostSide} {st : Staged} (hst : h.stage.staged = some st)
    (he : dtReached h.now st.commitPoint = true) (h1 : 1 ≤ h.stageOf) (h4 : h.stageOf ≤ 4) :
    h.commitPoint = if h.stageOf ≠ 4 then h.stopStaged 0x12 else
      match h.peersFail st with
      | some (r, t) => h.stopStaged r t
      | none => h.commitImage st := by
  have hnow : ¬ (h.stageOf = 0 ∨ 5 ≤ h.stageOf ∨ !h.pastCommit) := by
    rw [h.pastCommit_staged hst, he]
    simp
    omega
  rw [HostSide.commitPoint, hst]
  exact if_neg hnow

/-- The list without repetitions that a commit builds holds what goes into it. -/
theorem mem_foldl_insertNew (k : Nat) (l acc : List Nat) (hk : k ∈ acc ∨ k ∈ l) :
    k ∈ l.foldl (fun l k => if l.contains k then l else l ++ [k]) acc := by
  induction l generalizing acc with
  | nil => exact hk.resolve_right List.not_mem_nil
  | cons a l ih =>
    refine ih _ ?_
    dsimp only
    rcases hk with hacc | hl
    · left
      split
      · exact hacc
      · exact List.mem_append_left _ hacc
    · rcases List.mem_cons.1 hl with rfl | hl
      · left
        split
        · next hin => exact List.contains_iff_mem.1 hin
        · exact List.mem_append_right _ List.mem_cons_self
      · exact .inr hl

/-- The enabled heads of a configuration. -/
def Cfg.enabledHeads (c : Cfg) : List Nat := (c.heads.filter (fun e => e.enable == 1)).map (·.head)

theorem Cfg.mem_enabledHeads {c : Cfg} {x : HeadEntry} (hx : x ∈ c.heads) (hon : x.enable = 1) : x.head ∈ c.enabledHeads :=
  List.mem_map_of_mem (List.mem_filter.2 ⟨hx, by rw [hon]; rfl⟩)

/-- What is fixed at the commit point. -/
def HostSide.committing (h : HostSide) (st : Staged) : Stage :=
  { h.stage with
    switches := if h.get Reg.TWN_RESYNC_STATE = 1 then [] else
      (h.cfg.enabledHeads ++ st.cfg.enabledHeads).foldl (fun l k => if l.contains k then l else l ++ [k]) []
    live := false
    before := h.cfg
    chHeads := changedKeys HeadEntry.head h.cfg.heads st.cfg.heads
    chLayers := changedKeys LayerEntry.layer h.cfg.layers st.cfg.layers }

theorem HostSide.commitImage_messaged (h : HostSide) (st : Staged) :
    (({ h with stage := h.committing st } : HostSide).toStage 5).Messaged (h.commitImage st) :=
  HostSide.sendArm_messaged _ _ _

theorem HostSide.committing_awaits {h : HostSide} (st : Staged) (hidle : h.get Reg.TWN_RESYNC_STATE ≠ 1) {x : HeadEntry}
    (hx : x ∈ h.cfg.heads ++ st.cfg.heads) (hon : x.enable = 1) : x.head ∈ (h.committing st).switches := by
  unfold HostSide.committing
  rw [if_neg hidle]
  refine mem_foldl_insertNew _ _ _ (.inr (List.mem_append.2 ?_))
  exact (List.mem_append.1 hx).imp (Cfg.mem_enabledHeads · hon) (Cfg.mem_enabledHeads · hon)

/-- The commit point of a staged image. -/
theorem completes_commitPoint {s : State} {st : Staged} {n : Nat} (hr : s.hostReady) (hst : s.host.stage.staged = some st)
    (hn : n = s.host.get Reg.SIM_STATUS_STAGE) :
    (dtReached s.host.now st.commitPoint = false → Completes .commitPoint s (fun t => t = s)) ∧
    (dtReached s.host.now st.commitPoint = true →
      (1 ≤ n → n ≤ 3 → Completes .commitPoint s (fun t => t.host.get Reg.SIM_STATUS_STAGE = 6 ∧
        t.host.get Reg.SIM_REFUSAL_REASON = 0x12 ∧ t.host.stage.staged = none ∧ t.host.cfg = s.host.cfg ∧
        OnlyHost s t)) ∧
      (n = 4 → (∀ r p, s.host.peersFail st = some (r, p) → Completes .commitPoint s (fun t =>
          t.host.get Reg.SIM_STATUS_STAGE = 6 ∧ t.host.get Reg.SIM_REFUSAL_REASON = r % 256 ∧
          t.host.get Reg.SIM_REFUSAL_PEER = p % 8 ∧ t.host.stage.staged = none ∧ t.host.cfg = s.host.cfg ∧
          OnlyHost s t)) ∧
        (s.host.peersFail st = none → Completes .commitPoint s (fun t =>
          t.host.get Reg.SIM_STATUS_STAGE = 5 ∧ t.host.stage.staged = some st ∧ t.host.stage.live = false ∧
          (s.host.get Reg.TWN_RESYNC_STATE ≠ 1 →
            ∀ x ∈ s.host.cfg.heads ++ st.cfg.heads, x.enable = 1 → x.head ∈ t.host.stage.switches) ∧
          t.host.cfg = s.host.cfg ∧ MemKept s t ∧ OnlyHost s t)))) := by
  have hc : exec .commitPoint s = .next (s.held { s with host := s.host.commitPoint }) := hostCmd_ready hr (·.commitPoint)
  rw [← HostSide.stageOf_eq] at hn
  subst hn
  refine ⟨fun he => .idle hc (HostSide.commitPoint_early hst he), fun he => ⟨fun h1 h3 => ?_, fun h4 => ?_⟩⟩
  · rw [HostSide.commitPoint_reached hst he h1 (by omega), if_pos (by omega)] at hc
    have hend := HostSide.stopStaged_refused hst 0x12 0
    exact .hostAlone hc fun ho => ⟨hend.stage, hend.reason, hend.staged, hend.cfg, ho⟩
  rw [HostSide.commitPoint_reached hst he (by omega) (by omega), if_neg (not_not_intro h4)] at hc
  refine ⟨fun r p hbad => ?_, fun hall => ?_⟩
  · rw [hbad] at hc
    have hend := HostSide.stopStaged_refused hst r p
    exact .hostAlone hc fun ho => ⟨hend.stage, hend.reason, hend.peer, hend.staged, hend.cfg, ho⟩
  · rw [hall] at hc
    have hend := s.host.commitImage_messaged st
    have hstage : (s.host.commitImage st).stage = s.host.committing st := hend.stage
    refine .ofHost hc hend.sameMemory fun hm ho => ⟨?_, ?_, ?_, fun hidle x hx hon => ?_, hend.cfg, hm, ho⟩
    · exact (hend.get (by decide)).trans (HostSide.get_put_self ..)
    · exact (congrArg Stage.staged hstage).trans hst
    · exact congrArg Stage.live hstage
    · exact (congrArg Stage.switches hstage).symm ▸ HostSide.committing_awaits st hidle hx hon

end Sys2Proof.Machine
end

section
/-! What takes effect with an image (O49; 03_structure_image.md R73, R74): each part of an activation leaves the image's
progress and the heads' timings alone. -/

namespace Sys2Proof.Machine

open Sys2Proof

/-! ## Layers and watch tiles -/

theorem HostSide.setArmedDesc_keepsProgress (h : HostSide) (l : Nat) (d : Option (List Nat)) :
    h.KeepsProgress (h.setArmedDesc l d) :=
  .putLayer (.update (.refl h)) l 0 (x := Reg.CMP_LAYER_STATUS_ARMED l) (by simp [layerGroups]) _

theorem HostSide.setActiveDesc_keepsProgress (h : HostSide) (l : Nat) (d : List Nat) :
    h.KeepsProgress (h.setActiveDesc l d) :=
  .putLayer (.update (.refl h)) l 0 (x := Reg.CMP_LAYER_STATUS_ENABLED l) (by simp [layerGroups]) _

theorem HostSide.showVerdicts_keepsProgress (h : HostSide) (l : Nat) : h.KeepsProgress (h.showVerdicts l) :=
  .putLayer (.putLayer (.refl h) l 0 (x := Reg.FRS_LAYER_STATE_WT_VERDICT l) (by simp [layerGroups]) _) l 0
    (x := Reg.FRS_LAYER_STATE_WT_NO_VERDICT l) (by simp [layerGroups]) _

theorem HostSide.showTile_keepsProgress (h : HostSide) : h.KeepsProgress h.showTile :=
  .put (.put (.refl h) (by decide) _) (by decide) _

theorem HostSide.setTile_keepsProgress (h : HostSide) (l t : Nat) (w : WatchTile) : h.KeepsProgress (h.setTile l t w) :=
  .trans (.trans (.update (.refl h)) (HostSide.showVerdicts_keepsProgress _ l)) (HostSide.showTile_keepsProgress _)

/-- The words of a layer's descriptor are written and both descriptors set. -/
theorem HostSide.setDescs_keepsProgress {h g : HostSide} (a : h.KeepsProgress g) (l : Nat) (word : Nat → Nat)
    (armed : Option (List Nat)) (active : List Nat) :
    h.KeepsProgress ((((List.range 8).foldl (fun h i => h.put (Reg.layerWord l i) (word i)) g).setArmedDesc l
      armed).setActiveDesc l active) :=
  a.trans (.trans (.trans
    (.foldl (fun g i _ => .putLayer (.refl g) l i (x := Reg.layerWord l i) (by simp [layerGroups]) _) _)
    (HostSide.setArmedDesc_keepsProgress _ _ _)) (HostSide.setActiveDesc_keepsProgress _ _ _))

theorem HostSide.takeLayer_keepsProgress (h : HostSide) (frame : Nat) (e : LayerEntry) :
    h.KeepsProgress (h.takeLayer frame e) := by
  unfold HostSide.takeLayer
  iterate 5 refine .putLayer ?_ e.layer 0 (by simp [layerGroups]) _
  exact HostSide.setDescs_keepsProgress (.update (.refl h)) _ _ _ _

theorem HostSide.dropLayer_keepsProgress (h : HostSide) (l : Nat) : h.KeepsProgress (h.dropLayer l) := by
  unfold HostSide.dropLayer
  iterate 5 refine .putLayer ?_ l 0 (by simp [layerGroups]) _
  exact HostSide.setDescs_keepsProgress (.update (.refl h)) _ _ _ _

theorem HostSide.moveLayer_keepsProgress (h : HostSide) (e : LayerEntry) (left : DT) :
    h.KeepsProgress (h.moveLayer e left) := by
  unfold HostSide.moveLayer
  refine .update (.putLayer ?_ e.layer 0 (x := Reg.CMP_LAYER_STATUS_HEAD e.layer) (by simp [layerGroups]) _)
  exact .trans (.trans (.update (.refl h)) (HostSide.setArmedDesc_keepsProgress _ _ _))
    (HostSide.setActiveDesc_keepsProgress _ _ _)

theorem HostSide.takeWatch_keepsProgress (h : HostSide) (st : Staged) (l : Nat) : h.KeepsProgress (h.takeWatch st l) := by
  unfold HostSide.takeWatch
  refine .trans (.putLayer (.trans (.update (.refl h)) (.foldl (fun g t _ => .ite (.refl g)
    (HostSide.setTile_keepsProgress _ _ _ _)) _)) l 0 (x := Reg.FRS_LAYER_STATE_WT_BOUND l) (by simp [layerGroups]) _)
    (HostSide.showVerdicts_keepsProgress _ _)

theorem HostSide.layersAtE_keepsProgress (h : HostSide) (st : Staged) : h.KeepsProgress (h.layersAtE st) := by
  unfold HostSide.layersAtE
  refine .foldl (fun g l _ => ?_) h
  dsimp only
  refine .ite (.refl g) ?_
  split
  · exact .ite (HostSide.takeLayer_keepsProgress _ _ _) (.refl g)
  · exact HostSide.dropLayer_keepsProgress _ _

theorem HostSide.layersAtSwitch_keepsProgress (h : HostSide) (st : Staged) (k : Nat) (on first : Bool) :
    h.KeepsProgress (h.layersAtSwitch st k on first) := by
  unfold HostSide.layersAtSwitch
  extract_lets left
  have hleft : h.KeepsProgress left := by
    refine .foldl (fun g o _ => ?_) h
    dsimp only
    split
    · exact HostSide.dropLayer_keepsProgress _ _
    · next n _ =>
      have hmoved := g.moveLayer_keepsProgress n g.now
      exact .ite (.refl g) (.ite hmoved (.trans hmoved.update (HostSide.takeLayer_keepsProgress _ _ _)))
  exact .ite hleft (hleft.trans (.foldl (fun g e _ => HostSide.takeLayer_keepsProgress _ _ _) _))

/-! ## Encoders -/

theorem HostSide.setEncCtx_keepsProgress (h : HostSide) (x : Nat) (v : EncCtx) : h.KeepsProgress (h.setEncCtx x v) := by
  unfold HostSide.setEncCtx
  iterate 2 refine .putVideo ?_ x (by simp [videoGroups]) _
  exact .update (.refl h)

theorem HostSide.setEncCore_keepsProgress (h : HostSide) (c : Nat) (v : EncCore) : h.KeepsProgress (h.setEncCore c v) := by
  unfold HostSide.setEncCore
  iterate 3 refine .putVideo ?_ c (by simp [videoGroups]) _
  exact .update (.refl h)

theorem HostSide.takeEncode_keepsProgress (h : HostSide) (st : Staged) (x : Nat) (timing : Bool) (first : Nat) :
    h.KeepsProgress (h.takeEncode st x timing first) := by
  unfold HostSide.takeEncode
  extract_lets entry old new _ listed lost freed
  have hlisted : h.KeepsProgress listed := .update (.refl h)
  have hfreed : h.KeepsProgress freed :=
    hlisted.trans (.foldl (fun g c _ => HostSide.setEncCore_keepsProgress _ _ _) _)
  have hoff : h.KeepsProgress (((freed.setEncCtx x EncCtx.idle).put (Reg.ENC_CTX_STATUS_ENABLED x) 0).put
      (Reg.ENC_CTX_STATUS_GO_PENDING x) 0) := by
    iterate 2 refine .putVideo ?_ x (by simp [videoGroups]) _
    exact hfreed.trans (HostSide.setEncCtx_keepsProgress _ _ _)
  refine .ite hlisted ?_
  clear_value freed
  split
  next seq drawn hfree =>
    have hdrawn : h.KeepsProgress drawn := by
      rw [show drawn = (freed.free 65536).2 by rw [hfree]]
      exact .update hfreed
    clear_value new
    split
    · extract_lets set begun placed
      have hbegun : h.KeepsProgress begun := hdrawn.trans (HostSide.setEncCtx_keepsProgress _ _ _)
      have hplaced : h.KeepsProgress placed :=
        .ite hbegun (.putVideo (.putVideo hbegun x (x := Reg.ENC_OUT_WR_OFFSET x) (by simp [videoGroups]) _) x
          (x := Reg.ENC_OUT_RD_OFFSET x) (by simp [videoGroups]) _)
      refine .ite ?_ hoff
      iterate 3 refine .putVideo ?_ x (by simp [videoGroups]) _
      exact hplaced
    · exact hoff

theorem HostSide.showEncCores_keepsProgress (h : HostSide) : h.KeepsProgress h.showEncCores :=
  .foldl (fun g c _ => .putVideo (.refl g) c (x := Reg.ENC_CORE_STATUS_ACTIVE c) (by simp [videoGroups]) _) h

/-- Encode contexts take their entries. -/
theorem HostSide.takeEncodes_keepsProgress (h : HostSide) (st : Staged) (l : List Nat) (timing : Bool) (first : Nat) :
    h.KeepsProgress ((l.foldl (fun h x => h.takeEncode st x timing first) h).showEncCores) :=
  .trans (.foldl (fun g _ _ => g.takeEncode_keepsProgress _ _ _ _) h) (HostSide.showEncCores_keepsProgress _)

/-! ## Surfaces and pages -/

theorem HostSide.codeTile_keepsProgress (h : HostSide) (format coding ca n : Nat) (t : List Nat) :
    h.KeepsProgress (h.codeTile format coding ca n t) := .update (.caPut (.refl h) _ _ _)

theorem HostSide.fillSurface_keepsProgress (h : HostSide) (s : Surface) (colour : Nat) :
    h.KeepsProgress (h.fillSurface s colour) := by
  unfold HostSide.fillSurface
  refine .ite (.ite (.trans (.foldl ?_ _) (.foldl ?_ _)) (.foldl ?_ _)) (.foldl (fun g _ _ => .foldl ?_ _) _)
  · exact fun g y _ => .caPut (.refl g) _ _ _
  · exact fun g y _ => .caPut (.refl g) _ _ _
  · exact fun g y _ => .caPut (.refl g) _ _ _
  · exact fun g tx _ => HostSide.codeTile_keepsProgress _ _ _ _ _ _

theorem HostSide.surfacesAtE_keepsProgress (h : HostSide) (st : Staged) : h.KeepsProgress (h.surfacesAtE st) := by
  unfold HostSide.surfacesAtE
  extract_lets released
  have hreleased : h.KeepsProgress released := by
    refine .ite (.refl h) (.foldl (fun g p _ => ?_) h)
    split
    · exact .ite (.refl g) (.update (.refl g))
    · exact .refl g
  refine hreleased.trans (.foldl (fun g e _ => ?_) _)
  split
  · exact .update (.refl g)
  · exact .ite (.trans (.update (.refl g)) (HostSide.fillSurface_keepsProgress _ _ _)) (.update (.refl g))
  · exact .refl g

theorem HostSide.pagesAtE_keepsProgress (h : HostSide) (st : Staged) : h.KeepsProgress (h.pagesAtE st) :=
  .trans (.update (.refl h)) (HostSide.showPages_keepsProgress _)

/-! ## Streams -/

theorem HostSide.pictureBoundary_keepsProgress (h : HostSide) (s : Nat) : h.KeepsProgress (h.pictureBoundary s) :=
  .ite (.refl h) (.foldl (fun g _ _ => .ite (.update (.refl g)) (.ite (.refl g) (.update (.refl g)))) h)

theorem HostSide.showContext_keepsProgress (h : HostSide) (s : Nat) : h.KeepsProgress (h.showContext s) := by
  unfold HostSide.showContext
  iterate 7 refine .putVideo ?_ s (by simp [videoGroups, startFields]) _
  exact .refl h

theorem HostSide.showStream_keepsProgress (h : HostSide) (s : Nat) : h.KeepsProgress (h.showStream s) := by
  unfold HostSide.showStream
  split
  · exact .refl h
  · iterate 6 refine .putVideo ?_ s (by simp [videoGroups, shownFields]) _
    exact .refl h

theorem HostSide.setPicture_keepsProgress (h : HostSide) (id : Nat) (v : Option Picture) :
    h.KeepsProgress (h.setPicture id v) := .update (.refl h)

theorem HostSide.setStreamState_keepsProgress (h : HostSide) (s : Nat) (v : StreamState) :
    h.KeepsProgress (h.setStreamState s v) := .update (.refl h)

theorem HostSide.setContext_keepsProgress (h : HostSide) (s : Nat) (v : Context) :
    h.KeepsProgress (h.setContext s v) := .update (.refl h)

theorem HostSide.streamAtE_keepsProgress (h : HostSide) (st : Staged) (s : Nat) : h.KeepsProgress (h.streamAtE st s) := by
  unfold HostSide.streamAtE
  extract_lets old new _ core gone ended _ cleared cored begun
  have hgone (g : HostSide) : g.KeepsProgress (gone g) := by
    refine .trans (.trans (.trans ?_ (HostSide.setStreamState_keepsProgress _ _ _))
      (HostSide.setContext_keepsProgress _ _ _)) (HostSide.pictureBoundary_keepsProgress _ _)
    exact .foldl (fun g p _ => HostSide.setPicture_keepsProgress _ _ _) g
  have hcored : h.KeepsProgress cored := .putVideo (.refl h) s (by simp [videoGroups]) _
  clear_value old new
  split
  · exact .refl h
  · refine .trans ?_ (HostSide.showContext_keepsProgress _ s)
    iterate 10 refine .putVideo ?_ s (by simp [videoGroups, startFields, shownFields]) _
    exact hgone h
  · extract_lets fresh enabled shown told
    have hshown : h.KeepsProgress shown := by
      refine .trans (.trans ?_ (HostSide.showContext_keepsProgress _ s)) (HostSide.showStream_keepsProgress _ s)
      iterate 3 refine .putVideo ?_ s (by simp [videoGroups, startFields]) _
      exact (hcored.trans (hgone _)).trans (HostSide.setStreamState_keepsProgress _ _ _)
    exact .ite hcored (.ite (.ite hshown.update hshown.update) hshown)

end Sys2Proof.Machine
end

section
/-! The module at an image's E (O49; 03_structure_image.md R73): mimics, the stores, links and spares take the new image
and leave its progress and the heads' timings alone. -/

namespace Sys2Proof.Machine

open Sys2Proof

/-! ## Mimic surfaces -/

theorem HostSide.dropMimicHolds_keepsProgress (h : HostSide) (m : Nat) : h.KeepsProgress (h.dropMimicHolds m) := by
  unfold HostSide.dropMimicHolds
  refine .foldl (fun g k _ => ?_) h
  exact .setHead (.refl g) k rfl

theorem HostSide.setMimicSurf_keepsProgress (h : HostSide) (m : Nat) (v : Option MimicSurf) :
    h.KeepsProgress (h.setMimicSurf m v) := .update (.refl h)

theorem HostSide.setWidget_keepsProgress (h : HostSide) (w : Nat) (v : WidgetState) : h.KeepsProgress (h.setWidget w v) :=
  .update (.refl h)

theorem HostSide.putMap_keepsProgress (h : HostSide) (m : Nat) (s : MimicSurf) (cells : List Nat) :
    h.KeepsProgress (h.putMap m s cells) :=
  (h.setMimicSurf_keepsProgress m (some s)).trans (.foldl (fun g _ _ => .caPut (.refl g) _ _ _) _)

theorem HostSide.drawBox_keepsProgress (h : HostSide) (s : MimicSurf) (d : Drawing) : h.KeepsProgress (h.drawBox s d) :=
  .foldl (fun _ _ _ => .foldl (fun _ _ _ => HostSide.codeTile_keepsProgress _ _ _ _ _ _) _) h

theorem HostSide.beginDrawing_keepsProgress (h : HostSide) (m page mapPage : Nat) (e : MimicSurface) :
    h.KeepsProgress (h.beginDrawing m page mapPage e) := by
  unfold HostSide.beginDrawing
  refine .putModule ?_ m 0 0 (x := Reg.MIM_SURF_STATUS_DRAWN m) (by simp [moduleGroups]) _
  refine .trans (.trans (.trans (h.dropMimicHolds_keepsProgress m) (HostSide.putMap_keepsProgress _ _ _ _))
    (HostSide.drawBox_keepsProgress _ _ _)) (.foldl (fun g w _ => HostSide.setWidget_keepsProgress _ _ _) _)

theorem HostSide.showMimic_keepsProgress (h : HostSide) : h.KeepsProgress h.showMimic := by
  unfold HostSide.showMimic HostSide.showCell HostSide.showWidget
  iterate 13 refine .put ?_ (by decide) _
  exact .refl h

theorem HostSide.mimicAtE_keepsProgress (h : HostSide) (st : Staged) (runs : List PageRun) :
    h.KeepsProgress (h.mimicAtE st runs) := by
  unfold HostSide.mimicAtE
  refine .trans (.trans (.put (.refl h) (x := Reg.MIM_STATUS_ACTIVE) (by decide) _) (.foldl (fun g m _ => ?_) _))
    (HostSide.showMimic_keepsProgress _)
  have hlisted : g.KeepsProgress (g.put (Reg.MIM_SURF_STATUS_ENABLED m) 1) :=
    .putModule (.refl g) m 0 0 (by simp [moduleGroups]) _
  dsimp only
  split
  · exact .ite hlisted (hlisted.trans (HostSide.beginDrawing_keepsProgress _ _ _ _ _))
  · iterate 3 refine .putModule ?_ m 0 0 (by simp [moduleGroups]) _
    exact (g.dropMimicHolds_keepsProgress m).trans (HostSide.setMimicSurf_keepsProgress _ _ _)

/-! ## The stores -/

theorem HostSide.loadRegions_keepsProgress (h : HostSide) (rs : List RegionEntry) : h.KeepsProgress (h.loadRegions rs) := by
  refine .foldl (fun g p _ => ?_) h
  obtain ⟨r, e⟩ := p
  refine .putModule (.putModule (.putModule (.refl g) (e / 32) (e % 32) 0 (by simp [moduleGroups]) _)
    (e / 32) (e % 32) 1 (by simp [moduleGroups]) _) (e / 32) (e % 32) 2 (by simp [moduleGroups]) _

/-- The registers of priorities at a target lie in the block TRT. -/
theorem priority_apart {t m : Nat} (ht : t < 17) (hm : m < 47) :
    (⟨0x10400 + t * 0x20 + (m / 8) * 4, 3 * (m % 8), 3, 0, .ro⟩ : Fld).Apart := by
  refine Fld.apart_of_low ?_
  simp only [Fld.key]
  omega

theorem HostSide.KeepsProgress.putPair {h g : HostSide} (a : h.KeepsProgress g) {lo hi : Fld} (hl : lo.Apart)
    (hh : hi.Apart) (v : Nat) : h.KeepsProgress (g.putPair lo hi v) := .put (.put a hl _) hh _

theorem HostSide.storeAtE_keepsProgress (h : HostSide) (st : Staged) : h.KeepsProgress (h.storeAtE st) := by
  unfold HostSide.storeAtE
  extract_lets c old grained sparing _ hammered qos urgent loaded logged events based at_
  have hgrained : h.KeepsProgress grained := .ite (.put (.put (.refl h) (by decide) _) (by decide) _) (.refl h)
  have hsparing : h.KeepsProgress sparing := hgrained.trans
    (.foldl (fun g c _ => .putModule (.refl g) c 0 0 (x := Reg.CST_CH_STATUS_SR_EN c) (by simp [moduleGroups]) _) _)
  have hqos : h.KeepsProgress qos := hsparing.update.trans
    (.foldl (fun g m _ => .putModule (.refl g) m 0 0 (x := Reg.TRT_MASTER_QOS m) (by simp [moduleGroups]) _) _)
  have hurgent : h.KeepsProgress urgent := hqos.trans (.foldl (fun g t ht => .trans
    (.putModule (.refl g) t 0 0 (x := Reg.TRT_URGENT_THRESHOLD t) (by simp [moduleGroups]) _)
    (.foldl (fun g m hm => .put (.refl g) (priority_apart (List.mem_range.1 ht) (List.mem_range.1 hm)) _) _)) _)
  have hloaded : h.KeepsProgress loaded := .ite hurgent (hurgent.trans (HostSide.loadRegions_keepsProgress _ _))
  have hlogged : h.KeepsProgress logged := .ite hloaded (.put (.put hloaded (by decide) _) (by decide) _)
  have hevents : h.KeepsProgress events := .ite hlogged (.put (.put hlogged (by decide) _) (by decide) _)
  have hbased : h.KeepsProgress based :=
    .putPair (.putPair hevents (by decide) (by decide) _) (by decide) (by decide) _
  split
  · exact .ite hbased hbased.update
  · exact hbased.update
  · exact hbased

/-! ## Readers, stitch regions and the paces -/

theorem HostSide.showReaders_keepsProgress (h : HostSide) (c : Cfg) : h.KeepsProgress (h.showReaders c) :=
  .foldl (fun g k _ => .putModule (.refl g) k 0 0 (x := Reg.CMP_FANOUT_READERS k) (by simp [moduleGroups]) _) h

theorem HostSide.regionsAtE_keepsProgress (h : HostSide) (st : Staged) : h.KeepsProgress (h.regionsAtE st) := by
  refine .foldl (fun g r _ => .ite (.refl g) ?_) h
  iterate 2 refine .putLink ?_ r 0 (by simp [linkGroups]) _
  exact .update (.refl g)

theorem paceReg_apart {u : Nat} : (paceReg u).Apart := by
  unfold paceReg
  split
  · exact moduleGroups_apart u 0 0 _ (by simp [moduleGroups])
  · decide

theorem HostSide.coverPaces_keepsProgress (h : HostSide) : h.KeepsProgress h.coverPaces :=
  .foldl (fun g _ _ => .ite (.refl g) (.put (.refl g) paceReg_apart _)) h

/-! ## Links and spares -/

theorem HostSide.putLane_keepsProgress (h : HostSide) (l v : Nat) : h.KeepsProgress (h.put (Reg.LNE_STATUS_STATE l) v) :=
  .putLink (.refl h) l 0 (by simp [linkGroups]) _

theorem HostSide.setLinkState_keepsProgress (h : HostSide) (k v : Nat) : h.KeepsProgress (h.setLinkState k v) := by
  have hstate : h.KeepsProgress (h.put (Reg.STC_STATUS_STATE k) v) := .putLink (.refl h) k 0 (by simp [linkGroups]) _
  exact .ite (.put hstate (by decide) _) (.ite (.put hstate (by decide) _) hstate)

theorem HostSide.setActive_keepsProgress (h : HostSide) (k mask : Nat) : h.KeepsProgress (h.setActive k mask) :=
  .putLink (.putLink (.refl h) k 0 (x := Reg.STC_STATUS_ACTIVE k) (by simp [linkGroups]) _) k 0
    (x := Reg.STC_STATUS_DEGRADED k) (by simp [linkGroups]) _

theorem HostSide.setLink_keepsProgress (h : HostSide) (k : Nat) (v : LinkState) : h.KeepsProgress (h.setLink k v) :=
  .update (.refl h)

theorem HostSide.restartLink_keepsProgress (h : HostSide) (k : Nat) : h.KeepsProgress (h.restartLink k) := by
  unfold HostSide.restartLink
  refine .putLink ?_ k 0 (x := Reg.STC_CREDITS_TX_CREDITS k) (by simp [linkGroups]) _
  refine .trans (.trans (.trans ?_ (HostSide.setLink_keepsProgress _ _ _)) (HostSide.setLinkState_keepsProgress _ _ _))
    (HostSide.setActive_keepsProgress _ _ _)
  exact .foldl (fun g i _ => .ite (g.putLane_keepsProgress _ _) (.refl g)) h

theorem HostSide.sleepLane_keepsProgress (h : HostSide) (l : Nat) : h.KeepsProgress (h.sleepLane l) :=
  .ite (h.putLane_keepsProgress _ _) (.refl h)

theorem HostSide.enableLinks_keepsProgress (h : HostSide) : h.KeepsProgress h.enableLinks := by
  refine .foldl (fun g k _ => ?_) h
  extract_lets wired stopped
  have hwired : g.KeepsProgress wired :=
    .putLink (.putLink (.refl g) k 0 (x := Reg.STC_STATUS_WIRED k) (by simp [linkGroups]) _) k 0
      (x := Reg.STC_STATUS_ILM2400 k) (by simp [linkGroups]) _
  have hstopped : g.KeepsProgress stopped :=
    ((hwired.trans (HostSide.setLink_keepsProgress _ _ _)).trans (HostSide.setLinkState_keepsProgress _ _ _)).trans
      (HostSide.setActive_keepsProgress _ _ _)
  exact .ite (.ite (hwired.trans (HostSide.restartLink_keepsProgress _ _)) hwired)
    (hstopped.trans (.foldl (fun g i _ => g.sleepLane_keepsProgress _) _))

theorem HostSide.armSpare_keepsProgress (h : HostSide) (k lane mode : Nat) (auto : Bool) :
    h.KeepsProgress (h.armSpare k lane mode auto) := by
  unfold HostSide.armSpare
  extract_lets named moded autoed m armed
  have hnamed : h.KeepsProgress named := .putLink (.refl h) k 0 (by simp [linkGroups]) _
  have hmoded : h.KeepsProgress moded := .ite hnamed (.putLink hnamed k 0 (by simp [linkGroups]) _)
  have hautoed : h.KeepsProgress autoed := .putLink hmoded k 0 (x := Reg.LNE_SPARE_CTRL_AUTO k) (by simp [linkGroups]) _
  have harmed : h.KeepsProgress armed :=
    .putLink hautoed k 0 (x := Reg.LNE_SPARE_STATUS_ARMED k) (by simp [linkGroups]) _
  exact .ite hautoed (harmed.trans (HostSide.sleepLane_keepsProgress _ _))

theorem HostSide.armSpares_keepsProgress (h : HostSide) : h.KeepsProgress h.armSpares :=
  .trans (.foldl (fun g _ _ => g.armSpare_keepsProgress _ _ _ _) h)
    (.foldl (fun g _ _ => .ite (.refl g) (g.armSpare_keepsProgress _ _ _ _)) _)

/-! ## Cores and engines -/

theorem HostSide.showCores_keepsProgress (h : HostSide) : h.KeepsProgress h.showCores :=
  .foldl (fun g c _ => .putVideo (.refl g) c (x := Reg.DEC_CORE_STATUS_ACTIVE c) (by simp [videoGroups]) _) h

theorem HostSide.showSpareEngine_keepsProgress (h : HostSide) : h.KeepsProgress h.showSpareEngine :=
  .put (.put (.put (.refl h) (by decide) _) (by decide) _) (by decide) _

theorem HostSide.showEngines_keepsProgress (h : HostSide) : h.KeepsProgress h.showEngines := by
  refine .foldl (fun g k _ => ?_) h
  iterate 2 refine .putModule ?_ k 0 0 (by simp [moduleGroups]) _
  exact .refl g

theorem HostSide.dropRings_keepsProgress (h : HostSide) : h.KeepsProgress h.dropRings := h.freePages_keepsProgress _

theorem HostSide.retain_keepsProgress (h : HostSide) (st : Staged) : h.KeepsProgress (h.retain st) :=
  .ite (.update (.refl h)) (.ite (.update (.refl h)) (.update (.refl h)))

end Sys2Proof.Machine
end

section
/-! Activation (O49; 03_structure_image.md R73, R74, 08_heads.md R203): what E, a head's switch instant and the end of an
activation make of the progress. -/

namespace Sys2Proof.Machine

open Sys2Proof

/-! ## E -/

/-- From `h` to `g` the staged image is in effect but for the heads that wait. -/
structure HostSide.Activated (st : Staged) (h g : HostSide) : Prop where
  get : ∀ {f : Fld}, ¬ f.Apart → g.get f = h.get f
  progress : g.progress = ⟨h.stage.staged, h.stage.switches, true, st.cfg.streams, st.cfg.points⟩

theorem HostSide.activateImage_activated (h : HostSide) (st : Staged) : HostSide.Activated st h (h.activateImage st) := by
  unfold HostSide.activateImage
  extract_lets _ live old waits runs paged _ configured layered watched stored streamed encoded mimicked paced shown marked
    _ held
  have hpaged : live.KeepsProgress paged :=
    (live.surfacesAtE_keepsProgress st).trans (HostSide.pagesAtE_keepsProgress _ st)
  have hlayered : configured.KeepsProgress layered := configured.layersAtE_keepsProgress st
  have hstored : configured.KeepsProgress stored := hlayered.trans
    (.trans (.foldl (fun g l _ => g.takeWatch_keepsProgress st l) _) (HostSide.storeAtE_keepsProgress _ st))
  have hencoded : configured.KeepsProgress encoded := hstored.trans
    (.trans (.foldl (fun g s _ => g.streamAtE_keepsProgress st s) _) (HostSide.takeEncodes_keepsProgress _ _ _ _ _))
  have hmimicked : configured.KeepsProgress mimicked := hencoded.trans
    (((HostSide.mimicAtE_keepsProgress _ _ _).trans (HostSide.regionsAtE_keepsProgress _ _)).trans
      (HostSide.showReaders_keepsProgress _ _))
  have hpaced : configured.KeepsProgress paced :=
    .trans (.put hmimicked (by decide) _) (HostSide.coverPaces_keepsProgress _)
  have hshown : configured.KeepsProgress shown := hpaced.trans
    (((HostSide.enableLinks_keepsProgress _).trans (HostSide.armSpares_keepsProgress _)).trans
      ((HostSide.showCores_keepsProgress _).trans (HostSide.showSpareEngine_keepsProgress _)))
  have hmarked : configured.KeepsProgress marked := .ite (.put hshown (by decide) _) hshown
  have hheld : configured.KeepsProgress held := .ite (.put (.update hmarked) (by decide) _) hmarked
  have hend : configured.KeepsProgress held.settle := hheld.trans held.settle_keepsProgress
  exact ⟨fun hf => (hend.get hf).trans (hpaged.get hf), hend.progress.trans
    (congrArg (fun p : Progress => { p with streams := st.cfg.streams, points := st.cfg.points }) hpaged.progress)⟩

/-! ## A head's switch instant -/

/-- The registers of a head that its switch instant writes. -/
def headFields (k : Nat) : List Fld :=
  [Reg.HDS_STATUS_SHORT_MARKER k, Reg.HDS_STATUS_COMMIT_PENDING k, Reg.HDS_STATUS_ENABLED k, Reg.HDS_EPOCH_LO_DT k,
    Reg.HDS_EPOCH_HI_DT k]

/-- The field lies above the heads' registers and shows an image's progress. -/
abbrev Fld.Above (f : Fld) : Prop := ¬ f.Apart ∧ 0x302000 * 32 ≤ f.key

theorem Fld.Above.key_ne {f : Fld} (hf : f.Above) (k : Nat) : ∀ x ∈ headFields k, f.key ≠ x.key := by
  obtain ⟨-, hk⟩ := hf
  simp only [headFields, List.forall_mem_cons, List.not_mem_nil, false_implies, implies_true, and_true, Fld.key,
    Reg.HDS_STATUS_SHORT_MARKER, Reg.HDS_STATUS_COMMIT_PENDING, Reg.HDS_STATUS_ENABLED, Reg.HDS_EPOCH_LO_DT,
    Reg.HDS_EPOCH_HI_DT] at hk ⊢
  and_intros <;> omega

/-- From `h` to `g` the image's progress stands, but for the heads' own registers and timings. -/
structure HostSide.KeepsImage (h g : HostSide) : Prop where
  get : ∀ {f : Fld}, f.Above → g.get f = h.get f
  progress : g.progress = h.progress

namespace HostSide.KeepsImage

theorem refl (h : HostSide) : h.KeepsImage h := ⟨fun _ => rfl, rfl⟩

theorem trans {h g k : HostSide} (a : h.KeepsImage g) (b : g.KeepsImage k) : h.KeepsImage k :=
  ⟨fun hf => (b.get hf).trans (a.get hf), b.progress.trans a.progress⟩

theorem ite {h g k : HostSide} {p : Prop} [Decidable p] (a : h.KeepsImage g) (b : h.KeepsImage k) :
    h.KeepsImage (if p then g else k) := by
  split
  · exact a
  · exact b

theorem ofProgress {h g : HostSide} (a : h.KeepsProgress g) : h.KeepsImage g := ⟨fun hf => a.get hf.1, a.progress⟩

variable {h g : HostSide} (a : h.KeepsImage g)
include a

theorem putHead (k : Nat) {x : Fld} (hx : x ∈ headFields k) (v : Nat) : h.KeepsImage (g.put x v) :=
  a.trans ⟨fun hf => g.get_put_ne v (hf.key_ne k x hx), rfl⟩

theorem log (source code index frame detail : Nat) : h.KeepsImage (g.log source code index frame detail) :=
  a.trans (.ofProgress (.ofLogged (g.log_logged _ _ _ _ _)))

end HostSide.KeepsImage

/-- From `h` to `g` head `k` has taken the staged image with the timing `new`, and awaits its switch instant no more. -/
structure HostSide.HeadSwitched (k : Nat) (new : Option HeadTime) (h g : HostSide) : Prop where
  get : ∀ {f : Fld}, f.Above → g.get f = h.get f
  enabled : g.get (Reg.HDS_STATUS_ENABLED k) = b2n new.isSome
  time : (g.head k).time = new
  progress : g.progress =
    ⟨h.stage.staged, h.stage.switches.filter (· != k), h.stage.live, h.cfg.streams, h.cfg.points⟩

theorem headEnabled_key_ne (k : Nat) : (Reg.HDS_STATUS_ENABLED k).key ≠ (Reg.HDS_EPOCH_LO_DT k).key ∧
    (Reg.HDS_STATUS_ENABLED k).key ≠ (Reg.HDS_EPOCH_HI_DT k).key := by
  simp only [Fld.key, Reg.HDS_STATUS_ENABLED, Reg.HDS_EPOCH_LO_DT, Reg.HDS_EPOCH_HI_DT]
  omega

theorem HostSide.get_showHead_enabled (h : HostSide) (k : Nat) :
    (h.showHead k).get (Reg.HDS_STATUS_ENABLED k) = b2n (h.head k).time.isSome := by
  obtain ⟨hlo, hhi⟩ := headEnabled_key_ne k
  refine (HostSide.get_put_ne _ _ hhi).trans ((HostSide.get_put_ne _ _ hlo).trans ?_)
  exact (HostSide.get_putB_self ..).trans (b2n_mod_two _)

theorem HostSide.showHead_keepsImage (h : HostSide) (k : Nat) : h.KeepsImage (h.showHead k) := by
  unfold HostSide.showHead
  iterate 3 refine .putHead ?_ k (by simp [headFields]) _
  exact .refl h

theorem HostSide.switchHead_switched (h : HostSide) (st : Staged) (k : Nat) (sw : DT) :
    HostSide.HeadSwitched k (h.newTiming k sw) h (h.switchHead st k sw) := by
  unfold HostSide.switchHead
  extract_lets v new changed firstDone firstNo first f short marked others own _ configured _ set cleared engine spared
    _ spare layered watched restart encoded _ switched
  have hshort : h.KeepsImage short := .ite (.log (.putHead (.refl h) k (by simp [headFields]) _) _ _ _ _ _) (.refl h)
  have hmarked : h.KeepsImage marked := .ite (hshort.log _ _ _ _ _) (.refl h)
  have hset : h.KeepsImage set := hmarked.trans ⟨fun _ => rfl, rfl⟩
  have hcleared : h.KeepsImage cleared := .ite hset (hset.putHead k (by simp [headFields]) _)
  have htime : (cleared.head k).time = new := by
    have hhead : cleared.head k = set.head k := by
      dsimp only [cleared]
      split <;> rfl
    rw [hhead]
    exact congrArg HeadState.time (HostSide.head_setHead_self ..)
  have hlayered : cleared.KeepsProgress layered :=
    .trans (.update (.refl cleared)) (HostSide.layersAtSwitch_keepsProgress _ _ _ _ _)
  have hencoded : cleared.KeepsProgress encoded := hlayered.trans
    (.trans (.foldl (fun g l _ => g.takeWatch_keepsProgress st l) _) (HostSide.takeEncodes_keepsProgress _ _ _ _ _))
  have hend : (switched.showHead k).KeepsProgress ((switched.showHead k).showEngines.settle) :=
    (HostSide.showEngines_keepsProgress _).trans (HostSide.settle_keepsProgress _)
  have hswitched : (switched.head k).time = new := (hencoded.time k).trans htime
  have hprogress : encoded.progress = h.progress := hencoded.progress.trans hcleared.progress
  refine ⟨fun hf => ?_, ?_, (hend.time k).trans hswitched, ?_⟩
  · exact (hend.get hf.1).trans (((switched.showHead_keepsImage k).get hf).trans ((hencoded.get hf.1).trans
      (hcleared.get hf)))
  · exact (hend.get (headEnabled_shown k)).trans ((switched.get_showHead_enabled k).trans
      (congrArg (fun t => b2n t.isSome) hswitched))
  · exact hend.progress.trans (congrArg (fun p : Progress => { p with switches := p.switches.filter (· != k) }) hprogress)

/-! ## The end of an activation -/

theorem HostSide.pair_congr {h g : HostSide} {lo hi : Fld} (hl : g.get lo = h.get lo) (hh : g.get hi = h.get hi) :
    g.pair lo hi = h.pair lo hi := by
  rw [HostSide.pair, hl, hh]
  rfl

/-- From `h` to `g` the staged image has become the active one. -/
structure HostSide.Finished (st : Staged) (h g : HostSide) : Prop where
  stage : g.get Reg.SIM_STATUS_STAGE = 0
  id : g.pair Reg.SIM_ACTIVE_ID_LO_ID Reg.SIM_ACTIVE_ID_HI_ID = st.imageId % 2 ^ 64
  epoch : g.pair Reg.SIM_ACTIVE_EPOCH_LO_DT Reg.SIM_ACTIVE_EPOCH_HI_DT = st.epoch.toNat
  progress : g.progress = ⟨none, h.stage.switches, false, h.cfg.streams, h.cfg.points⟩
  resync : g.get Reg.TWN_RESYNC_STATE = h.get Reg.TWN_RESYNC_STATE
  enabled : ∀ k, g.get (Reg.HDS_STATUS_ENABLED k) = h.get (Reg.HDS_STATUS_ENABLED k)
  time : ∀ k, (g.head k).time = (h.head k).time

/-- What an activation's end shows. -/
def activeFields : List Fld :=
  [Reg.SIM_ACTIVE_ID_LO_ID, Reg.SIM_ACTIVE_ID_HI_ID, Reg.SIM_ACTIVE_EPOCH_LO_DT, Reg.SIM_ACTIVE_EPOCH_HI_DT,
    Reg.SIM_TUPLE0_SCHEMA, Reg.SIM_STATUS_STAGE]

/-- SIM.ACTIVE_ID, SIM.ACTIVE_EPOCH, SIM.TUPLE0 and STAGE show the active image. -/
def HostSide.showActive (h : HostSide) (st : Staged) : HostSide :=
  (((h.putPair Reg.SIM_ACTIVE_ID_LO_ID Reg.SIM_ACTIVE_ID_HI_ID st.imageId).putPair Reg.SIM_ACTIVE_EPOCH_LO_DT
    Reg.SIM_ACTIVE_EPOCH_HI_DT st.epoch.toNat).put Reg.SIM_TUPLE0_SCHEMA st.cfg.schema).toStage 0

theorem HostSide.get_showActive_ne (h : HostSide) (st : Staged) {f : Fld} (hf : ∀ x ∈ activeFields, f.key ≠ x.key) :
    (h.showActive st).get f = h.get f := by
  simp only [activeFields, List.forall_mem_cons] at hf
  obtain ⟨hil, hih, hel, heh, hschema, hstage, -⟩ := hf
  exact (HostSide.get_put_ne _ _ hstage).trans ((HostSide.get_put_ne _ _ hschema).trans
    ((HostSide.get_put_ne _ _ heh).trans ((HostSide.get_put_ne _ _ hel).trans
      ((HostSide.get_put_ne _ _ hih).trans (HostSide.get_put_ne _ _ hil)))))

theorem HostSide.showActive_id (h : HostSide) (st : Staged) :
    (h.showActive st).pair Reg.SIM_ACTIVE_ID_LO_ID Reg.SIM_ACTIVE_ID_HI_ID = st.imageId % 2 ^ 64 := by
  have hkept (f : Fld) (hf : f ∈ [Reg.SIM_ACTIVE_ID_LO_ID, Reg.SIM_ACTIVE_ID_HI_ID]) : (h.showActive st).get f =
      (h.putPair Reg.SIM_ACTIVE_ID_LO_ID Reg.SIM_ACTIVE_ID_HI_ID st.imageId).get f := by
    have hne : ∀ f ∈ [Reg.SIM_ACTIVE_ID_LO_ID, Reg.SIM_ACTIVE_ID_HI_ID], ∀ x ∈ [Reg.SIM_STATUS_STAGE,
        Reg.SIM_TUPLE0_SCHEMA, Reg.SIM_ACTIVE_EPOCH_HI_DT, Reg.SIM_ACTIVE_EPOCH_LO_DT], f.key ≠ x.key := by decide
    have hne := hne f hf
    exact (HostSide.get_put_ne _ _ (hne _ (by simp))).trans ((HostSide.get_put_ne _ _ (hne _ (by simp))).trans
      ((HostSide.get_put_ne _ _ (hne _ (by simp))).trans (HostSide.get_put_ne _ _ (hne _ (by simp)))))
  exact (HostSide.pair_congr (hkept _ (by simp)) (hkept _ (by simp))).trans
    (h.pair_putPair _ _ _ (by decide) rfl rfl)

theorem HostSide.showActive_epoch (h : HostSide) (st : Staged) :
    (h.showActive st).pair Reg.SIM_ACTIVE_EPOCH_LO_DT Reg.SIM_ACTIVE_EPOCH_HI_DT = st.epoch.toNat := by
  refine (HostSide.pair_congr (h := (h.putPair Reg.SIM_ACTIVE_ID_LO_ID Reg.SIM_ACTIVE_ID_HI_ID st.imageId).putPair
    Reg.SIM_ACTIVE_EPOCH_LO_DT Reg.SIM_ACTIVE_EPOCH_HI_DT st.epoch.toNat) ?_ ?_).trans
    ((HostSide.pair_putPair _ _ _ _ (by decide) rfl rfl).trans (Nat.mod_eq_of_lt st.epoch.isLt))
  · exact (HostSide.get_put_ne _ _ (by decide)).trans (HostSide.get_put_ne _ _ (by decide))
  · exact (HostSide.get_put_ne _ _ (by decide)).trans (HostSide.get_put_ne _ _ (by decide))

theorem HostSide.finishActivation_finished (h : HostSide) (st : Staged) :
    HostSide.Finished st h (h.finishActivation st) := by
  unfold HostSide.finishActivation
  extract_lets paired shown seq _ emptied dropped
  have hdropped : emptied.KeepsProgress dropped :=
    (emptied.retain_keepsProgress st).trans (HostSide.dropRings_keepsProgress _)
  have hend := hdropped.put (x := Reg.TWN_STATUS_ID_MATCH) (by decide)
    (b2n (dropped.pair Reg.TWN_PARTNER_ID_LO_ID Reg.TWN_PARTNER_ID_HI_ID == dropped.activeId))
  have hshown {f : Fld} (hf : ¬ f.Apart) : (dropped.putB Reg.TWN_STATUS_ID_MATCH
      (dropped.pair Reg.TWN_PARTNER_ID_LO_ID Reg.TWN_PARTNER_ID_HI_ID == dropped.activeId)).get f =
      (h.showActive st).get f := hend.get hf
  refine ⟨(hshown (by decide)).trans (HostSide.get_put_self ..),
    (HostSide.pair_congr (hshown (by decide)) (hshown (by decide))).trans (h.showActive_id st),
    (HostSide.pair_congr (hshown (by decide)) (hshown (by decide))).trans (h.showActive_epoch st), hend.progress,
    (hshown (by decide)).trans (h.get_showActive_ne st (by decide)), fun k => (hshown (headEnabled_shown k)).trans
      (h.get_showActive_ne st ?_), hend.time⟩
  have hlow : (Reg.HDS_STATUS_ENABLED k).key < 0x302000 * 32 := by
    simp only [Fld.key, Reg.HDS_STATUS_ENABLED]
    omega
  exact fun x hx => Nat.ne_of_lt (hlow.trans_le ((by decide : ∀ x ∈ activeFields, 0x302000 * 32 ≤ x.key) x hx))

theorem HostSide.endIfSwitched_waiting {h : HostSide} (hwait : h.stage.switches ≠ []) (st : Staged) :
    h.endIfSwitched st = h := by
  unfold HostSide.endIfSwitched
  exact if_neg (by simp [hwait])

theorem HostSide.endIfSwitched_last {h : HostSide} (hlive : h.stage.live = true) (hlast : h.stage.switches = [])
    (hidle : h.get Reg.TWN_RESYNC_STATE ≠ 1) (st : Staged) : h.endIfSwitched st = h.finishActivation st := by
  unfold HostSide.endIfSwitched
  rw [if_pos (by simp [hlive, hlast])]
  exact if_neg ((h.finishActivation_finished st).resync ▸ hidle)

end Sys2Proof.Machine
end

section
/-! Images commit and activate (O49; 03_structure_image.md R73, R74, 08_heads.md R203). -/

namespace Sys2Proof.Machine

open Sys2Proof

section
variable {s : State} {st : Staged} (hr : s.hostReady) (hst : s.host.stage.staged = some st)

theorem HostSide.atEpoch_staged {h : HostSide} {st : Staged} (hst : h.stage.staged = some st) : h.atEpoch =
    if h.stageOf = 5 ∧ !h.stage.live ∧ dtReached h.now st.epoch then (h.activateImage st).endIfSwitched st else h := by
  rw [HostSide.atEpoch, hst]

theorem HostSide.atSwitch_staged {h : HostSide} {st : Staged} (hst : h.stage.staged = some st) (k : Nat) : h.atSwitch k =
    if h.stageOf = 5 ∧ h.stage.live ∧ h.stage.switches.contains k ∧ dtReached h.now (h.switchAt k st.epoch) then
      (h.switchHead st k (h.switchAt k st.epoch)).endIfSwitched st
    else h := by
  rw [HostSide.atSwitch, hst]

include hr hst

theorem exec_imageActivate : exec .imageActivate s = .next (s.held { s with
    host := if s.host.stageOf = 5 ∧ !s.host.stage.live ∧ dtReached s.host.now st.epoch then
        (s.host.activateImage st).endIfSwitched st
      else s.host }) := by
  rw [← HostSide.atEpoch_staged hst]
  exact hostCmd_ready hr (·.atEpoch)

theorem exec_headSwitch (k : Fin 48) : exec (.headSwitch k) s = .next (s.held { s with
    host := if s.host.stageOf = 5 ∧ s.host.stage.live ∧ s.host.stage.switches.contains k.val ∧
        dtReached s.host.now (s.host.switchAt k.val st.epoch) then
        (s.host.switchHead st k.val (s.host.switchAt k.val st.epoch)).endIfSwitched st
      else s.host }) := by
  rw [← HostSide.atSwitch_staged hst]
  exact hostCmd_ready hr (fun h => h.atSwitch k.val)

/-- E of a committed image. -/
theorem completes_imageActivate (hcommitted : s.host.get Reg.SIM_STATUS_STAGE = 5)
    (hidle : s.host.get Reg.TWN_RESYNC_STATE ≠ 1) (hlive : s.host.stage.live = false) :
    (dtReached s.host.now st.epoch = false → Completes .imageActivate s (fun t => t = s)) ∧
    (dtReached s.host.now st.epoch = true →
      (s.host.stage.switches = [] → Completes .imageActivate s (fun t => t.host.get Reg.SIM_STATUS_STAGE = 0 ∧
        t.host.pair Reg.SIM_ACTIVE_ID_LO_ID Reg.SIM_ACTIVE_ID_HI_ID = st.imageId % 2 ^ 64 ∧
        t.host.pair Reg.SIM_ACTIVE_EPOCH_LO_DT Reg.SIM_ACTIVE_EPOCH_HI_DT = st.epoch.toNat ∧
        t.host.stage.staged = none ∧ t.host.cfg.streams = st.cfg.streams ∧ t.host.cfg.points = st.cfg.points ∧
        OnlyHost s t)) ∧
      (s.host.stage.switches ≠ [] → Completes .imageActivate s (fun t => t.host.get Reg.SIM_STATUS_STAGE = 5 ∧
        t.host.stage.live = true ∧ t.host.stage.switches = s.host.stage.switches ∧
        t.host.cfg.streams = st.cfg.streams ∧ t.host.cfg.points = st.cfg.points ∧ OnlyHost s t))) := by
  have hc := exec_imageActivate hr hst
  have hact := s.host.activateImage_activated st
  have hprogress := hact.progress
  simp only [HostSide.progress, Progress.mk.injEq] at hprogress
  obtain ⟨-, hswitches, hon, hstreams, hpoints⟩ := hprogress
  refine ⟨fun he => .idle hc (if_neg (by simp [he])), fun he => ?_⟩
  rw [if_pos ⟨hcommitted, by rw [hlive]; rfl, he⟩] at hc
  refine ⟨fun hnone => ?_, fun hwait => ?_⟩
  · have hresync : (s.host.activateImage st).get Reg.TWN_RESYNC_STATE ≠ 1 :=
      hact.get (f := Reg.TWN_RESYNC_STATE) (by decide) ▸ hidle
    rw [HostSide.endIfSwitched_last hon (hswitches.trans hnone) hresync] at hc
    have hend := (s.host.activateImage st).finishActivation_finished st
    exact .hostAlone hc fun ho => ⟨hend.stage, hend.id, hend.epoch, congrArg Progress.staged hend.progress,
      (congrArg Progress.streams hend.progress).trans hstreams, (congrArg Progress.points hend.progress).trans hpoints, ho⟩
  · rw [HostSide.endIfSwitched_waiting (hswitches ▸ hwait)] at hc
    exact .hostAlone hc fun ho =>
      ⟨(hact.get (by decide)).trans hcommitted, hon, hswitches, hstreams, hpoints, ho⟩

/-- The switch instant of a head that awaits it. -/
theorem completes_headSwitch {k : Fin 48} (hcommitted : s.host.get Reg.SIM_STATUS_STAGE = 5)
    (hidle : s.host.get Reg.TWN_RESYNC_STATE ≠ 1) (hlive : s.host.stage.live = true)
    (hwaits : k.val ∈ s.host.stage.switches) :
    (dtReached s.host.now (s.host.switchAt k.val st.epoch) = false → Completes (.headSwitch k) s (fun t => t = s)) ∧
    (dtReached s.host.now (s.host.switchAt k.val st.epoch) = true → Completes (.headSwitch k) s (fun t =>
      (t.host.head k.val).time = s.host.newTiming k.val (s.host.switchAt k.val st.epoch) ∧
      t.host.get (Reg.HDS_STATUS_ENABLED k.val) =
        b2n (s.host.newTiming k.val (s.host.switchAt k.val st.epoch)).isSome ∧
      ((∃ j ∈ s.host.stage.switches, j ≠ k.val) →
        t.host.stage.switches = s.host.stage.switches.filter (· != k.val) ∧ t.host.stage.staged = some st) ∧
      ((∀ j ∈ s.host.stage.switches, j = k.val) → t.host.get Reg.SIM_STATUS_STAGE = 0 ∧
        t.host.pair Reg.SIM_ACTIVE_ID_LO_ID Reg.SIM_ACTIVE_ID_HI_ID = st.imageId % 2 ^ 64 ∧
        t.host.stage.staged = none) ∧ OnlyHost s t)) := by
  have hc := exec_headSwitch hr hst k
  have hhead := s.host.switchHead_switched st k.val (s.host.switchAt k.val st.epoch)
  have hprogress := hhead.progress
  simp only [HostSide.progress, Progress.mk.injEq] at hprogress
  obtain ⟨hstaged, hswitches, hon, -, -⟩ := hprogress
  refine ⟨fun he => .idle hc (if_neg (by simp [he])), fun he => ?_⟩
  rw [if_pos ⟨hcommitted, hlive, List.contains_iff_mem.2 hwaits, he⟩] at hc
  by_cases hlast : s.host.stage.switches.filter (· != k.val) = []
  · have hresync : (s.host.switchHead st k.val (s.host.switchAt k.val st.epoch)).get Reg.TWN_RESYNC_STATE ≠ 1 :=
      hhead.get (f := Reg.TWN_RESYNC_STATE) (by decide) ▸ hidle
    rw [HostSide.endIfSwitched_last (hon.trans hlive) (hswitches.trans hlast) hresync] at hc
    have hend := (s.host.switchHead st k.val (s.host.switchAt k.val st.epoch)).finishActivation_finished st
    refine .hostAlone hc fun ho => ⟨(hend.time _).trans hhead.time, (hend.enabled _).trans hhead.enabled, ?_,
      fun _ => ⟨hend.stage, hend.id, congrArg Progress.staged hend.progress⟩, ho⟩
    rintro ⟨j, hj, hne⟩
    exact absurd hne (by simpa using List.filter_eq_nil_iff.1 hlast j hj)
  · rw [HostSide.endIfSwitched_waiting (hswitches ▸ hlast)] at hc
    refine .hostAlone hc fun ho => ⟨hhead.time, hhead.enabled, fun _ => ⟨hswitches, hstaged.trans hst⟩, fun hall => ?_, ho⟩
    exact absurd (List.filter_eq_nil_iff.2 fun j hj => by simpa using hall j hj) hlast

end

/-- Settles O49: what a member says and what the commit point does with it, then E and the heads' switch instants by what
they leave of the image's progress. -/
theorem imagesCommitAndActivate : Obligations.ImagesCommitAndActivate := by
  intro s st n k id e admits m hr
  refine ⟨completes_peerImageMsg hr id e admits m, fun hst hn => completes_commitPoint hr hst hn,
    fun hst hcommitted hidle => ⟨fun hlive => ?_, fun hlive => ?_, fun hlive hwaits => ?_⟩⟩
  · exact (completes_imageActivate hr hst hcommitted hidle hlive).1
  · exact (completes_imageActivate hr hst hcommitted hidle hlive).2
  · exact completes_headSwitch hr hst hcommitted hidle hlive hwaits

end Sys2Proof.Machine
end

section
/-! The Buckram run and its end (O48; 04_admission.md R102 to R106): a run shows its loads apart from the image's
progress. -/

namespace Sys2Proof.Machine

open Sys2Proof

/-! ## The loads of a run -/

/-- The registers of the loads that a run can show. -/
def loadGroups (i : Nat) : List Fld :=
  [Reg.BCK_LOAD_DRAM_MBPS, Reg.BCK_LOAD_XING_KBPS, Reg.BCK_LOAD_OUT_MPXS, Reg.BCK_LOAD_DEC_KSPS i, Reg.BCK_LOAD_CE_KPXS i,
    Reg.BCK_LOAD_LB_BYTES i, Reg.BCK_LOAD_ENC_KPXS i]

theorem loadGroups_apart (i : Nat) : ∀ x ∈ loadGroups i, x.Apart := by
  simp only [loadGroups, List.forall_mem_cons, List.not_mem_nil, false_implies, implies_true, and_true, Fld.Apart, Fld.key,
    Reg.BCK_LOAD_DRAM_MBPS, Reg.BCK_LOAD_XING_KBPS, Reg.BCK_LOAD_OUT_MPXS, Reg.BCK_LOAD_DEC_KSPS, Reg.BCK_LOAD_CE_KPXS,
    Reg.BCK_LOAD_LB_BYTES, Reg.BCK_LOAD_ENC_KPXS]
  and_intros <;> omega

/-- Every load that a stage finds is shown apart from the image's progress. -/
def Stage_.LoadsApart (s : Stage_) : Prop := ∀ l ∈ s.1.loads, l.1.Apart

namespace Stage_.LoadsApart

theorem none (bounds : List (Nat × Nat)) (r : Option Reject) : Stage_.LoadsApart (⟨[], bounds⟩, r) :=
  fun _ hl => absurd hl List.not_mem_nil

theorem check (ok : Bool) (r : Reject) : (check ok r).LoadsApart := .none _ _

theorem load {f : Fld} (i : Nat) (hf : f ∈ loadGroups i) (v : Nat) {s : Stage_} (hs : s.LoadsApart) :
    (load f v s).LoadsApart := by
  intro l hl
  rcases List.mem_cons.1 hl with rfl | hl
  · exact loadGroups_apart i f hf
  · exact hs l hl

theorem andThen {a : Stage_} {b : Unit → Stage_} (ha : a.LoadsApart) (hb : (b ()).LoadsApart) :
    (andThen a b).LoadsApart := by
  unfold Machine.andThen
  split
  · exact ha
  · exact fun l hl => (List.mem_append.1 hl).elim (ha l) (hb l)

theorem overAll {α : Type} {f : α → Stage_} (hf : ∀ a, (f a).LoadsApart) (l : List α) : (overAll f l).LoadsApart := by
  induction l with
  | nil => exact .none _ _
  | cons a l ih => exact .andThen (hf a) ih

/-- Checks of elements show no load. -/
theorem checks {α : Type} (ok : α → Bool) (r : α → Reject) (l : List α) :
    (Machine.overAll (fun a => Machine.check (ok a) (r a)) l).LoadsApart := .overAll (fun _ => .check _ _) l

end Stage_.LoadsApart

section
variable (a : Ask)

theorem Ask.struct_loadsApart : a.struct_.LoadsApart :=
  .andThen (.overAll (fun _ => .andThen (.check _ _) (.andThen (.check _ _) (.check _ _))) _) (.checks _ _ _)

theorem Ask.decoderRate_loadsApart : a.decoderRate.LoadsApart :=
  .overAll (fun c => .load c (f := Reg.BCK_LOAD_DEC_KSPS c) (by simp [loadGroups]) _ (.check _ _)) _

theorem Ask.engineRate_loadsApart : a.engineRate.LoadsApart :=
  .overAll (fun e => .load e (f := Reg.BCK_LOAD_CE_KPXS e) (by simp [loadGroups]) _ (.check _ _)) _

theorem Ask.layerDepth_loadsApart : a.layerDepth.LoadsApart :=
  .overAll (fun _ => .overAll (fun _ => .checks _ _ _) _) _

theorem Ask.lineBuffers_loadsApart : a.lineBuffers.LoadsApart :=
  .overAll (fun (k : HeadEntry) => .load k.engine (f := Reg.BCK_LOAD_LB_BYTES k.engine) (by simp [loadGroups]) _
    (.checks _ _ _)) _

theorem Ask.tartan_loadsApart (fs : List Flow) : (a.tartan fs).LoadsApart := by
  refine .overAll (fun n => .andThen ?_ (.andThen (.check _ _) (.check _ _))) _
  split
  · exact .check _ _
  · exact .none _ _

theorem Ask.lanes_loadsApart : a.lanes.LoadsApart := .andThen (.overAll (fun _ => .checks _ _ _) _) (.checks _ _ _)

theorem Ask.encodeRate_loadsApart : a.encodeRate.LoadsApart :=
  .overAll (fun c => .load c (f := Reg.BCK_LOAD_ENC_KPXS c) (by simp [loadGroups]) _ (.check _ _)) _

theorem Ask.classUnproven_loadsApart : a.classUnproven.LoadsApart := by
  refine .overAll (fun d => ?_) _
  split
  · exact .check _ _
  · exact .none _ _

theorem Ask.chains_loadsApart : a.chains.LoadsApart := by
  refine .overAll (fun d => ?_) _
  dsimp only
  split
  · split
    · exact .check _ _
    · exact .none _ _
  · exact .check _ _

/-- A run shows its loads apart from the image's progress. -/
theorem Ask.run_loadsApart : a.run.LoadsApart := by
  unfold Ask.run
  refine .andThen a.struct_loadsApart (.andThen (.checks _ _ _) (.andThen (.checks _ _ _) (.andThen (.checks _ _ _) ?_)))
  refine .andThen a.decoderRate_loadsApart (.andThen a.engineRate_loadsApart (.andThen ?output
    (.andThen a.layerDepth_loadsApart (.andThen a.lineBuffers_loadsApart ?_))))
  case output => exact .load 0 (by simp [loadGroups]) _ (.check _ _)
  refine .andThen ?dram (.andThen (.checks _ _ _) (.andThen (a.tartan_loadsApart _) (.andThen ?crossing ?_)))
  case dram => exact .load 0 (by simp [loadGroups]) _ (.check _ _)
  case crossing => exact .load 0 (by simp [loadGroups]) _ (.check _ _)
  refine .andThen a.lanes_loadsApart (.andThen (.checks _ _ _) (.andThen a.encodeRate_loadsApart
    (.andThen (.check _ _) ?_)))
  exact .andThen (.checks _ _ _) (.andThen (.overAll (fun _ => .checks _ _ _) _)
    (.andThen a.classUnproven_loadsApart a.chains_loadsApart))

end

/-! ## The end of a run -/

theorem HostSide.Messaged.quantity {h g : HostSide} (a : h.Messaged g) {f : Fld} (hf : f.Apart) (v : Nat) :
    h.Messaged (g.quantity f v) := a.put hf _

theorem HostSide.showLoads_messaged (h : HostSide) (a : Ask) :
    h.Messaged (a.run.1.loads.foldl (fun h l => h.quantity l.1 l.2) h) :=
  .foldl (fun g l hl => .quantity (.refl g) (a.run_loadsApart l hl) _) h

theorem HostSide.showBound_messaged (h : HostSide) : h.Messaged h.showBound :=
  .put (.quantity (.refl h) (by decide) _) (by decide) _

/-- The host with a run's loads and time shown. -/
def HostSide.showRun (h : HostSide) (st : Staged) (time : Nat) : HostSide :=
  ((h.askOf st).run.1.loads.foldl (fun h l => h.quantity l.1 l.2) h).put Reg.BCK_STATUS_RUN_TIME (min time 0xFFFF)

/-- What a run that rejects shows. -/
def HostSide.showReject (h : HostSide) (st : Staged) (r : Reject) : HostSide :=
  (((((h.put Reg.BCK_STATUS_RESULT 3).put Reg.BCK_STATUS_CODE r.code).put Reg.BCK_ELEMENT_INDEX
    (r.element.getD (Config.claimElement st.imageId r.detail))).put Reg.BCK_ELEMENT_AUX r.aux).quantity
    Reg.BCK_DETAIL_VALUE r.detail).quantity Reg.BCK_LIMIT_VALUE r.limit

/-- What a run that admits shows. -/
def HostSide.showAdmitted (h : HostSide) (bounds : List (Nat × Nat)) : HostSide :=
  ((({ h with stage := { h.stage with bounds := bounds } } : HostSide).put Reg.BCK_STATUS_RESULT 2).showBound).toStage 3

theorem HostSide.endAdmission_rejected {h : HostSide} {st : Staged} {r : Reject} (hrun : (h.askOf st).run.2 = some r)
    (time : Nat) : h.endAdmission st time = ((h.showRun st time).showReject st r).stopStaged 0x10 := by
  unfold HostSide.endAdmission
  dsimp only
  rw [hrun]
  rfl

theorem HostSide.endAdmission_admitted {h : HostSide} {st : Staged} (hrun : (h.askOf st).run.2 = none) (time : Nat) :
    h.endAdmission st time = ((h.showRun st time).showAdmitted (h.askOf st).run.1.bounds).sendVerdict st.members
      st.imageId st.epoch true := by
  unfold HostSide.endAdmission
  dsimp only
  rw [hrun]
  rfl

theorem HostSide.showReject_refused {h : HostSide} {st : Staged} (hst : h.stage.staged = some st) (r : Reject) :
    ((h.showReject st r).stopStaged 0x10).get Reg.BCK_STATUS_RESULT = 3 ∧
      ((h.showReject st r).stopStaged 0x10).get Reg.BCK_STATUS_CODE = r.code % 256 ∧
      HostSide.Refused 0x10 none 0 (h.showReject st r) ((h.showReject st r).stopStaged 0x10) := by
  have hshown : ((h.put Reg.BCK_STATUS_RESULT 3).put Reg.BCK_STATUS_CODE r.code).Messaged (h.showReject st r) :=
    .quantity (.quantity (.put (.put (.refl _) (by decide) _) (by decide) _) (by decide) _) (by decide) _
  have hend : HostSide.Refused 0x10 none 0 (h.showReject st r) ((h.showReject st r).stopStaged 0x10) :=
    HostSide.stopStaged_refused ((congrArg Stage.staged hshown.stage).trans hst) 0x10 0
  refine ⟨(hend.kept _ (by decide)).trans ((hshown.get (by decide)).trans ?_),
    (hend.kept _ (by decide)).trans ((hshown.get (by decide)).trans (HostSide.get_put_self ..)), hend⟩
  exact (HostSide.get_put_ne _ _ (by decide)).trans (HostSide.get_put_self ..)

/-- From `h` to `g` the staged image is admitted with these bounds. -/
structure HostSide.Admitted (bounds : List (Nat × Nat)) (h g : HostSide) : Prop where
  result : g.get Reg.BCK_STATUS_RESULT = 2
  time : g.get Reg.BCK_STATUS_RUN_TIME = h.get Reg.BCK_STATUS_RUN_TIME
  stageOf : g.get Reg.SIM_STATUS_STAGE = 3
  stage : g.stage = { h.stage with bounds := bounds }
  sameMemory : g.SameMemory h

theorem HostSide.showAdmitted_admitted (h : HostSide) (st : Staged) (bounds : List (Nat × Nat)) :
    HostSide.Admitted bounds h ((h.showAdmitted bounds).sendVerdict st.members st.imageId st.epoch true) := by
  have hbound := (({ h with stage := { h.stage with bounds := bounds } } : HostSide).put
    Reg.BCK_STATUS_RESULT 2).showBound_messaged
  have hsent := (h.showAdmitted bounds).sendVerdict_messaged st.members st.imageId st.epoch true
  have hget {f : Fld} (hf : ¬ f.Apart) (hne : f.key ≠ Reg.SIM_STATUS_STAGE.key) :=
    (hsent.get hf).trans ((HostSide.get_put_ne _ _ hne).trans (hbound.get hf))
  refine ⟨(hget (by decide) (by decide)).trans (HostSide.get_put_self ..),
    (hget (by decide) (by decide)).trans (HostSide.get_put_ne _ _ (by decide)),
    (hsent.get (by decide)).trans (HostSide.get_put_self ..), hsent.stage.trans hbound.stage,
    hsent.sameMemory.1.trans hbound.sameMemory.1, hsent.sameMemory.2.trans hbound.sameMemory.2⟩

end Sys2Proof.Machine
end

section
/-! Staging and verification (O48; 03_structure_image.md R70, R71): where an image that is staged ends. -/

namespace Sys2Proof.Machine

open Sys2Proof

/-! ## Reservations (R71 step 6d) -/

/-- Where a reservation succeeds, the image's progress stands. -/
def HostSide.Reserves (h : HostSide) (o : Option HostSide) : Prop := ∀ g, o = some g → h.KeepsProgress g

namespace HostSide.Reserves

theorem some {h g : HostSide} (a : h.KeepsProgress g) : h.Reserves (Option.some g) := by
  rintro _ ⟨⟩
  exact a

theorem none (h : HostSide) : h.Reserves Option.none := fun _ hg => nomatch hg

theorem ite {h : HostSide} {a b : Option HostSide} {p : Prop} [Decidable p] (ha : h.Reserves a) (hb : h.Reserves b) :
    h.Reserves (if p then a else b) := by
  split
  · exact ha
  · exact hb

theorem bind {h : HostSide} {a : Option HostSide} {f : HostSide → Option HostSide} (ha : h.Reserves a)
    (hf : ∀ g : HostSide, g.Reserves (f g)) : h.Reserves (a.bind f) := by
  intro k hk
  obtain ⟨g, hg, hk⟩ := Option.bind_eq_some_iff.1 hk
  exact (ha g hg).trans (hf g k hk)

theorem all {α : Type} {f : HostSide → α → Option HostSide} (hf : ∀ (g : HostSide) (a : α), g.Reserves (f g a))
    (l : List α) (h : HostSide) : h.Reserves (reserveAll f l h) := by
  induction l generalizing h with
  | nil => exact some (.refl h)
  | cons a l ih => exact (hf h a).bind ih

end HostSide.Reserves

theorem HostSide.findPlace_keepsProgress (h : HostSide) (lo hi n : Nat) (keep : List (Nat × Nat)) :
    h.KeepsProgress (h.findPlace lo hi n keep).2 := by
  unfold HostSide.findPlace
  dsimp only
  split
  · exact .refl h
  · exact .update (.refl h)

theorem HostSide.reserveAny_reserves (h : HostSide) (owner : PageOwner) (lo hi n : Nat) (keep : List (Nat × Nat)) :
    h.Reserves (h.reserveAny owner lo hi n keep) := by
  have hplace := h.findPlace_keepsProgress lo hi n keep
  unfold HostSide.reserveAny
  split
  · next f g hg =>
    rw [hg] at hplace
    exact .some (hplace.trans (g.reservePages_keepsProgress _))
  · exact .none h

theorem HostSide.reserveAt_reserves (h : HostSide) (owner : PageOwner) (first n : Nat) :
    h.Reserves (h.reserveAt owner first n) :=
  .ite (.some (.refl h)) (.ite (.none h) (.some (h.reservePages_keepsProgress _)))

theorem HostSide.reserveFor_reserves (h : HostSide) (c : Cfg) (b : Body) : h.Reserves (h.reserveFor c b) := by
  unfold HostSide.reserveFor
  extract_lets lo hi
  split
  · exact .all (fun g _ => .ite (.some (.refl g)) (g.reserveAny_reserves _ _ _ _ _)) _ h
  · refine .all (fun g _ => ?_) _ h
    dsimp only
    split
    · exact .ite (.some (.refl g)) (.none g)
    · exact g.reserveAny_reserves _ _ _ _ _
  · exact .all (fun g _ => .ite (.some (.refl g))
      ((g.reserveAny_reserves _ _ _ _ _).bind fun k => k.reserveAny_reserves _ _ _ _ _)) _ h
  · exact (h.reserveAt_reserves _ _ _).bind fun g => g.reserveAt_reserves _ _ _
  · exact h.reserveAt_reserves _ _ _
  · exact .all (fun g _ => .ite (.some (.refl g)) (g.reserveAny_reserves _ _ _ _ _)) _ h
  · exact .some (.refl h)

theorem HostSide.reserve_keepsProgress {h g : HostSide} {p : Parsed} {c : Cfg} {l : List Piece}
    (hg : h.reserve p c l = .inl g) : h.KeepsProgress g := by
  induction l generalizing h with
  | nil =>
    cases hg
    exact .refl _
  | cons s l ih =>
    unfold HostSide.reserve at hg
    split at hg
    · split at hg
      · next k hk => exact (h.reserveFor_reserves c s.body k hk).trans (ih hg)
      · cases hg
    · exact ih hg

/-! ## Verification -/

/-- A verification ends in VERIFYING, in ADMITTING or in REFUSED. -/
structure HostSide.Verified (copy : List Byte) (e : DT) (g : HostSide) : Prop where
  override : g.get Reg.SIM_STATUS_OVERRIDE_ARMED = 0
  ends : (g.get Reg.SIM_STATUS_STAGE = 6 ∧ g.stage.staged = none) ∨
    ((g.get Reg.SIM_STATUS_STAGE = 1 ∨ g.get Reg.SIM_STATUS_STAGE = 2) ∧
      ∃ x, g.stage.staged = some x ∧ x.copy = copy ∧ x.epoch = e)

theorem HostSide.Refused.verified {reason peer : Nat} {sec : Option Nat} {h g : HostSide}
    (a : HostSide.Refused reason sec peer h g) (ho : h.get Reg.SIM_STATUS_OVERRIDE_ARMED = 0) (copy : List Byte) (e : DT) :
    HostSide.Verified copy e g :=
  ⟨(a.kept _ (by decide)).trans ho, .inl ⟨a.stage, a.staged⟩⟩

/-- What the begin of a Buckram run clears. -/
def clearedFields : List Fld :=
  [Reg.BCK_STATUS_CODE, Reg.BCK_STATUS_RUN_TIME, Reg.BCK_ELEMENT_INDEX, Reg.BCK_ELEMENT_AUX,
    Reg.BCK_DETAIL_VALUE, Reg.BCK_LIMIT_VALUE, Reg.BCK_QBOUND_BOUND, Reg.BCK_QBOUND_VALID, Reg.BCK_LOAD_DRAM_MBPS,
    Reg.BCK_LOAD_XING_KBPS, Reg.BCK_LOAD_OUT_MPXS] ++
    (List.range 8).flatMap (fun i => [Reg.BCK_LOAD_DEC_KSPS i, Reg.BCK_LOAD_CE_KPXS i, Reg.BCK_LOAD_LB_BYTES i]) ++
    (List.range 2).map (fun i => Reg.BCK_LOAD_ENC_KPXS i)

theorem HostSide.get_foldl_put_ne {f : Fld} {l : List Fld} (hf : ∀ x ∈ l, f.key ≠ x.key) (v : Nat) (h : HostSide) :
    (l.foldl (fun h x => h.put x v) h).get f = h.get f := by
  induction l generalizing h with
  | nil => rfl
  | cons x l ih =>
    exact (ih (fun y hy => hf y (List.mem_cons_of_mem x hy)) _).trans (HostSide.get_put_ne _ _ (hf x List.mem_cons_self))

theorem clearedFields_low : ∀ x ∈ clearedFields, Reg.SIM_STATUS_OVERRIDE_ARMED.key ≠ x.key := by decide

theorem HostSide.beginAdmission_eq (h : HostSide) (part : Bool) : h.beginAdmission part =
    (((clearedFields.foldl (fun (h : HostSide) f => h.put f 0) { h with stage := { h.stage with bounds := [] } }).put
      Reg.BCK_STATUS_RESULT 1).putB Reg.BCK_STATUS_PARTIAL part).toStage 2 := rfl

/-- The begin of a Buckram run shows ADMITTING and keeps what is staged. -/
theorem HostSide.beginAdmission_begun (h : HostSide) (part : Bool) :
    (h.beginAdmission part).get Reg.SIM_STATUS_STAGE = 2 ∧
      (h.beginAdmission part).get Reg.SIM_STATUS_OVERRIDE_ARMED = h.get Reg.SIM_STATUS_OVERRIDE_ARMED ∧
      (h.beginAdmission part).stage.staged = h.stage.staged := by
  rw [HostSide.beginAdmission_eq]
  refine ⟨HostSide.get_put_self .., ?_, ?_⟩
  · refine (HostSide.get_put_ne _ _ (by decide)).trans ((HostSide.get_putB_ne _ _ (by decide)).trans
      ((HostSide.get_put_ne _ _ (by decide)).trans ?_))
    exact HostSide.get_foldl_put_ne clearedFields_low 0 _
  · simp only [HostSide.toStage, HostSide.put_stage, HostSide.putB_stage]
    exact foldl_keeps (fun h : HostSide => h.stage.staged) (fun (h : HostSide) f => h.put f 0) (fun _ _ => rfl)
      clearedFields _

theorem HostSide.checkField_verified {h : HostSide} {st : Staged} (hst : h.stage.staged = some st)
    (ho : h.get Reg.SIM_STATUS_OVERRIDE_ARMED = 0) (hv : h.get Reg.SIM_STATUS_STAGE = 1) :
    HostSide.Verified st.copy st.epoch (h.checkField st) := by
  unfold HostSide.checkField
  split
  · obtain ⟨hstage, hkept, hstaged⟩ := h.beginAdmission_begun st.part
    exact ⟨hkept.trans ho, .inr ⟨.inr hstage, st, hstaged.trans hst, rfl, rfl⟩⟩
  · next c _ =>
    split
    · exact (HostSide.stopStaged_refused hst 0x0E 0).verified ho _ _
    · split
      · exact (HostSide.stopStaged_refused hst 0x0F 0).verified ho _ _
      · have hsent := h.beginSending_messaged false st.imageId c (h.now + 100000000)
        exact ⟨(hsent.get (by decide)).trans ho, .inr ⟨.inl ((hsent.get (by decide)).trans hv), st,
          (congrArg Stage.staged hsent.stage).trans hst, rfl, rfl⟩⟩

theorem HostSide.get_showBankSeq_ne (h : HostSide) {f : Fld} (hf : f.key ≠ Reg.SIM_STATUS_BANK_SEQ.key) :
    h.showBankSeq.get f = h.get f := h.get_put_ne _ hf

theorem HostSide.judgeImage_verified {h : HostSide} (ho : h.get Reg.SIM_STATUS_OVERRIDE_ARMED = 0)
    (hv : h.get Reg.SIM_STATUS_STAGE = 1) (p : Parsed) (copy : List Byte) (e : DT) (forced : Bool) :
    HostSide.Verified copy e (h.judgeImage p copy e forced) := by
  unfold HostSide.judgeImage
  extract_lets c members bad st
  have hbad (g : HostSide) (r : Refuse) (hg : g.get Reg.SIM_STATUS_OVERRIDE_ARMED = 0) :
      HostSide.Verified copy e (bad g r) := (g.stopImage_refused r 0 members p.hdr.imageId e).verified hg _ _
  split
  · exact hbad h _ ho
  · split
    · exact hbad h _ ho
    · next g hg =>
      have hkept := HostSide.reserve_keepsProgress hg
      have hgo := (hkept.get (f := Reg.SIM_STATUS_OVERRIDE_ARMED) (by decide)).trans ho
      have hgv := (hkept.get (f := Reg.SIM_STATUS_STAGE) (by decide)).trans hv
      split
      · exact hbad g _ hgo
      · exact HostSide.checkField_verified
          (h := ({ g with stage := { g.stage with staged := some st } } : HostSide).showBankSeq) rfl
          ((HostSide.get_showBankSeq_ne _ (by decide)).trans hgo) ((HostSide.get_showBankSeq_ne _ (by decide)).trans hgv)

/-- The host with the copy taken: STAGE shows VERIFYING, the override is spent, and nothing shows a refusal. -/
def HostSide.taken (h : HostSide) (len : Nat) : HostSide :=
  (((h.put Reg.SIM_STATUS_OVERRIDE_ARMED 0).clearRefusal.copyPages len).toStage 1).showPeers 0

theorem HostSide.copyPages_keepsProgress (h : HostSide) (len : Nat) : h.KeepsProgress (h.copyPages len) := by
  have hplace := h.findPlace_keepsProgress 0 630784 (cdiv len 65536) []
  unfold HostSide.copyPages
  dsimp only
  split
  · next f g hg =>
    rw [hg] at hplace
    exact hplace.trans (g.reservePages_keepsProgress _)
  · next g hg =>
    rw [hg] at hplace
    exact hplace

theorem HostSide.findPlace_now (h : HostSide) (lo hi n : Nat) (keep : List (Nat × Nat)) :
    (h.findPlace lo hi n keep).2.now = h.now := by
  unfold HostSide.findPlace
  dsimp only
  split <;> rfl

theorem HostSide.copyPages_now (h : HostSide) (len : Nat) : (h.copyPages len).now = h.now := by
  have hplace := h.findPlace_now 0 630784 (cdiv len 65536) []
  unfold HostSide.copyPages
  dsimp only
  split
  · next f g hg =>
    rw [hg] at hplace
    exact hplace
  · next g hg =>
    rw [hg] at hplace
    exact hplace

theorem HostSide.put_now (h : HostSide) (f : Fld) (v : Nat) : (h.put f v).now = h.now := rfl

theorem HostSide.clearRefusal_now (h : HostSide) : h.clearRefusal.now = h.now := rfl

theorem HostSide.taken_now (h : HostSide) (len : Nat) : (h.taken len).now = h.now := by
  unfold HostSide.taken HostSide.toStage
  rw [HostSide.showPeers_eq, HostSide.put_now, HostSide.put_now, HostSide.put_now, HostSide.copyPages_now,
    HostSide.clearRefusal_now, HostSide.put_now]

theorem HostSide.get_clearRefusal_ne (h : HostSide) {f : Fld} (hf : ∀ x ∈ refusalFields, f.key ≠ x.key) :
    h.clearRefusal.get f = h.get f := by
  simp only [refusalFields, List.forall_mem_cons] at hf
  obtain ⟨-, hreason, hsection, hpeer, hnone, -⟩ := hf
  exact (HostSide.get_put_ne _ _ hnone).trans ((HostSide.get_put_ne _ _ hpeer).trans
    ((HostSide.get_put_ne _ _ hsection).trans (HostSide.get_put_ne _ _ hreason)))

theorem HostSide.taken_shows (h : HostSide) (len : Nat) : (h.taken len).get Reg.SIM_STATUS_OVERRIDE_ARMED = 0 ∧
    (h.taken len).get Reg.SIM_STATUS_STAGE = 1 := by
  refine ⟨(HostSide.get_showPeers_ne _ _ (by decide) (by decide)).trans ((HostSide.get_put_ne _ _ (by decide)).trans ?_),
    (HostSide.get_showPeers_ne _ _ (by decide) (by decide)).trans (HostSide.get_put_self ..)⟩
  exact ((HostSide.copyPages_keepsProgress _ _).get (by decide)).trans
    ((HostSide.get_clearRefusal_ne _ (by decide)).trans (HostSide.get_put_self ..))

theorem HostSide.stageCopy_eq (h : HostSide) (copy : List Byte) (len : Nat) (e : DT) : h.stageCopy copy len e =
    if ¬ (0 < dtDiff e (h.taken copy.length).now ∧ dtDiff e (h.taken copy.length).now ≤ 3600000000000) then
      (h.taken copy.length).stopImage ⟨0x11, none⟩ 0 255 (fieldAt copy 16 8) e
    else
      match (h.taken copy.length).readImage copy len (h.flag Reg.SIM_STATUS_OVERRIDE_ARMED) with
      | .inl r => (h.taken copy.length).stopImage r 0 255 (fieldAt copy 16 8) e
      | .inr p => ((h.taken copy.length).showPeers p.hdr.imageId).judgeImage p copy e
        (h.flag Reg.SIM_STATUS_OVERRIDE_ARMED) := rfl

theorem HostSide.stageCopy_verified (h : HostSide) (copy : List Byte) (len : Nat) (e : DT) :
    HostSide.Verified copy e (h.stageCopy copy len e) := by
  obtain ⟨ho, hv⟩ := h.taken_shows copy.length
  rw [HostSide.stageCopy_eq]
  split
  · exact (HostSide.stopImage_refused _ _ _ _ _ _).verified ho _ _
  · split
    · exact (HostSide.stopImage_refused _ _ _ _ _ _).verified ho _ _
    · exact HostSide.judgeImage_verified ((HostSide.get_showPeers_ne _ _ (by decide) (by decide)).trans ho)
        ((HostSide.get_showPeers_ne _ _ (by decide) (by decide)).trans hv) _ _ _ _

/-- An epoch that is not ahead, or too far ahead, refuses the image whole. -/
theorem HostSide.stageCopy_badEpoch {h : HostSide} (copy : List Byte) (len : Nat) {e : DT}
    (he : dtDiff e (h.taken copy.length).now ≤ 0 ∨ 3600000000000 < dtDiff e (h.taken copy.length).now) :
    HostSide.Refused 0x11 none 0 (h.taken copy.length) (h.stageCopy copy len e) := by
  rw [HostSide.stageCopy_eq, if_pos (by omega)]
  exact HostSide.stopImage_refused _ ⟨0x11, none⟩ 0 _ _ _

end Sys2Proof.Machine
end

section
/-! Staging checks, arms and cancels (O48; 03_structure_image.md R70, R71, R73, R78, 04_admission.md R105, R106). -/

namespace Sys2Proof.Machine

open Sys2Proof

section
variable {c : Instr} {s : State} {who : Requester}

/-- A register access that sets one field changes no other, no memory and nothing that is staged. -/
theorem completes_putStaged {f : Fld} {v : Nat} (hv : v < 2 ^ f.w)
    (hc : exec c s = .next (s.held { s with host := (s.host.answer .none).put f v })) :
    Completes c s (fun t => t.host.get f = v ∧ t.host.stage = s.host.stage ∧ RegsKept [f] s t ∧ MemKept s t ∧
      OnlyHost s t) :=
  .ofHost hc ⟨rfl, rfl⟩ fun hm ho => ⟨(HostSide.get_put_self ..).trans (Nat.mod_eq_of_lt hv), rfl,
    fun _ hg => HostSide.get_put_ne _ _ (hg f List.mem_cons_self), hm, ho⟩

/-! ## VERIFY -/

theorem exec_imageVerify (hr : s.reaches who) :
    exec (.imageVerify who) s = .next (s.held { s with host := (s.host.answer .none).simVerify }) :=
  regCmd_reaches hr fun h => (h.answer .none).simVerify

theorem completes_imageVerify_busy (hr : s.reaches who) (h1 : 1 ≤ s.host.get Reg.SIM_STATUS_STAGE)
    (h5 : s.host.get Reg.SIM_STATUS_STAGE ≤ 5) : Completes (.imageVerify who) s (fun t =>
      t.host.get Reg.SIM_STATUS_CTRL_IGNORED = 1 ∧ RegsKept [Reg.SIM_STATUS_CTRL_IGNORED] s t ∧ MemKept s t ∧
        OnlyHost s t) := by
  have hc := exec_imageVerify hr
  rw [HostSide.simVerify, if_pos ⟨h1, h5⟩] at hc
  exact completes_putOnly (f := Reg.SIM_STATUS_CTRL_IGNORED) (v := 1) (by decide) hc

theorem completes_imageVerify {copy : List Byte} {e : DT} (hr : s.reaches who)
    (hn : s.host.get Reg.SIM_STATUS_STAGE = 0 ∨ 6 ≤ s.host.get Reg.SIM_STATUS_STAGE)
    (hcopy : copy = s.host.copyOf (s.host.pair Reg.SIM_STAGE_ADDR_LO_ADDR Reg.SIM_STAGE_ADDR_HI_ADDR / 8 * 8)
      (s.host.get Reg.SIM_STAGE_LEN_LEN))
    (he : e = BitVec.ofNat 64 (s.host.pair Reg.SIM_EPOCH_LO_DT Reg.SIM_EPOCH_HI_DT)) :
    Completes (.imageVerify who) s (fun t => t.host.get Reg.SIM_STATUS_OVERRIDE_ARMED = 0 ∧
      ((t.host.get Reg.SIM_STATUS_STAGE = 6 ∧ t.host.stage.staged = none) ∨
        ((t.host.get Reg.SIM_STATUS_STAGE = 1 ∨ t.host.get Reg.SIM_STATUS_STAGE = 2) ∧
          ∃ x, t.host.stage.staged = some x ∧ x.copy = copy ∧ x.epoch = e)) ∧
      (dtDiff e s.host.now ≤ 0 ∨ 3600000000000 < dtDiff e s.host.now →
        t.host.get Reg.SIM_STATUS_STAGE = 6 ∧ t.host.get Reg.SIM_REFUSAL_REASON = 0x11 ∧
        t.host.get Reg.SIM_REFUSAL_SECTION_NONE = 1) ∧ OnlyHost s t) := by
  have hc : exec (.imageVerify who) s = .next (s.held { s with
      host := (s.host.answer .none).stageCopy copy (s.host.get Reg.SIM_STAGE_LEN_LEN) e }) := by
    subst hcopy he
    refine (exec_imageVerify hr).trans ?_
    rw [HostSide.simVerify, if_neg (by rw [HostSide.stageOf_eq, HostSide.get_answer]; omega)]
    rfl
  have hend := (s.host.answer .none).stageCopy_verified copy (s.host.get Reg.SIM_STAGE_LEN_LEN) e
  refine .hostAlone hc fun ho => ⟨hend.override, hend.ends, fun hbad => ?_, ho⟩
  have hrefused := HostSide.stageCopy_badEpoch (h := s.host.answer .none) copy (s.host.get Reg.SIM_STAGE_LEN_LEN) (e := e)
    (HostSide.taken_now (s.host.answer .none) copy.length ▸ hbad)
  exact ⟨hrefused.stage, hrefused.reason, hrefused.whole⟩

/-! ## The end of the Buckram run and of step 8 -/

theorem exec_admissionComplete {st : Staged} (hr : s.hostReady) (hst : s.host.stage.staged = some st)
    (hv : s.host.get Reg.SIM_STATUS_STAGE = 2) (n : Nat) :
    exec (.admissionComplete n) s = .next (s.held { s with
      host := if (s.host.endAdmission st n).stageOf = 3 ∧ (s.host.endAdmission st n).get Reg.TWN_RESYNC_STATE = 1 then
          (s.host.endAdmission st n).toStage 4
        else s.host.endAdmission st n }) := by
  have hend : s.host.admissionDone n = if (s.host.endAdmission st n).stageOf = 3 ∧
      (s.host.endAdmission st n).get Reg.TWN_RESYNC_STATE = 1 then (s.host.endAdmission st n).toStage 4
      else s.host.endAdmission st n := by
    rw [HostSide.admissionDone, hst]
    exact if_pos hv
  rw [← hend]
  exact hostCmd_ready hr fun h => h.admissionDone n

theorem completes_admissionComplete_admitted {st : Staged} (hr : s.hostReady) (hst : s.host.stage.staged = some st)
    (hv : s.host.get Reg.SIM_STATUS_STAGE = 2) (n : Nat) (hrun : (s.host.askOf st).run.2 = none) :
    Completes (.admissionComplete n) s (fun t =>
      t.host.get Reg.BCK_STATUS_RESULT = 2 ∧ t.host.get Reg.BCK_STATUS_RUN_TIME = min n 0xFFFF ∧
      t.host.get Reg.SIM_STATUS_STAGE = (if t.host.get Reg.TWN_RESYNC_STATE = 1 then 4 else 3) ∧
      t.host.stage.staged = some st ∧ t.host.stage.bounds = (s.host.askOf st).run.1.bounds ∧ MemKept s t ∧
      OnlyHost s t) := by
  have hc := exec_admissionComplete hr hst hv n
  rw [HostSide.endAdmission_admitted hrun] at hc
  have hloads := s.host.showLoads_messaged (s.host.askOf st)
  have hend := (s.host.showRun st n).showAdmitted_admitted st (s.host.askOf st).run.1.bounds
  generalize ((s.host.showRun st n).showAdmitted (s.host.askOf st).run.1.bounds).sendVerdict st.members st.imageId
    st.epoch true = g at hc hend
  have htime : g.get Reg.BCK_STATUS_RUN_TIME = min n 0xFFFF := by
    refine hend.time.trans ((HostSide.get_put_self ..).trans (Nat.mod_eq_of_lt ?_))
    show min n 0xFFFF < 2 ^ 16
    omega
  have hstaged : g.stage.staged = some st := (congrArg Stage.staged (hend.stage.trans rfl)).trans
    ((congrArg Stage.staged hloads.stage).trans hst)
  have hmem : g.SameMemory s.host :=
    ⟨hend.sameMemory.1.trans hloads.sameMemory.1, hend.sameMemory.2.trans hloads.sameMemory.2⟩
  have hbounds : g.stage.bounds = (s.host.askOf st).run.1.bounds := congrArg Stage.bounds hend.stage
  by_cases hjoin : g.get Reg.TWN_RESYNC_STATE = 1
  · rw [if_pos ⟨hend.stageOf, hjoin⟩] at hc
    have hkept {f : Fld} (hf : f.key ≠ Reg.SIM_STATUS_STAGE.key) : (g.toStage 4).get f = g.get f := g.get_put_ne 4 hf
    have harmed : (g.toStage 4).get Reg.SIM_STATUS_STAGE = 4 := HostSide.get_put_self ..
    exact .ofHost hc hmem fun hm ho => ⟨(hkept (by decide)).trans hend.result, (hkept (by decide)).trans htime,
      harmed.trans (if_pos ((hkept (by decide)).trans hjoin)).symm, hstaged, hbounds, hm, ho⟩
  · rw [if_neg fun hboth => hjoin hboth.2] at hc
    exact .ofHost hc hmem fun hm ho =>
      ⟨hend.result, htime, hend.stageOf.trans (if_neg hjoin).symm, hstaged, hbounds, hm, ho⟩

theorem completes_admissionComplete_rejected {st : Staged} {r : Reject} (hr : s.hostReady)
    (hst : s.host.stage.staged = some st) (hv : s.host.get Reg.SIM_STATUS_STAGE = 2) (n : Nat)
    (hrun : (s.host.askOf st).run.2 = some r) : Completes (.admissionComplete n) s (fun t =>
      t.host.get Reg.BCK_STATUS_RESULT = 3 ∧ t.host.get Reg.BCK_STATUS_CODE = r.code % 256 ∧
      t.host.get Reg.SIM_STATUS_STAGE = 6 ∧ t.host.get Reg.SIM_REFUSAL_REASON = 0x10 ∧ t.host.stage.staged = none ∧
      OnlyHost s t) := by
  have hc := exec_admissionComplete hr hst hv n
  have hstaged : (s.host.showRun st n).stage.staged = some st :=
    (congrArg Stage.staged (s.host.showLoads_messaged (s.host.askOf st)).stage).trans hst
  obtain ⟨hresult, hcode, hend⟩ := HostSide.showReject_refused hstaged r
  rw [HostSide.endAdmission_rejected hrun, if_neg fun hboth => absurd (hboth.1.symm.trans hend.stage) (by decide)] at hc
  exact .hostAlone hc fun ho => ⟨hresult, hcode, hend.stage, hend.reason, hend.staged, ho⟩

theorem completes_fieldConfigTimeout {st : Staged} {snd : Sending} (hr : s.hostReady)
    (hst : s.host.stage.staged = some st) (hv : s.host.get Reg.SIM_STATUS_STAGE = 1)
    (hsnd : s.host.xing.sending = some snd) (hphase : snd.phase < 3) :
    (dtReached s.host.now snd.deadline = true → Completes .fieldConfigTimeout s (fun t =>
      t.host.get Reg.SIM_STATUS_STAGE = 6 ∧ t.host.get Reg.SIM_REFUSAL_REASON = 0x0F ∧ t.host.stage.staged = none ∧
      OnlyHost s t)) ∧
    (dtReached s.host.now snd.deadline = false → Completes .fieldConfigTimeout s (fun t => t = s)) := by
  have hc : exec .fieldConfigTimeout s = .next (s.held { s with host := s.host.fieldSilent }) :=
    hostCmd_ready hr (·.fieldSilent)
  have hsending : s.host.sendingOf false = some snd := hsnd
  rw [HostSide.fieldSilent, hsending] at hc
  refine ⟨fun hlate => ?_, fun hearly => .idle hc (if_neg (by simp [hearly]))⟩
  have hend := HostSide.stopStaged_refused hst 0x0F 0
  dsimp only at hc
  rw [if_pos ⟨hv, hphase, hlate⟩] at hc
  exact .hostAlone hc fun ho => ⟨hend.stage, hend.reason, hend.staged, ho⟩

end

/-! ## ARM, CANCEL and the override -/

section
variable {s : State} {who : Requester} {st : Staged} (hr : s.reaches who) (hst : s.host.stage.staged = some st)
include hr hst

theorem completes_imageArm :
    (s.host.get Reg.SIM_STATUS_STAGE = 3 → dtReached s.host.now st.commitPoint = false →
      Completes (.imageArm who) s (fun t => t.host.get Reg.SIM_STATUS_STAGE = 4 ∧ t.host.stage = s.host.stage ∧
        RegsKept [Reg.SIM_STATUS_STAGE] s t ∧ MemKept s t ∧ OnlyHost s t)) ∧
    (s.host.get Reg.SIM_STATUS_STAGE ≠ 3 ∨ dtReached s.host.now st.commitPoint = true →
      Completes (.imageArm who) s (fun t => t.host.get Reg.SIM_STATUS_CTRL_IGNORED = 1 ∧
        t.host.stage = s.host.stage ∧ RegsKept [Reg.SIM_STATUS_CTRL_IGNORED] s t ∧ MemKept s t ∧ OnlyHost s t)) := by
  have hc : exec (.imageArm who) s = .next (s.held { s with host := (s.host.answer .none).simArm }) :=
    regCmd_reaches hr fun h => (h.answer .none).simArm
  have hpast : (s.host.answer .none).pastCommit = dtReached s.host.now st.commitPoint := HostSide.pastCommit_staged hst
  rw [HostSide.simArm, hpast] at hc
  refine ⟨fun hv hearly => ?_, fun hout => ?_⟩
  · rw [if_pos ⟨hv, by rw [hearly]; rfl⟩] at hc
    exact completes_putStaged (f := Reg.SIM_STATUS_STAGE) (v := 4) (by decide) hc
  · have hnot : ¬ ((s.host.answer .none).stageOf = 3 ∧ (!dtReached s.host.now st.commitPoint) = true) := by
      rintro ⟨hv, hearly⟩
      exact hout.elim (· hv) fun hlate => by simp [hlate] at hearly
    rw [if_neg hnot] at hc
    exact completes_putStaged (f := Reg.SIM_STATUS_CTRL_IGNORED) (v := 1) (by decide) hc

/-- The host with a run under way stopped. -/
def HostSide.stopRun (h : HostSide) : HostSide := if h.stageOf = 2 then h.put Reg.BCK_STATUS_RESULT 0 else h

omit hr hst in
theorem HostSide.stopRun_frame (h : HostSide) :
    (h.stopRun.cfg, h.stopRun.store.mem, h.stopRun.tartan) = (h.cfg, h.store.mem, h.tartan) := by
  unfold HostSide.stopRun
  split <;> rfl

omit hr hst in
theorem HostSide.simCancel_eq (h : HostSide) : h.simCancel =
    if 1 ≤ h.stageOf ∧ h.stageOf ≤ 4 ∧ !h.pastCommit then (h.stopRun.dropStaged.toStage 7).restartStaging
    else h.simIgnored := rfl

theorem completes_imageCancel :
    (1 ≤ s.host.get Reg.SIM_STATUS_STAGE → s.host.get Reg.SIM_STATUS_STAGE ≤ 4 →
      dtReached s.host.now st.commitPoint = false → Completes (.imageCancel who) s (fun t =>
        t.host.get Reg.SIM_STATUS_STAGE = 7 ∧ t.host.stage.staged = none ∧ t.host.cfg = s.host.cfg ∧ MemKept s t ∧
        OnlyHost s t)) ∧
    (s.host.get Reg.SIM_STATUS_STAGE = 0 ∨ 5 ≤ s.host.get Reg.SIM_STATUS_STAGE ∨
      dtReached s.host.now st.commitPoint = true → Completes (.imageCancel who) s (fun t =>
        t.host.get Reg.SIM_STATUS_CTRL_IGNORED = 1 ∧ t.host.stage = s.host.stage ∧
        RegsKept [Reg.SIM_STATUS_CTRL_IGNORED] s t ∧ MemKept s t ∧ OnlyHost s t)) := by
  have hc : exec (.imageCancel who) s = .next (s.held { s with host := (s.host.answer .none).simCancel }) :=
    regCmd_reaches hr fun h => (h.answer .none).simCancel
  have hpast : (s.host.answer .none).pastCommit = dtReached s.host.now st.commitPoint := HostSide.pastCommit_staged hst
  rw [HostSide.simCancel_eq, hpast] at hc
  refine ⟨fun h1 h4 hearly => ?_, fun hout => ?_⟩
  · rw [if_pos ⟨h1, h4, by rw [hearly]; rfl⟩] at hc
    have hdrop := (s.host.answer .none).stopRun.dropStaged_dropped
    have hend := ((s.host.answer .none).stopRun.dropStaged.toStage 7).restartStaging_messaged
    have hframe := hdrop.frame.trans (s.host.answer .none).stopRun_frame
    simp only [Prod.mk.injEq] at hframe
    obtain ⟨hcfg, hmem, htartan⟩ := hframe
    refine .hostAlone hc fun ho => ⟨(hend.get (by decide)).trans (HostSide.get_put_self ..),
      (congrArg Stage.staged hend.stage).trans hdrop.staged, hend.cfg.trans hcfg, ⟨fun a => ?_, ?_⟩, ho⟩
    · exact congrArg (fun m => tget 0 m a) ((congrArg Store.mem hend.sameMemory.1).trans hmem)
    · exact congrArg Tartan.sram (hend.sameMemory.2.trans htartan)
  · have hnot : ¬ (1 ≤ (s.host.answer .none).stageOf ∧ (s.host.answer .none).stageOf ≤ 4 ∧
        (!dtReached s.host.now st.commitPoint) = true) := by
      rintro ⟨h1, h4, hearly⟩
      rw [HostSide.stageOf_eq, HostSide.get_answer] at h1 h4
      rcases hout with h0 | h5 | hlate
      · omega
      · omega
      · simp [hlate] at hearly
    rw [if_neg hnot] at hc
    exact completes_putStaged (f := Reg.SIM_STATUS_CTRL_IGNORED) (v := 1) (by decide) hc

end

section
variable {s : State} {who : Requester} (hr : s.reaches who) (v : Word)
include hr

theorem completes_overrideArm :
    (bits v.toNat 16 16 = 0x5EA1 → bit v.toNat 0 = true → s.host.get Reg.SIM_STATUS_STAGE = 0 →
      Completes (.overrideArm who v) s (fun t => t.host.get Reg.SIM_STATUS_OVERRIDE_ARMED = 1 ∧
        RegsKept [Reg.SIM_STATUS_OVERRIDE_ARMED] s t ∧ MemKept s t ∧ OnlyHost s t)) ∧
    (bits v.toNat 16 16 ≠ 0x5EA1 ∨ bit v.toNat 0 = false → Completes (.overrideArm who v) s (fun t =>
      RegsKept [] s t ∧ MemKept s t ∧ OnlyHost s t)) := by
  have hc : exec (.overrideArm who v) s = .next (s.held { s with host := (s.host.answer .none).simForce v.toNat }) :=
    regCmd_reaches hr fun h => (h.answer .none).simForce v.toNat
  rw [HostSide.simForce] at hc
  refine ⟨fun hkey harm h0 => ?_, fun hout => ?_⟩
  · rw [if_pos ⟨hkey, harm⟩, if_pos (show (s.host.answer .none).stageOf = 0 from h0)] at hc
    exact completes_putOnly (f := Reg.SIM_STATUS_OVERRIDE_ARMED) (v := 1) (by decide) hc
  · rw [if_neg fun hboth => hout.elim (· hboth.1) fun harm => by simp [harm] at hboth] at hc
    exact completes_answerOnly hc

/-! ## BCK.QUERY -/

omit hr in
/-- BCK.QBOUND as it follows BCK.QUERY. -/
theorem HostSide.get_showBound (h : HostSide) (b : Option (Nat × Nat)) (hb : b = if h.get Reg.BCK_STATUS_RESULT = 2 then
      h.stage.bounds.find? (fun b => b.1 == h.get Reg.BCK_QUERY_INDEX) else none) :
    ((b.map (·.2)).getD 0 < 2 ^ 31 → h.showBound.get Reg.BCK_QBOUND_BOUND = (b.map (·.2)).getD 0) ∧
      h.showBound.get Reg.BCK_QBOUND_VALID = b2n b.isSome := by
  subst hb
  refine ⟨fun hfits => ?_, (HostSide.get_putB_self ..).trans (b2n_mod_two _)⟩
  exact (HostSide.get_putB_ne _ _ (by decide)).trans ((HostSide.get_put_self ..).trans
    ((congrArg (· % 2 ^ 31) (if_pos hfits)).trans (Nat.mod_eq_of_lt hfits)))

theorem completes_bckQuery :
    Completes (.bckQuery who v) s (fun t => t.host.get Reg.BCK_QUERY_INDEX = v.toNat % 65536 ∧
      (∀ b, s.host.get Reg.BCK_STATUS_RESULT = 2 →
        s.host.stage.bounds.find? (fun b => b.1 == v.toNat % 65536) = some b →
        (b.2 < 2 ^ 31 → t.host.get Reg.BCK_QBOUND_BOUND = b.2) ∧ t.host.get Reg.BCK_QBOUND_VALID = 1) ∧
      (s.host.get Reg.BCK_STATUS_RESULT ≠ 2 → t.host.get Reg.BCK_QBOUND_BOUND = 0 ∧
        t.host.get Reg.BCK_QBOUND_VALID = 0) ∧
      RegsKept [Reg.BCK_QUERY_INDEX, Reg.BCK_QBOUND_BOUND, Reg.BCK_QBOUND_VALID] s t ∧ MemKept s t ∧ OnlyHost s t) := by
  have hc : exec (.bckQuery who v) s = .next (s.held { s with
      host := ((s.host.answer .none).put Reg.BCK_QUERY_INDEX v.toNat).showBound }) :=
    regCmd_reaches hr fun h => ((h.answer .none).put Reg.BCK_QUERY_INDEX v.toNat).showBound
  have hresult : ((s.host.answer .none).put Reg.BCK_QUERY_INDEX v.toNat).get Reg.BCK_STATUS_RESULT =
      s.host.get Reg.BCK_STATUS_RESULT := HostSide.get_put_ne _ _ (by decide)
  have hindex : ((s.host.answer .none).put Reg.BCK_QUERY_INDEX v.toNat).get Reg.BCK_QUERY_INDEX = v.toNat % 65536 :=
    HostSide.get_put_self ..
  have hshown := ((s.host.answer .none).put Reg.BCK_QUERY_INDEX v.toNat).get_showBound
  rw [hresult, hindex] at hshown
  refine .ofHost hc ⟨rfl, rfl⟩ fun hm ho => ⟨?_, fun b h2 hfind => ?_, fun hne => ?_, fun f hf => ?_, hm, ho⟩
  · exact (HostSide.get_putB_ne _ _ (by decide)).trans ((HostSide.get_put_ne _ _ (by decide)).trans hindex)
  · exact hshown (some b) (by rw [if_pos h2]; exact hfind.symm)
  · obtain ⟨hbound, hvalid⟩ := hshown none (if_neg hne).symm
    exact ⟨hbound (by decide), hvalid⟩
  · simp only [List.forall_mem_cons] at hf
    obtain ⟨hquery, hbound, hvalid, -⟩ := hf
    exact (HostSide.get_putB_ne _ _ hvalid).trans ((HostSide.get_put_ne _ _ hbound).trans
      (HostSide.get_put_ne _ _ hquery))

end

/-- Settles O48: verification by where a staged image ends, the Buckram run by what it shows, and ARM, CANCEL and the
override by the commit point. -/
theorem stagingChecksArmsAndCancels : Obligations.StagingChecksArmsAndCancels := by
  intro s who st n v snd copy e
  refine ⟨fun hr hn => ?_, fun hr hst hv => ?_, fun hr hst hv hsnd hphase => ?_, fun hr hst hn => ?_, fun hr => ?_⟩
  · subst hn
    exact ⟨fun h1 h5 => completes_imageVerify_busy hr h1 h5, fun hout => completes_imageVerify hr hout⟩
  · exact ⟨completes_admissionComplete_admitted hr hst hv n, fun r => completes_admissionComplete_rejected hr hst hv n⟩
  · exact completes_fieldConfigTimeout hr hst hv hsnd hphase
  · subst hn
    obtain ⟨harm, hlateArm⟩ := completes_imageArm hr hst
    obtain ⟨hcancel, hlateCancel⟩ := completes_imageCancel hr hst
    exact ⟨harm, hlateArm, hcancel, hlateCancel⟩
  · obtain ⟨hforce, hother⟩ := completes_overrideArm hr v
    exact ⟨hforce, hother, completes_bckQuery hr v⟩

end Sys2Proof.Machine
end

section
/-! The symbol engine's registers (O41; 07_mimic.md R184): what MIM.STATUS and the probes show, and what showing them
leaves alone. -/

namespace Sys2Proof.Machine

open Sys2Proof

/-! ## Memories -/

theorem HostSide.SameMemory.refl (h : HostSide) : h.SameMemory h := ⟨rfl, rfl⟩

theorem HostSide.SameMemory.put {g h : HostSide} (a : g.SameMemory h) (f : Fld) (v : Nat) :
    (g.put f v).SameMemory h := a

theorem HostSide.SameMemory.trans {g h k : HostSide} (a : g.SameMemory h) (b : h.SameMemory k) : g.SameMemory k :=
  ⟨a.1.trans b.1, a.2.trans b.2⟩

/-! ## The widget probe -/

/-- The registers that show the widget probed. -/
def widgetFields : List Fld :=
  [Reg.MIM_WIDGET_STATE_ENTRY, Reg.MIM_WIDGET_STATE_ANCIENT, Reg.MIM_WIDGET_STATE_FAULT, Reg.MIM_WIDGET_STATE_CLASS,
    Reg.MIM_WIDGET_STATE_ENABLED, Reg.MIM_WIDGET_STATE_BOUND, Reg.MIM_WIDGET_STATE_SURFACE, Reg.MIM_WIDGET_VT_VT]

theorem HostSide.get_showWidget_ne (h : HostSide) {f : Fld} (hf : ∀ x ∈ widgetFields, f.key ≠ x.key) :
    h.showWidget.get f = h.get f := by
  simp only [widgetFields, List.forall_mem_cons] at hf
  obtain ⟨hentry, hancient, hfault, hcls, henabled, hbound, hsurface, hvt, -⟩ := hf
  unfold HostSide.showWidget
  rw [HostSide.get_put_ne _ _ hvt, HostSide.get_put_ne _ _ hsurface, HostSide.get_put_ne _ _ hbound,
    HostSide.get_put_ne _ _ henabled, HostSide.get_put_ne _ _ hcls, HostSide.get_putB_ne _ _ hfault,
    HostSide.get_putB_ne _ _ hancient, HostSide.get_put_ne _ _ hentry]

theorem HostSide.showWidget_sameMemory (h : HostSide) : h.showWidget.SameMemory h := by
  unfold HostSide.showWidget
  iterate 8 refine .put ?_ _ _
  exact .refl h

/-- WIDGET_STATE.ENTRY is the entry that was drawn last. -/
theorem HostSide.get_showWidget_entry (h : HostSide) : h.showWidget.get Reg.MIM_WIDGET_STATE_ENTRY =
    (h.widgetState (h.get Reg.MIM_WIDGET_PROBE_WIDGET)).last.getD 0 % 16 := by
  unfold HostSide.showWidget
  simp (disch := decide) only [HostSide.get_put_ne, HostSide.get_putB_ne, HostSide.get_put_self]
  rfl

/-! ## The cell probe -/

/-- The registers that show the cell probed. -/
def cellFields : List Fld := [Reg.MIM_CELL_STATE_FLAGS, Reg.MIM_CELL_STATE_WIDGETS, Reg.MIM_CELL_VT_VT]

theorem HostSide.get_showCell_ne (h : HostSide) {f : Fld} (hf : ∀ x ∈ cellFields, f.key ≠ x.key) :
    h.showCell.get f = h.get f := by
  simp only [cellFields, List.forall_mem_cons] at hf
  obtain ⟨hflags, hwidgets, hvt, -⟩ := hf
  exact (HostSide.get_put_ne _ _ hvt).trans ((HostSide.get_put_ne _ _ hwidgets).trans (HostSide.get_put_ne _ _ hflags))

theorem HostSide.showCell_sameMemory (h : HostSide) : h.showCell.SameMemory h := by
  unfold HostSide.showCell
  dsimp only
  exact .put (.put (.put (.refl h) _ _) _ _) _ _

/-- CELL_VT and CELL_STATE.FLAGS are the entry of a cell that exists. -/
theorem HostSide.get_showCell {h : HostSide} {u : MimicSurf} {i : Nat} (hi : h.get Reg.MIM_CELL_PROBE_CELL = i)
    (hu : h.mimicSurf (h.get Reg.MIM_CELL_PROBE_SURFACE) = some u) (hin : i < u.cellCount) :
    h.showCell.get Reg.MIM_CELL_VT_VT = (tget Cell.static u.cells i).vt.toNat ∧
      h.showCell.get Reg.MIM_CELL_STATE_FLAGS = (tget Cell.static u.cells i).flags % 64 := by
  subst hi
  unfold HostSide.showCell
  dsimp only
  rw [hu]
  dsimp only
  rw [if_pos hin]
  constructor
  · exact (HostSide.get_put_self ..).trans (Nat.mod_eq_of_lt (BitVec.isLt _))
  · simp (disch := decide) only [HostSide.get_put_ne, HostSide.get_put_self]
    rfl

/-! ## The whole -/

/-- The registers that follow the engine. -/
def mimicFields : List Fld := Reg.MIM_STATUS_BUSY :: Reg.MIM_STATUS_QUEUED :: widgetFields ++ cellFields

theorem HostSide.get_showMimic_ne (h : HostSide) {f : Fld} (hf : ∀ x ∈ mimicFields, f.key ≠ x.key) :
    h.showMimic.get f = h.get f := by
  simp only [mimicFields, List.cons_append, List.forall_mem_cons, List.forall_mem_append] at hf
  obtain ⟨hbusy, hqueued, hwidget, hcell⟩ := hf
  unfold HostSide.showMimic
  rw [HostSide.get_showCell_ne _ hcell, HostSide.get_showWidget_ne _ hwidget, HostSide.get_put_ne _ _ hqueued,
    HostSide.get_putB_ne _ _ hbusy]

theorem HostSide.get_showMimic_busy (h : HostSide) :
    h.showMimic.get Reg.MIM_STATUS_BUSY = b2n h.mimic.busy.isSome := by
  unfold HostSide.showMimic
  rw [HostSide.get_showCell_ne _ (by decide), HostSide.get_showWidget_ne _ (by decide),
    HostSide.get_put_ne _ _ (by decide), HostSide.get_putB_self]
  exact b2n_mod_two _

theorem HostSide.get_showMimic_queued (h : HostSide) :
    h.showMimic.get Reg.MIM_STATUS_QUEUED = min 255 h.mimic.queue.length := by
  unfold HostSide.showMimic
  rw [HostSide.get_showCell_ne _ (by decide), HostSide.get_showWidget_ne _ (by decide), HostSide.get_put_self]
  show min 255 h.mimic.queue.length % 2 ^ 8 = min 255 h.mimic.queue.length
  omega

theorem HostSide.showMimic_sameMemory (h : HostSide) : h.showMimic.SameMemory h :=
  (HostSide.showCell_sameMemory _).trans ((HostSide.showWidget_sameMemory _).trans (.put (.put (.refl h) _ _) _ _))

theorem HostSide.showMimic_mimic (h : HostSide) : h.showMimic.mimic = h.mimic := h.showMimic_regsStore.mimic

/-! ## A host effect that leaves power alone -/

theorem State.held_of_power {s : State} {g : HostSide} (hp : g.power = s.host.power) :
    s.held { s with host := g } = { s with host := g } := by
  obtain ⟨hrun, hup⟩ := Prod.mk.inj hp
  unfold State.held
  rw [← hrun, ← hup]

/-- A command that answers a host effect completes with it; the effect is no reset. -/
theorem Completes.ofEffect {c : Instr} {s : State} {P : State → Prop} {g : HostSide}
    (hc : exec c s = .next (s.held { s with host := g })) (hp : g.power = s.host.power) (hP : P { s with host := g }) :
    Completes c s P := ⟨_, hc.trans (congrArg _ (State.held_of_power hp)), rfl, hP⟩

theorem HostSide.RegsStore.power {h g : HostSide} (a : h.RegsStore g) : g.power = h.power :=
  (congrArg HostSide.power a).trans rfl

theorem HostSide.SameMemory.kept {s : State} {g : HostSide} (a : g.SameMemory s.host) :
    MemKept s { s with host := g } := ⟨fun n => congrArg (·.byte n) a.1, congrArg (·.sram) a.2⟩

/-! ## The probes' commands -/

/-- The probe names a widget by the value written. -/
def HostSide.probingWidget (h : HostSide) (v : Nat) : HostSide := (h.answer .none).put Reg.MIM_WIDGET_PROBE_WIDGET v

/-- The probe names a cell of a surface by the value written. -/
def HostSide.probingCell (h : HostSide) (v : Nat) : HostSide :=
  ((h.answer .none).put Reg.MIM_CELL_PROBE_SURFACE v).put Reg.MIM_CELL_PROBE_CELL (v / 2 ^ 16)

theorem HostSide.get_probingWidget (h : HostSide) (v : Nat) :
    (h.probingWidget v).get Reg.MIM_WIDGET_PROBE_WIDGET = v % 65536 := HostSide.get_put_self ..

theorem HostSide.get_probingCell_surface (h : HostSide) (v : Nat) :
    (h.probingCell v).get Reg.MIM_CELL_PROBE_SURFACE = v % 64 :=
  (HostSide.get_put_ne _ _ (by decide)).trans (HostSide.get_put_self ..)

theorem HostSide.get_probingCell_cell (h : HostSide) (v : Nat) :
    (h.probingCell v).get Reg.MIM_CELL_PROBE_CELL = v / 65536 % 16384 := HostSide.get_put_self ..

section
variable {s : State} {who : Requester} (hr : s.reaches who) (v : Word)
include hr

theorem completes_widgetProbe : Completes (.widgetProbe who v) s (fun t => t.host.resp = .none ∧
    t.host.get Reg.MIM_WIDGET_PROBE_WIDGET = v.toNat % 65536 ∧
    t.host.get Reg.MIM_WIDGET_STATE_ENTRY = (s.host.widgetState (v.toNat % 65536)).last.getD 0 % 16 ∧
    RegsKept (Reg.MIM_WIDGET_PROBE_WIDGET :: widgetFields) s t ∧ MemKept s t ∧ OnlyHost s t) := by
  have hshown := (s.host.probingWidget v.toNat).showWidget_regsStore
  have hmem : (s.host.probingWidget v.toNat).showWidget.SameMemory s.host :=
    .trans (HostSide.showWidget_sameMemory _) ⟨rfl, rfl⟩
  have hentry := (s.host.probingWidget v.toNat).get_showWidget_entry
  rw [HostSide.get_probingWidget] at hentry
  refine .ofEffect (regCmd_reaches hr fun h => (h.probingWidget v.toNat).showWidget) (hshown.power.trans rfl)
    ⟨(congrArg HostSide.resp hshown).trans rfl, ?_, hentry, fun f hf => ?_,
      hmem.kept, rfl, rfl⟩
  · exact (HostSide.get_showWidget_ne _ (by decide)).trans (HostSide.get_probingWidget ..)
  · obtain ⟨hprobe, hshown⟩ := List.forall_mem_cons.1 hf
    exact (HostSide.get_showWidget_ne _ hshown).trans (HostSide.get_put_ne _ _ hprobe)

theorem completes_cellProbe : Completes (.cellProbe who v) s (fun t => t.host.resp = .none ∧
    (∀ u, s.host.mimicSurf (v.toNat % 64) = some u → v.toNat / 65536 % 16384 < u.cellCount →
      t.host.get Reg.MIM_CELL_VT_VT = (tget Cell.static u.cells (v.toNat / 65536 % 16384)).vt.toNat ∧
      t.host.get Reg.MIM_CELL_STATE_FLAGS = (tget Cell.static u.cells (v.toNat / 65536 % 16384)).flags % 64) ∧
    RegsKept (Reg.MIM_CELL_PROBE_SURFACE :: Reg.MIM_CELL_PROBE_CELL :: cellFields) s t ∧ MemKept s t ∧
    OnlyHost s t) := by
  have hshown := (s.host.probingCell v.toNat).showCell_regsStore
  have hmem : (s.host.probingCell v.toNat).showCell.SameMemory s.host :=
    .trans (HostSide.showCell_sameMemory _) ⟨rfl, rfl⟩
  refine .ofEffect (regCmd_reaches hr fun h => (h.probingCell v.toNat).showCell) (hshown.power.trans rfl)
    ⟨(congrArg HostSide.resp hshown).trans rfl, fun u hu hin => ?_, fun f hf => ?_,
      hmem.kept, rfl, rfl⟩
  · exact HostSide.get_showCell (HostSide.get_probingCell_cell ..)
      (by rw [HostSide.get_probingCell_surface]; exact hu) hin
  · simp only [List.forall_mem_cons (p := fun x : Fld => f.key ≠ x.key)] at hf
    obtain ⟨hprobed, hat, hshown⟩ := hf
    exact (HostSide.get_showCell_ne _ hshown).trans
      ((HostSide.get_put_ne _ _ hat).trans (HostSide.get_put_ne _ _ hprobed))
end

end Sys2Proof.Machine
end

section
/-! Drawing (O41; 07_mimic.md R175 to R178, R181): what drawing a widget and writing cells change, and the error responses
that they count. -/

namespace Sys2Proof.Machine

open Sys2Proof

/-! ## Error responses to writes -/

/-- MIM.ERRORS.WRITE after `n` more error responses. -/
def addErrors (x n : Nat) : Nat := if n = 0 then x else satAdd x n Reg.MIM_ERRORS_WRITE.w

theorem addErrors_pos {x n : Nat} (hn : n ≠ 0) : addErrors x n = satAdd x n Reg.MIM_ERRORS_WRITE.w := if_neg hn

theorem addErrors_add (x m n : Nat) : addErrors (addErrors x m) n = addErrors x (m + n) := by
  unfold addErrors satAdd
  split_ifs <;> omega

/-! ## Effects of drawing -/

/-- Drawing has led from `h` to `g`: only registers, the central store and free values have changed, and `n` error
responses to writes are counted. -/
structure HostSide.Drew (n : Nat) (h g : HostSide) : Prop where
  rest : g = { h with regs := g.regs, store := g.store, freeN := g.freeN }
  errors : g.get Reg.MIM_ERRORS_WRITE = addErrors (h.get Reg.MIM_ERRORS_WRITE) n

namespace HostSide.Drew

theorem refl (h : HostSide) : h.Drew 0 h := ⟨rfl, rfl⟩

theorem trans {m n : Nat} {h g k : HostSide} (a : h.Drew m g) (b : g.Drew n k) : h.Drew (m + n) k :=
  ⟨by rw [b.rest, a.rest], by rw [b.errors, a.errors, addErrors_add]⟩

theorem ofLogged {h g : HostSide} (a : h.Logged g) : h.Drew 0 g :=
  ⟨by rw [a.rest], a.get _ (by decide)⟩

theorem foldl {α : Type} {f : HostSide → α → HostSide} (hf : ∀ (g : HostSide) (a : α), g.Drew 0 (f g a))
    (l : List α) (h : HostSide) : h.Drew 0 (l.foldl f h) := by
  induction l generalizing h with
  | nil => exact .refl h
  | cons a l ih => exact (hf h a).trans (ih _)

variable {n : Nat} {h g : HostSide} (a : h.Drew n g)
include a

theorem put {f : Fld} (hf : Reg.MIM_ERRORS_WRITE.key ≠ f.key) (v : Nat) : h.Drew n (g.put f v) :=
  a.trans (n := 0) ⟨rfl, g.get_put_ne v hf⟩

theorem free (m : Nat) : h.Drew n (g.free m).2 := a.trans (n := 0) ⟨rfl, rfl⟩

theorem log (source code index frame detail : Nat) : h.Drew n (g.log source code index frame detail) :=
  a.trans (.ofLogged (g.log_logged _ _ _ _ _))

theorem caPut (port ca : Nat) (bs : List Byte) : h.Drew n (g.caPut port ca bs) :=
  a.trans (.ofLogged (g.caPut_logged _ _ _))

theorem ite {k : HostSide} {p : Prop} [Decidable p] (b : h.Drew n k) : h.Drew n (if p then g else k) := by
  split
  · exact a
  · exact b

theorem setWidget (w : Nat) (v : WidgetState) : (h.setWidget w v).Drew n (g.setWidget w v) :=
  ⟨by rw [a.rest]; rfl, a.errors⟩

theorem cfg : g.cfg = h.cfg := (congrArg HostSide.cfg a.rest).trans rfl
theorem mimic : g.mimic = h.mimic := (congrArg HostSide.mimic a.rest).trans rfl
theorem power : g.power = h.power := (congrArg HostSide.power a.rest).trans rfl

theorem widgets : g.widgets = h.widgets := congrArg (fun c : Cfg => (c.mimic.map MimicCfg.widgets).getD []) a.cfg

theorem mimicSurf (m : Nat) : g.mimicSurf m = h.mimicSurf m := congrArg (fun d : Mimic => tget none d.surfs m) a.mimic

theorem widgetState (w : Nat) : g.widgetState w = h.widgetState w :=
  congrArg (fun d : Mimic => tget WidgetState.fresh d.widgets w) a.mimic

theorem cellEntry (m : Nat) (s : MimicSurf) (i : Nat) : g.cellEntry m s i = h.cellEntry m s i := by
  rw [a.rest]
  rfl

end HostSide.Drew

theorem HostSide.writeErrors_drew (h : HostSide) (n index detail : Nat) : h.Drew n (h.writeErrors n index detail) := by
  unfold HostSide.writeErrors
  split
  · next hn => subst hn; exact .refl h
  · next hn =>
    refine .log ⟨rfl, ?_⟩ _ _ _ _ _
    rw [HostSide.get_bump_self, addErrors_pos hn]

theorem HostSide.Drew.writeErrors {h g : HostSide} (a : h.Drew 0 g) (n index detail : Nat) :
    h.Drew n (g.writeErrors n index detail) := by
  have hboth := a.trans (g.writeErrors_drew n index detail)
  rwa [Nat.zero_add] at hboth

/-! ## Drawing a widget -/

theorem HostSide.codeTile_drew (h : HostSide) (format coding ca n : Nat) (t : List Nat) :
    h.Drew 0 (h.codeTile format coding ca n t) :=
  (HostSide.Drew.caPut (.refl h) 0xFF ca (muslinBytes format coding n t)).trans (n := 0) ⟨rfl, rfl⟩

theorem HostSide.drawBox_drew (h : HostSide) (s : MimicSurf) (d : Drawing) : h.Drew 0 (h.drawBox s d) :=
  .foldl (fun _ _ => .foldl (fun _ _ => HostSide.codeTile_drew _ _ _ _ _ _) _ _) _ h

/-- A drawing into surface `s` meets an error. -/
def HostSide.drawsBadly (h : HostSide) (w : WidgetEntry) (s : MimicSurf) (e : Nat) (facts : DrawFacts) : Bool :=
  h.atlasPoisoned (h.drawingOf w s.entry.bgColour e none) || facts.atlas != 0 || facts.surface != 0

/-- What a drawing of entry `e` leaves of its widget (R176, R181). -/
def drawnState (w : WidgetEntry) (e : Nat) (tag : Tag) (bad : Bool) : WidgetState :=
  ⟨some e, if w.bound = 1 then { tag with fault := bad } else WidgetState.fresh.tag⟩

theorem HostSide.drawWidget_drew {h : HostSide} {w : WidgetEntry} {s : MimicSurf} (hs : h.mimicSurf w.surface = some s)
    (e : Nat) (tag : Tag) (facts : DrawFacts) :
    (h.setWidget w.widget (drawnState w e tag (h.drawsBadly w s e facts))).Drew facts.surface
      (h.drawWidget w e tag facts) := by
  unfold HostSide.drawWidget
  rw [hs]
  dsimp only
  refine .setWidget (.trans (n := 0) (.ite (.free ?counted 1) ?counted) (HostSide.drawBox_drew _ _ _)) _ _
  refine .writeErrors (.ite (.log ?read _ _ _ _ _) ?read) _ _ _
  refine .put ?_ (by decide) _
  split
  · exact .free (.refl h) _
  · exact .refl h

/-- A widget of a surface that does not exist is not drawn. -/
theorem HostSide.drawWidget_none {h : HostSide} {w : WidgetEntry} (hs : h.mimicSurf w.surface = none) (e : Nat)
    (tag : Tag) (facts : DrawFacts) : h.drawWidget w e tag facts = h := by
  unfold HostSide.drawWidget
  rw [hs]

/-- Drawing a widget leaves the surfaces' entries and cell maps alone. -/
theorem HostSide.drawWidget_mimicSurf (h : HostSide) (w : WidgetEntry) (e : Nat) (tag : Tag) (facts : DrawFacts)
    (m : Nat) : (h.drawWidget w e tag facts).mimicSurf m = h.mimicSurf m := by
  cases hs : h.mimicSurf w.surface with
  | none => rw [HostSide.drawWidget_none hs]
  | some s => exact (HostSide.drawWidget_drew hs e tag facts).mimicSurf m

/-! ## Writing cells -/

/-- The surfaces' entries and cell maps are these. -/
def HostSide.withSurfs (h : HostSide) (t : Table (Option MimicSurf)) : HostSide :=
  { h with mimic := { h.mimic with surfs := t } }

theorem HostSide.Drew.withSurfs {n : Nat} {h g : HostSide} (a : h.Drew n g) (t : Table (Option MimicSurf)) :
    (h.withSurfs t).Drew n (g.withSurfs t) := ⟨by rw [a.rest]; rfl, a.errors⟩

/-- From `h` to `g` the cells of surface `m`, which was `s`, are recomputed where `sound` holds and the surface's initial
drawing is complete; `n` error responses are counted. -/
structure HostSide.CellsTaken (m : Nat) (s : MimicSurf) (cells : List Nat) (n : Nat) (sound : Prop) (h g : HostSide) :
    Prop where
  drew : (h.withSurfs g.mimic.surfs).Drew n g
  surf : ∃ u, g.mimicSurf m = some u ∧ u.entry = s.entry ∧ u.initial = s.initial ∧
    (sound → s.initial = false → ∀ i ∈ cells, tget Cell.static u.cells i = h.cellEntry m s i)

theorem tget_foldl_tput {α : Type} [DecidableEq α] (d : α) (f : Nat → α) (l : List Nat) (t : Table α) (i : Nat) :
    tget d (l.foldl (fun t i => tput d t i (f i)) t) i = if i ∈ l then f i else tget d t i := by
  induction l generalizing t with
  | nil => rfl
  | cons j l ih =>
    rw [List.foldl_cons, ih, tget_tput]
    by_cases hj : i = j
    · simp [hj]
    · simp [hj]

theorem HostSide.putMap_drew (h : HostSide) (m : Nat) (s : MimicSurf) (cells : List Nat) :
    (h.setMimicSurf m (some s)).Drew 0 (h.putMap m s cells) :=
  .foldl (fun g _ => .caPut (.refl g) _ _ _) _ _

section
variable {h : HostSide} {m : Nat} {s : MimicSurf} (hs : h.mimicSurf m = some s)
include hs

theorem HostSide.writeCells_taken (cells : List Nat) : h.CellsTaken m s cells 0 True (h.writeCells m cells) := by
  unfold HostSide.writeCells
  rw [hs]
  dsimp only
  split
  · next hinit => exact ⟨.refl h, s, hs, rfl, rfl, fun _ hdone => absurd (hinit.symm.trans hdone) (by decide)⟩
  · have hput := h.putMap_drew m
      { s with cells := cells.foldl (fun t i => tput Cell.static t i (h.cellEntry m s i)) s.cells } cells
    refine ⟨?_, _, (hput.mimicSurf m).trans (HostSide.mimicSurf_setMimicSurf_self ..), rfl, rfl, fun _ _ i hi => ?_⟩
    · rw [hput.mimic]
      exact hput
    · exact (tget_foldl_tput Cell.static (h.cellEntry m s) cells s.cells i).trans (if_pos hi)

end

theorem HostSide.CellsTaken.mono {m n : Nat} {s : MimicSurf} {cells : List Nat} {p q : Prop} {h g : HostSide}
    (a : h.CellsTaken m s cells n p g) (hq : q → p) : h.CellsTaken m s cells n q g := by
  obtain ⟨u, hu, hentry, hinitial, hcells⟩ := a.surf
  exact ⟨a.drew, u, hu, hentry, hinitial, fun hs => hcells (hq hs)⟩

theorem HostSide.CellsTaken.after {m n : Nat} {s : MimicSurf} {cells : List Nat} {p : Prop} {h g k : HostSide}
    (a : h.Drew n g) (b : g.CellsTaken m s cells 0 p k) : h.CellsTaken m s cells n p k := by
  obtain ⟨u, hu, hentry, hinitial, hcells⟩ := b.surf
  exact ⟨(a.withSurfs k.mimic.surfs).trans b.drew, u, hu, hentry, hinitial,
    fun hs hdone i hi => (hcells hs hdone i hi).trans (a.cellEntry m s i)⟩

/-- The cells that a widget's box meets are recomputed unless an error response leaves their writes open. -/
theorem HostSide.widgetCells_taken {h : HostSide} {w : WidgetEntry} {s : MimicSurf} (hs : h.mimicSurf w.surface = some s)
    (n : Nat) : h.CellsTaken w.surface s (w.cells (s.entry.width / 64)) n (n = 0) (h.widgetCells w n) := by
  unfold HostSide.widgetCells
  by_cases hn : n = 0
  · subst hn
    simp only [if_true, hs]
    exact (HostSide.writeCells_taken hs _).mono fun _ => trivial
  · have hopen : h.Drew n ((h.writeErrors n w.widget w.surface).free 2).2 := .free (h.writeErrors_drew _ _ _) 2
    have hsurf := (hopen.mimicSurf w.surface).trans hs
    simp only [if_neg hn, hsurf]
    refine .after hopen (.mono (p := False) ?_ hn)
    split
    · exact ⟨.refl _, s, hsurf, rfl, rfl, False.elim⟩
    · exact (HostSide.writeCells_taken hsurf _).mono False.elim

end Sys2Proof.Machine
end

section
/-! Batches (O41; 07_mimic.md R177, R180, R185): what taking an update up shows, what the end of a batch counts, and what the
acknowledged writes of a widget leave. -/

namespace Sys2Proof.Machine

open Sys2Proof

/-! ## The end of a batch -/

/-- No batch and no drawing is in process. -/
def HostSide.batchGone (h : HostSide) : HostSide := { h with mimic := { h.mimic with busy := none, drawing := none } }

/-- The batch that ends is counted, and its latency shown. -/
def HostSide.batchCounted (h : HostSide) (b : Busy) : HostSide :=
  ((h.batchGone.countWrap Reg.MIM_BATCHES_COUNT).put Reg.MIM_LAT_LAST_NS (h.tb.sinceNs b.batch.at_)).put
    Reg.MIM_LAT_MAX_NS (max (h.get Reg.MIM_LAT_MAX_NS) (h.tb.sinceNs b.batch.at_ % 2 ^ 32))

theorem HostSide.endBatch_eq (h : HostSide) (b : Busy) : h.endBatch b = if (h.batchCounted b).overrun b then
    ((h.batchCounted b).bump Reg.MIM_OVERRUN_COUNT).log 4 2 0 else h.batchCounted b := rfl

theorem HostSide.batchCounted_drew (h : HostSide) (b : Busy) : h.batchGone.Drew 0 (h.batchCounted b) :=
  .put (.put (.put (.refl _) (by decide) _) (by decide) _) (by decide) _

theorem HostSide.batchCounted_sameMemory (h : HostSide) (b : Busy) : (h.batchCounted b).SameMemory h.batchGone :=
  .put (.put (.put (.refl _) _ _) _ _) _ _

theorem HostSide.showMimic_drew (h : HostSide) : h.Drew 0 h.showMimic :=
  ⟨by rw [h.showMimic_regsStore], h.get_showMimic_ne (by decide)⟩

theorem HostSide.endBatch_drew (h : HostSide) (b : Busy) : h.batchGone.Drew 0 (h.endBatch b).showMimic := by
  rw [HostSide.endBatch_eq]
  have hcounted := h.batchCounted_drew b
  refine .trans (m := 0) (.ite (.log (.put hcounted ?_ _) _ _ _ _ _) hcounted) (HostSide.showMimic_drew _)
  decide

/-- A batch that touches no live widget overruns no claim. -/
theorem HostSide.overrun_untouched {h : HostSide} {b : Busy}
    (hnone : h.widgets.filter (fun w => w.live && b.batch.points.contains w.point) = []) : h.overrun b = false := by
  unfold HostSide.overrun
  rw [hnone]
  refine List.any_eq_false.2 fun c _ => ?_
  split
  · split <;> simp
  · simp

/-! ## Taking an update up -/

/-- The oldest update is in process with these widgets. -/
def HostSide.batchTaken (h : HostSide) (b : Batch) (rest : List Batch) (ws : List Nat) : HostSide :=
  { h with mimic := { h.mimic with queue := rest, busy := some ⟨b, ws, 0⟩ } }

/-- The oldest update has touched no widget. -/
def HostSide.batchEmpty (h : HostSide) (b : Batch) (rest : List Batch) : HostSide :=
  (h.batchTaken b rest []).batchCounted ⟨b, [], 0⟩

/-- The first widget of the oldest update is in process by a read of its point, to be drawn or not. -/
def HostSide.widgetTaken (h : HostSide) (b : Batch) (rest : List Batch) (w : WidgetEntry) (left : List Nat)
    (r : PointRead) (draws : Bool) : HostSide :=
  { h with mimic := { h.mimic with
    queue := rest
    busy := some ⟨b, left, if draws then w.w * w.h else 64⟩
    drawing := some ⟨w.widget, w, h.surfPage w, h.selectEntry w r,
      widgetTag r (h.widgetState w.widget).tag.fault, draws⟩ } }

section
variable {h : HostSide} {b : Batch} {rest : List Batch} (hidle : h.mimic.busy = none) (hqueue : h.mimic.queue = b :: rest)
include hidle hqueue

theorem HostSide.startBatch_eq {ws : List WidgetEntry} (hws : h.widgets.filter (fun w => w.inBatch b) = ws) :
    h.startBatch = ((h.batchTaken b rest (ws.map (·.widget))).runBatch ⟨b, ws.map (·.widget), 0⟩
      (ws.map (·.widget))).showMimic := by
  subst hws
  unfold HostSide.startBatch
  rw [hidle, hqueue]
  rfl

theorem HostSide.startBatch_untouched (hnone : h.widgets.filter (fun w => w.inBatch b) = []) :
    h.startBatch = (h.batchEmpty b rest).showMimic := by
  have hwidgets : (h.batchEmpty b rest).widgets = h.widgets :=
    ((h.batchTaken b rest []).batchCounted_drew ⟨b, [], 0⟩).widgets
  have hfits : (h.batchEmpty b rest).overrun ⟨b, [], 0⟩ = false :=
    HostSide.overrun_untouched ((congrArg (List.filter (fun w => w.inBatch b)) hwidgets).trans hnone)
  rw [HostSide.startBatch_eq hidle hqueue hnone]
  exact congrArg HostSide.showMimic ((HostSide.endBatch_eq _ _).trans (if_neg (ne_true_of_eq_false hfits)))

theorem HostSide.startBatch_touched {w : WidgetEntry} {ws : List WidgetEntry}
    (hws : h.widgets.filter (fun w => w.inBatch b) = w :: ws) (hw : h.widget w.widget = some w)
    (hpoison : h.store.anyPoison (h.replicaBase + 32 * w.point) 32 = false) {r : PointRead}
    (hread : r = .ofBytes (h.store.bytes (h.replicaBase + 32 * w.point) 32)) {draws : Bool}
    (hdraws : (decide ((h.widgetState w.widget).last ≠ some (h.selectEntry w r)) ||
      (h.widgetState w.widget).tag.fault) = draws) :
    h.startBatch = (h.widgetTaken b rest w (ws.map (·.widget)) r draws).showMimic := by
  have hmem : w ∈ h.widgets.filter (fun w => w.inBatch b) := hws ▸ List.mem_cons_self
  have hin : ((h.batchTaken b rest (w.widget :: ws.map (·.widget))).widget w.widget).filter
      (fun w => w.inBatch b) = some w := by
    rw [show (h.batchTaken b rest (w.widget :: ws.map (·.widget))).widget w.widget = some w from hw, Option.filter_some,
      if_pos (List.mem_filter.1 hmem).2]
  have hpoint : (h.batchTaken b rest (w.widget :: ws.map (·.widget))).readPoint w.point =
      (r, h.batchTaken b rest (w.widget :: ws.map (·.widget))) := by
    subst hread
    exact if_neg (ne_true_of_eq_false hpoison)
  rw [HostSide.startBatch_eq hidle hqueue hws, List.map_cons]
  refine congrArg HostSide.showMimic ?_
  unfold HostSide.runBatch
  simp only [hin, hpoint, Nat.zero_add]
  subst hdraws
  rfl
end

section
variable {s : State} (hr : s.hostReady) {b : Batch} {rest : List Batch} (hidle : s.host.mimic.busy = none)
  (hqueue : s.host.mimic.queue = b :: rest)
include hr

theorem exec_mimicBatch {g : HostSide} (hg : s.host.startBatch = g) :
    exec .mimicBatch s = .next (s.held { s with host := g }) := hg ▸ hostCmd_ready hr _

include hidle hqueue

theorem completes_mimicBatch_untouched (hnone : s.host.widgets.filter (fun w => w.inBatch b) = []) :
    Completes .mimicBatch s (fun t => t.host.mimic.queue = rest ∧ t.host.mimic.busy = none ∧
      t.host.get Reg.MIM_STATUS_BUSY = 0 ∧ t.host.get Reg.MIM_STATUS_QUEUED = min 255 rest.length ∧
      t.host.get Reg.MIM_BATCHES_COUNT = (s.host.get Reg.MIM_BATCHES_COUNT + 1) % 2 ^ 32 ∧
      t.host.get Reg.MIM_LAT_LAST_NS = s.host.tb.sinceNs b.at_ % 2 ^ 32 ∧ MemKept s t ∧ OnlyHost s t) := by
  have hmimic := (s.host.batchEmpty b rest).showMimic_mimic
  have hpower : (s.host.batchEmpty b rest).showMimic.power = s.host.power :=
    (HostSide.showMimic_regsStore _).power.trans (HostSide.batchCounted_drew _ _).power
  have hmem : (s.host.batchEmpty b rest).showMimic.SameMemory s.host :=
    .trans (HostSide.showMimic_sameMemory _) (.trans (HostSide.batchCounted_sameMemory _ _) ⟨rfl, rfl⟩)
  have hc := exec_mimicBatch hr (HostSide.startBatch_untouched hidle hqueue hnone)
  refine .ofEffect hc hpower ⟨congrArg Mimic.queue hmimic, congrArg Mimic.busy hmimic,
      HostSide.get_showMimic_busy _, HostSide.get_showMimic_queued _, ?_, ?_, hmem.kept, rfl, rfl⟩
  · exact (HostSide.get_showMimic_ne _ (by decide)).trans ((HostSide.get_put_ne _ _ (by decide)).trans
      ((HostSide.get_put_ne _ _ (by decide)).trans (HostSide.get_put_self ..)))
  · exact (HostSide.get_showMimic_ne _ (by decide)).trans ((HostSide.get_put_ne _ _ (by decide)).trans
      (HostSide.get_put_self ..))

theorem completes_mimicBatch_touched {w : WidgetEntry} {ws : List WidgetEntry}
    (hws : s.host.widgets.filter (fun w => w.inBatch b) = w :: ws) (hw : s.host.widget w.widget = some w)
    (hpoison : s.host.store.anyPoison (s.host.replicaBase + 32 * w.point) 32 = false) {r : PointRead}
    (hread : r = .ofBytes (s.host.store.bytes (s.host.replicaBase + 32 * w.point) 32)) {draws : Bool}
    (hdraws : (decide ((s.host.widgetState w.widget).last ≠ some (s.host.selectEntry w r)) ||
      (s.host.widgetState w.widget).tag.fault) = draws) :
    Completes .mimicBatch s (fun t => t.host.mimic.queue = rest ∧
      t.host.mimic.busy = some ⟨b, ws.map (·.widget), if draws then w.w * w.h else 64⟩ ∧
      t.host.mimic.drawing = some ⟨w.widget, w, s.host.surfPage w, s.host.selectEntry w r,
        widgetTag r (s.host.widgetState w.widget).tag.fault, draws⟩ ∧
      t.host.get Reg.MIM_STATUS_BUSY = 1 ∧ MemKept s t ∧ OnlyHost s t) := by
  have hmimic := (s.host.widgetTaken b rest w (ws.map (·.widget)) r draws).showMimic_mimic
  have hmem : (s.host.widgetTaken b rest w (ws.map (·.widget)) r draws).showMimic.SameMemory s.host :=
    .trans (HostSide.showMimic_sameMemory _) ⟨rfl, rfl⟩
  exact .ofEffect (exec_mimicBatch hr (HostSide.startBatch_touched hidle hqueue hws hw hpoison hread hdraws))
    (HostSide.showMimic_regsStore _).power ⟨congrArg Mimic.queue hmimic, congrArg Mimic.busy hmimic,
      congrArg Mimic.drawing hmimic, HostSide.get_showMimic_busy _, hmem.kept, rfl, rfl⟩
end

end Sys2Proof.Machine
end

section
/-! The acknowledged writes of a widget (O41; 07_mimic.md R177, R181, R182): what WIDGET_DRAWN leaves where the widget is the
last of its batch. -/

namespace Sys2Proof.Machine

open Sys2Proof

/-- No drawing is in process. -/
def HostSide.drawingTaken (h : HostSide) : HostSide := { h with mimic := { h.mimic with drawing := none } }

/-- The widget in process is drawn, or only its tag taken. -/
def HostSide.takeDrawing (h : HostSide) (w : WidgetEntry) (d : InDraw) (facts : DrawFacts) : HostSide :=
  if d.draws then h.drawWidget w d.entry d.tag facts
  else h.setWidget d.widget { h.widgetState d.widget with tag := d.tag }

theorem HostSide.widget_number {h : HostSide} {n : Nat} {w : WidgetEntry} (hw : h.widget n = some w) : w.widget = n :=
  eq_of_beq (List.find?_some (p := fun e : WidgetEntry => e.widget == n) hw)

/-- The last widget of a batch leaves its surface with `n` error responses and its state `v`, its cells are written with `m`
more, and the batch ends. -/
structure HostSide.WidgetEnded (w : WidgetEntry) (sf : MimicSurf) (v : WidgetState) (n m : Nat) (h g : HostSide) :
    Prop where
  power : g.power = h.power
  drawing : g.mimic.drawing = none
  busy : g.mimic.busy = none
  state : g.widgetState w.widget = v
  errors : n + m ≠ 0 → g.get Reg.MIM_ERRORS_WRITE =
    satAdd (h.get Reg.MIM_ERRORS_WRITE) (n + m) Reg.MIM_ERRORS_WRITE.w
  surf : ∃ u, g.mimicSurf w.surface = some u ∧ (sf.initial = false → m = 0 →
    ∀ i ∈ w.cells (sf.entry.width / 64), tget Cell.static u.cells i = g.cellEntry w.surface u i)

/-- An entry of a cell rests on the configuration, the widgets' tags and the size of its surface. -/
theorem HostSide.cellEntry_congr {h g : HostSide} (hcfg : g.cfg = h.cfg) (hwidgets : g.mimic.widgets = h.mimic.widgets)
    {u s : MimicSurf} (he : u.entry = s.entry) (m i : Nat) : g.cellEntry m u i = h.cellEntry m s i := by
  unfold HostSide.cellEntry HostSide.cellWidgets HostSide.widgets HostSide.widgetState
  rw [hcfg, hwidgets, he]

theorem HostSide.endBatch_ended {h g k : HostSide} {w : WidgetEntry} {sf : MimicSurf} {v : WidgetState} {n m : Nat}
    (hdrew : (h.drawingTaken.setWidget w.widget v).Drew n g)
    (hcells : g.CellsTaken w.surface sf (w.cells (sf.entry.width / 64)) m (m = 0) k) (b : Busy) :
    h.WidgetEnded w sf v n m (k.endBatch b).showMimic := by
  have hend := k.endBatch_drew b
  obtain ⟨u, hu, hentry, -, htaken⟩ := hcells.surf
  have hmimic : (k.endBatch b).showMimic.mimic = { k.mimic with busy := none, drawing := none } := hend.mimic
  have hwidgets : (k.endBatch b).showMimic.mimic.widgets = g.mimic.widgets := by
    rw [hmimic, hcells.drew.mimic]
    rfl
  refine ⟨?_, congrArg Mimic.drawing hmimic, congrArg Mimic.busy hmimic, ?_, fun hany => ?_, u, ?_, fun hdone hm i hi => ?_⟩
  · exact (hend.power.trans hcells.drew.power).trans hdrew.power
  · unfold HostSide.widgetState
    rw [hwidgets, hdrew.mimic]
    exact tget_tput_self ..
  · exact hend.errors.trans (hcells.drew.errors.trans
      ((congrArg (addErrors · m) hdrew.errors).trans ((addErrors_add _ _ _).trans (addErrors_pos hany))))
  · exact (congrArg (fun d : Mimic => tget none d.surfs w.surface) hmimic).trans hu
  · refine (htaken hm hdone i hi).trans (HostSide.cellEntry_congr ?_ hwidgets hentry _ _).symm
    exact hend.cfg.trans hcells.drew.cfg

theorem HostSide.drawn_eq {h : HostSide} {b : Busy} {d : InDraw} {w : WidgetEntry} (hbusy : h.mimic.busy = some b)
    (hlast : b.widgets = []) (hdrawing : h.mimic.drawing = some d) (hw : h.widget d.widget = some w) (facts : DrawFacts) :
    h.drawn facts = ((if w = d.record ∧ h.surfPage w = d.page then
      (h.drawingTaken.takeDrawing w d facts).widgetCells w facts.map else h.drawingTaken).endBatch b).showMimic := by
  unfold HostSide.drawn
  split
  · next b' d' hb hd =>
    cases hbusy.symm.trans hb
    cases hdrawing.symm.trans hd
    rw [hlast]
    dsimp only
    split
    · next w' hw' =>
      cases hw.symm.trans hw'
      rfl
    · next hnone => cases hw.symm.trans hnone
  · next hnone => exact absurd hdrawing (hnone _ _ hbusy)

theorem HostSide.takeDrawing_draws {h : HostSide} {w : WidgetEntry} {d : InDraw} {sf : MimicSurf} {facts : DrawFacts}
    (hsf : h.mimicSurf w.surface = some sf) (hdraws : d.draws = true)
    (hatlas : h.atlasPoisoned (h.drawingOf w sf.entry.bgColour d.entry none) = false) (hclean : facts.atlas = 0) :
    (h.drawingTaken.setWidget w.widget (drawnState w d.entry d.tag (facts.surface != 0))).Drew facts.surface
      (h.drawingTaken.takeDrawing w d facts) := by
  have hbad : h.drawingTaken.drawsBadly w sf d.entry facts = (facts.surface != 0) := by
    unfold HostSide.drawsBadly
    rw [show h.drawingTaken.atlasPoisoned (h.drawingTaken.drawingOf w sf.entry.bgColour d.entry none) = false from hatlas,
      hclean]
    rfl
  have hdrew := HostSide.drawWidget_drew (h := h.drawingTaken) hsf d.entry d.tag facts
  rw [hbad] at hdrew
  unfold HostSide.takeDrawing
  rwa [if_pos hdraws]

theorem HostSide.takeDrawing_keeps {h : HostSide} {w : WidgetEntry} {d : InDraw} (hw : h.widget d.widget = some w)
    (hdraws : d.draws = false) (facts : DrawFacts) :
    (h.drawingTaken.setWidget w.widget { h.widgetState d.widget with tag := d.tag }).Drew 0
      (h.drawingTaken.takeDrawing w d facts) := by
  unfold HostSide.takeDrawing
  rw [if_neg (ne_true_of_eq_false hdraws), HostSide.widget_number hw]
  exact .refl _

section
variable {s : State} (hr : s.hostReady) {b : Busy} {d : InDraw} {w : WidgetEntry} (hbusy : s.host.mimic.busy = some b)
  (hlast : b.widgets = []) (hdrawing : s.host.mimic.drawing = some d) (hw : s.host.widget d.widget = some w)
include hr hbusy hlast hdrawing hw

/-- A drawing by a record or into a surface that an image has replaced leaves nothing. -/
theorem completes_widgetDrawn_replaced (hgone : w ≠ d.record ∨ s.host.surfPage w ≠ d.page) (facts : DrawFacts) :
    Completes (.widgetDrawn facts) s (fun t => t.host.mimic.drawing = none ∧ t.host.mimic.busy = none ∧
      t.host.mimic.widgets = s.host.mimic.widgets ∧ t.host.mimic.surfs = s.host.mimic.surfs ∧ OnlyHost s t) := by
  have heq := HostSide.drawn_eq hbusy hlast hdrawing hw facts
  rw [if_neg (not_and_or.2 hgone)] at heq
  have hend := s.host.drawingTaken.endBatch_drew b
  exact .ofEffect (hostCmd_ready hr fun h => h.drawn facts) (heq ▸ hend.power)
    ⟨heq ▸ congrArg Mimic.drawing hend.mimic, heq ▸ congrArg Mimic.busy hend.mimic,
      heq ▸ (congrArg Mimic.widgets hend.mimic).trans rfl, heq ▸ (congrArg Mimic.surfs hend.mimic).trans rfl, rfl, rfl⟩

theorem completes_widgetDrawn (hrecord : w = d.record) (hpage : s.host.surfPage w = d.page) {sf : MimicSurf}
    {v : WidgetState} {n : Nat} (facts : DrawFacts) (hsf : s.host.mimicSurf w.surface = some sf)
    (hdrew : (s.host.drawingTaken.setWidget w.widget v).Drew n (s.host.drawingTaken.takeDrawing w d facts)) :
    Completes (.widgetDrawn facts) s (fun t => s.host.WidgetEnded w sf v n facts.map t.host ∧ OnlyHost s t) := by
  have heq := HostSide.drawn_eq hbusy hlast hdrawing hw facts
  rw [if_pos ⟨hrecord, hpage⟩] at heq
  have hended := HostSide.endBatch_ended hdrew (HostSide.widgetCells_taken ((hdrew.mimicSurf _).trans hsf) facts.map) b
  rw [← heq] at hended
  exact .ofEffect (hostCmd_ready hr fun h => h.drawn facts) hended.power ⟨hended, rfl, rfl⟩
end

end Sys2Proof.Machine
end

section
/-! Initial drawing (O41; 07_mimic.md R182): a surface that is drawn afresh is drawn and no longer in its initial drawing. -/

namespace Sys2Proof.Machine

open Sys2Proof

theorem HostSide.readPoint_mimic (h : HostSide) (p : Nat) : (h.readPoint p).2.mimic = h.mimic := by
  unfold HostSide.readPoint
  dsimp only
  split <;> rfl

/-- Drawing a widget afresh leaves the surfaces' entries and cell maps alone. -/
theorem HostSide.drawFresh_mimicSurf (facts : FreshFacts) (h : HostSide) (w : WidgetEntry) (m : Nat) :
    (h.drawFresh facts w).mimicSurf m = h.mimicSurf m := by
  have htake (g : HostSide) (p : Prop) [Decidable p] (e : Nat) (tag : Tag) (f : DrawFacts) (v : WidgetState) :
      (if p then g.drawWidget w e tag f else g.setWidget w.widget v).mimicSurf m = g.mimicSurf m := by
    split
    · exact g.drawWidget_mimicSurf w e tag f m
    · rfl
  unfold HostSide.drawFresh
  dsimp only
  split
  · exact (htake ..).trans (congrArg (fun d : Mimic => tget none d.surfs m) (h.readPoint_mimic w.point))
  · exact htake ..

/-! ## The end of the initial drawing -/

/-- The widgets of a surface are drawn afresh, those without a point first. -/
def HostSide.drawnAfresh (h : HostSide) (facts : FreshFacts) : HostSide :=
  let g := h.writeErrors facts.fill facts.surface.val 0
  let ws := g.widgets.filter (fun w => w.enable == 1 && w.surface == facts.surface.val)
  (ws.filter (fun w => w.bound == 0) ++ ws.filter (fun w => w.bound == 1)).foldl (HostSide.drawFresh facts) g

theorem HostSide.drawnAfresh_mimicSurf (h : HostSide) (facts : FreshFacts) (m : Nat) :
    (h.drawnAfresh facts).mimicSurf m = h.mimicSurf m :=
  (foldl_keeps (fun g : HostSide => g.mimicSurf m) _ (fun g w => g.drawFresh_mimicSurf facts w m) _ _).trans
    ((h.writeErrors_drew _ _ _).mimicSurf m)

/-- The surface is no longer in its initial drawing, and its cells are written. -/
def HostSide.cellsShown (h : HostSide) (facts : FreshFacts) (s : MimicSurf) : HostSide :=
  (((h.drawnAfresh facts).setMimicSurf facts.surface.val (some { s with initial := false })).writeErrors facts.map
    facts.surface.val 0).writeCells facts.surface.val (List.range s.cellCount)

/-- DRAWN of a surface is neither a register of the two logs nor one that follows the engine. -/
theorem surfDrawn_apart (m : Nat) : ∀ x ∈ logFields ++ mimicFields, (Reg.MIM_SURF_STATUS_DRAWN m).key ≠ x.key := by
  have hlow : ∀ x ∈ logFields ++ mimicFields, x.key < 0x380100 * 32 := by decide
  intro x hx hk
  have hlt := hlow x hx
  rw [← hk] at hlt
  simp only [Fld.key, Reg.MIM_SURF_STATUS_DRAWN] at hlt
  omega

theorem HostSide.completeDrawing_eq {h : HostSide} {facts : FreshFacts} {s : MimicSurf}
    (hs : h.mimicSurf facts.surface.val = some s) (hinit : s.initial = true) (hidle : h.mimic.busy = none)
    (hqueue : h.mimic.queue = []) :
    h.completeDrawing facts = (((h.cellsShown facts s).put (Reg.MIM_SURF_STATUS_DRAWN facts.surface.val) 1).log 4 1
      facts.surface.val).showMimic := by
  have hkept := (h.drawnAfresh_mimicSurf facts facts.surface.val).trans hs
  unfold HostSide.completeDrawing
  dsimp only
  rw [hs]
  dsimp only
  rw [if_pos (by rw [hinit, hidle, hqueue]; rfl)]
  split
  · next u hu =>
    cases hkept.symm.trans hu
    rfl
  · next hnone => cases hkept.symm.trans hnone

theorem HostSide.cellsShown_mimicSurf (h : HostSide) (facts : FreshFacts) (s : MimicSurf) :
    ∃ u, (h.cellsShown facts s).mimicSurf facts.surface.val = some u ∧ u.initial = false := by
  have hsurf : (((h.drawnAfresh facts).setMimicSurf facts.surface.val (some { s with initial := false })).writeErrors
      facts.map facts.surface.val 0).mimicSurf facts.surface.val = some { s with initial := false } :=
    ((HostSide.writeErrors_drew ..).mimicSurf _).trans (HostSide.mimicSurf_setMimicSurf_self ..)
  obtain ⟨u, hu, -, hinitial, -⟩ := (HostSide.writeCells_taken hsurf (List.range s.cellCount)).surf
  exact ⟨u, hu, hinitial⟩

/-- The end of an initial drawing is shown, and leaves the surfaces as its last cells have left them. -/
theorem HostSide.cellsShown_shown (h : HostSide) (m : Nat) :
    ((((h.put (Reg.MIM_SURF_STATUS_DRAWN m) 1).log 4 1 m).showMimic).get (Reg.MIM_SURF_STATUS_DRAWN m) = 1 ∧
      (((h.put (Reg.MIM_SURF_STATUS_DRAWN m) 1).log 4 1 m).showMimic).mimicSurf m = h.mimicSurf m) := by
  obtain ⟨hlog, hmimic⟩ := List.forall_mem_append.1 (surfDrawn_apart m)
  have hrest := (HostSide.RegsStore.ofLogged ((h.put (Reg.MIM_SURF_STATUS_DRAWN m) 1).log_logged 4 1 m 0 0)).trans
    (HostSide.showMimic_regsStore _)
  exact ⟨(HostSide.get_showMimic_ne _ hmimic).trans ((HostSide.get_log_ne _ _ _ _ _ _ hlog).trans
    (HostSide.get_put_self ..)), congrArg (fun d : Mimic => tget none d.surfs m) hrest.mimic⟩

theorem completes_mimicDrawComplete {s : State} (hr : s.hostReady) {facts : FreshFacts} {sf : MimicSurf}
    (hsf : s.host.mimicSurf facts.surface.val = some sf) (hinit : sf.initial = true) (hidle : s.host.mimic.busy = none)
    (hqueue : s.host.mimic.queue = []) : Completes (.mimicDrawComplete facts) s (fun t =>
      t.host.get (Reg.MIM_SURF_STATUS_DRAWN facts.surface.val) = 1 ∧
      (∃ u, t.host.mimicSurf facts.surface.val = some u ∧ u.initial = false) ∧ OnlyHost s t) := by
  obtain ⟨u, hu, hinitial⟩ := s.host.cellsShown_mimicSurf facts sf
  obtain ⟨hdrawn, hsurf⟩ := (s.host.cellsShown facts sf).cellsShown_shown facts.surface.val
  rw [← HostSide.completeDrawing_eq hsf hinit hidle hqueue] at hdrawn hsurf
  exact .hostAlone (hostCmd_ready hr fun h => h.completeDrawing facts) fun ho =>
    ⟨hdrawn, ⟨u, hsurf.trans hu, hinitial⟩, ho⟩

end Sys2Proof.Machine
end

section
/-! The symbol engine draws batches (O41; 07_mimic.md R174 to R184). -/

namespace Sys2Proof.Machine

open Sys2Proof

/-- Settles O41: a batch by its first widget and by its last, an initial drawing by its end, and the probes by what they
show. -/
theorem theSymbolEngineDrawsBatches : Obligations.TheSymbolEngineDrawsBatches := by
  intro s who b rest w ws r bz d sf facts fresh v hr
  refine ⟨fun hidle hqueue => ⟨fun hnone => ?_, fun hws hw hpoison hread hlast => ?_,
    fun hws hw hpoison hread hlast hfault => ?_⟩, fun hbusy hlast hdrawing hw hsf hrecord hpage hdraws hatlas hclean => ?_,
    fun hbusy hlast hdrawing hw hsf hrecord hpage hdraws => ?_, fun hbusy hlast hdrawing hw hgone => ?_,
    fun hsf hinit hidle hqueue => ?_, fun hopen => ?_, fun hopen => ?_⟩
  · exact completes_mimicBatch_untouched hr hidle hqueue hnone
  · exact completes_mimicBatch_touched hr hidle hqueue hws hw hpoison hread (draws := true) (by simp [hlast])
  · obtain ⟨t, ht, hpending, hqueue, hbusy, hdrawing, -, hm, ho⟩ :=
      completes_mimicBatch_touched hr hidle hqueue hws hw hpoison hread (draws := false) (by simp [hlast, hfault])
    rw [hfault] at hdrawing
    exact ⟨t, ht, hpending, hqueue, hbusy, hdrawing, hm, ho⟩
  · obtain ⟨t, ht, hpending, hended, ho⟩ := completes_widgetDrawn hr hbusy hlast hdrawing hw hrecord hpage facts hsf
      (HostSide.takeDrawing_draws hsf hdraws hatlas hclean)
    have hstate := hended.state
    rw [HostSide.widget_number hw] at hstate
    exact ⟨t, ht, hpending, hended.drawing, hended.busy, congrArg WidgetState.last hstate,
      fun hbound => (congrArg WidgetState.tag hstate).trans (if_pos hbound), hended.errors, hended.surf, ho⟩
  · obtain ⟨t, ht, hpending, hended, ho⟩ := completes_widgetDrawn hr hbusy hlast hdrawing hw hrecord hpage facts hsf
      (HostSide.takeDrawing_keeps hw hdraws facts)
    have hstate := hended.state
    have herrors := hended.errors
    rw [HostSide.widget_number hw] at hstate
    rw [Nat.zero_add] at herrors
    exact ⟨t, ht, hpending, hended.drawing, hended.busy, hstate, herrors, hended.surf, ho⟩
  · exact completes_widgetDrawn_replaced hr hbusy hlast hdrawing hw hgone facts
  · exact completes_mimicDrawComplete hr hsf hinit hidle hqueue
  · exact completes_widgetProbe ⟨hr, hopen⟩ v
  · exact completes_cellProbe ⟨hr, hopen⟩ v

end Sys2Proof.Machine
end

section
/-! The close of a batch (O45; 10_field_points_commands.md R235): the points that are pending are taken, marked as sent
and put into cells, which leave on XM9. -/

namespace Sys2Proof.Machine

open Sys2Proof

/-- A command that answers a field effect completes with it; the effect is no reset. -/
theorem Completes.ofField {c : Instr} {s : State} {P : State → Prop} {g : FieldSide}
    (hc : exec c s = .next (s.held { s with field := g })) (hrun : g.run = s.field.run)
    (hP : P { s with field := g }) : Completes c s P := by
  have hheld : s.held { s with field := g } = { s with field := g } := by
    unfold State.held
    rw [← hrun]
  exact ⟨_, hc.trans (congrArg _ hheld), rfl, hP⟩

/-! ## Pending order -/

theorem pendInsert_perm (x : Nat × PointRec) (l : List (Nat × PointRec)) : (pendInsert x l).Perm (x :: l) := by
  induction l with
  | nil => exact .refl _
  | cons y t ih =>
    unfold pendInsert
    split
    · exact .refl _
    · exact (ih.cons y).trans (.swap x y t)

/-- The points pending are put in order, none lost and none twice. -/
theorem pendSort_perm (l : List (Nat × PointRec)) : (l.foldr pendInsert []).Perm l := by
  induction l with
  | nil => exact .refl _
  | cons x l ih => exact (pendInsert_perm x _).trans (ih.cons x)

/-! ## Records that are sent -/

/-- The records of a batch's points are no longer pending, and hold what was sent. -/
def FieldSide.markSent (f : FieldSide) (go : List (Nat × PointRec)) : FieldSide :=
  go.foldl (fun f x => f.setRec x.1 { x.2 with pending := false, sent := x.2.value % 2 ^ 32, fwdMs := f.ms16 }) f

theorem FieldSide.markSent_rest (f : FieldSide) (go : List (Nat × PointRec)) :
    f.markSent go = { f with work := { f.work with recs := (f.markSent go).work.recs } } := by
  induction go generalizing f with
  | nil => rfl
  | cons x go ih => exact (ih _).trans rfl

theorem FieldSide.rec_setRec (f : FieldSide) (p q : Nat) (r : PointRec) :
    (f.setRec p r).rec_ q = if q = p then r else f.rec_ q := tget_tput ..

/-- A record that is not pending stays so, and one of the batch becomes so. -/
theorem FieldSide.markSent_pending (f : FieldSide) (go : List (Nat × PointRec)) (p : Nat)
    (hp : (f.rec_ p).pending = false ∨ ∃ x ∈ go, x.1 = p) : ((f.markSent go).rec_ p).pending = false := by
  induction go generalizing f with
  | nil => exact hp.resolve_right (by simp)
  | cons y go ih =>
    refine ih _ ?_
    rw [FieldSide.rec_setRec]
    by_cases hy : p = y.1
    · exact .inl (by rw [if_pos hy])
    · refine hp.imp (fun hp => by rwa [if_neg hy]) fun ⟨x, hx, he⟩ => ⟨x, ?_, he⟩
      exact (List.mem_cons.1 hx).resolve_left fun hxy => hy (he.symm.trans (congrArg Prod.fst hxy))

/-! ## Cells that wait -/

theorem FieldSide.sendCell_rest (f : FieldSide) (c : Nat) (cell : List Byte) :
    f.sendCell c cell = { f with xing := (f.sendCell c cell).xing } := by
  unfold FieldSide.sendCell FieldSide.pushCell
  dsimp only
  split <;> rfl

theorem FieldSide.pushOutbox_rest (n : Nat) (f : FieldSide) : f.pushOutbox n =
    { f with work := { f.work with outbox := (f.pushOutbox n).work.outbox }, xing := (f.pushOutbox n).xing } := by
  induction n generalizing f with
  | zero => rfl
  | succ n ih =>
    unfold FieldSide.pushOutbox
    split
    · rfl
    · next c rest _ =>
      split
      · rw [ih, FieldSide.sendCell_rest]
      · rfl

theorem FieldSide.pushOutbox_empty {f : FieldSide} (h : f.work.outbox = []) (n : Nat) : f.pushOutbox n = f := by
  cases n with
  | zero => rfl
  | succ n =>
    unfold FieldSide.pushOutbox
    rw [h]

/-- The one cell that waits is pushed while a slot is free. -/
theorem FieldSide.pushOutbox_one {f : FieldSide} {c : List Byte} (h : f.work.outbox = [c])
    (hp : f.xing.canPush 9 = true) (n : Nat) :
    ((f.pushOutbox (n + 1)).xing.chan 9).flight =
      (f.xing.chan 9).flight ++ [⟨patch c 1 (leBytes (f.xing.chan 9).cseq 1), f.now⟩] := by
  unfold FieldSide.pushOutbox
  rw [h]
  dsimp only
  rw [if_pos hp, FieldSide.pushOutbox_empty (by rw [FieldSide.sendCell_rest])]
  exact FieldSide.sendCell_flight (f := { f with work := { f.work with outbox := [] } }) hp c

/-! ## The close -/

/-- The points that have been pending since before the millisecond `ms`. -/
def FieldSide.dueAt (f : FieldSide) (ms : Nat) : List (Nat × PointRec) :=
  f.work.recs.filter (fun x => x.2.pending && decide (dtDiff x.2.pendAt (BitVec.ofNat 64 (ms * 1000000)) < 0))

/-- The batches up to the millisecond `ms` are closed. -/
def FieldSide.closedAt (f : FieldSide) (ms : Nat) : FieldSide := f.setWork { f.work with lastClose := ms }

/-- The points `go` are in the cells of the batch that ends at `ms`, which wait for XM9; `left` more are carried over. -/
def FieldSide.batchWaits (f : FieldSide) (ms : Nat) (go : List (Nat × PointRec)) (left : Nat) : FieldSide :=
  let g := (f.closedAt ms).markSent go
  g.setWork { g.work with
    carry := (g.work.carry + left) % 2 ^ 32
    outbox := g.work.outbox ++
      batchCells ((ms + 255) % 256) go.length go.length 0 (go.map (fun x => batchEntry x.1 x.2)) }

theorem FieldSide.batchWaits_rest (f : FieldSide) (ms : Nat) (go : List (Nat × PointRec)) (left : Nat) :
    f.batchWaits ms go left = { f with work := { f.work with
      lastClose := ms
      recs := ((f.closedAt ms).markSent go).work.recs
      carry := (f.work.carry + left) % 2 ^ 32
      outbox := f.work.outbox ++
        batchCells ((ms + 255) % 256) go.length go.length 0 (go.map (fun x => batchEntry x.1 x.2)) } } := by
  unfold FieldSide.batchWaits
  dsimp only
  rw [FieldSide.markSent_rest]
  rfl

section
variable {f : FieldSide} {ms : Nat}

theorem FieldSide.closeBatch_empty (h : f.dueAt ms = [] ∨ f.xing.state < 2) : f.closeBatch ms = f.closedAt ms :=
  if_pos h.symm

/-- A batch that holds every point pending carries none over. -/
theorem FieldSide.closeBatch_all (hdue : f.dueAt ms ≠ []) (hup : 2 ≤ f.xing.state)
    (hfits : (f.dueAt ms).length ≤ 3 * (if f.fieldCfg.batchCells = 0 then 256 else f.fieldCfg.batchCells)) :
    f.closeBatch ms = (f.batchWaits ms ((f.dueAt ms).foldr pendInsert []) 0).pushOutbox 17 := by
  have hgo := List.take_of_length_le ((pendSort_perm (f.dueAt ms)).length_eq.trans_le hfits)
  have hclose : f.closeBatch ms = (f.batchWaits ms
      (((f.dueAt ms).foldr pendInsert []).take (3 * (if f.fieldCfg.batchCells = 0 then 256 else f.fieldCfg.batchCells)))
      (((f.dueAt ms).foldr pendInsert []).length - (((f.dueAt ms).foldr pendInsert []).take
        (3 * (if f.fieldCfg.batchCells = 0 then 256 else f.fieldCfg.batchCells))).length)).pushOutbox 17 :=
    if_neg (not_or.2 ⟨Nat.not_lt.2 hup, hdue⟩)
  rw [hclose, hgo, Nat.sub_self]

theorem FieldSide.closeBatch_flight {p : Nat} {r : PointRec} (hdue : f.dueAt ms = [(p, r)]) (hup : 2 ≤ f.xing.state)
    (hfits : (f.dueAt ms).length ≤ 3 * (if f.fieldCfg.batchCells = 0 then 256 else f.fieldCfg.batchCells))
    (hempty : f.work.outbox = []) (hpush : f.xing.canPush 9 = true) :
    ((f.closeBatch ms).xing.chan 9).flight = (f.xing.chan 9).flight ++
      [⟨patch (mkCell 3 7 ((ms + 255) % 256) (batchEntry p r)) 1 (leBytes (f.xing.chan 9).cseq 1), f.now⟩] := by
  have hrest := f.batchWaits_rest ms [(p, r)] 0
  have hxing : (f.batchWaits ms [(p, r)] 0).xing = f.xing := (congrArg FieldSide.xing hrest).trans rfl
  have hnow : (f.batchWaits ms [(p, r)] 0).now = f.now := (congrArg FieldSide.now hrest).trans rfl
  have hcell : (f.batchWaits ms [(p, r)] 0).work.outbox = [mkCell 3 7 ((ms + 255) % 256) (batchEntry p r)] := by
    refine (congrArg (·.work.outbox) hrest).trans ?_
    dsimp only
    rw [hempty]
    simp [batchCells]
  rw [FieldSide.closeBatch_all (by rw [hdue]; exact List.cons_ne_nil _ _) hup hfits, hdue, ← hxing, ← hnow]
  exact FieldSide.pushOutbox_one hcell (hxing ▸ hpush) 16

end

/-- The batch is closed: its points are no longer pending, and none was left over. -/
structure FieldSide.BatchClosed (f : FieldSide) (ms : Nat) (g : FieldSide) : Prop where
  run : g.run = f.run
  sent : ∀ x ∈ f.dueAt ms, (g.rec_ x.1).pending = false
  last : g.work.lastClose = ms
  carry : g.work.carry = f.work.carry % 2 ^ 32

theorem FieldSide.closeBatch_closed {f : FieldSide} {ms : Nat} (hdue : f.dueAt ms ≠ []) (hup : 2 ≤ f.xing.state)
    (hfits : (f.dueAt ms).length ≤ 3 * (if f.fieldCfg.batchCells = 0 then 256 else f.fieldCfg.batchCells)) :
    f.BatchClosed ms (f.closeBatch ms) := by
  rw [FieldSide.closeBatch_all hdue hup hfits, FieldSide.pushOutbox_rest, FieldSide.batchWaits_rest]
  exact ⟨rfl, fun x hx => FieldSide.markSent_pending _ _ _ (.inr ⟨x, (pendSort_perm _).mem_iff.2 hx, rfl⟩), rfl, rfl⟩

/-! ## The command -/

section
variable {s : State} (hr : s.fieldReady)
include hr

theorem exec_batchClose_closed (h : s.field.work.lastClose = s.field.now.toNat / 1000000) :
    exec .batchClose s = .next (s.held { s with field := s.field }) := by
  show execBatchClose s = _
  unfold execBatchClose
  rw [fieldCmd_run s _ hr]
  dsimp only
  rw [if_neg (not_not.2 h)]

theorem exec_batchClose_new (h : s.field.work.lastClose ≠ s.field.now.toNat / 1000000) : exec .batchClose s =
    .next (s.held { s with field := s.field.closeBatch (s.field.now.toNat / 1000000) }) := by
  show execBatchClose s = _
  unfold execBatchClose
  rw [fieldCmd_run s _ hr]
  dsimp only
  rw [if_pos h]

theorem completes_batchClose_closed (h : s.field.work.lastClose = s.field.now.toNat / 1000000) :
    Completes .batchClose s (fun t => t = s) := .ofField (exec_batchClose_closed hr h) rfl rfl

section
variable {ms : Nat} (hms : s.field.now.toNat / 1000000 = ms) (hnew : s.field.work.lastClose ≠ ms)
include hms hnew

theorem completes_batchClose_empty (h : s.field.dueAt ms = [] ∨ s.field.xing.state < 2) :
    Completes .batchClose s (fun t => t.field.work.recs = s.field.work.recs ∧ t.field.work.lastClose = ms ∧
      t.field.xing = s.field.xing ∧ OnlyField s t) := by
  subst hms
  have hexec := exec_batchClose_new hr hnew
  rw [FieldSide.closeBatch_empty h] at hexec
  exact .ofField hexec rfl ⟨rfl, rfl, rfl, rfl, rfl⟩

theorem completes_batchClose_due (hdue : s.field.dueAt ms ≠ []) (hup : 2 ≤ s.field.xing.state)
    (hfits : (s.field.dueAt ms).length ≤
      3 * (if s.field.fieldCfg.batchCells = 0 then 256 else s.field.fieldCfg.batchCells)) (p : Nat) (r : PointRec) :
    Completes .batchClose s (fun t => s.field.BatchClosed ms t.field ∧
      (s.field.dueAt ms = [(p, r)] → s.field.work.outbox = [] → s.field.xing.canPush 9 = true →
        (t.field.xing.chan 9).flight = (s.field.xing.chan 9).flight ++ [⟨patch (mkCell 3 7 ((ms + 255) % 256)
          (batchEntry p r)) 1 (leBytes (s.field.xing.chan 9).cseq 1), s.field.now⟩]) ∧ OnlyField s t) := by
  subst hms
  have hclosed := FieldSide.closeBatch_closed hdue hup hfits
  exact .ofField (exec_batchClose_new hr hnew) hclosed.run
    ⟨hclosed, fun hone => FieldSide.closeBatch_flight hone hup hfits, rfl, rfl⟩

end

end

end Sys2Proof.Machine
end

section
/-! The records of a batch (O45; 10_field_points_commands.md R236, R177): what an entry stores in the replica, and what
the symbol engine receives. -/

namespace Sys2Proof.Machine

open Sys2Proof

/-! ## Bytes stored without poison -/

/-- The blocks that a write of `n` bytes fills. -/
def fullBlocks (ca n : Nat) : List Nat := (List.range ((ca + n) / 64 - cdiv ca 64)).map (· + cdiv ca 64)

/-- The blocks that a write of `n` bytes fills are no longer poisoned. -/
def Store.clearFull (st : Store) (ca n : Nat) : Store :=
  { st with poison := (fullBlocks ca n).foldl (fun p k => tput false p k false) st.poison }

/-- A range without poison stays so while blocks are cleared. -/
theorem Store.anyPoison_clearFull {st : Store} {ca len : Nat} (h : st.anyPoison ca len = false) (b n : Nat) :
    (st.clearFull b n).anyPoison ca len = false := by
  unfold Store.anyPoison at *
  rw [Bool.and_eq_false_iff, List.any_eq_false] at *
  refine h.imp_right fun h k hk => ?_
  unfold Store.clearFull
  rw [tget_foldl_tput false fun _ => false]
  split
  · exact Bool.false_ne_true
  · exact h k hk

/-- Where no block is poisoned a write stores its bytes. -/
theorem HostSide.caPut_store {h : HostSide} {ca : Nat} {bs : List Byte}
    (hp : h.store.anyPoison ca bs.length = false) (port : Nat) :
    (h.caPut port ca bs).store = (h.store.clearFull ca bs.length).store ca bs :=
  (congrArg (fun x : HostSide × Bool => x.1.store)
    (if_neg (ne_true_of_eq_false (Store.anyPoison_clearFull hp ca bs.length)))).trans rfl

theorem Store.bytes_eq {st : Store} {bs : List Byte} {ca : Nat}
    (h : ∀ i (hi : i < bs.length), st.byte (ca + i) = bs[i]) : st.bytes ca bs.length = bs := by
  induction bs generalizing ca with
  | nil => rfl
  | cons b bs ih =>
    refine congrArg₂ List.cons (h 0 (Nat.zero_lt_succ _)) (ih fun i hi => ?_)
    rw [Nat.add_assoc, Nat.add_comm 1 i]
    exact h (i + 1) (Nat.succ_lt_succ hi)

/-- The first bytes of a store read back. -/
theorem Store.bytes_store_append (st : Store) (ca : Nat) (bs tail : List Byte) :
    (st.store ca (bs ++ tail)).bytes ca bs.length = bs :=
  Store.bytes_eq fun i hi => (byte_store_inside st ca (bs ++ tail) i
    (hi.trans_le (by rw [List.length_append]; omega))).trans (List.getElem_append_left hi)

theorem length_leBytes (v n : Nat) : (leBytes v n).length = n := by
  induction n generalizing v with
  | zero => rfl
  | succ n ih => exact congrArg Nat.succ (ih _)

theorem length_slice {bs : List Byte} {o n : Nat} (h : o + n ≤ bs.length) : (slice bs o n).length = n := by
  unfold slice
  rw [List.length_take, List.length_drop]
  omega

/-! ## The record of an entry -/

/-- The address of the record that an entry names. -/
def HostSide.recordAddr (h : HostSide) (e : List Byte) : Nat := h.replicaBase + 32 * bits (fieldAt e 0 4) 0 18

theorem HostSide.writeEntry_logged (arrived : VT) (h : HostSide) (e : List Byte) : h.Logged (h.writeEntry arrived e) := by
  unfold HostSide.writeEntry
  exact h.caPut_logged _ _ _

theorem HostSide.writeEntries_logged (arrived : VT) (es : List (List Byte)) (h : HostSide) :
    h.Logged (es.foldl (fun h e => h.writeEntry arrived e) h) := by
  induction es generalizing h with
  | nil => exact .refl h
  | cons e es ih => exact (h.writeEntry_logged arrived e).trans (ih _)

/-- An entry is stored whole in its record, its value first. -/
theorem HostSide.writeEntry_caPut (h : HostSide) (arrived : VT) {e : List Byte} (he : e.length = 20) :
    ∃ tail : List Byte, tail.length = 24 ∧
      h.writeEntry arrived e = h.caPut 0xFF (h.recordAddr e) (slice e 4 8 ++ tail) := by
  unfold HostSide.writeEntry HostSide.recordAddr
  simp only [List.append_assoc]
  refine ⟨_, ?_, rfl⟩
  simp only [List.length_append, length_leBytes, length_slice (bs := e) (o := 0x10) (n := 2) (by omega)]

/-- An entry's value reads back from its record, and no other byte has changed. -/
theorem HostSide.writeEntry_bytes {h : HostSide} {e : List Byte} (he : e.length = 20)
    (hp : h.store.anyPoison (h.recordAddr e) 32 = false) (arrived : VT) :
    (h.writeEntry arrived e).store.bytes (h.recordAddr e) 8 = slice e 4 8 ∧
      ∀ a, a < h.recordAddr e ∨ h.recordAddr e + 32 ≤ a → (h.writeEntry arrived e).store.byte a = h.store.byte a := by
  have hvalue : (slice e 4 8).length = 8 := length_slice (by omega)
  obtain ⟨tail, htail, hwrite⟩ := h.writeEntry_caPut arrived he
  have hlen : (slice e 4 8 ++ tail).length = 32 := by rw [List.length_append, hvalue, htail]
  rw [hwrite, HostSide.caPut_store (by rwa [hlen]), hlen]
  constructor
  · have hread := (h.store.clearFull (h.recordAddr e) 32).bytes_store_append (h.recordAddr e) (slice e 4 8) tail
    rwa [hvalue] at hread
  · intro a ha
    exact (byte_store_outside _ _ _ _ (by rwa [hlen])).trans rfl

/-! ## A batch that arrives -/

/-- The oldest batch received is taken. -/
def HostSide.batchPopped (h : HostSide) (rest : List (VT × List (List Byte))) : HostSide :=
  { h with xing := { h.xing with batches := rest } }

/-- The entries of the batch are in the replica. -/
def HostSide.entriesWritten (h : HostSide) (rest : List (VT × List (List Byte))) (arrived : VT) (es : List (List Byte)) :
    HostSide := es.foldl (fun h e => h.writeEntry arrived e) (h.batchPopped rest)

/-- The points of the batch wait for the symbol engine. -/
def HostSide.batchQueued (h : HostSide) (es : List (List Byte)) : HostSide :=
  { h with mimic := { h.mimic with
    queue := h.mimic.queue ++ [⟨es.map (fun e => bits (fieldAt e 0 4) 0 18), h.tb.raw.toNat⟩] } }

section
variable {s : State} (hr : s.hostReady) {arrived : VT} {cells : List (List Byte)}
  {rest : List (VT × List (List Byte))} (hb : s.host.xing.batches = (arrived, cells) :: rest)
include hr hb

theorem exec_pointBatchRx_dropped (hp : s.host.cfg.points = none) : exec .pointBatchRx s =
    .next (s.held { s with host := s.host.batchPopped rest }) := by
  show execPointBatchRx s = _
  unfold execPointBatchRx
  rw [hostCmd_ready hr]
  dsimp only
  rw [hb]
  dsimp only
  rw [if_pos (by rw [hp]; rfl)]
  rfl

theorem exec_pointBatchRx_taken {pc : PointsCfg} (hp : s.host.cfg.points = some pc) : exec .pointBatchRx s =
    .next (s.held { s with host :=
      ((s.host.entriesWritten rest arrived (batchEntries cells)).batchQueued (batchEntries cells)).showMimic }) := by
  show execPointBatchRx s = _
  unfold execPointBatchRx
  rw [hostCmd_ready hr]
  dsimp only
  rw [hb]
  dsimp only
  rw [if_neg (by rw [hp]; exact Bool.false_ne_true)]
  rfl

theorem completes_pointBatchRx_dropped (hp : s.host.cfg.points = none) : Completes .pointBatchRx s (fun t =>
    t.host.xing.batches = rest ∧ t.host.mimic = s.host.mimic ∧ RegsKept [] s t ∧ MemKept s t ∧ OnlyHost s t) :=
  .ofEffect (exec_pointBatchRx_dropped hr hb hp) rfl
    ⟨rfl, rfl, fun _ _ => rfl, HostSide.SameMemory.kept ⟨rfl, rfl⟩, rfl, rfl⟩

theorem completes_pointBatchRx_taken {pc : PointsCfg} (hp : s.host.cfg.points = some pc) (e : List Byte) :
    Completes .pointBatchRx s (fun t => t.host.xing.batches = rest ∧
      t.host.mimic.queue = s.host.mimic.queue ++
        [⟨(batchEntries cells).map (fun e => bits (fieldAt e 0 4) 0 18), s.host.tb.raw.toNat⟩] ∧
      (batchEntries cells = [e] → e.length = 20 → s.host.store.anyPoison (s.host.recordAddr e) 32 = false →
        t.host.store.bytes (s.host.recordAddr e) 8 = slice e 4 8 ∧
        ∀ a, a < s.host.recordAddr e ∨ s.host.recordAddr e + 32 ≤ a →
          t.host.store.byte a = s.host.store.byte a) ∧ OnlyHost s t) := by
  have hwritten : (s.host.batchPopped rest).RegsStore (s.host.entriesWritten rest arrived (batchEntries cells)) :=
    .ofLogged (HostSide.writeEntries_logged ..)
  generalize hg : s.host.entriesWritten rest arrived (batchEntries cells) = g at hwritten
  have hshown := (g.batchQueued (batchEntries cells)).showMimic_regsStore
  have hstore : (g.batchQueued (batchEntries cells)).showMimic.store = g.store := (HostSide.showMimic_sameMemory _).1
  have hexec := exec_pointBatchRx_taken hr hb hp
  rw [hg] at hexec
  refine .ofEffect hexec (hshown.power.trans hwritten.power) ⟨?_, ?_, fun hone hlen hpoison => ?_, rfl, rfl⟩
  · exact (congrArg (·.xing.batches) hshown).trans ((congrArg (·.xing.batches) hwritten).trans rfl)
  · refine (congrArg Mimic.queue hshown.mimic).trans ?_
    unfold HostSide.batchQueued
    dsimp only
    rw [hwritten.mimic, hwritten.tb]
    rfl
  · have hbytes := HostSide.writeEntry_bytes (h := s.host.batchPopped rest) hlen hpoison arrived
    rw [hone] at hg
    rw [show (s.host.batchPopped rest).writeEntry arrived e = g from hg, ← hstore] at hbytes
    exact hbytes
end

end Sys2Proof.Machine
end

section
/-! Batches of pending points (O45; 10_field_points_commands.md R177, R235, R236). -/

namespace Sys2Proof.Machine

open Sys2Proof

/-- Settles O45: on the field side by what the close of a batch leaves, on the host side by what its entries store. -/
theorem batchesCarryPendingPoints : Obligations.BatchesCarryPendingPoints := by
  intro s due p r arrived cells rest e pc
  refine ⟨fun hr hdue => ⟨completes_batchClose_closed hr, fun hnew => ⟨?_, fun hsome hup hfits => ?_⟩⟩,
    fun hr hb => ⟨fun hp => ?_, fun hp => ?_⟩⟩
  · subst hdue
    exact completes_batchClose_empty hr rfl hnew
  · subst hdue
    obtain ⟨t, ht, hpending, hclosed, hflight, ho⟩ := completes_batchClose_due hr rfl hnew hsome hup hfits p r
    exact ⟨t, ht, hpending, hclosed.sent, hclosed.last, hclosed.carry,
      fun hone hempty hpush => ⟨_, hflight hone hempty hpush, rfl⟩, ho⟩
  · exact completes_pointBatchRx_dropped hr hb hp
  · exact completes_pointBatchRx_taken hr hb hp e

end Sys2Proof.Machine
end
